-- ==== Sys2Proof/Word.lean ====
section
/-! DEFINITION. The word types of the model: 64-bit registers, bytes, 64 B lines. -/

namespace Sys2Proof

/-- A 64-bit Ethorn register or Stash word (R14). -/
abbrev W64 := BitVec 64

/-- One byte. -/
abbrev Byte := BitVec 8

/-- A 64 B line, byte `i` in bits `8i+7:8i` (Table 0-7). -/
abbrev Line := BitVec 512

end Sys2Proof
end

