-- ==== Sys2Proof/Config.lean ====
section
/-! DEFINITION. What one unit or one implementation fixes, and the free values: constants without a body, so that no
proof can see what they are. A claim about them holds whatever they are (assumption log 3 and 4). -/

namespace Sys2Proof

namespace Config

/-! ### Constants of the unit (factory values the spec leaves to the unit) -/

/-- The maker's PCI vendor ID (R345, R369). -/
opaque vendorId : Nat

/-- The PCI subsystem device ID of the unit's UDID, and the silicon revision there (R369, SMBus 3.1). -/
opaque subsystemId : Nat
opaque siliconRev : Nat

/-- The words of the embedded flash as shipped: bank 0 holds the firmware image (R420). -/
opaque shippedFlash : Nat → BitVec 64

/-- RDY_SERIAL, the unit serial number (Table 7-11, reset "Factory"). -/
opaque serial : Nat

/-- Major version of a firmware image (RDY_IDENT.FWMAJ, reset "Firmware") by the words of its flash bank: the spec gives the image no layout (R366,
R420). -/
opaque imageMajor : (Nat → BitVec 64) → Nat

/-- The shipped binding of hanks to physical hanks is a bijection particular to the unit (R468): a permutation of the physical hanks of each
group, and one of all the hanks that no group is given for (host, anchor and free hanks; Table 4-3, R263). -/
opaque groupPerm : Bool → Equiv.Perm (Fin (2 ^ 22))
opaque restPerm : Equiv.Perm (Fin 8188864)

/-- The row of the Stash that holds a word (R411). -/
opaque stashRow : Nat → Nat

/-- The slot offsets of the record directory, placed at manufacture (R414): record index and slot. -/
opaque recordOffset : Nat → Nat → Nat

/-- Factory temperature factor `f_i` of bank `i` at point `p` (R470), in units of 1/65,536. -/
opaque bankFactor : Nat → Nat → Nat

/-- DER certificate bytes of chain entry `e` (R282): their number, and the bytes. -/
opaque certLen : Nat → Nat
opaque certByte : Nat → Nat → Byte

/-- The unit's P-384 public keys: identity key (0) and key-load key (1), as x and y (R281). -/
opaque publicKey : Nat → BitVec 384 × BitVec 384

/-- The key drawn for slot 0 at manufacture, and the key drawn at the `n`-th erase (R252, R275). -/
opaque slot0Key : Nat → BitVec 256

/-- The key-encryption key of the slot records, derived inside the controller at manufacture (R248). -/
opaque kek : BitVec 256

/-- Measurement digest of index `i` for firmware version `v` (Table 9-2, indices 1 to 3). -/
opaque measurement : Nat → Nat → BitVec 384

/-- The measurement of index 4 over the lane plan, CONFIG_LOCK and the RWL and RWS fields (Table 9-2). -/
opaque configMeasurement : List (Nat × BitVec 64) → BitVec 384

/-- The firmware build string (Table 12-8), 32 bytes. -/
opaque buildString : List Byte

/-! ### Free values -/

/-- A fresh free value of `w` bits for the `n`-th use of the model's counter (assumption log 4). -/
opaque freeValue : (w : Nat) → Nat → BitVec w

/-- A fresh draw of the module's random source (R178, R185, R252). -/
opaque random : Nat → Nat

/-- The 61 check bits of the BCH code of a stored line, and its MCHK, over the 576 decoded bits (R84, R85): the spec gives no generator. -/
opaque bchCheck : BitVec 576 → BitVec 61
opaque mchk : BitVec 576 → BitVec 3

/-- The SECDED check byte of a working memory word (Table 5-1), and whether the code flags a pattern of three or more wrong bits as
uncorrectable (R171): the spec names no code. -/
opaque secdedCheck : BitVec 64 → BitVec 8
opaque secdedFlags : BitVec 72 → Bool

/-! ### Published algorithms the spec names and does not restate -/

/-- What the decoder makes of a line with eight or more wrong bits in bits 636:0 (R85): a failure, or bits 575:0 with the bits it corrected. -/
opaque bchBeyond : BitVec 637 → Option (BitVec 576 × Nat)

/-- The check over EPOCH and STEP in line 0 of a swatch page, and the half SET, half RESET pattern of its lines 1 to 7 (R107). -/
opaque swatchCheck : (epoch step : Nat) → BitVec 64
opaque swatchPattern : BitVec 512

/-- AES-256 on one block, a permutation under each key (R244, R245). -/
opaque aes256 : (key : BitVec 256) → Equiv.Perm (BitVec 128)

/-- The multiplication of GF(2^128) that GHASH uses (NIST SP 800-38D, R245). -/
opaque gf128Mul : BitVec 128 → BitVec 128 → BitVec 128

/-- SHA-384 (R248, R288, R292, R295). -/
opaque sha384 : List Byte → BitVec 384

/-- SHA-384 of a long message, given by its length and its bytes (R132, R142). -/
opaque sha384Long : Nat → (Nat → Byte) → BitVec 384

/-- CRC-32C (R248, R311, R379, R414). -/
opaque crc32c : List Byte → BitVec 32

/-- ECDSA P-384 signature of a message with the identity key, deterministic per RFC 6979 (R287). -/
opaque ecdsaSign : List Byte → BitVec 768

/-- ECDSA P-384 verification: public key, message, signature (R288). -/
opaque ecdsaVerify : (BitVec 384 × BitVec 384) → List Byte → BitVec 768 → Bool

/-- Whether a point lies on P-384 (R250, R289, R320). -/
opaque onCurve : BitVec 384 → BitVec 384 → Bool

/-- The x-coordinate of a point of P-384 multiplied by the unit's private key-load key (R249). -/
opaque ecdhX : BitVec 384 × BitVec 384 → BitVec 384

/-- The two bucket hashes of the pool directory, keyed at cast-on (R185): key, which hash, line number. -/
opaque dirHash : Nat → Bool → Nat → Nat

/-- Salted SHA-384 of a passphrase (R367). -/
opaque passHash : List Byte → BitVec 384

end Config

end Sys2Proof
end

