-- ==== Sys2Proof/Syntax.lean ====
section
/-! DEFINITION. The commands of the module: one constructor for each row of the opcode table. The table gives the rows no
operands; the operands here are what the spec's rules for the row speak of (an address, a value, a packet), and, for the
module's own events, the outcome the hardware met (a decode that failed, a measured voltage), which no rule determines. -/

namespace Sys2Proof

/-- What a sense finds (R85, R98): the bits of the 640 of a stored line that it reads wrong. -/
abbrev Sense := BitVec 640

/-- Outcome of the fetch of one tree node: the copy read verifies, only the other copy does, or neither (R270, R271). -/
inductive NodeRead where
  | good | otherCopy | lost
  deriving DecidableEq, Repr

/-- A word error the working memory controller meets (R166, R167): the slot, the bit a SECDED correction names (none for a
word rebuilt by XOR), whether the word errs again after the rewrite, and whether there is no word since the device's interface has failed a
retrain, or reports a parity error that one retrain does not clear (R168). -/
structure WordErr where
  slot : Nat
  bit : Option Nat
  hard : Bool
  down : Bool := false
  deriving DecidableEq, Repr

/-- A submission packet (Table 12-1). -/
structure Packet where
  opcode : Nat
  flags : Nat
  tag : Nat
  ld : Nat
  keyidx : Nat
  timeout : Nat
  arg0 : Nat
  arg1 : Nat
  arg2 : Nat
  arg3 : Nat
  bufptr : Nat
  buflen : Nat
  check : Nat
  deriving DecidableEq, Repr

/-- Which access of a ring command to host memory meets an error (R385, R387): none, the read of its SQ entry, a read of its scatter list
or input buffer, a write of its output buffer, the write of its completion. -/
inductive HostMem where
  | ok | sqRead | input | output | cqWrite
  deriving DecidableEq, Repr

/-- A scatter list entry (R384). -/
structure SglEntry where
  addr : Nat
  len : Nat
  pad : Nat
  deriving DecidableEq, Repr

/-- The path a packet travels (R386): a ring, a mailbox of an LD, or MCTP. -/
inductive Carrier where
  | ring (n : Nat)
  | primary (ld : Nat)
  | secondary (ld : Nat)
  | mctp
  deriving DecidableEq, Repr

/-- A mailbox: the LD whose function owns it, and which of the two (R354, R392). -/
structure Mailbox where
  ld : Nat
  secondary : Bool
  deriving DecidableEq, Repr

/-- The header of a Helra packet (Table 10-2) as received, with what the receiver finds of its tag (R311, R312). -/
structure PktHdr where
  uctr : Nat
  ackseq : Nat
  seq : Nat
  ackv : Bool
  len : Nat
  cls : Nat
  tagOk : Bool
  deriving DecidableEq, Repr

/-- The DATA of a HELLO (Table 10-6). -/
structure HelloData where
  version : Nat
  product : Nat
  link : Nat
  uaddrValid : Bool
  uaddr : Nat
  serial : Nat
  nonce : BitVec 256
  deriving DecidableEq, Repr

/-- An AUTH part (R320, R321): its number, LAST, KIND, and what the checks of R320 (KIND 0) or of the confirmation
(KIND 1) give once the message is whole; `peerKey` is the identity key of the peer's entry 2. -/
structure AuthPart where
  part : Nat
  last : Bool
  kind : Nat
  checksOk : Bool
  certSerial : Nat
  peerKey : BitVec 384 × BitVec 384
  deriving DecidableEq, Repr

/-- TSW of MIRROR_WRITE and RESYNC_DATA (Table 10-5) with the lines carried. -/
structure LinesPkt where
  hoff : Nat
  line : Nat
  pmask : Nat
  region : Nat
  lines : List Line
  deriving DecidableEq, Repr

/-- TSW of a CHAIN_MSG (Table 10-10) with its DATA. -/
structure ChainMsg where
  mid : Nat
  mclass : Nat
  bcast : Bool
  isLocal : Bool
  ttl : Nat
  src : Nat
  dest : Nat
  data : List Byte
  deriving DecidableEq, Repr

/-- A CLAIM (Table 10-3): ADDR, KIND (held), TTL, ROUND and the claimant's SERIAL. -/
structure ClaimMsg where
  addr : Nat
  held : Bool
  ttl : Nat
  round : Nat
  serial : Nat
  deriving DecidableEq, Repr

/-- A seal or release record of 256 bytes (Table 9-6). -/
structure LedgerRec where
  kind : Nat
  ld : Nat
  keyidx : Nat
  flags : Nat
  seq : Nat
  first : Nat
  count : Nat
  devtime : Nat
  walltime : Nat
  serial : Nat
  label : Nat
  ref : Nat
  extentHash : BitVec 384
  prevHash : BitVec 384
  sig : BitVec 768
  deriving DecidableEq, Repr

/-- One value of an SPDM session or of the sessionless exchange: which session a request comes in (R284). -/
abbrev Session := Option Nat

/-- The commands: what may be asked of the module from outside, and the module's own events, one constructor per row. -/
inductive Instr where
  -- CXL.mem, admission and the read path
  | memRd (ld hpa : Nat)
  | memWr (ld hpa : Nat) (data : Line)
  | memWrPtl (ld hpa : Nat) (data : Line) (mask : BitVec 64)
  | creditIssue (rwd : Bool)
  | rowBoundary
  | transferSlot (ch slot : Nat)
  | senseComplete (op : Nat) (r : Sense)
  | valleySenseComplete (op : Nat) (r : Sense)
  | stripeRebuildComplete (op : Nat) (decoded : Bool)
  | stitchEnd (prog : Nat) (verified : Bool)
  | lineDecryptDone (op : Nat) (engineOk : Bool)
  | counterFetchDone (op : Nat) (nodes : List NodeRead)
  | counterWriteBack (level idx : Nat)
  | writeBack (line : Nat)
  | writeBackDone (op : Nat)
  | mirrorAck (link : Nat) (hdr : PktHdr) (aseq : Nat)
  | mergeBufferReadsDone (entry : Nat)
  -- drift, refresh, dies and channels
  | driftStep (codes : List (Nat × Nat × List (Nat × Nat)))
  | driftClock (valleys : List (Nat × Nat × Nat))
  | refreshVisit (phn stripe page : Nat)
  | dieFailure (ch die : Nat)
  | dieRebuildDone (ch : Nat)
  | channelWatchdog (ch : Nat)
  | engineRestartDone (ch : Nat)
  | rowplanWrite (ch : Nat) (val : W64)
  -- map, migration, discard
  | mapCheckpoint
  | mapCheckpointDone
  | mapEntryRestore (sys : Bool) (idx : Nat)
  | staticSweepVisit
  | migrationCopyDone (m : Nat)
  | migrationVerifyDone (m : Nat) (found : List Nat)
  | migrationCommit (m : Nat)
  | migrationRelease (m : Nat)
  | hintZero (lhn : Nat)
  | hankZeroDone (lhn : Nat)
  | secureOverwriteDone (lhn : Nat)
  -- working memory and line cache
  | scrubLine (errs : List WordErr)
  | qdrRebuildDone
  | narrowWriteDrain (wma : Nat)
  | wmeCeLogFree (n : Nat) (val : W64)
  | wmeCeLogClear (val : W64)
  | flipArm (val : W64)
  | fullInvalidationDone
  | tlcMaintClean (val : W64)
  | tlcMaintInvalidate (val : W64)
  | tlcMaintCleanInvalidate (val : W64)
  | tlcAttrWrite (n : Nat) (val : W64)
  -- the gauge and bind-off
  | gaugeRecompute (vbusMv capTempC phases : Nat)
  | reserveCharged
  | bankTest
  | bankTestDone (complete : Bool) (esr cap : Nat)
  | gauTestForce (val : W64)
  | bankFailure (bank : Nat)
  | spareBankConnect (bank : Nat)
  | powerFail
  | brownOut
  | pwrdisAssert
  | pwrdisRelease
  | thermalBindoff
  | bindoffFreeze
  | bindoffFrozen
  | bindoffIndexed
  | bindoffSections
  | bindoffComplete
  | reserveLow (watermark : Nat)
  | p12vReturn
  | p12vStable
  | dirtyZoneClear (zone : Nat)
  | gpfPhase1
  | gpfPhase2
  -- cast-on and resets
  | coldCastOn
  | pllLock
  | fwVerified (nextOk otherOk : Bool)
  | keysReady (rootOk keysOk : Bool)
  | wmemReady
  | channelEngineReady (ch : Nat) (ok : Bool)
  | mboxReady
  | ringsReady
  | l3LoadDone (lost : List Nat)
  | mapRestoreDone (imageOk : Bool × Bool) (failed : List (Nat × Bool))
  | replayDone
  | sealLedgerCheck (aOk bOk : Bool)
  | skeinReady (k : Nat)
  | perstAssert
  | perstRelease
  | cxlReset
  | flr
  | configLock (val : W64)
  | hostLinkTrained (lanes rate : Nat) (mldBelowSwitch : Bool)
  | refclkStop
  | auxLoss
  -- keys, IDE and SPDM
  | knownAnswerCheck (engine : Nat) (pass : Bool)
  | keyRetireFlushed (slot : Nat)
  | ideMacFailure (mem : Bool)
  | ideKeyProg (session : Nat) (mem rx : Bool) (keySet : Nat) (key : BitVec 256)
  | spdmGetVersion
  | spdmGetCapabilities
  | spdmNegotiateAlgorithms (asym hash dhe aead : Nat)
  | spdmGetDigests
  | spdmGetCertificate (slot offset length : Nat)
  | spdmChallenge (slot : Nat) (nonce : BitVec 256)
  | spdmGetMeasurements (session : Session) (index : Nat) (signed : Bool) (nonce : BitVec 256)
  | spdmKeyExchange (q : BitVec 384 × BitVec 384)
  | spdmFinish (session : Nat) (hmacOk : Bool)
  | spdmHeartbeat (session : Nat)
  | spdmKeyUpdate (session : Nat)
  | spdmEndSession (session : Nat)
  | sealHashDone (sealId : Nat)
  | verifyHashDone (cmd : Nat)
  | selArchivedWrite (val : W64)
  -- Helra links, two-ply and the chain
  | linkTrained (k : Nat) (ok : Bool)
  | linkTrainRetry (k : Nat)
  | linkDown (k cause : Nat)
  | linkIdleTimeout (k : Nat)
  | creditTimer (k : Nat)
  | replayTimer (k : Nat)
  | packetTransmit (k : Nat)
  | hello (k : Nat) (hdr : PktHdr) (d : HelloData)
  | auth (k : Nat) (hdr : PktHdr) (a : AuthPart)
  | mirrorWrite (k : Nat) (hdr : PktHdr) (p : LinesPkt)
  | resyncData (k : Nat) (hdr : PktHdr) (p : LinesPkt)
  | helraCredit (k : Nat) (hdr : PktHdr) (mirror resync chain : Nat)
  | helraNak (k : Nat) (hdr : PktHdr) (expseq : Nat)
  | plyOpen (k : Nat) (hdr : PktHdr) (region count : Nat)
  | plyQuery (k : Nat) (hdr : PktHdr) (region : Nat)
  | plyBegin (k : Nat) (hdr : PktHdr) (region : Nat)
  | plyEnd (k : Nat) (hdr : PktHdr) (region : Nat)
  | plyClose (k : Nat) (hdr : PktHdr) (region : Nat)
  | plyErase (k : Nat) (hdr : PktHdr) (region hoff count kind : Nat)
  | plySeal (k : Nat) (hdr : PktHdr) (region part : Nat) (rec : LedgerRec) (hoff count : Nat)
  | plyRelease (k : Nat) (hdr : PktHdr) (region part : Nat) (rec : LedgerRec)
  | resyncReqResponse (k : Nat) (hdr : PktHdr) (op region status data : Nat)
  | walk (k : Nat) (hdr : PktHdr) (m : ChainMsg)
  | statusReq (k : Nat) (hdr : PktHdr) (m : ChainMsg)
  | statusReply (k : Nat) (hdr : PktHdr) (m : ChainMsg)
  | relay (k : Nat) (hdr : PktHdr) (m : ChainMsg)
  | relayAck (k : Nat) (hdr : PktHdr) (m : ChainMsg)
  | claim (k : Nat) (hdr : PktHdr) (c : ClaimMsg)
  | claimRoundEnd
  | chainLinkTimeout
  | plyReadyTimeout
  | plkPlyresWrite (val : W64)
  | plkCtlWrite (val : W64)
  -- FM API and mailbox QoS
  | fmIdentify
  | backgroundOperationStatus
  | getLdInfo
  | getLdAllocations (start count : Nat)
  | setLdAllocations (start : Nat) (granularity : Nat) (allocs : List (Nat × Nat))
  | getQosControl
  | setQosControl (telemetry modPct sevPct interval : Nat)
  | getQosStatus
  | getQosAllocatedBw (start count : Nat)
  | setQosAllocatedBw (start : Nat) (fractions : List Nat)
  | getQosBwLimit (start count : Nat)
  | setQosBwLimit (start : Nat) (fractions : List Nat)
  | getSldQosControl (mb : Mailbox)
  | setSldQosControl (mb : Mailbox) (telemetry modPct sevPct interval : Nat)
  | getSldQosStatus (mb : Mailbox)
  | hdmDecoderCommit (ld m base size ways gran skip position : Nat) (lockOnCommit poisonOnErr : Bool)
  | doeDiscovery (index : Nat)
  | tableAccess (entry : Nat)
  -- mailbox commands
  | getEventRecords (mb : Mailbox) (log : Nat)
  | clearEventRecords (mb : Mailbox) (log : Nat) (all : Bool) (handles : List Nat)
  | getEventInterruptPolicy (mb : Mailbox)
  | setEventInterruptPolicy (mb : Mailbox) (info warn fail fatal : Nat)
  | getFwInfo (mb : Mailbox)
  | transferFw (mb : Mailbox) (action slot offset : Nat) (data : List Byte) (sigOk productOk : Bool)
  | activateFw (mb : Mailbox) (online : Bool) (slot : Nat)
  | getTimestamp (mb : Mailbox)
  | setTimestamp (mb : Mailbox) (ns : Nat)
  | getSupportedLogs (mb : Mailbox)
  | getLog (mb : Mailbox) (uuid offset length : Nat)
  | identifyMemoryDevice (mb : Mailbox)
  | getPartitionInfo (mb : Mailbox)
  | setPartitionInfo (mb : Mailbox)
  | getLsa (mb : Mailbox) (offset length : Nat)
  | setLsa (mb : Mailbox) (offset : Nat) (data : List Byte)
  | getHealthInfo (mb : Mailbox)
  | getAlertConfiguration (mb : Mailbox)
  | setAlertConfiguration (mb : Mailbox) (valid enable life overT underT volErr persErr : Nat)
  | getShutdownState (mb : Mailbox)
  | setShutdownState (mb : Mailbox) (val : Nat)
  | getPoisonList (mb : Mailbox) (dpa len : Nat)
  | injectPoison (mb : Mailbox) (dpa : Nat)
  | clearPoison (mb : Mailbox) (dpa : Nat) (data : Line)
  | getScanMediaCapabilities (mb : Mailbox) (dpa len : Nat)
  | scanMedia (mb : Mailbox) (dpa len : Nat) (noEvents : Bool)
  | scanMediaDone (found : List (Nat × Nat))
  | getScanMediaResults (mb : Mailbox)
  | sanitize (mb : Mailbox)
  | secureErase (mb : Mailbox)
  | sanitizeDone
  | getSecurityState (mb : Mailbox)
  | setPassphrase (mb : Mailbox) (master : Bool) (old new : List Byte)
  | disablePassphrase (mb : Mailbox) (master : Bool) (old : List Byte)
  | unlock (mb : Mailbox) (pass : List Byte)
  | freezeSecurityState (mb : Mailbox)
  | passphraseSecureErase (mb : Mailbox) (master : Bool) (pass : List Byte)
  | ethornPassthru (mb : Mailbox) (p : Packet) (input : List Byte)
  | ethornWarmRestart (mb : Mailbox)
  -- sideband
  | arp (assign : Option Nat)
  | arpResetDevice
  | smbrstAssert
  | basicStatusRead
  | identityBlockRead
  | statusBlockRefresh
  | setEndpointId (eid : Nat)
  | mctpVendorMessage (p : Packet) (input : List Byte)
  -- rings
  | ringDoorbell (ring : Nat) (val : W64)
  | commandFetch (ring : Nat) (host : HostMem) (p : Packet) (sgl : List SglEntry) (input : List Byte)
  | cqHeadWrite (ring : Nat) (val : W64)
  | ringEnable (ring : Nat) (val : W64)
  | ringStop (ring : Nat) (val : W64)
  | msixCoalesceTimer (ring : Nat)
  | commandExpiry (cmd : Nat)
  -- ring opcodes
  | identifyUnit (cmd : Nat)
  | getReadiness (cmd : Nat)
  | getCertChain (cmd : Nat)
  | getHealthExt (cmd : Nat)
  | readHistory (cmd : Nat)
  | resetHistory (cmd : Nat)
  | gaugeStatus (cmd : Nat)
  | gaugeTest (cmd : Nat)
  | preparePowerLoss (cmd : Nat)
  | setReservation (cmd : Nat)
  | getContract (cmd : Nat)
  | copyLines (cmd : Nat)
  | fillLines (cmd : Nat)
  | persistFence (cmd : Nat)
  | readViaRing (cmd : Nat)
  | writeViaRing (cmd : Nat)
  | discard (cmd : Nat)
  | zeroHanks (cmd : Nat)
  | keyLoad (cmd : Nat)
  | keyBind (cmd : Nat)
  | keyRetire (cmd : Nat)
  | keyQuery (cmd : Nat)
  | sealExtent (cmd : Nat)
  | getSealRecord (cmd : Nat)
  | releaseSeal (cmd : Nat)
  | verifyExtent (cmd : Nat)
  | setPly (cmd : Nat)
  | getPlyState (cmd : Nat)
  | resyncPly (cmd : Nat)
  | chainWalk (cmd : Nat)
  | chainWalkWaitEnd (cmd : Nat)
  | chainRelay (cmd : Nat)
  | chainStatus (cmd : Nat)
  | cacheClean (cmd : Nat)
  | cacheInvalidate (cmd : Nat)
  | cacheCleanInvalidate (cmd : Nat)
  | scrubControl (cmd : Nat)
  | migrationControl (cmd : Nat)
  | stashRead (cmd : Nat)
  | stashWrite (cmd : Nat)
  | ratchetAdvance (cmd : Nat)
  | ratchetRead (cmd : Nat)
  | injectFault (cmd : Nat)
  | selfTest (cmd : Nat)
  -- counting and remembering
  | pmcGen (val : W64)
  | pmcClear (val : W64)
  | pmcCntWrite (n : Nat) (val : W64)
  | bwwLenWrite (val : W64)
  | bandwidthWindowEnd
  | historyIngest
  | historyFlush
  -- platform services
  | efcUnlock (val : W64)
  | efcRead
  | efcProgram (fromBar fetching : Bool)
  | efcEraseSector (fromBar fetching : Bool)
  | efcEraseBank (fromBar fetching : Bool)
  | flashProgramDone (verified : Bool)
  | flashEraseDone (firstOk repeatOk : Bool)
  | sensorSample (readings : List Int)
  | sensorSelfCheck (s : Nat) (pass spareOk : Bool)
  | sensorExclude (s : Nat) (val : W64)
  | thermalAutoResume
  | pwrReqWrite (val : W64)
  | pwrLimitWrite (val : W64)
  | sramTest (bank : Nat) (isMatch abandoned : Bool)
  | pointerMismatch (queue : Nat)
  | coreHeartbeatTimeout (core : Nat)
  | coreTakeoverDone
  | poweredLifeEnd
  | admResvWrite (internal : Bool) (n : Nat) (val : W64)
  | registerWrite (ld offset width : Nat) (val : W64)
  | spareBankTest (bank : Nat) (complete : Bool) (esr cap : Nat)
  | p3v3AuxReturn
  | refclkReturn
  | chainMsg (k : Nat) (hdr : PktHdr) (m : ChainMsg)
  | packetCrcFailure (k : Nat)
  | selfTestDone (kind firstFail items : Nat)
  | freeBitmapRebuilt
  deriving DecidableEq, Repr

end Sys2Proof
end

