-- ==== Sys2Proof/Machine/RegMap.lean ====
section
/-! DEFINITION. The register map of the Ethorn control block (BAR2/3): every register of Tables 2-11, 3-4, 4-7, 5-5, 5-12,
6-10, 7-5, 8-9, 9-7, 10-16, 12-11, 13-9, 13-15, 14-6, 14-8, 14-9 and 14-10 with its offset, its fields, their access types
(Table 0-6) and reset values, and the read-only arithmetic on fields. The values themselves stand in `State.regs`. -/

namespace Sys2Proof

/-- Register access types (Table 0-6, R16). -/
inductive Access where
  | ro | rw | rw1c | rw1s | wo | rsvdP | rsvdZ | rws | rwl
  deriving DecidableEq, Repr

/-- A bit field `NAME[hi:lo]` of a 64-bit register. -/
structure Field where
  hi : Nat
  lo : Nat
  deriving DecidableEq, Repr

/-- One field of a register table: its bits, access type, reset value, and whether the value is kept across power loss
(its reset is "From Stash", "From ledger", "Factory" and the like, or its type is RWS; Table 0-6). -/
structure FieldSpec where
  field : Field
  acc : Access
  reset : Nat
  kept : Bool
  deriving DecidableEq, Repr

/-- A register, or an array of registers of `n1` by `n2` elements at strides `s1` and `s2`, with its fields. `wide`: it
holds a counter or a time value, so R14's rule for 32-bit accesses applies. -/
structure RegSpec where
  base : Nat
  n1 : Nat
  s1 : Nat
  n2 : Nat
  s2 : Nat
  wide : Bool
  fields : List FieldSpec
  deriving DecidableEq, Repr


namespace Reg

/-- Offset of RDY_STATUS (07_cast_on, Table 7-6). -/
def RDY_STATUS : Nat := 0x000000
/-- Offset of RDY_SKEIN (07_cast_on, Table 7-7). -/
def RDY_SKEIN : Nat := 0x000008
/-- Offset of RDY_CHAN (07_cast_on, Table 7-7). -/
def RDY_CHAN : Nat := 0x000010
/-- Offset of RDY_DEVTIME (07_cast_on, Table 7-8). -/
def RDY_DEVTIME : Nat := 0x000018
/-- Offset of RDY_CTL (07_cast_on, Table 7-9). -/
def RDY_CTL : Nat := 0x000020
/-- Offset of RDY_CASTON (07_cast_on, Table 7-10). -/
def RDY_CASTON : Nat := 0x000028
/-- Offset of RDY_REPLAY (07_cast_on, Table 7-10). -/
def RDY_REPLAY : Nat := 0x000030
/-- Offset of RDY_IDENT (07_cast_on, Table 7-11). -/
def RDY_IDENT : Nat := 0x000038
/-- Offset of RDY_SERIAL (07_cast_on, Table 7-11). -/
def RDY_SERIAL : Nat := 0x000040
/-- Offset of RDY_TIME (07_cast_on, Table 7-8). -/
def RDY_TIME (i : Nat) : Nat := 0x000100 + 0x8 * i
/-- Offset of CRG_SQ_BASE (12_command_rings, Table 12-12). -/
def CRG_SQ_BASE (i : Nat) : Nat := 0x010000 + 0x100 * i
/-- Offset of CRG_SQ_SIZE (12_command_rings, Table 12-12). -/
def CRG_SQ_SIZE (i : Nat) : Nat := 0x010008 + 0x100 * i
/-- Offset of CRG_SQ_TAIL (12_command_rings, Table 12-13). -/
def CRG_SQ_TAIL (i : Nat) : Nat := 0x010010 + 0x100 * i
/-- Offset of CRG_SQ_HEAD (12_command_rings, Table 12-13). -/
def CRG_SQ_HEAD (i : Nat) : Nat := 0x010018 + 0x100 * i
/-- Offset of CRG_CQ_BASE (12_command_rings, Table 12-12). -/
def CRG_CQ_BASE (i : Nat) : Nat := 0x010020 + 0x100 * i
/-- Offset of CRG_CQ_HEAD (12_command_rings, Table 12-13). -/
def CRG_CQ_HEAD (i : Nat) : Nat := 0x010028 + 0x100 * i
/-- Offset of CRG_CQ_TAIL (12_command_rings, Table 12-13). -/
def CRG_CQ_TAIL (i : Nat) : Nat := 0x010030 + 0x100 * i
/-- Offset of CRG_MSIX (12_command_rings, Table 12-14). -/
def CRG_MSIX (i : Nat) : Nat := 0x010038 + 0x100 * i
/-- Offset of CRG_CTL (12_command_rings, Table 12-15). -/
def CRG_CTL (i : Nat) : Nat := 0x010040 + 0x100 * i
/-- Offset of CRG_STAT (12_command_rings, Table 12-15). -/
def CRG_STAT (i : Nat) : Nat := 0x010048 + 0x100 * i
/-- Offset of CRG_DONE (12_command_rings, Table 12-15). -/
def CRG_DONE (i : Nat) : Nat := 0x010050 + 0x100 * i
/-- Offset of ADM_CTL (02_latency_contract, Table 2-12). -/
def ADM_CTL : Nat := 0x020000
/-- Offset of ADM_STATUS (02_latency_contract, Table 2-13). -/
def ADM_STATUS : Nat := 0x020008
/-- Offset of ADM_OCC (02_latency_contract, Table 2-14). -/
def ADM_OCC : Nat := 0x020010
/-- Offset of ADM_DEVLOAD (02_latency_contract, Table 2-15). -/
def ADM_DEVLOAD : Nat := 0x020018
/-- Offset of ADM_THROTTLE (02_latency_contract, Table 2-16). -/
def ADM_THROTTLE : Nat := 0x020020
/-- Offset of ADM_BOUND_RD (02_latency_contract, Table 2-17). -/
def ADM_BOUND_RD : Nat := 0x020040
/-- Offset of ADM_BOUND_WR (02_latency_contract, Table 2-17). -/
def ADM_BOUND_WR : Nat := 0x020048
/-- Offset of ADM_BOUND_2PLY (02_latency_contract, Table 2-17). -/
def ADM_BOUND_2PLY : Nat := 0x020050
/-- Offset of ADM_BOUND_WT (02_latency_contract, Table 2-17). -/
def ADM_BOUND_WT : Nat := 0x020058
/-- Offset of ADM_BOUND_PTL (02_latency_contract, Table 2-18). -/
def ADM_BOUND_PTL : Nat := 0x020060
/-- Offset of ADM_BOUND_DUR (02_latency_contract, Table 2-17). -/
def ADM_BOUND_DUR : Nat := 0x020068
/-- Offset of ADM_LATE (02_latency_contract, Table 2-19). -/
def ADM_LATE : Nat := 0x020080
/-- Offset of ADM_INTR_LATE (02_latency_contract, Table 2-19). -/
def ADM_INTR_LATE : Nat := 0x020088
/-- Offset of ADM_INTR_MAX (02_latency_contract, Table 2-19). -/
def ADM_INTR_MAX : Nat := 0x020090
/-- Offset of ADM_RESV (02_latency_contract, Table 2-20). -/
def ADM_RESV (i : Nat) : Nat := 0x020100 + 0x8 * i
/-- Offset of ADM_RESV_INT (02_latency_contract, Table 2-20). -/
def ADM_RESV_INT (i : Nat) : Nat := 0x020180 + 0x8 * i
/-- Offset of ADM_BAL (02_latency_contract, Table 2-21). -/
def ADM_BAL (i : Nat) : Nat := 0x0201C0 + 0x8 * i
/-- Offset of TLC_ATTR (05_working_memory, Table 5-6). -/
def TLC_ATTR (i : Nat) : Nat := 0x030000 + 0x8 * i
/-- Offset of TLC_ATTR_DFLT (05_working_memory, Table 5-6). -/
def TLC_ATTR_DFLT : Nat := 0x030200
/-- Offset of TLC_MAINT (05_working_memory, Table 5-7). -/
def TLC_MAINT : Nat := 0x030208
/-- Offset of TLC_MSHR_STAT (05_working_memory, Table 5-8). -/
def TLC_MSHR_STAT : Nat := 0x030210
/-- Offset of TLC_LFSR (05_working_memory, Table 5-8). -/
def TLC_LFSR : Nat := 0x030218
/-- Offset of TLC_CACHE_STAT (05_working_memory, Table 5-8). -/
def TLC_CACHE_STAT : Nat := 0x030220
/-- Offset of TLC_POOL (05_working_memory, Table 5-9). -/
def TLC_POOL : Nat := 0x030228
/-- Offset of TLC_WT_STAT (05_working_memory, Table 5-10). -/
def TLC_WT_STAT : Nat := 0x030230
/-- Offset of TLC_WT_COUNT (05_working_memory, Table 5-11). -/
def TLC_WT_COUNT : Nat := 0x030238
/-- Offset of TLC_FREE (04_hanks_parity_wear, Table 4-8). -/
def TLC_FREE : Nat := 0x038000
/-- Offset of TLC_RETIRED (04_hanks_parity_wear, Table 4-9). -/
def TLC_RETIRED : Nat := 0x038008
/-- Offset of TLC_DROPPED (04_hanks_parity_wear, Table 4-9). -/
def TLC_DROPPED : Nat := 0x038010
/-- Offset of TLC_MIG_CTL (04_hanks_parity_wear, Table 4-10). -/
def TLC_MIG_CTL : Nat := 0x038018
/-- Offset of TLC_MIG_STAT (04_hanks_parity_wear, Table 4-11). -/
def TLC_MIG_STAT : Nat := 0x038020
/-- Offset of TLC_MIG_DONE (04_hanks_parity_wear, Table 4-9). -/
def TLC_MIG_DONE : Nat := 0x038028
/-- Offset of TLC_MAP_SEL (04_hanks_parity_wear, Table 4-12). -/
def TLC_MAP_SEL : Nat := 0x038030
/-- Offset of TLC_MAP_ENTRY (04_hanks_parity_wear, Table 4-13). -/
def TLC_MAP_ENTRY : Nat := 0x038038
/-- Offset of TLC_JRNL (04_hanks_parity_wear, Table 4-14). -/
def TLC_JRNL : Nat := 0x038040
/-- Offset of TLC_CKPT (04_hanks_parity_wear, Table 4-14). -/
def TLC_CKPT : Nat := 0x038048
/-- Offset of MCH_STATE (03_geric_medium, Table 3-5). -/
def MCH_STATE (i : Nat) : Nat := 0x040000 + 0x400 * i
/-- Offset of MCH_ROWPLAN (03_geric_medium, Table 3-6). -/
def MCH_ROWPLAN (i : Nat) : Nat := 0x040008 + 0x400 * i
/-- Offset of MCH_DIESUB (03_geric_medium, Table 3-7). -/
def MCH_DIESUB (i : Nat) : Nat := 0x040010 + 0x400 * i
/-- Offset of MCH_REBUILD (03_geric_medium, Table 3-8). -/
def MCH_REBUILD (i : Nat) : Nat := 0x040018 + 0x400 * i
/-- Offset of MCH_CNT_CORR (03_geric_medium, Table 3-9). -/
def MCH_CNT_CORR (i : Nat) : Nat := 0x040020 + 0x400 * i
/-- Offset of MCH_CNT_SOFT (03_geric_medium, Table 3-9). -/
def MCH_CNT_SOFT (i : Nat) : Nat := 0x040028 + 0x400 * i
/-- Offset of MCH_CNT_RESCUE (03_geric_medium, Table 3-9). -/
def MCH_CNT_RESCUE (i : Nat) : Nat := 0x040030 + 0x400 * i
/-- Offset of MCH_CNT_PGMFAIL (03_geric_medium, Table 3-9). -/
def MCH_CNT_PGMFAIL (i : Nat) : Nat := 0x040038 + 0x400 * i
/-- Offset of MCH_RETRY_IDX (03_geric_medium, Table 3-10). -/
def MCH_RETRY_IDX (i : Nat) (j : Nat) : Nat := 0x040080 + 0x400 * i + 0x8 * j
/-- Offset of MCH_DRIFT (03_geric_medium, Table 3-11). -/
def MCH_DRIFT (i : Nat) (j : Nat) : Nat := 0x040100 + 0x400 * i + 0x8 * j
/-- Offset of MCH_EPOCH (03_geric_medium, Table 3-12). -/
def MCH_EPOCH : Nat := 0x04E000
/-- Offset of MCH_DCLK (03_geric_medium, Table 3-13). -/
def MCH_DCLK : Nat := 0x04E008
/-- Offset of MCH_DCLK_STAT (03_geric_medium, Table 3-14). -/
def MCH_DCLK_STAT : Nat := 0x04E010
/-- Offset of MCH_REFRESH (03_geric_medium, Table 3-15). -/
def MCH_REFRESH : Nat := 0x04E018
/-- Offset of GAU_STAT (06_energy_bindoff, Table 6-11). -/
def GAU_STAT : Nat := 0x050000
/-- Offset of GAU_E_USABLE (06_energy_bindoff, Table 6-12). -/
def GAU_E_USABLE : Nat := 0x050008
/-- Offset of GAU_CAP_LINES (06_energy_bindoff, Table 6-13). -/
def GAU_CAP_LINES : Nat := 0x050010
/-- Offset of GAU_PARAM (06_energy_bindoff, Table 6-14). -/
def GAU_PARAM : Nat := 0x050018
/-- Offset of GAU_BUS (06_energy_bindoff, Table 6-15). -/
def GAU_BUS : Nat := 0x050020
/-- Offset of GAU_TEST_CTL (06_energy_bindoff, Table 6-16). -/
def GAU_TEST_CTL : Nat := 0x050028
/-- Offset of GAU_BINDOFF_LAST (06_energy_bindoff, Table 6-17). -/
def GAU_BINDOFF_LAST : Nat := 0x050030
/-- Offset of GAU_BINDOFF_CNT (06_energy_bindoff, Table 6-18). -/
def GAU_BINDOFF_CNT : Nat := 0x050038
/-- Offset of GAU_BROWNOUT (06_energy_bindoff, Table 6-18). -/
def GAU_BROWNOUT : Nat := 0x050040
/-- Offset of GAU_SEQ (06_energy_bindoff, Table 6-18). -/
def GAU_SEQ : Nat := 0x050048
/-- Offset of GAU_BANK (06_energy_bindoff, Table 6-19). -/
def GAU_BANK (i : Nat) : Nat := 0x050100 + 0x8 * i
/-- Offset of KEY_STAT (08_keys_integrity_tree, Table 8-10). -/
def KEY_STAT : Nat := 0x060000
/-- Offset of KEY_SLOT_SEL (08_keys_integrity_tree, Table 8-11). -/
def KEY_SLOT_SEL : Nat := 0x060008
/-- Offset of KEY_SLOT (08_keys_integrity_tree, Table 8-11). -/
def KEY_SLOT : Nat := 0x060010
/-- Offset of KEY_CC_STAT (08_keys_integrity_tree, Table 8-12). -/
def KEY_CC_STAT : Nat := 0x060018
/-- Offset of KEY_MAXMAJ (08_keys_integrity_tree, Table 8-12). -/
def KEY_MAXMAJ : Nat := 0x060020
/-- Offset of KEY_CC_HIT (08_keys_integrity_tree, Table 8-13). -/
def KEY_CC_HIT : Nat := 0x060040
/-- Offset of KEY_CC_MISS (08_keys_integrity_tree, Table 8-13). -/
def KEY_CC_MISS : Nat := 0x060048
/-- Offset of KEY_TAGFAIL (08_keys_integrity_tree, Table 8-13). -/
def KEY_TAGFAIL : Nat := 0x060050
/-- Offset of KEY_REPAIR (08_keys_integrity_tree, Table 8-13). -/
def KEY_REPAIR : Nat := 0x060058
/-- Offset of KEY_LOST (08_keys_integrity_tree, Table 8-13). -/
def KEY_LOST : Nat := 0x060060
/-- Offset of KEY_OVF (08_keys_integrity_tree, Table 8-13). -/
def KEY_OVF : Nat := 0x060068
/-- Offset of KEY_DROPWR (08_keys_integrity_tree, Table 8-13). -/
def KEY_DROPWR : Nat := 0x060070
/-- Offset of SEL_STAT (09_identity_seals, Table 9-8). -/
def SEL_STAT : Nat := 0x070000
/-- Offset of SEL_CTL (09_identity_seals, Table 9-8). -/
def SEL_CTL : Nat := 0x070008
/-- Offset of SEL_HEAD (09_identity_seals, Table 9-9). -/
def SEL_HEAD : Nat := 0x070010
/-- Offset of SEL_OLDEST (09_identity_seals, Table 9-9). -/
def SEL_OLDEST : Nat := 0x070018
/-- Offset of SEL_ARCHIVED (09_identity_seals, Table 9-9). -/
def SEL_ARCHIVED : Nat := 0x070020
/-- Offset of SEL_WRDROP (09_identity_seals, Table 9-9). -/
def SEL_WRDROP : Nat := 0x070028
/-- Offset of SEL_PROGRESS (09_identity_seals, Table 9-10). -/
def SEL_PROGRESS : Nat := 0x070030
/-- Offset of SEL_RATCHET (09_identity_seals, Table 9-9). -/
def SEL_RATCHET (i : Nat) : Nat := 0x070100 + 0x8 * i
/-- Offset of PLK_LINK (10_helra_ply_chain, Table 10-17). -/
def PLK_LINK (i : Nat) : Nat := 0x080000 + 0x100 * i
/-- Offset of PLK_PEER (10_helra_ply_chain, Table 10-18). -/
def PLK_PEER (i : Nat) : Nat := 0x080008 + 0x100 * i
/-- Offset of PLK_PIN (10_helra_ply_chain, Table 10-18). -/
def PLK_PIN (i : Nat) : Nat := 0x080010 + 0x100 * i
/-- Offset of PLK_REPLAY (10_helra_ply_chain, Table 10-18). -/
def PLK_REPLAY (i : Nat) : Nat := 0x080018 + 0x100 * i
/-- Offset of PLK_ERR (10_helra_ply_chain, Table 10-18). -/
def PLK_ERR (i : Nat) : Nat := 0x080020 + 0x100 * i
/-- Offset of PLK_SPILL (10_helra_ply_chain, Table 10-19). -/
def PLK_SPILL (i : Nat) : Nat := 0x080028 + 0x100 * i
/-- Offset of PLK_SYNC (10_helra_ply_chain, Table 10-19). -/
def PLK_SYNC (i : Nat) : Nat := 0x080030 + 0x100 * i
/-- Offset of PLK_REGION (10_helra_ply_chain, Table 10-20). -/
def PLK_REGION (i : Nat) (j : Nat) : Nat := 0x080400 + 0x80 * i + 0x8 * j
/-- Offset of PLK_PLYRES (10_helra_ply_chain, Table 10-20). -/
def PLK_PLYRES : Nat := 0x080800
/-- Offset of PLK_AREA (10_helra_ply_chain, Table 10-20). -/
def PLK_AREA (i : Nat) (j : Nat) : Nat := 0x080900 + 0x80 * i + 0x8 * j
/-- Offset of PLK_CTL (10_helra_ply_chain, Table 10-21). -/
def PLK_CTL : Nat := 0x080C00
/-- Offset of PLK_UADDR (10_helra_ply_chain, Table 10-21). -/
def PLK_UADDR : Nat := 0x080C08
/-- Offset of PLK_CHAIN (10_helra_ply_chain, Table 10-22). -/
def PLK_CHAIN : Nat := 0x080C10
/-- Offset of THM_MAX (14_platform_services, Table 14-6). -/
def THM_MAX : Nat := 0x090000
/-- Offset of THM_LIMITS (14_platform_services, Table 14-6). -/
def THM_LIMITS : Nat := 0x090008
/-- Offset of THM_AUTO_RESUME (14_platform_services, Table 14-6). -/
def THM_AUTO_RESUME : Nat := 0x090010
/-- Offset of THM_SHUTDOWN (14_platform_services, Table 14-6). -/
def THM_SHUTDOWN : Nat := 0x090018
/-- Offset of THM_ZONE (14_platform_services, Table 14-6). -/
def THM_ZONE (i : Nat) : Nat := 0x090100 + 0x8 * i
/-- Offset of THM_SENSOR (14_platform_services, Table 14-6). -/
def THM_SENSOR (i : Nat) : Nat := 0x090200 + 0x8 * i
/-- Offset of PWR_STATE (14_platform_services, Table 14-8). -/
def PWR_STATE : Nat := 0x0A0000
/-- Offset of PWR_REQ (14_platform_services, Table 14-8). -/
def PWR_REQ : Nat := 0x0A0008
/-- Offset of PWR_HELD (14_platform_services, Table 14-8). -/
def PWR_HELD : Nat := 0x0A0010
/-- Offset of PWR_LIMIT (14_platform_services, Table 14-8). -/
def PWR_LIMIT : Nat := 0x0A0018
/-- Offset of PWR_INPUT (14_platform_services, Table 14-8). -/
def PWR_INPUT : Nat := 0x0A0020
/-- Offset of PMC_CYCLES (13_counting_history, Table 13-10). -/
def PMC_CYCLES : Nat := 0x0B0000
/-- Offset of PMC_GCTL (13_counting_history, Table 13-11). -/
def PMC_GCTL : Nat := 0x0B0008
/-- Offset of PMC_BWW_CTL (13_counting_history, Table 13-11). -/
def PMC_BWW_CTL : Nat := 0x0B0010
/-- Offset of PMC_CTL (13_counting_history, Table 13-12). -/
def PMC_CTL (i : Nat) : Nat := 0x0B0100 + 0x8 * i
/-- Offset of PMC_CNT (13_counting_history, Table 13-10). -/
def PMC_CNT (i : Nat) : Nat := 0x0B0140 + 0x8 * i
/-- Offset of PMC_FILT_MASTER (13_counting_history, Table 13-13). -/
def PMC_FILT_MASTER (i : Nat) : Nat := 0x0B0200 + 0x20 * i
/-- Offset of PMC_FILT_CLASS (13_counting_history, Table 13-13). -/
def PMC_FILT_CLASS (i : Nat) : Nat := 0x0B0208 + 0x20 * i
/-- Offset of PMC_FILT_BASE (13_counting_history, Table 13-13). -/
def PMC_FILT_BASE (i : Nat) : Nat := 0x0B0210 + 0x20 * i
/-- Offset of PMC_FILT_LIMIT (13_counting_history, Table 13-13). -/
def PMC_FILT_LIMIT (i : Nat) : Nat := 0x0B0218 + 0x20 * i
/-- Offset of PMC_BWW (13_counting_history, Table 13-14). -/
def PMC_BWW (i : Nat) : Nat := 0x0B0300 + 0x8 * i
/-- Offset of HST_CTL (13_counting_history, Table 13-16). -/
def HST_CTL : Nat := 0x0C0000
/-- Offset of HST_STAT (13_counting_history, Table 13-16). -/
def HST_STAT : Nat := 0x0C0008
/-- Offset of HST_SEQ (13_counting_history, Table 13-16). -/
def HST_SEQ : Nat := 0x0C0010
/-- Offset of HST_RSEQ (13_counting_history, Table 13-16). -/
def HST_RSEQ : Nat := 0x0C0018
/-- Offset of WME_STATE (05_working_memory, Table 5-13). -/
def WME_STATE : Nat := 0x0D0000
/-- Offset of WME_REBUILD (05_working_memory, Table 5-14). -/
def WME_REBUILD : Nat := 0x0D0008
/-- Offset of WME_CE_COUNT (05_working_memory, Table 5-15). -/
def WME_CE_COUNT : Nat := 0x0D0010
/-- Offset of WME_UE_COUNT (05_working_memory, Table 5-15). -/
def WME_UE_COUNT : Nat := 0x0D0018
/-- Offset of WME_CE_LOG_STAT (05_working_memory, Table 5-16). -/
def WME_CE_LOG_STAT : Nat := 0x0D0020
/-- Offset of WME_MERGE_STAT (05_working_memory, Table 5-16). -/
def WME_MERGE_STAT : Nat := 0x0D0028
/-- Offset of WME_FLIP_MASK (05_working_memory, Table 5-17). -/
def WME_FLIP_MASK : Nat := 0x0D0030
/-- Offset of WME_FLIP_CTL (05_working_memory, Table 5-17). -/
def WME_FLIP_CTL : Nat := 0x0D0038
/-- Offset of WME_SCRUB_CTL (05_working_memory, Table 5-18). -/
def WME_SCRUB_CTL : Nat := 0x0D0040
/-- Offset of WME_CE_LOG (05_working_memory, Table 5-19). -/
def WME_CE_LOG (i : Nat) : Nat := 0x0D0100 + 0x8 * i
/-- Offset of WME_REMAP (05_working_memory, Table 5-19). -/
def WME_REMAP (i : Nat) : Nat := 0x0D0200 + 0x8 * i
/-- Offset of SRB_BANK (14_platform_services, Table 14-9). -/
def SRB_BANK (i : Nat) : Nat := 0x0E0000 + 0x8 * i
/-- Offset of SRB_TEST_CTL (14_platform_services, Table 14-9). -/
def SRB_TEST_CTL : Nat := 0x0E0040
/-- Offset of SRB_STASH (14_platform_services, Table 14-9). -/
def SRB_STASH : Nat := 0x0E0048
/-- Offset of EFC_UNLOCK (14_platform_services, Table 14-10). -/
def EFC_UNLOCK : Nat := 0x0F0000
/-- Offset of EFC_CMD (14_platform_services, Table 14-10). -/
def EFC_CMD : Nat := 0x0F0008
/-- Offset of EFC_ADDR (14_platform_services, Table 14-10). -/
def EFC_ADDR : Nat := 0x0F0010
/-- Offset of EFC_DATA (14_platform_services, Table 14-10). -/
def EFC_DATA : Nat := 0x0F0018
/-- Offset of EFC_STAT (14_platform_services, Table 14-10). -/
def EFC_STAT : Nat := 0x0F0020

end Reg

namespace Fld

def RDY_STATUS_FAIL : Field := ⟨48, 32⟩
def RDY_STATUS_READY : Field := ⟨16, 0⟩
def RDY_SKEIN_SKEIN : Field := ⟨63, 0⟩
def RDY_CHAN_CHAN : Field := ⟨33, 0⟩
def RDY_DEVTIME_TICKS : Field := ⟨63, 0⟩
def RDY_CTL_CONFIG_LOCK : Field := ⟨0, 0⟩
def RDY_CASTON_COLD : Field := ⟨63, 32⟩
def RDY_CASTON_PLAN_PEND : Field := ⟨7, 7⟩
def RDY_CASTON_PLAN : Field := ⟨6, 6⟩
def RDY_CASTON_KIND : Field := ⟨1, 0⟩
def RDY_REPLAY_LEFT : Field := ⟨53, 32⟩
def RDY_REPLAY_STATE : Field := ⟨2, 0⟩
def RDY_IDENT_STEP : Field := ⟨31, 24⟩
def RDY_IDENT_FWMAJ : Field := ⟨23, 16⟩
def RDY_IDENT_PRODUCT : Field := ⟨15, 0⟩
def RDY_SERIAL_SERIAL : Field := ⟨63, 0⟩
def RDY_TIME_TICKS : Field := ⟨63, 0⟩
def CRG_SQ_BASE_ADDR : Field := ⟨63, 6⟩
def CRG_SQ_SIZE_LOG2 : Field := ⟨4, 0⟩
def CRG_SQ_TAIL_TAIL : Field := ⟨15, 0⟩
def CRG_SQ_HEAD_HEAD : Field := ⟨15, 0⟩
def CRG_CQ_BASE_ADDR : Field := ⟨63, 5⟩
def CRG_CQ_HEAD_HEAD : Field := ⟨15, 0⟩
def CRG_CQ_TAIL_PHASE : Field := ⟨16, 16⟩
def CRG_CQ_TAIL_TAIL : Field := ⟨15, 0⟩
def CRG_MSIX_COAL_TIME : Field := ⟨47, 32⟩
def CRG_MSIX_COAL_CNT : Field := ⟨23, 16⟩
def CRG_MSIX_EN : Field := ⟨12, 12⟩
def CRG_MSIX_VECTOR : Field := ⟨4, 0⟩
def CRG_CTL_LDMASK : Field := ⟨31, 16⟩
def CRG_CTL_TEST_EN : Field := ⟨2, 2⟩
def CRG_CTL_ENABLE : Field := ⟨0, 0⟩
def CRG_STAT_INFLIGHT : Field := ⟨30, 24⟩
def CRG_STAT_CAUSE : Field := ⟨19, 16⟩
def CRG_STAT_HALTED : Field := ⟨1, 1⟩
def CRG_STAT_RUNNING : Field := ⟨0, 0⟩
def CRG_DONE_COUNT : Field := ⟨63, 0⟩
def ADM_CTL_TOKENS : Field := ⟨47, 32⟩
def ADM_CTL_LEND_EN : Field := ⟨16, 16⟩
def ADM_CTL_LOAD_THR : Field := ⟨12, 0⟩
def ADM_STATUS_RESV_REFUSED : Field := ⟨15, 15⟩
def ADM_STATUS_G_DUR : Field := ⟨12, 12⟩
def ADM_STATUS_G_CRYPTO : Field := ⟨11, 11⟩
def ADM_STATUS_G_MIRROR_B : Field := ⟨10, 10⟩
def ADM_STATUS_G_MIRROR_A : Field := ⟨9, 9⟩
def ADM_STATUS_G_WT : Field := ⟨8, 8⟩
def ADM_STATUS_G_POOL : Field := ⟨7, 7⟩
def ADM_STATUS_G_CHAN : Field := ⟨6, 6⟩
def ADM_STATUS_G_TABLE : Field := ⟨5, 5⟩
def ADM_STATUS_G_TOKENS : Field := ⟨4, 4⟩
def ADM_STATUS_THROTTLED : Field := ⟨1, 1⟩
def ADM_STATUS_LOADED : Field := ⟨0, 0⟩
def ADM_OCC_POOL_DIRTY : Field := ⟨53, 32⟩
def ADM_OCC_OPS : Field := ⟨30, 16⟩
def ADM_OCC_HOST : Field := ⟨13, 0⟩
def ADM_DEVLOAD_SEV_LO : Field := ⟨63, 56⟩
def ADM_DEVLOAD_MOD_LO : Field := ⟨55, 48⟩
def ADM_DEVLOAD_OPT_LO : Field := ⟨47, 40⟩
def ADM_DEVLOAD_MODULE : Field := ⟨33, 32⟩
def ADM_DEVLOAD_LD_VAL : Field := ⟨31, 0⟩
def ADM_THROTTLE_HOST_SCALE : Field := ⟨38, 32⟩
def ADM_THROTTLE_THERM_SCALE : Field := ⟨30, 24⟩
def ADM_THROTTLE_PWR_SCALE : Field := ⟨22, 16⟩
def ADM_THROTTLE_THERM_LVL : Field := ⟨9, 8⟩
def ADM_THROTTLE_SCALE : Field := ⟨6, 0⟩
def ADM_BOUND_RD_BOUND : Field := ⟨31, 0⟩
def ADM_BOUND_WR_BOUND : Field := ⟨31, 0⟩
def ADM_BOUND_2PLY_BOUND : Field := ⟨31, 0⟩
def ADM_BOUND_WT_BOUND : Field := ⟨31, 0⟩
def ADM_BOUND_PTL_PTL_WT : Field := ⟨47, 32⟩
def ADM_BOUND_PTL_PTL_2PLY : Field := ⟨31, 16⟩
def ADM_BOUND_PTL_PTL_1PLY : Field := ⟨15, 0⟩
def ADM_BOUND_DUR_BOUND : Field := ⟨31, 0⟩
def ADM_LATE_COUNT : Field := ⟨63, 0⟩
def ADM_INTR_LATE_COUNT : Field := ⟨63, 0⟩
def ADM_INTR_MAX_TICKS : Field := ⟨63, 0⟩
def ADM_RESV_LIMIT : Field := ⟨44, 32⟩
def ADM_RESV_LEND : Field := ⟨16, 16⟩
def ADM_RESV_SHARE : Field := ⟨12, 0⟩
def ADM_RESV_INT_WINDOW : Field := ⟨63, 32⟩
def ADM_RESV_INT_LEND : Field := ⟨16, 16⟩
def ADM_RESV_INT_SHARE : Field := ⟨12, 0⟩
def ADM_BAL_BAL : Field := ⟨31, 0⟩
def TLC_ATTR_VALID : Field := ⟨63, 63⟩
def TLC_ATTR_LIMIT : Field := ⟨62, 40⟩
def TLC_ATTR_BASE : Field := ⟨39, 17⟩
def TLC_ATTR_DISC : Field := ⟨5, 5⟩
def TLC_ATTR_ALLOC : Field := ⟨4, 3⟩
def TLC_ATTR_WPOL : Field := ⟨1, 0⟩
def TLC_ATTR_DFLT_DISC : Field := ⟨5, 5⟩
def TLC_ATTR_DFLT_ALLOC : Field := ⟨4, 3⟩
def TLC_ATTR_DFLT_WPOL : Field := ⟨1, 0⟩
def TLC_MAINT_BUSY : Field := ⟨32, 32⟩
def TLC_MAINT_WAY : Field := ⟨27, 24⟩
def TLC_MAINT_SET : Field := ⟨23, 9⟩
def TLC_MAINT_SCOPE : Field := ⟨5, 4⟩
def TLC_MAINT_OP : Field := ⟨1, 0⟩
def TLC_MSHR_STAT_PEAK : Field := ⟨24, 16⟩
def TLC_MSHR_STAT_IN_USE : Field := ⟨8, 0⟩
def TLC_LFSR_STATE : Field := ⟨31, 0⟩
def TLC_CACHE_STAT_INVAL : Field := ⟨32, 32⟩
def TLC_CACHE_STAT_VALID : Field := ⟨19, 0⟩
def TLC_POOL_DIR_OVF : Field := ⟨63, 48⟩
def TLC_POOL_SHADOW : Field := ⟨42, 32⟩
def TLC_POOL_PEAK : Field := ⟨21, 0⟩
def TLC_WT_STAT_NOFREE : Field := ⟨24, 24⟩
def TLC_WT_STAT_HELD : Field := ⟨18, 16⟩
def TLC_WT_STAT_PEAK : Field := ⟨14, 8⟩
def TLC_WT_STAT_IN_USE : Field := ⟨6, 0⟩
def TLC_WT_COUNT_COUNT : Field := ⟨63, 0⟩
def TLC_FREE_SPARE_USED : Field := ⟨63, 56⟩
def TLC_FREE_LIFE_CRIT : Field := ⟨51, 51⟩
def TLC_FREE_W90 : Field := ⟨50, 50⟩
def TLC_FREE_W75 : Field := ⟨49, 49⟩
def TLC_FREE_W50 : Field := ⟨48, 48⟩
def TLC_FREE_FLOOR_LEFT : Field := ⟨42, 32⟩
def TLC_FREE_FREE : Field := ⟨20, 0⟩
def TLC_RETIRED_COUNT : Field := ⟨63, 0⟩
def TLC_DROPPED_COUNT : Field := ⟨63, 0⟩
def TLC_MIG_CTL_STATIC_EN : Field := ⟨32, 32⟩
def TLC_MIG_CTL_STATIC_DAYS : Field := ⟨31, 16⟩
def TLC_MIG_CTL_HEAT_THR : Field := ⟨9, 0⟩
def TLC_MIG_STAT_EVAC : Field := ⟨47, 32⟩
def TLC_MIG_STAT_JFULL : Field := ⟨17, 17⟩
def TLC_MIG_STAT_WEAR_PAUSED : Field := ⟨16, 16⟩
def TLC_MIG_STAT_ACTIVE : Field := ⟨4, 0⟩
def TLC_MIG_DONE_COUNT : Field := ⟨63, 0⟩
def TLC_MAP_SEL_SYS : Field := ⟨23, 23⟩
def TLC_MAP_SEL_INDEX : Field := ⟨22, 0⟩
def TLC_MAP_ENTRY_ENTRY : Field := ⟨63, 0⟩
def TLC_JRNL_SUSPECT : Field := ⟨45, 32⟩
def TLC_JRNL_MAPJ : Field := ⟨31, 16⟩
def TLC_JRNL_RMWJ : Field := ⟨13, 0⟩
def TLC_CKPT_SEQ : Field := ⟨31, 1⟩
def TLC_CKPT_IMAGE : Field := ⟨0, 0⟩
def MCH_STATE_RESTARTS : Field := ⟨47, 40⟩
def MCH_STATE_DIE_FAILED : Field := ⟨24, 16⟩
def MCH_STATE_DEGRADED : Field := ⟨5, 5⟩
def MCH_STATE_REBUILD : Field := ⟨4, 4⟩
def MCH_STATE_ENGINE : Field := ⟨1, 0⟩
def MCH_ROWPLAN_READ_MASK : Field := ⟨19, 8⟩
def MCH_ROWPLAN_READ_SLOTS : Field := ⟨3, 0⟩
def MCH_DIESUB_REB_VALID : Field := ⟨35, 35⟩
def MCH_DIESUB_REB_ADIE : Field := ⟨34, 32⟩
def MCH_DIESUB_MAP : Field := ⟨31, 0⟩
def MCH_REBUILD_DONE : Field := ⟨58, 32⟩
def MCH_REBUILD_TARGET : Field := ⟨7, 4⟩
def MCH_REBUILD_SOURCE : Field := ⟨3, 0⟩
def MCH_CNT_CORR_COUNT : Field := ⟨63, 0⟩
def MCH_CNT_SOFT_COUNT : Field := ⟨63, 0⟩
def MCH_CNT_RESCUE_COUNT : Field := ⟨63, 0⟩
def MCH_CNT_PGMFAIL_COUNT : Field := ⟨63, 0⟩
def MCH_RETRY_IDX_MAXST : Field := ⟨23, 16⟩
def MCH_RETRY_IDX_IDX : Field := ⟨15, 0⟩
def MCH_DRIFT_FITERR : Field := ⟨47, 32⟩
def MCH_DRIFT_NU : Field := ⟨27, 16⟩
def MCH_DRIFT_BASE : Field := ⟨7, 0⟩
def MCH_EPOCH_EPOCH : Field := ⟨63, 32⟩
def MCH_EPOCH_STEP : Field := ⟨29, 24⟩
def MCH_EPOCH_LABEL : Field := ⟨5, 0⟩
def MCH_DCLK_GAP_HOST : Field := ⟨63, 32⟩
def MCH_DCLK_GAP_DRIFT : Field := ⟨31, 0⟩
def MCH_DCLK_STAT_TOL : Field := ⟨31, 28⟩
def MCH_DCLK_STAT_DIES : Field := ⟨24, 16⟩
def MCH_DCLK_STAT_LABEL_HOLD : Field := ⟨8, 8⟩
def MCH_DCLK_STAT_NEWLABEL : Field := ⟨7, 7⟩
def MCH_DCLK_STAT_CATCHUP : Field := ⟨6, 6⟩
def MCH_DCLK_STAT_NEGATIVE : Field := ⟨5, 5⟩
def MCH_DCLK_STAT_CONFLICT : Field := ⟨4, 4⟩
def MCH_DCLK_STAT_HOSTCHK : Field := ⟨3, 3⟩
def MCH_DCLK_STAT_LOWCONF : Field := ⟨2, 2⟩
def MCH_DCLK_STAT_NOREC : Field := ⟨1, 1⟩
def MCH_DCLK_STAT_SHORT : Field := ⟨0, 0⟩
def MCH_REFRESH_SWEEP_LEFT : Field := ⟨55, 32⟩
def MCH_REFRESH_SWEEPING : Field := ⟨16, 16⟩
def MCH_REFRESH_SWEEP_EPOCHS : Field := ⟨15, 8⟩
def MCH_REFRESH_REFRESH_AGE : Field := ⟨7, 0⟩
def GAU_STAT_RES_LIFE : Field := ⟨47, 40⟩
def GAU_STAT_N_ACTIVE : Field := ⟨35, 32⟩
def GAU_STAT_SPARES : Field := ⟨29, 28⟩
def GAU_STAT_W90 : Field := ⟨19, 19⟩
def GAU_STAT_W75 : Field := ⟨18, 18⟩
def GAU_STAT_W50 : Field := ⟨17, 17⟩
def GAU_STAT_BELOW_RATED : Field := ⟨16, 16⟩
def GAU_STAT_TRIG : Field := ⟨11, 8⟩
def GAU_STAT_PHASES : Field := ⟨5, 3⟩
def GAU_STAT_STATE : Field := ⟨2, 0⟩
def GAU_E_USABLE_E_FULL : Field := ⟨63, 32⟩
def GAU_E_USABLE_E_USABLE : Field := ⟨31, 0⟩
def GAU_CAP_LINES_UNCAPPED : Field := ⟨63, 32⟩
def GAU_CAP_LINES_CAP : Field := ⟨21, 0⟩
def GAU_PARAM_DIV : Field := ⟨63, 56⟩
def GAU_PARAM_E_LINE : Field := ⟨51, 32⟩
def GAU_PARAM_E_FIXED : Field := ⟨31, 16⟩
def GAU_BUS_C_TOT : Field := ⟨63, 48⟩
def GAU_BUS_R_PAR : Field := ⟨47, 32⟩
def GAU_BUS_V_END : Field := ⟨31, 16⟩
def GAU_BUS_V_BUS : Field := ⟨15, 0⟩
def GAU_TEST_CTL_SPARE_DAYS : Field := ⟨47, 40⟩
def GAU_TEST_CTL_PERIOD : Field := ⟨31, 20⟩
def GAU_TEST_CTL_BUSY : Field := ⟨15, 15⟩
def GAU_TEST_CTL_BANK : Field := ⟨11, 8⟩
def GAU_TEST_CTL_FORCE : Field := ⟨4, 4⟩
def GAU_TEST_CTL_FBANK : Field := ⟨3, 0⟩
def GAU_BINDOFF_LAST_DUR : Field := ⟨63, 48⟩
def GAU_BINDOFF_LAST_VRES : Field := ⟨47, 40⟩
def GAU_BINDOFF_LAST_HALF : Field := ⟨39, 39⟩
def GAU_BINDOFF_LAST_OUTCOME : Field := ⟨38, 36⟩
def GAU_BINDOFF_LAST_TRIG : Field := ⟨35, 32⟩
def GAU_BINDOFF_LAST_ITEMS : Field := ⟨21, 0⟩
def GAU_BINDOFF_CNT_CUT : Field := ⟨63, 32⟩
def GAU_BINDOFF_CNT_CLEAN : Field := ⟨31, 0⟩
def GAU_BROWNOUT_COUNT : Field := ⟨63, 0⟩
def GAU_SEQ_SEQ : Field := ⟨63, 0⟩
def GAU_BANK_AGE : Field := ⟨59, 48⟩
def GAU_BANK_ESR : Field := ⟨43, 32⟩
def GAU_BANK_CAP : Field := ⟨27, 16⟩
def GAU_BANK_PCT : Field := ⟨15, 8⟩
def GAU_BANK_STATE : Field := ⟨2, 0⟩
def KEY_STAT_RETIRED : Field := ⟨57, 45⟩
def KEY_STAT_LOADED : Field := ⟨44, 32⟩
def KEY_STAT_RETIRE_BUSY : Field := ⟨16, 16⟩
def KEY_STAT_ENG1 : Field := ⟨5, 4⟩
def KEY_STAT_ENG0 : Field := ⟨1, 0⟩
def KEY_SLOT_SEL_IDX : Field := ⟨11, 0⟩
def KEY_SLOT_KCV : Field := ⟨63, 32⟩
def KEY_SLOT_STATE : Field := ⟨31, 29⟩
def KEY_SLOT_REFS : Field := ⟨22, 0⟩
def KEY_CC_STAT_PEAK : Field := ⟨49, 32⟩
def KEY_CC_STAT_DIRTY : Field := ⟨17, 0⟩
def KEY_MAXMAJ_MAXMAJ : Field := ⟨61, 0⟩
def KEY_CC_HIT_COUNT : Field := ⟨63, 0⟩
def KEY_CC_MISS_COUNT : Field := ⟨63, 0⟩
def KEY_TAGFAIL_COUNT : Field := ⟨63, 0⟩
def KEY_REPAIR_COUNT : Field := ⟨63, 0⟩
def KEY_LOST_COUNT : Field := ⟨63, 0⟩
def KEY_OVF_COUNT : Field := ⟨63, 0⟩
def KEY_DROPWR_COUNT : Field := ⟨63, 0⟩
def SEL_STAT_HOLD_BLOCK : Field := ⟨60, 60⟩
def SEL_STAT_OWNER : Field := ⟨59, 59⟩
def SEL_STAT_ACTIVE : Field := ⟨58, 56⟩
def SEL_STAT_LIVE : Field := ⟨44, 32⟩
def SEL_STAT_HANKS : Field := ⟨22, 0⟩
def SEL_CTL_HOLD : Field := ⟨0, 0⟩
def SEL_HEAD_SEQ : Field := ⟨63, 0⟩
def SEL_OLDEST_SEQ : Field := ⟨63, 0⟩
def SEL_ARCHIVED_SEQ : Field := ⟨63, 0⟩
def SEL_WRDROP_COUNT : Field := ⟨63, 0⟩
def SEL_PROGRESS_DONE : Field := ⟨48, 32⟩
def SEL_PROGRESS_RESUMED : Field := ⟨17, 17⟩
def SEL_PROGRESS_TOTAL : Field := ⟨16, 0⟩
def SEL_RATCHET_VALUE : Field := ⟨63, 0⟩
def PLK_LINK_DOWNS : Field := ⟨63, 48⟩
def PLK_LINK_TRAIN_FAIL : Field := ⟨47, 32⟩
def PLK_LINK_CAUSE : Field := ⟨11, 8⟩
def PLK_LINK_STATE : Field := ⟨2, 0⟩
def PLK_PEER_SERIAL : Field := ⟨63, 0⟩
def PLK_PIN_SERIAL : Field := ⟨63, 0⟩
def PLK_REPLAY_COUNT : Field := ⟨63, 0⟩
def PLK_ERR_TAG : Field := ⟨63, 32⟩
def PLK_ERR_CRC : Field := ⟨31, 0⟩
def PLK_SPILL_OVF : Field := ⟨63, 48⟩
def PLK_SPILL_PEAK : Field := ⟨40, 24⟩
def PLK_SPILL_LINES : Field := ⟨16, 0⟩
def PLK_SYNC_LEFT : Field := ⟨63, 32⟩
def PLK_SYNC_ACTIVE : Field := ⟨7, 7⟩
def PLK_SYNC_FULL : Field := ⟨6, 6⟩
def PLK_SYNC_REGION : Field := ⟨3, 0⟩
def PLK_REGION_STATE : Field := ⟨63, 61⟩
def PLK_REGION_COUNT : Field := ⟨54, 32⟩
def PLK_REGION_BASE : Field := ⟨22, 0⟩
def PLK_PLYRES_COUNT : Field := ⟨54, 32⟩
def PLK_PLYRES_BASE : Field := ⟨22, 0⟩
def PLK_AREA_STATE : Field := ⟨63, 62⟩
def PLK_AREA_SEALS : Field := ⟨61, 55⟩
def PLK_AREA_COUNT : Field := ⟨54, 32⟩
def PLK_AREA_BASE : Field := ⟨22, 0⟩
def PLK_CTL_EN_B : Field := ⟨1, 1⟩
def PLK_CTL_EN_A : Field := ⟨0, 0⟩
def PLK_UADDR_VALID : Field := ⟨63, 63⟩
def PLK_UADDR_ADDR : Field := ⟨45, 32⟩
def PLK_UADDR_PREF : Field := ⟨13, 0⟩
def PLK_CHAIN_ROUND : Field := ⟨63, 32⟩
def PLK_CHAIN_LOST : Field := ⟨31, 16⟩
def PLK_CHAIN_INBOX : Field := ⟨6, 0⟩
def THM_MAX_LEVEL : Field := ⟨41, 40⟩
def THM_MAX_SENSOR : Field := ⟨37, 32⟩
def THM_MAX_TEMP : Field := ⟨15, 0⟩
def THM_LIMITS_CRIT_MS : Field := ⟨39, 32⟩
def THM_LIMITS_RESUME_S : Field := ⟨31, 24⟩
def THM_LIMITS_MARGIN : Field := ⟨23, 16⟩
def THM_LIMITS_HYST : Field := ⟨15, 8⟩
def THM_LIMITS_SAMPLE_MS : Field := ⟨7, 0⟩
def THM_AUTO_RESUME_QUIET : Field := ⟨47, 32⟩
def THM_AUTO_RESUME_PENDING : Field := ⟨1, 1⟩
def THM_AUTO_RESUME_EN : Field := ⟨0, 0⟩
def THM_SHUTDOWN_COUNT : Field := ⟨63, 48⟩
def THM_SHUTDOWN_ZONE : Field := ⟨42, 40⟩
def THM_SHUTDOWN_SENSOR : Field := ⟨37, 32⟩
def THM_SHUTDOWN_TEMP : Field := ⟨15, 0⟩
def THM_ZONE_CRIT : Field := ⟨63, 56⟩
def THM_ZONE_THROT : Field := ⟨55, 48⟩
def THM_ZONE_WARN : Field := ⟨47, 40⟩
def THM_ZONE_LEVEL : Field := ⟨33, 32⟩
def THM_ZONE_SPARE : Field := ⟨29, 24⟩
def THM_ZONE_SPARE_USED : Field := ⟨16, 16⟩
def THM_ZONE_TEMP : Field := ⟨15, 0⟩
def THM_SENSOR_EXCL : Field := ⟨63, 63⟩
def THM_SENSOR_BROKEN : Field := ⟨62, 62⟩
def THM_SENSOR_SPARE : Field := ⟨61, 61⟩
def THM_SENSOR_ACTIVE : Field := ⟨60, 60⟩
def THM_SENSOR_ZONE : Field := ⟨55, 52⟩
def THM_SENSOR_REPLACES : Field := ⟨51, 46⟩
def THM_SENSOR_TEMP : Field := ⟨15, 0⟩
def PWR_STATE_ON : Field := ⟨56, 0⟩
def PWR_REQ_D11_OFF : Field := ⟨2, 2⟩
def PWR_REQ_D3_OFF : Field := ⟨1, 1⟩
def PWR_REQ_D2_OFF : Field := ⟨0, 0⟩
def PWR_HELD_HELD : Field := ⟨56, 0⟩
def PWR_LIMIT_SCALE : Field := ⟨23, 16⟩
def PWR_LIMIT_WATTS : Field := ⟨15, 8⟩
def PWR_LIMIT_SEL : Field := ⟨1, 0⟩
def PWR_INPUT_PEAK : Field := ⟨63, 32⟩
def PWR_INPUT_MW : Field := ⟨31, 0⟩
def PMC_CYCLES_COUNT : Field := ⟨63, 0⟩
def PMC_GCTL_PRIV : Field := ⟨63, 63⟩
def PMC_GCTL_OWNER : Field := ⟨51, 48⟩
def PMC_GCTL_CLEAR : Field := ⟨1, 1⟩
def PMC_GCTL_GEN : Field := ⟨0, 0⟩
def PMC_BWW_CTL_LEN : Field := ⟨26, 0⟩
def PMC_CTL_EN : Field := ⟨63, 63⟩
def PMC_CTL_EDGE : Field := ⟨62, 62⟩
def PMC_CTL_ADDR_EN : Field := ⟨61, 61⟩
def PMC_CTL_SEL : Field := ⟨31, 16⟩
def PMC_CTL_EVENT : Field := ⟨15, 0⟩
def PMC_CNT_COUNT : Field := ⟨63, 0⟩
def PMC_FILT_MASTER_INT : Field := ⟨18, 18⟩
def PMC_FILT_MASTER_HLB : Field := ⟨17, 17⟩
def PMC_FILT_MASTER_HLA : Field := ⟨16, 16⟩
def PMC_FILT_MASTER_LD : Field := ⟨15, 0⟩
def PMC_FILT_CLASS_CLASS : Field := ⟨7, 0⟩
def PMC_FILT_BASE_LHN : Field := ⟨22, 0⟩
def PMC_FILT_LIMIT_LHN : Field := ⟨22, 0⟩
def PMC_BWW_WIN : Field := ⟨63, 48⟩
def PMC_BWW_BYTES : Field := ⟨47, 0⟩
def HST_CTL_NORESET : Field := ⟨1, 1⟩
def HST_CTL_EN : Field := ⟨0, 0⟩
def HST_STAT_OVERWRITTEN : Field := ⟨63, 32⟩
def HST_STAT_INCOMPLETE : Field := ⟨2, 2⟩
def HST_STAT_OVERRUN : Field := ⟨1, 1⟩
def HST_STAT_FLUSHING : Field := ⟨0, 0⟩
def HST_SEQ_SEQ : Field := ⟨63, 0⟩
def HST_RSEQ_NEXT : Field := ⟨63, 32⟩
def HST_RSEQ_OLDEST : Field := ⟨31, 0⟩
def WME_STATE_DEGRADED : Field := ⟨61, 61⟩
def WME_STATE_REBUILD : Field := ⟨60, 60⟩
def WME_STATE_FAILED : Field := ⟨57, 48⟩
def WME_STATE_MAP : Field := ⟨35, 0⟩
def WME_REBUILD_TARGET : Field := ⟨31, 28⟩
def WME_REBUILD_SOURCE : Field := ⟨27, 24⟩
def WME_REBUILD_DONE : Field := ⟨22, 0⟩
def WME_CE_COUNT_COUNT : Field := ⟨63, 0⟩
def WME_UE_COUNT_COUNT : Field := ⟨63, 0⟩
def WME_CE_LOG_STAT_COUNT : Field := ⟨20, 16⟩
def WME_CE_LOG_STAT_OVERRUN : Field := ⟨1, 1⟩
def WME_CE_LOG_STAT_CLEAR : Field := ⟨0, 0⟩
def WME_MERGE_STAT_PEAK : Field := ⟨11, 8⟩
def WME_MERGE_STAT_IN_USE : Field := ⟨3, 0⟩
def WME_FLIP_MASK_MASK : Field := ⟨63, 0⟩
def WME_FLIP_CTL_ARMED : Field := ⟨63, 63⟩
def WME_FLIP_CTL_ANY : Field := ⟨62, 62⟩
def WME_FLIP_CTL_CHKMASK : Field := ⟨47, 40⟩
def WME_FLIP_CTL_DEV : Field := ⟨35, 32⟩
def WME_FLIP_CTL_WMA : Field := ⟨21, 0⟩
def WME_SCRUB_CTL_PASSES : Field := ⟨63, 40⟩
def WME_SCRUB_CTL_PERIOD : Field := ⟨39, 23⟩
def WME_SCRUB_CTL_CURSOR : Field := ⟨22, 1⟩
def WME_SCRUB_CTL_EN : Field := ⟨0, 0⟩
def WME_CE_LOG_VALID : Field := ⟨63, 63⟩
def WME_CE_LOG_UE : Field := ⟨62, 62⟩
def WME_CE_LOG_HARD : Field := ⟨61, 61⟩
def WME_CE_LOG_REPEAT : Field := ⟨60, 53⟩
def WME_CE_LOG_BIT : Field := ⟨52, 46⟩
def WME_CE_LOG_DEV : Field := ⟨45, 42⟩
def WME_CE_LOG_WMA : Field := ⟨21, 0⟩
def WME_REMAP_VALID : Field := ⟨63, 63⟩
def WME_REMAP_DEV : Field := ⟨45, 42⟩
def WME_REMAP_WMA : Field := ⟨21, 0⟩
def SRB_BANK_SPARE_LEFT : Field := ⟨63, 56⟩
def SRB_BANK_UE : Field := ⟨55, 48⟩
def SRB_BANK_CE : Field := ⟨47, 32⟩
def SRB_BANK_OWNER : Field := ⟨31, 28⟩
def SRB_BANK_SIZE : Field := ⟨14, 0⟩
def SRB_TEST_CTL_PASSES : Field := ⟨63, 48⟩
def SRB_TEST_CTL_PERIOD : Field := ⟨47, 32⟩
def SRB_TEST_CTL_BANK : Field := ⟨19, 16⟩
def SRB_TEST_CTL_EN : Field := ⟨8, 8⟩
def SRB_TEST_CTL_MASK : Field := ⟨7, 0⟩
def SRB_STASH_CE : Field := ⟨63, 48⟩
def SRB_STASH_UE : Field := ⟨47, 40⟩
def SRB_STASH_SPARE_ROWS : Field := ⟨39, 32⟩
def SRB_STASH_CONTEST : Field := ⟨16, 16⟩
def SRB_STASH_CID : Field := ⟨15, 0⟩
def EFC_UNLOCK_KEY : Field := ⟨15, 0⟩
def EFC_CMD_OP : Field := ⟨3, 0⟩
def EFC_ADDR_BANK : Field := ⟨22, 22⟩
def EFC_ADDR_WORD : Field := ⟨21, 3⟩
def EFC_DATA_DATA : Field := ⟨63, 0⟩
def EFC_STAT_NEXT : Field := ⟨33, 33⟩
def EFC_STAT_ACTIVE : Field := ⟨32, 32⟩
def EFC_STAT_SPARE_B : Field := ⟨31, 28⟩
def EFC_STAT_SPARE_A : Field := ⟨27, 24⟩
def EFC_STAT_OP : Field := ⟨11, 8⟩
def EFC_STAT_UNLOCKED : Field := ⟨6, 6⟩
def EFC_STAT_LOCKERR : Field := ⟨5, 5⟩
def EFC_STAT_ERSERR : Field := ⟨4, 4⟩
def EFC_STAT_PGMERR : Field := ⟨3, 3⟩
def EFC_STAT_SELF : Field := ⟨2, 2⟩
def EFC_STAT_DONE : Field := ⟨1, 1⟩
def EFC_STAT_BUSY : Field := ⟨0, 0⟩

end Fld

namespace RegMap

/-- The RDY block's registers (access types and reset values as in the tables of the block). -/
def blockRDY : List RegSpec := [
  -- RDY_STATUS
  ⟨0x000000, 1, 0x0, 1, 0x0, false, [⟨⟨48, 32⟩, .ro, 0x0, false⟩, ⟨⟨16, 0⟩, .ro, 0x3, false⟩]⟩,
  -- RDY_SKEIN
  ⟨0x000008, 1, 0x0, 1, 0x0, false, [⟨⟨63, 0⟩, .ro, 0x0, false⟩]⟩,
  -- RDY_CHAN
  ⟨0x000010, 1, 0x0, 1, 0x0, false, [⟨⟨33, 0⟩, .ro, 0x0, false⟩]⟩,
  -- RDY_DEVTIME
  ⟨0x000018, 1, 0x0, 1, 0x0, true, [⟨⟨63, 0⟩, .ro, 0x0, false⟩]⟩,
  -- RDY_CTL
  ⟨0x000020, 1, 0x0, 1, 0x0, false, [⟨⟨0, 0⟩, .rw1s, 0x0, false⟩]⟩,
  -- RDY_CASTON
  ⟨0x000028, 1, 0x0, 1, 0x0, true, [⟨⟨63, 32⟩, .ro, 0x0, true⟩, ⟨⟨7, 7⟩, .ro, 0x0, true⟩, ⟨⟨6, 6⟩, .ro, 0x1, true⟩, ⟨⟨1, 0⟩, .ro, 0x0, false⟩]⟩,
  -- RDY_REPLAY
  ⟨0x000030, 1, 0x0, 1, 0x0, false, [⟨⟨53, 32⟩, .ro, 0x0, false⟩, ⟨⟨2, 0⟩, .ro, 0x0, false⟩]⟩,
  -- RDY_IDENT
  ⟨0x000038, 1, 0x0, 1, 0x0, false, [⟨⟨31, 24⟩, .ro, 0x1, false⟩, ⟨⟨23, 16⟩, .ro, 0x0, true⟩, ⟨⟨15, 0⟩, .ro, 0xE6A, false⟩]⟩,
  -- RDY_SERIAL
  ⟨0x000040, 1, 0x0, 1, 0x0, false, [⟨⟨63, 0⟩, .ro, 0x0, true⟩]⟩,
  -- RDY_TIME
  ⟨0x000100, 17, 0x8, 1, 0x0, true, [⟨⟨63, 0⟩, .ro, 0x0, false⟩]⟩]

/-- The CRG block's registers (access types and reset values as in the tables of the block). -/
def blockCRG : List RegSpec := [
  -- CRG_SQ_BASE
  ⟨0x010000, 8, 0x100, 1, 0x0, false, [⟨⟨63, 6⟩, .rw, 0x0, false⟩]⟩,
  -- CRG_SQ_SIZE
  ⟨0x010008, 8, 0x100, 1, 0x0, false, [⟨⟨4, 0⟩, .rw, 0x4, false⟩]⟩,
  -- CRG_SQ_TAIL
  ⟨0x010010, 8, 0x100, 1, 0x0, false, [⟨⟨15, 0⟩, .rw, 0x0, false⟩]⟩,
  -- CRG_SQ_HEAD
  ⟨0x010018, 8, 0x100, 1, 0x0, false, [⟨⟨15, 0⟩, .ro, 0x0, false⟩]⟩,
  -- CRG_CQ_BASE
  ⟨0x010020, 8, 0x100, 1, 0x0, false, [⟨⟨63, 5⟩, .rw, 0x0, false⟩]⟩,
  -- CRG_CQ_HEAD
  ⟨0x010028, 8, 0x100, 1, 0x0, false, [⟨⟨15, 0⟩, .rw, 0x0, false⟩]⟩,
  -- CRG_CQ_TAIL
  ⟨0x010030, 8, 0x100, 1, 0x0, false, [⟨⟨16, 16⟩, .ro, 0x1, false⟩, ⟨⟨15, 0⟩, .ro, 0x0, false⟩]⟩,
  -- CRG_MSIX
  ⟨0x010038, 8, 0x100, 1, 0x0, false, [⟨⟨47, 32⟩, .rw, 0x0, false⟩, ⟨⟨23, 16⟩, .rw, 0x1, false⟩, ⟨⟨12, 12⟩, .rw, 0x0, false⟩, ⟨⟨4, 0⟩, .rw, 0x0, false⟩]⟩,
  -- CRG_CTL
  ⟨0x010040, 8, 0x100, 1, 0x0, false, [⟨⟨31, 16⟩, .rwl, 0xFFFF, false⟩, ⟨⟨2, 2⟩, .rwl, 0x0, false⟩, ⟨⟨0, 0⟩, .rw, 0x0, false⟩]⟩,
  -- CRG_STAT
  ⟨0x010048, 8, 0x100, 1, 0x0, false, [⟨⟨30, 24⟩, .ro, 0x0, false⟩, ⟨⟨19, 16⟩, .ro, 0x0, false⟩, ⟨⟨1, 1⟩, .ro, 0x0, false⟩, ⟨⟨0, 0⟩, .ro, 0x0, false⟩]⟩,
  -- CRG_DONE
  ⟨0x010050, 8, 0x100, 1, 0x0, true, [⟨⟨63, 0⟩, .ro, 0x0, false⟩]⟩]

/-- The ADM block's registers (access types and reset values as in the tables of the block). -/
def blockADM : List RegSpec := [
  -- ADM_CTL
  ⟨0x020000, 1, 0x0, 1, 0x0, false, [⟨⟨47, 32⟩, .ro, 0x96, false⟩, ⟨⟨16, 16⟩, .rwl, 0x1, false⟩, ⟨⟨12, 0⟩, .rwl, 0x1000, false⟩]⟩,
  -- ADM_STATUS
  ⟨0x020008, 1, 0x0, 1, 0x0, false, [⟨⟨15, 15⟩, .rw1c, 0x0, false⟩, ⟨⟨12, 12⟩, .ro, 0x0, false⟩, ⟨⟨11, 11⟩, .ro, 0x0, false⟩, ⟨⟨10, 10⟩, .ro, 0x0, false⟩, ⟨⟨9, 9⟩, .ro, 0x0, false⟩, ⟨⟨8, 8⟩, .ro, 0x0, false⟩, ⟨⟨7, 7⟩, .ro, 0x0, false⟩, ⟨⟨6, 6⟩, .ro, 0x0, false⟩, ⟨⟨5, 5⟩, .ro, 0x0, false⟩, ⟨⟨4, 4⟩, .ro, 0x0, false⟩, ⟨⟨1, 1⟩, .ro, 0x0, false⟩, ⟨⟨0, 0⟩, .ro, 0x0, false⟩]⟩,
  -- ADM_OCC
  ⟨0x020010, 1, 0x0, 1, 0x0, false, [⟨⟨53, 32⟩, .ro, 0x0, false⟩, ⟨⟨30, 16⟩, .ro, 0x0, false⟩, ⟨⟨13, 0⟩, .ro, 0x0, false⟩]⟩,
  -- ADM_DEVLOAD
  ⟨0x020018, 1, 0x0, 1, 0x0, false, [⟨⟨63, 56⟩, .rw, 0x5A, false⟩, ⟨⟨55, 48⟩, .rw, 0x46, false⟩, ⟨⟨47, 40⟩, .rw, 0x19, false⟩, ⟨⟨33, 32⟩, .ro, 0x0, false⟩, ⟨⟨31, 0⟩, .ro, 0x0, false⟩]⟩,
  -- ADM_THROTTLE
  ⟨0x020020, 1, 0x0, 1, 0x0, false, [⟨⟨38, 32⟩, .rw, 0x64, false⟩, ⟨⟨30, 24⟩, .ro, 0x64, false⟩, ⟨⟨22, 16⟩, .ro, 0x64, false⟩, ⟨⟨9, 8⟩, .ro, 0x0, false⟩, ⟨⟨6, 0⟩, .ro, 0x64, false⟩]⟩,
  -- ADM_BOUND_RD
  ⟨0x020040, 1, 0x0, 1, 0x0, false, [⟨⟨31, 0⟩, .ro, 0xF0, false⟩]⟩,
  -- ADM_BOUND_WR
  ⟨0x020048, 1, 0x0, 1, 0x0, false, [⟨⟨31, 0⟩, .ro, 0x2D, false⟩]⟩,
  -- ADM_BOUND_2PLY
  ⟨0x020050, 1, 0x0, 1, 0x0, false, [⟨⟨31, 0⟩, .ro, 0xA0, false⟩]⟩,
  -- ADM_BOUND_WT
  ⟨0x020058, 1, 0x0, 1, 0x0, false, [⟨⟨31, 0⟩, .ro, 0x320, false⟩]⟩,
  -- ADM_BOUND_PTL
  ⟨0x020060, 1, 0x0, 1, 0x0, false, [⟨⟨47, 32⟩, .ro, 0x410, false⟩, ⟨⟨31, 16⟩, .ro, 0x177, false⟩, ⟨⟨15, 0⟩, .ro, 0x104, false⟩]⟩,
  -- ADM_BOUND_DUR
  ⟨0x020068, 1, 0x0, 1, 0x0, false, [⟨⟨31, 0⟩, .ro, 0x3D0900, false⟩]⟩,
  -- ADM_LATE
  ⟨0x020080, 1, 0x0, 1, 0x0, true, [⟨⟨63, 0⟩, .ro, 0x0, false⟩]⟩,
  -- ADM_INTR_LATE
  ⟨0x020088, 1, 0x0, 1, 0x0, true, [⟨⟨63, 0⟩, .ro, 0x0, false⟩]⟩,
  -- ADM_INTR_MAX
  ⟨0x020090, 1, 0x0, 1, 0x0, true, [⟨⟨63, 0⟩, .ro, 0x0, false⟩]⟩,
  -- ADM_RESV
  ⟨0x020100, 16, 0x8, 1, 0x0, false, [⟨⟨44, 32⟩, .rw, 0x0, false⟩, ⟨⟨16, 16⟩, .rw, 0x1, false⟩, ⟨⟨12, 0⟩, .rw, 0x0, false⟩]⟩,
  -- ADM_RESV_INT
  ⟨0x020180, 8, 0x8, 1, 0x0, false, [⟨⟨63, 32⟩, .rw, 0x0, false⟩, ⟨⟨16, 16⟩, .rw, 0x1, false⟩, ⟨⟨12, 0⟩, .rw, 0x0, false⟩]⟩,
  -- ADM_BAL
  ⟨0x0201C0, 24, 0x8, 1, 0x0, false, [⟨⟨31, 0⟩, .ro, 0x0, false⟩]⟩]

/-- The TLC block's registers (access types and reset values as in the tables of the block). -/
def blockTLC : List RegSpec := [
  -- TLC_ATTR
  ⟨0x030000, 64, 0x8, 1, 0x0, false, [⟨⟨63, 63⟩, .rwl, 0x0, false⟩, ⟨⟨62, 40⟩, .rwl, 0x0, false⟩, ⟨⟨39, 17⟩, .rwl, 0x0, false⟩, ⟨⟨5, 5⟩, .rwl, 0x0, false⟩, ⟨⟨4, 3⟩, .rwl, 0x0, false⟩, ⟨⟨1, 0⟩, .rwl, 0x0, false⟩]⟩,
  -- TLC_ATTR_DFLT
  ⟨0x030200, 1, 0x0, 1, 0x0, false, [⟨⟨5, 5⟩, .rwl, 0x0, false⟩, ⟨⟨4, 3⟩, .rwl, 0x0, false⟩, ⟨⟨1, 0⟩, .rwl, 0x0, false⟩]⟩,
  -- TLC_MAINT
  ⟨0x030208, 1, 0x0, 1, 0x0, false, [⟨⟨32, 32⟩, .ro, 0x0, false⟩, ⟨⟨27, 24⟩, .rw, 0x0, false⟩, ⟨⟨23, 9⟩, .rw, 0x0, false⟩, ⟨⟨5, 4⟩, .rw, 0x0, false⟩, ⟨⟨1, 0⟩, .rw, 0x0, false⟩]⟩,
  -- TLC_MSHR_STAT
  ⟨0x030210, 1, 0x0, 1, 0x0, false, [⟨⟨24, 16⟩, .ro, 0x0, false⟩, ⟨⟨8, 0⟩, .ro, 0x0, false⟩]⟩,
  -- TLC_LFSR
  ⟨0x030218, 1, 0x0, 1, 0x0, false, [⟨⟨31, 0⟩, .rw, 0x1, false⟩]⟩,
  -- TLC_CACHE_STAT
  ⟨0x030220, 1, 0x0, 1, 0x0, false, [⟨⟨32, 32⟩, .ro, 0x1, false⟩, ⟨⟨19, 0⟩, .ro, 0x0, false⟩]⟩,
  -- TLC_POOL
  ⟨0x030228, 1, 0x0, 1, 0x0, true, [⟨⟨63, 48⟩, .ro, 0x0, false⟩, ⟨⟨42, 32⟩, .ro, 0x0, false⟩, ⟨⟨21, 0⟩, .ro, 0x0, false⟩]⟩,
  -- TLC_WT_STAT
  ⟨0x030230, 1, 0x0, 1, 0x0, false, [⟨⟨24, 24⟩, .ro, 0x0, false⟩, ⟨⟨18, 16⟩, .ro, 0x4, false⟩, ⟨⟨14, 8⟩, .ro, 0x0, false⟩, ⟨⟨6, 0⟩, .ro, 0x0, false⟩]⟩,
  -- TLC_WT_COUNT
  ⟨0x030238, 1, 0x0, 1, 0x0, true, [⟨⟨63, 0⟩, .ro, 0x0, false⟩]⟩,
  -- TLC_FREE
  ⟨0x038000, 1, 0x0, 1, 0x0, false, [⟨⟨63, 56⟩, .ro, 0x0, true⟩, ⟨⟨51, 51⟩, .ro, 0x0, true⟩, ⟨⟨50, 50⟩, .ro, 0x0, true⟩, ⟨⟨49, 49⟩, .ro, 0x0, true⟩, ⟨⟨48, 48⟩, .ro, 0x0, true⟩, ⟨⟨42, 32⟩, .ro, 0x400, true⟩, ⟨⟨20, 0⟩, .ro, 0x1CF120, true⟩]⟩,
  -- TLC_RETIRED
  ⟨0x038008, 1, 0x0, 1, 0x0, true, [⟨⟨63, 0⟩, .ro, 0x0, true⟩]⟩,
  -- TLC_DROPPED
  ⟨0x038010, 1, 0x0, 1, 0x0, true, [⟨⟨63, 0⟩, .ro, 0x0, true⟩]⟩,
  -- TLC_MIG_CTL
  ⟨0x038018, 1, 0x0, 1, 0x0, false, [⟨⟨32, 32⟩, .rwl, 0x1, false⟩, ⟨⟨31, 16⟩, .rwl, 0x16D, false⟩, ⟨⟨9, 0⟩, .rwl, 0x3FF, false⟩]⟩,
  -- TLC_MIG_STAT
  ⟨0x038020, 1, 0x0, 1, 0x0, false, [⟨⟨47, 32⟩, .ro, 0x0, true⟩, ⟨⟨17, 17⟩, .ro, 0x0, false⟩, ⟨⟨16, 16⟩, .ro, 0x0, true⟩, ⟨⟨4, 0⟩, .ro, 0x0, false⟩]⟩,
  -- TLC_MIG_DONE
  ⟨0x038028, 1, 0x0, 1, 0x0, true, [⟨⟨63, 0⟩, .ro, 0x0, true⟩]⟩,
  -- TLC_MAP_SEL
  ⟨0x038030, 1, 0x0, 1, 0x0, false, [⟨⟨23, 23⟩, .rw, 0x0, false⟩, ⟨⟨22, 0⟩, .rw, 0x0, false⟩]⟩,
  -- TLC_MAP_ENTRY
  ⟨0x038038, 1, 0x0, 1, 0x0, false, [⟨⟨63, 0⟩, .ro, 0x0, false⟩]⟩,
  -- TLC_JRNL
  ⟨0x038040, 1, 0x0, 1, 0x0, false, [⟨⟨45, 32⟩, .ro, 0x0, true⟩, ⟨⟨31, 16⟩, .ro, 0x0, true⟩, ⟨⟨13, 0⟩, .ro, 0x0, false⟩]⟩,
  -- TLC_CKPT
  ⟨0x038048, 1, 0x0, 1, 0x0, true, [⟨⟨31, 1⟩, .ro, 0x0, true⟩, ⟨⟨0, 0⟩, .ro, 0x0, true⟩]⟩]

/-- The MCH block's registers (access types and reset values as in the tables of the block). The fields of MCH_DCLK and MCH_DCLK_STAT
whose reset the table calls the drift clock are kept from a cast-on until DRIFT is 1 (DESIGN CHOICE, log 72). -/
def blockMCH : List RegSpec := [
  -- MCH_STATE
  ⟨0x040000, 34, 0x400, 1, 0x0, false, [⟨⟨47, 40⟩, .ro, 0x0, false⟩, ⟨⟨24, 16⟩, .ro, 0x0, true⟩, ⟨⟨5, 5⟩, .ro, 0x0, true⟩, ⟨⟨4, 4⟩, .ro, 0x0, false⟩, ⟨⟨1, 0⟩, .ro, 0x0, false⟩]⟩,
  -- MCH_ROWPLAN
  ⟨0x040008, 34, 0x400, 1, 0x0, false, [⟨⟨19, 8⟩, .ro, 0x6DB, false⟩, ⟨⟨3, 0⟩, .rw, 0x8, false⟩]⟩,
  -- MCH_DIESUB
  ⟨0x040010, 34, 0x400, 1, 0x0, false, [⟨⟨35, 35⟩, .ro, 0x0, false⟩, ⟨⟨34, 32⟩, .ro, 0x0, false⟩, ⟨⟨31, 0⟩, .ro, 0x76543210, true⟩]⟩,
  -- MCH_REBUILD
  ⟨0x040018, 34, 0x400, 1, 0x0, false, [⟨⟨58, 32⟩, .ro, 0x0, true⟩, ⟨⟨7, 4⟩, .ro, 0x8, true⟩, ⟨⟨3, 0⟩, .ro, 0x0, true⟩]⟩,
  -- MCH_CNT_CORR
  ⟨0x040020, 34, 0x400, 1, 0x0, true, [⟨⟨63, 0⟩, .ro, 0x0, true⟩]⟩,
  -- MCH_CNT_SOFT
  ⟨0x040028, 34, 0x400, 1, 0x0, true, [⟨⟨63, 0⟩, .ro, 0x0, true⟩]⟩,
  -- MCH_CNT_RESCUE
  ⟨0x040030, 34, 0x400, 1, 0x0, true, [⟨⟨63, 0⟩, .ro, 0x0, true⟩]⟩,
  -- MCH_CNT_PGMFAIL
  ⟨0x040038, 34, 0x400, 1, 0x0, true, [⟨⟨63, 0⟩, .ro, 0x0, true⟩]⟩,
  -- MCH_RETRY_IDX
  ⟨0x040080, 34, 0x400, 9, 0x8, false, [⟨⟨23, 16⟩, .ro, 0x3, true⟩, ⟨⟨15, 0⟩, .ro, 0x24C, true⟩]⟩,
  -- MCH_DRIFT
  ⟨0x040100, 34, 0x400, 9, 0x8, false, [⟨⟨47, 32⟩, .ro, 0x0, true⟩, ⟨⟨27, 16⟩, .ro, 0x10, true⟩, ⟨⟨7, 0⟩, .ro, 0x60, true⟩]⟩,
  -- MCH_EPOCH
  ⟨0x04E000, 1, 0x0, 1, 0x0, true, [⟨⟨63, 32⟩, .ro, 0x0, true⟩, ⟨⟨29, 24⟩, .ro, 0x0, true⟩, ⟨⟨5, 0⟩, .ro, 0x0, true⟩]⟩,
  -- MCH_DCLK
  ⟨0x04E008, 1, 0x0, 1, 0x0, true, [⟨⟨63, 32⟩, .ro, 0x0, false⟩, ⟨⟨31, 0⟩, .ro, 0x0, true⟩]⟩,
  -- MCH_DCLK_STAT
  ⟨0x04E010, 1, 0x0, 1, 0x0, false, [⟨⟨31, 28⟩, .rws, 0x4, true⟩, ⟨⟨24, 16⟩, .ro, 0x0, true⟩, ⟨⟨8, 8⟩, .ro, 0x0, true⟩, ⟨⟨7, 7⟩, .ro, 0x0, true⟩, ⟨⟨6, 6⟩, .ro, 0x0, true⟩, ⟨⟨5, 5⟩, .ro, 0x0, false⟩, ⟨⟨4, 4⟩, .ro, 0x0, false⟩, ⟨⟨3, 3⟩, .ro, 0x0, false⟩, ⟨⟨2, 2⟩, .ro, 0x0, true⟩, ⟨⟨1, 1⟩, .ro, 0x0, true⟩, ⟨⟨0, 0⟩, .ro, 0x0, true⟩]⟩,
  -- MCH_REFRESH
  ⟨0x04E018, 1, 0x0, 1, 0x0, false, [⟨⟨55, 32⟩, .ro, 0x0, true⟩, ⟨⟨16, 16⟩, .ro, 0x0, true⟩, ⟨⟨15, 8⟩, .ro, 0x10, false⟩, ⟨⟨7, 0⟩, .rws, 0x20, true⟩]⟩]

/-- The GAU block's registers (access types and reset values as in the tables of the block). -/
def blockGAU : List RegSpec := [
  -- GAU_STAT
  ⟨0x050000, 1, 0x0, 1, 0x0, false, [⟨⟨47, 40⟩, .ro, 0x0, true⟩, ⟨⟨35, 32⟩, .ro, 0xA, false⟩, ⟨⟨29, 28⟩, .ro, 0x2, true⟩, ⟨⟨19, 19⟩, .ro, 0x0, true⟩, ⟨⟨18, 18⟩, .ro, 0x0, true⟩, ⟨⟨17, 17⟩, .ro, 0x0, true⟩, ⟨⟨16, 16⟩, .ro, 0x0, true⟩, ⟨⟨11, 8⟩, .ro, 0x0, false⟩, ⟨⟨5, 3⟩, .ro, 0x4, false⟩, ⟨⟨2, 0⟩, .ro, 0x0, false⟩]⟩,
  -- GAU_E_USABLE
  ⟨0x050008, 1, 0x0, 1, 0x0, false, [⟨⟨63, 32⟩, .ro, 0x0, false⟩, ⟨⟨31, 0⟩, .ro, 0x0, false⟩]⟩,
  -- GAU_CAP_LINES
  ⟨0x050010, 1, 0x0, 1, 0x0, false, [⟨⟨63, 32⟩, .ro, 0x0, false⟩, ⟨⟨21, 0⟩, .ro, 0x0, false⟩]⟩,
  -- GAU_PARAM
  ⟨0x050018, 1, 0x0, 1, 0x0, false, [⟨⟨63, 56⟩, .ro, 0x18, false⟩, ⟨⟨51, 32⟩, .ro, 0xD2F0, false⟩, ⟨⟨31, 16⟩, .ro, 0xEA60, false⟩]⟩,
  -- GAU_BUS
  ⟨0x050020, 1, 0x0, 1, 0x0, false, [⟨⟨63, 48⟩, .ro, 0x0, false⟩, ⟨⟨47, 32⟩, .ro, 0x0, false⟩, ⟨⟨31, 16⟩, .ro, 0x0, false⟩, ⟨⟨15, 0⟩, .ro, 0x0, false⟩]⟩,
  -- GAU_TEST_CTL
  ⟨0x050028, 1, 0x0, 1, 0x0, false, [⟨⟨47, 40⟩, .rws, 0x1E, true⟩, ⟨⟨31, 20⟩, .rws, 0xA, true⟩, ⟨⟨15, 15⟩, .ro, 0x0, false⟩, ⟨⟨11, 8⟩, .ro, 0x0, false⟩, ⟨⟨4, 4⟩, .wo, 0x0, false⟩, ⟨⟨3, 0⟩, .rw, 0x0, false⟩]⟩,
  -- GAU_BINDOFF_LAST
  ⟨0x050030, 1, 0x0, 1, 0x0, false, [⟨⟨63, 48⟩, .ro, 0x0, true⟩, ⟨⟨47, 40⟩, .ro, 0x0, true⟩, ⟨⟨39, 39⟩, .ro, 0x0, true⟩, ⟨⟨38, 36⟩, .ro, 0x1, true⟩, ⟨⟨35, 32⟩, .ro, 0x0, true⟩, ⟨⟨21, 0⟩, .ro, 0x0, true⟩]⟩,
  -- GAU_BINDOFF_CNT
  ⟨0x050038, 1, 0x0, 1, 0x0, true, [⟨⟨63, 32⟩, .ro, 0x0, true⟩, ⟨⟨31, 0⟩, .ro, 0x0, true⟩]⟩,
  -- GAU_BROWNOUT
  ⟨0x050040, 1, 0x0, 1, 0x0, true, [⟨⟨63, 0⟩, .ro, 0x0, true⟩]⟩,
  -- GAU_SEQ
  ⟨0x050048, 1, 0x0, 1, 0x0, true, [⟨⟨63, 0⟩, .ro, 0x0, true⟩]⟩,
  -- GAU_BANK
  ⟨0x050100, 12, 0x8, 1, 0x0, false, [⟨⟨59, 48⟩, .ro, 0x0, false⟩, ⟨⟨43, 32⟩, .ro, 0x32, true⟩, ⟨⟨27, 16⟩, .ro, 0x3E8, true⟩, ⟨⟨15, 8⟩, .ro, 0x64, true⟩, ⟨⟨2, 0⟩, .ro, 0x0, true⟩]⟩]

/-- The KEY block's registers (access types and reset values as in the tables of the block). -/
def blockKEY : List RegSpec := [
  -- KEY_STAT
  ⟨0x060000, 1, 0x0, 1, 0x0, false, [⟨⟨57, 45⟩, .ro, 0x0, true⟩, ⟨⟨44, 32⟩, .ro, 0x1, true⟩, ⟨⟨16, 16⟩, .ro, 0x0, false⟩, ⟨⟨5, 4⟩, .ro, 0x0, false⟩, ⟨⟨1, 0⟩, .ro, 0x0, false⟩]⟩,
  -- KEY_SLOT_SEL
  ⟨0x060008, 1, 0x0, 1, 0x0, false, [⟨⟨11, 0⟩, .rw, 0x0, false⟩]⟩,
  -- KEY_SLOT
  ⟨0x060010, 1, 0x0, 1, 0x0, false, [⟨⟨63, 32⟩, .ro, 0x0, true⟩, ⟨⟨31, 29⟩, .ro, 0x0, true⟩, ⟨⟨22, 0⟩, .ro, 0x0, true⟩]⟩,
  -- KEY_CC_STAT
  ⟨0x060018, 1, 0x0, 1, 0x0, false, [⟨⟨49, 32⟩, .ro, 0x0, false⟩, ⟨⟨17, 0⟩, .ro, 0x0, false⟩]⟩,
  -- KEY_MAXMAJ
  ⟨0x060020, 1, 0x0, 1, 0x0, true, [⟨⟨61, 0⟩, .ro, 0x0, true⟩]⟩,
  -- KEY_CC_HIT
  ⟨0x060040, 1, 0x0, 1, 0x0, true, [⟨⟨63, 0⟩, .ro, 0x0, false⟩]⟩,
  -- KEY_CC_MISS
  ⟨0x060048, 1, 0x0, 1, 0x0, true, [⟨⟨63, 0⟩, .ro, 0x0, false⟩]⟩,
  -- KEY_TAGFAIL
  ⟨0x060050, 1, 0x0, 1, 0x0, true, [⟨⟨63, 0⟩, .ro, 0x0, true⟩]⟩,
  -- KEY_REPAIR
  ⟨0x060058, 1, 0x0, 1, 0x0, true, [⟨⟨63, 0⟩, .ro, 0x0, true⟩]⟩,
  -- KEY_LOST
  ⟨0x060060, 1, 0x0, 1, 0x0, true, [⟨⟨63, 0⟩, .ro, 0x0, true⟩]⟩,
  -- KEY_OVF
  ⟨0x060068, 1, 0x0, 1, 0x0, true, [⟨⟨63, 0⟩, .ro, 0x0, true⟩]⟩,
  -- KEY_DROPWR
  ⟨0x060070, 1, 0x0, 1, 0x0, true, [⟨⟨63, 0⟩, .ro, 0x0, true⟩]⟩]

/-- The SEL block's registers (access types and reset values as in the tables of the block). -/
def blockSEL : List RegSpec := [
  -- SEL_STAT
  ⟨0x070000, 1, 0x0, 1, 0x0, false, [⟨⟨60, 60⟩, .ro, 0x0, false⟩, ⟨⟨59, 59⟩, .ro, 0x0, true⟩, ⟨⟨58, 56⟩, .ro, 0x0, false⟩, ⟨⟨44, 32⟩, .ro, 0x0, true⟩, ⟨⟨22, 0⟩, .ro, 0x0, true⟩]⟩,
  -- SEL_CTL
  ⟨0x070008, 1, 0x0, 1, 0x0, false, [⟨⟨0, 0⟩, .rws, 0x0, true⟩]⟩,
  -- SEL_HEAD
  ⟨0x070010, 1, 0x0, 1, 0x0, true, [⟨⟨63, 0⟩, .ro, 0x0, true⟩]⟩,
  -- SEL_OLDEST
  ⟨0x070018, 1, 0x0, 1, 0x0, true, [⟨⟨63, 0⟩, .ro, 0x1, true⟩]⟩,
  -- SEL_ARCHIVED
  ⟨0x070020, 1, 0x0, 1, 0x0, true, [⟨⟨63, 0⟩, .rws, 0x0, true⟩]⟩,
  -- SEL_WRDROP
  ⟨0x070028, 1, 0x0, 1, 0x0, true, [⟨⟨63, 0⟩, .ro, 0x0, true⟩]⟩,
  -- SEL_PROGRESS
  ⟨0x070030, 1, 0x0, 1, 0x0, false, [⟨⟨48, 32⟩, .ro, 0x0, false⟩, ⟨⟨17, 17⟩, .ro, 0x0, false⟩, ⟨⟨16, 0⟩, .ro, 0x0, false⟩]⟩,
  -- SEL_RATCHET
  ⟨0x070100, 64, 0x8, 1, 0x0, true, [⟨⟨63, 0⟩, .ro, 0x0, true⟩]⟩]

/-- The PLK block's registers (access types and reset values as in the tables of the block). -/
def blockPLK : List RegSpec := [
  -- PLK_LINK
  ⟨0x080000, 2, 0x100, 1, 0x0, true, [⟨⟨63, 48⟩, .ro, 0x0, false⟩, ⟨⟨47, 32⟩, .ro, 0x0, false⟩, ⟨⟨11, 8⟩, .ro, 0x0, false⟩, ⟨⟨2, 0⟩, .ro, 0x0, false⟩]⟩,
  -- PLK_PEER
  ⟨0x080008, 2, 0x100, 1, 0x0, false, [⟨⟨63, 0⟩, .ro, 0x0, false⟩]⟩,
  -- PLK_PIN
  ⟨0x080010, 2, 0x100, 1, 0x0, false, [⟨⟨63, 0⟩, .rws, 0x0, true⟩]⟩,
  -- PLK_REPLAY
  ⟨0x080018, 2, 0x100, 1, 0x0, true, [⟨⟨63, 0⟩, .ro, 0x0, false⟩]⟩,
  -- PLK_ERR
  ⟨0x080020, 2, 0x100, 1, 0x0, true, [⟨⟨63, 32⟩, .ro, 0x0, false⟩, ⟨⟨31, 0⟩, .ro, 0x0, false⟩]⟩,
  -- PLK_SPILL
  ⟨0x080028, 2, 0x100, 1, 0x0, false, [⟨⟨63, 48⟩, .ro, 0x0, false⟩, ⟨⟨40, 24⟩, .ro, 0x0, false⟩, ⟨⟨16, 0⟩, .ro, 0x0, false⟩]⟩,
  -- PLK_SYNC
  ⟨0x080030, 2, 0x100, 1, 0x0, false, [⟨⟨63, 32⟩, .ro, 0x0, false⟩, ⟨⟨7, 7⟩, .ro, 0x0, false⟩, ⟨⟨6, 6⟩, .ro, 0x0, false⟩, ⟨⟨3, 0⟩, .ro, 0x0, false⟩]⟩,
  -- PLK_REGION
  ⟨0x080400, 2, 0x80, 16, 0x8, false, [⟨⟨63, 61⟩, .ro, 0x0, true⟩, ⟨⟨54, 32⟩, .ro, 0x0, true⟩, ⟨⟨22, 0⟩, .ro, 0x0, true⟩]⟩,
  -- PLK_PLYRES
  ⟨0x080800, 1, 0x0, 1, 0x0, false, [⟨⟨54, 32⟩, .rwl, 0x0, true⟩, ⟨⟨22, 0⟩, .rwl, 0x0, true⟩]⟩,
  -- PLK_AREA
  ⟨0x080900, 2, 0x80, 16, 0x8, false, [⟨⟨63, 62⟩, .ro, 0x0, true⟩, ⟨⟨61, 55⟩, .ro, 0x0, true⟩, ⟨⟨54, 32⟩, .ro, 0x0, true⟩, ⟨⟨22, 0⟩, .ro, 0x0, true⟩]⟩,
  -- PLK_CTL
  ⟨0x080C00, 1, 0x0, 1, 0x0, false, [⟨⟨1, 1⟩, .rws, 0x1, true⟩, ⟨⟨0, 0⟩, .rws, 0x1, true⟩]⟩,
  -- PLK_UADDR
  ⟨0x080C08, 1, 0x0, 1, 0x0, false, [⟨⟨63, 63⟩, .ro, 0x0, false⟩, ⟨⟨45, 32⟩, .ro, 0x0, false⟩, ⟨⟨13, 0⟩, .rws, 0x0, true⟩]⟩,
  -- PLK_CHAIN
  ⟨0x080C10, 1, 0x0, 1, 0x0, true, [⟨⟨63, 32⟩, .ro, 0x0, false⟩, ⟨⟨31, 16⟩, .ro, 0x0, false⟩, ⟨⟨6, 0⟩, .ro, 0x0, false⟩]⟩]

/-- The THM block's registers (access types and reset values as in the tables of the block). -/
def blockTHM : List RegSpec := [
  -- THM_MAX
  ⟨0x090000, 1, 0x0, 1, 0x0, false, [⟨⟨41, 40⟩, .ro, 0x0, false⟩, ⟨⟨37, 32⟩, .ro, 0x0, false⟩, ⟨⟨15, 0⟩, .ro, 0x0, false⟩]⟩,
  -- THM_LIMITS
  ⟨0x090008, 1, 0x0, 1, 0x0, false, [⟨⟨39, 32⟩, .ro, 0xA, false⟩, ⟨⟨31, 24⟩, .ro, 0xA, false⟩, ⟨⟨23, 16⟩, .ro, 0xF, false⟩, ⟨⟨15, 8⟩, .ro, 0x5, false⟩, ⟨⟨7, 0⟩, .ro, 0x1, false⟩]⟩,
  -- THM_AUTO_RESUME
  ⟨0x090010, 1, 0x0, 1, 0x0, false, [⟨⟨47, 32⟩, .ro, 0x0, false⟩, ⟨⟨1, 1⟩, .ro, 0x0, false⟩, ⟨⟨0, 0⟩, .rws, 0x1, true⟩]⟩,
  -- THM_SHUTDOWN
  ⟨0x090018, 1, 0x0, 1, 0x0, true, [⟨⟨63, 48⟩, .ro, 0x0, true⟩, ⟨⟨42, 40⟩, .ro, 0x0, true⟩, ⟨⟨37, 32⟩, .ro, 0x0, true⟩, ⟨⟨15, 0⟩, .ro, 0x0, true⟩]⟩,
  -- THM_ZONE
  ⟨0x090100, 5, 0x8, 1, 0x0, false, [⟨⟨63, 56⟩, .ro, 0x0, false⟩, ⟨⟨55, 48⟩, .ro, 0x0, false⟩, ⟨⟨47, 40⟩, .ro, 0x0, false⟩, ⟨⟨33, 32⟩, .ro, 0x0, false⟩, ⟨⟨29, 24⟩, .ro, 0x0, false⟩, ⟨⟨16, 16⟩, .ro, 0x0, true⟩, ⟨⟨15, 0⟩, .ro, 0x0, false⟩]⟩,
  -- THM_SENSOR
  ⟨0x090200, 58, 0x8, 1, 0x0, false, [⟨⟨63, 63⟩, .rws, 0x0, true⟩, ⟨⟨62, 62⟩, .ro, 0x0, true⟩, ⟨⟨61, 61⟩, .ro, 0x0, false⟩, ⟨⟨60, 60⟩, .ro, 0x0, true⟩, ⟨⟨55, 52⟩, .ro, 0x0, false⟩, ⟨⟨51, 46⟩, .ro, 0x0, true⟩, ⟨⟨15, 0⟩, .ro, 0x0, false⟩]⟩]

/-- The PWR block's registers (access types and reset values as in the tables of the block). -/
def blockPWR : List RegSpec := [
  -- PWR_STATE
  ⟨0x0A0000, 1, 0x0, 1, 0x0, false, [⟨⟨56, 0⟩, .ro, 0x1, false⟩]⟩,
  -- PWR_REQ
  ⟨0x0A0008, 1, 0x0, 1, 0x0, false, [⟨⟨2, 2⟩, .rw, 0x0, false⟩, ⟨⟨1, 1⟩, .rw, 0x0, false⟩, ⟨⟨0, 0⟩, .rw, 0x0, false⟩]⟩,
  -- PWR_HELD
  ⟨0x0A0010, 1, 0x0, 1, 0x0, false, [⟨⟨56, 0⟩, .ro, 0x0, false⟩]⟩,
  -- PWR_LIMIT
  ⟨0x0A0018, 1, 0x0, 1, 0x0, false, [⟨⟨23, 16⟩, .ro, 0x64, false⟩, ⟨⟨15, 8⟩, .ro, 0x46, false⟩, ⟨⟨1, 0⟩, .rws, 0x2, true⟩]⟩,
  -- PWR_INPUT
  ⟨0x0A0020, 1, 0x0, 1, 0x0, false, [⟨⟨63, 32⟩, .ro, 0x0, false⟩, ⟨⟨31, 0⟩, .ro, 0x0, false⟩]⟩]

/-- The PMC block's registers (access types and reset values as in the tables of the block). -/
def blockPMC : List RegSpec := [
  -- PMC_CYCLES
  ⟨0x0B0000, 1, 0x0, 1, 0x0, true, [⟨⟨63, 0⟩, .ro, 0x0, false⟩]⟩,
  -- PMC_GCTL
  ⟨0x0B0008, 1, 0x0, 1, 0x0, false, [⟨⟨63, 63⟩, .rwl, 0x0, false⟩, ⟨⟨51, 48⟩, .rwl, 0x0, false⟩, ⟨⟨1, 1⟩, .wo, 0x0, false⟩, ⟨⟨0, 0⟩, .rw, 0x0, false⟩]⟩,
  -- PMC_BWW_CTL
  ⟨0x0B0010, 1, 0x0, 1, 0x0, false, [⟨⟨26, 0⟩, .rw, 0x186A0, false⟩]⟩,
  -- PMC_CTL
  ⟨0x0B0100, 8, 0x8, 1, 0x0, false, [⟨⟨63, 63⟩, .rw, 0x0, false⟩, ⟨⟨62, 62⟩, .rw, 0x0, false⟩, ⟨⟨61, 61⟩, .rw, 0x0, false⟩, ⟨⟨31, 16⟩, .rw, 0x0, false⟩, ⟨⟨15, 0⟩, .rw, 0x0, false⟩]⟩,
  -- PMC_CNT
  ⟨0x0B0140, 8, 0x8, 1, 0x0, true, [⟨⟨63, 0⟩, .rw, 0x0, false⟩]⟩,
  -- PMC_FILT_MASTER
  ⟨0x0B0200, 8, 0x20, 1, 0x0, false, [⟨⟨18, 18⟩, .rw, 0x1, false⟩, ⟨⟨17, 17⟩, .rw, 0x1, false⟩, ⟨⟨16, 16⟩, .rw, 0x1, false⟩, ⟨⟨15, 0⟩, .rw, 0xFFFF, false⟩]⟩,
  -- PMC_FILT_CLASS
  ⟨0x0B0208, 8, 0x20, 1, 0x0, false, [⟨⟨7, 0⟩, .rw, 0xFF, false⟩]⟩,
  -- PMC_FILT_BASE
  ⟨0x0B0210, 8, 0x20, 1, 0x0, false, [⟨⟨22, 0⟩, .rw, 0x0, false⟩]⟩,
  -- PMC_FILT_LIMIT
  ⟨0x0B0218, 8, 0x20, 1, 0x0, false, [⟨⟨22, 0⟩, .rw, 0x5FFFFF, false⟩]⟩,
  -- PMC_BWW
  ⟨0x0B0300, 6, 0x8, 1, 0x0, true, [⟨⟨63, 48⟩, .ro, 0x0, false⟩, ⟨⟨47, 0⟩, .ro, 0x0, false⟩]⟩]

/-- The HST block's registers (access types and reset values as in the tables of the block). -/
def blockHST : List RegSpec := [
  -- HST_CTL
  ⟨0x0C0000, 1, 0x0, 1, 0x0, false, [⟨⟨1, 1⟩, .rwl, 0x0, false⟩, ⟨⟨0, 0⟩, .rws, 0x1, true⟩]⟩,
  -- HST_STAT
  ⟨0x0C0008, 1, 0x0, 1, 0x0, false, [⟨⟨63, 32⟩, .ro, 0x0, true⟩, ⟨⟨2, 2⟩, .ro, 0x0, true⟩, ⟨⟨1, 1⟩, .rw1c, 0x0, false⟩, ⟨⟨0, 0⟩, .ro, 0x0, false⟩]⟩,
  -- HST_SEQ
  ⟨0x0C0010, 1, 0x0, 1, 0x0, true, [⟨⟨63, 0⟩, .ro, 0x0, false⟩]⟩,
  -- HST_RSEQ
  ⟨0x0C0018, 1, 0x0, 1, 0x0, true, [⟨⟨63, 32⟩, .ro, 0x0, true⟩, ⟨⟨31, 0⟩, .ro, 0x0, true⟩]⟩]

/-- The WME block's registers (access types and reset values as in the tables of the block). -/
def blockWME : List RegSpec := [
  -- WME_STATE
  ⟨0x0D0000, 1, 0x0, 1, 0x0, false, [⟨⟨61, 61⟩, .ro, 0x0, true⟩, ⟨⟨60, 60⟩, .ro, 0x0, false⟩, ⟨⟨57, 48⟩, .ro, 0x0, true⟩, ⟨⟨35, 0⟩, .ro, 0x876543210, true⟩]⟩,
  -- WME_REBUILD
  ⟨0x0D0008, 1, 0x0, 1, 0x0, false, [⟨⟨31, 28⟩, .ro, 0x0, false⟩, ⟨⟨27, 24⟩, .ro, 0x0, false⟩, ⟨⟨22, 0⟩, .ro, 0x0, false⟩]⟩,
  -- WME_CE_COUNT
  ⟨0x0D0010, 1, 0x0, 1, 0x0, true, [⟨⟨63, 0⟩, .ro, 0x0, true⟩]⟩,
  -- WME_UE_COUNT
  ⟨0x0D0018, 1, 0x0, 1, 0x0, true, [⟨⟨63, 0⟩, .ro, 0x0, true⟩]⟩,
  -- WME_CE_LOG_STAT
  ⟨0x0D0020, 1, 0x0, 1, 0x0, false, [⟨⟨20, 16⟩, .ro, 0x0, false⟩, ⟨⟨1, 1⟩, .rw1c, 0x0, false⟩, ⟨⟨0, 0⟩, .wo, 0x0, false⟩]⟩,
  -- WME_MERGE_STAT
  ⟨0x0D0028, 1, 0x0, 1, 0x0, false, [⟨⟨11, 8⟩, .ro, 0x0, false⟩, ⟨⟨3, 0⟩, .ro, 0x0, false⟩]⟩,
  -- WME_FLIP_MASK
  ⟨0x0D0030, 1, 0x0, 1, 0x0, false, [⟨⟨63, 0⟩, .rw, 0x0, false⟩]⟩,
  -- WME_FLIP_CTL
  ⟨0x0D0038, 1, 0x0, 1, 0x0, false, [⟨⟨63, 63⟩, .rw1s, 0x0, false⟩, ⟨⟨62, 62⟩, .rw, 0x0, false⟩, ⟨⟨47, 40⟩, .rw, 0x0, false⟩, ⟨⟨35, 32⟩, .rw, 0x0, false⟩, ⟨⟨21, 0⟩, .rw, 0x0, false⟩]⟩,
  -- WME_SCRUB_CTL
  ⟨0x0D0040, 1, 0x0, 1, 0x0, true, [⟨⟨63, 40⟩, .ro, 0x0, false⟩, ⟨⟨39, 23⟩, .rw, 0x258, false⟩, ⟨⟨22, 1⟩, .ro, 0x0, false⟩, ⟨⟨0, 0⟩, .rw, 0x1, false⟩]⟩,
  -- WME_CE_LOG
  ⟨0x0D0100, 16, 0x8, 1, 0x0, false, [⟨⟨63, 63⟩, .rw1c, 0x0, false⟩, ⟨⟨62, 62⟩, .ro, 0x0, false⟩, ⟨⟨61, 61⟩, .ro, 0x0, false⟩, ⟨⟨60, 53⟩, .ro, 0x0, false⟩, ⟨⟨52, 46⟩, .ro, 0x0, false⟩, ⟨⟨45, 42⟩, .ro, 0x0, false⟩, ⟨⟨21, 0⟩, .ro, 0x0, false⟩]⟩,
  -- WME_REMAP
  ⟨0x0D0200, 32, 0x8, 1, 0x0, false, [⟨⟨63, 63⟩, .ro, 0x0, true⟩, ⟨⟨45, 42⟩, .ro, 0x0, true⟩, ⟨⟨21, 0⟩, .ro, 0x0, true⟩]⟩]

/-- The SRB block's registers (access types and reset values as in the tables of the block). -/
def blockSRB : List RegSpec := [
  -- SRB_BANK
  ⟨0x0E0000, 8, 0x8, 1, 0x0, true, [⟨⟨63, 56⟩, .ro, 0x10, false⟩, ⟨⟨55, 48⟩, .ro, 0x0, false⟩, ⟨⟨47, 32⟩, .ro, 0x0, false⟩, ⟨⟨31, 28⟩, .ro, 0x0, false⟩, ⟨⟨14, 0⟩, .ro, 0x0, false⟩]⟩,
  -- SRB_TEST_CTL
  ⟨0x0E0040, 1, 0x0, 1, 0x0, false, [⟨⟨63, 48⟩, .ro, 0x0, false⟩, ⟨⟨47, 32⟩, .rw, 0xE10, false⟩, ⟨⟨19, 16⟩, .ro, 0x0, false⟩, ⟨⟨8, 8⟩, .rw, 0x1, false⟩, ⟨⟨7, 0⟩, .rw, 0xFF, false⟩]⟩,
  -- SRB_STASH
  ⟨0x0E0048, 1, 0x0, 1, 0x0, true, [⟨⟨63, 48⟩, .ro, 0x0, true⟩, ⟨⟨47, 40⟩, .ro, 0x0, true⟩, ⟨⟨39, 32⟩, .ro, 0x20, true⟩, ⟨⟨16, 16⟩, .ro, 0x0, true⟩, ⟨⟨15, 0⟩, .ro, 0x0, true⟩]⟩]

/-- The EFC block's registers (access types and reset values as in the tables of the block). -/
def blockEFC : List RegSpec := [
  -- EFC_UNLOCK
  ⟨0x0F0000, 1, 0x0, 1, 0x0, false, [⟨⟨15, 0⟩, .wo, 0x0, false⟩]⟩,
  -- EFC_CMD
  ⟨0x0F0008, 1, 0x0, 1, 0x0, false, [⟨⟨3, 0⟩, .wo, 0x0, false⟩]⟩,
  -- EFC_ADDR
  ⟨0x0F0010, 1, 0x0, 1, 0x0, false, [⟨⟨22, 22⟩, .rw, 0x0, false⟩, ⟨⟨21, 3⟩, .rw, 0x0, false⟩]⟩,
  -- EFC_DATA
  ⟨0x0F0018, 1, 0x0, 1, 0x0, false, [⟨⟨63, 0⟩, .rw, 0x0, false⟩]⟩,
  -- EFC_STAT
  ⟨0x0F0020, 1, 0x0, 1, 0x0, false, [⟨⟨33, 33⟩, .ro, 0x0, true⟩, ⟨⟨32, 32⟩, .ro, 0x0, true⟩, ⟨⟨31, 28⟩, .ro, 0x8, true⟩, ⟨⟨27, 24⟩, .ro, 0x8, true⟩, ⟨⟨11, 8⟩, .ro, 0x0, false⟩, ⟨⟨6, 6⟩, .ro, 0x0, false⟩, ⟨⟨5, 5⟩, .rw1c, 0x0, false⟩, ⟨⟨4, 4⟩, .rw1c, 0x0, false⟩, ⟨⟨3, 3⟩, .rw1c, 0x0, false⟩, ⟨⟨2, 2⟩, .rw1c, 0x0, false⟩, ⟨⟨1, 1⟩, .rw1c, 0x0, false⟩, ⟨⟨0, 0⟩, .ro, 0x0, false⟩]⟩]

end RegMap

end Sys2Proof
end

