-- ==== Sys2Proof/Machine/Table.lean ====
section
/-! DEFINITION. Sparse tables: lists of key and value pairs in one canonical form (keys strictly rising), and tables with a
default value, in which no entry equals its default. All larger stores of the machine are held this way. -/

namespace Sys2Proof.Machine

/-- A sparse table: pairs of key and value, keys strictly rising. -/
abbrev Tbl (α : Type) := List (Nat × α)

variable {α : Type}

/-- The value stored under a key. -/
def tget : Tbl α → Nat → Option α
  | [], _ => none
  | (i, v) :: t, k => if i = k then some v else tget t k

/-- Store a value under a key, keeping the keys in order. -/
def tput : Tbl α → Nat → α → Tbl α
  | [], k, v => [(k, v)]
  | (i, w) :: t, k, v =>
    if k < i then (k, v) :: (i, w) :: t
    else if k = i then (k, v) :: t
    else (i, w) :: tput t k v

/-- Remove a key. -/
def tdel (t : Tbl α) (k : Nat) : Tbl α := t.filter (fun e => decide (e.1 ≠ k))

/-- The keys of a table strictly rise. -/
abbrev TSorted (t : Tbl α) : Prop := t.Pairwise (fun a b => a.1 < b.1)

/-- Read a table whose unlisted keys hold `d`. -/
def dget (d : Nat → α) (t : Tbl α) (k : Nat) : α := (tget t k).getD (d k)

/-- Write a table whose unlisted keys hold `d`: writing the default removes the entry. -/
def dput [DecidableEq α] (d : Nat → α) (t : Tbl α) (k : Nat) (v : α) : Tbl α :=
  if v = d k then tdel t k else tput t k v

/-- The canonical form of a table with defaults: keys rise, and no entry equals its default. -/
abbrev TCanon (d : Nat → α) (t : Tbl α) : Prop := TSorted t ∧ ∀ e ∈ t, e.2 ≠ d e.1

/-- The entries whose value meets a test. -/
def tkeys (t : Tbl α) (p : α → Bool) : List Nat := (t.filter (fun e => p e.2)).map Prod.fst

/-- The first entry, in key order, whose key and value meet a test. -/
def tfind (t : Tbl α) (p : Nat → α → Bool) : Option (Nat × α) := t.find? (fun e => p e.1 e.2)

/-- Change the value under a key, if there is one. -/
def tmod (t : Tbl α) (k : Nat) (f : α → α) : Tbl α :=
  match tget t k with
  | none => t
  | some v => tput t k (f v)

/-- The first of the `n` numbers from `i` that meets a test. -/
def firstFrom (p : Nat → Bool) : Nat → Nat → Option Nat
  | 0, _ => none
  | n + 1, i => if p i then some i else firstFrom p n (i + 1)

/-- Those of the `n` numbers from `i` that meet a test. -/
def keepFrom (p : Nat → Bool) : Nat → Nat → List Nat
  | 0, _ => []
  | n + 1, i => if p i then i :: keepFrom p n (i + 1) else keepFrom p n (i + 1)

/-- Set element `i` of a list, if it exists. -/
def lset (l : List α) (i : Nat) (v : α) : List α := l.set i v

/-- Insert an element into a list in order, after those it does not precede. -/
def insertBy (lt : α → α → Bool) (x : α) : List α → List α
  | [] => [x]
  | y :: l => if lt x y then x :: y :: l else y :: insertBy lt x l

/-- A list in the order of a strict order, equals in their old order. -/
def sortBy (lt : α → α → Bool) (l : List α) : List α := l.foldl (fun a x => insertBy lt x a) []

/-- The least element of a list under a strict order. -/
def leastBy (lt : α → α → Bool) : List α → Option α
  | [] => none
  | a :: l =>
    match leastBy lt l with
    | none => some a
    | some b => some (if lt b a then b else a)

end Sys2Proof.Machine
end

