-- ==== Sys2Proof/Machine/Shipped.lean ====
section
/-! DEFINITION. Map entries and their CHK, the binding of hanks as shipped, and the digest of a map image (chapter 4). -/

namespace Sys2Proof.Machine

/-- A hank map or system map entry (Table 4-1); `chk` is the stored CHK. -/
structure MapEntry where
  phn : Nat
  key : Nat
  state : Nat
  isSealed : Bool
  ply : Nat
  hint : Bool
  heat : Nat
  chk : Nat
  deriving DecidableEq, Repr

/-- Fields of a PHN (Table 1-7). -/
def phnGrp (phn : Nat) : Nat := phn / 2 ^ 22 % 2
def phnAdie (phn : Nat) : Nat := phn / 2 ^ 19 % 8
def phnPart (phn : Nat) : Nat := phn / 2 ^ 15 % 16
def phnHwp (phn : Nat) : Nat := phn % 2 ^ 15

/-- One byte into the CRC-8 of R467. -/
def crc8Bits : Nat → Nat → Nat
  | 0, c => c
  | k + 1, c => crc8Bits k (if c / 128 % 2 = 1 then ((c * 2) % 256) ^^^ 0x07 else (c * 2) % 256)

def crc8 (bytes : List Nat) : Nat := bytes.foldl (fun c b => crc8Bits 8 (c ^^^ b)) 0xFF

/-- The `n` bytes of a number, little-endian. -/
def leBytes : Nat → Nat → List Nat
  | 0, _ => []
  | n + 1, v => v % 256 :: leBytes n (v / 256)

/-- The header of a selvedge half but for its CRC-32C: SEQ, state, trigger and section counts (Table 6-7). DESIGN CHOICE (log 93): the spec gives no
layout; they stand in this order. -/
def headerBytes (seq : Nat) (complete : Bool) (trig : Nat) (counts : Nat × Nat × Nat × Nat) : List Byte :=
  (leBytes 8 seq ++ leBytes 4 (if complete then 1 else 0) ++ leBytes 4 trig ++ leBytes 4 counts.1 ++ leBytes 4 counts.2.1 ++ leBytes 4 counts.2.2.1 ++
    leBytes 4 counts.2.2.2).map (BitVec.ofNat 8)

/-- Bits 55:0 of a map entry (Table 4-1). -/
def MapEntry.low (e : MapEntry) : Nat :=
  e.heat * 2 ^ 43 + (if e.hint then 2 ^ 41 else 0) + e.ply * 2 ^ 39 + (if e.isSealed then 2 ^ 38 else 0) + e.state * 2 ^ 35 +
    e.key * 2 ^ 23 + e.phn

/-- The CHK a map entry should hold (R467). -/
def MapEntry.goodChk (e : MapEntry) (idx : Nat) : Nat := crc8 (leBytes 7 e.low ++ leBytes 3 idx)

/-- A map entry with its CHK computed. -/
def MapEntry.sealChk (e : MapEntry) (idx : Nat) : MapEntry := { e with chk := e.goodChk idx }

/-- A map entry as a 64-bit word. -/
def MapEntry.word (e : MapEntry) : W64 := BitVec.ofNat 64 (e.chk * 2 ^ 56 + e.low)

/-- Hanks of the host map and of the system map, and anchor hanks (R43, Table 4-3). -/
def hostHanks : Nat := 6291456
def sysHanks : Nat := 199744
def anchorHanks : Nat := 672

/-- The physical hank in place `x` of a group, and the place of one: the unit's own permutation (R468). -/
def placeIn (g : Bool) (x : Nat) : Nat := (if g then 2 ^ 22 else 0) + (Config.groupPerm g (Fin.ofNat (2 ^ 22) x)).val
def placeOf (phn : Nat) : Nat := ((Config.groupPerm (phnGrp phn == 1)).symm (Fin.ofNat (2 ^ 22) phn)).val

/-- The physical hank as shipped of hank `r` of those that no group is given for: host hanks, then anchor hanks, then the free ones. -/
def shippedRest (r : Nat) : Nat :=
  let y := (Config.restPerm (Fin.ofNat 8188864 r)).val
  placeIn (y % 2 == 1) (99872 + y / 2)

/-- The physical hank as shipped of a host hank, a system map entry (copy A in group 0, copy B in group 1, R263) and an anchor hank. -/
def shippedPhn (lhn : Nat) : Nat := shippedRest (lhn % hostHanks)
def shippedSysPhn (idx : Nat) : Nat := placeIn (decide (99872 ≤ idx % sysHanks)) (idx % sysHanks % 99872)
def shippedAnchor (n : Nat) : Nat := shippedRest (hostHanks + n % anchorHanks)

/-- What a physical hank was bound to as shipped. -/
inductive Owner where
  | host (lhn : Nat)
  | sys (idx : Nat)
  | anchor (n : Nat)
  | free
  deriving DecidableEq, Repr

/-- The shipped binding, backwards. -/
def shippedOwner (phn : Nat) : Owner :=
  let x := placeOf phn
  if x < 99872 then .sys (99872 * phnGrp phn + x)
  else
    let r := (Config.restPerm.symm (Fin.ofNat 8188864 (2 * (x - 99872) + phnGrp phn))).val
    if r < hostHanks then .host r else if r < hostHanks + anchorHanks then .anchor (r - hostHanks) else .free

/-- Whether a physical hank is in the free pool as shipped (R131, Table 4-3). -/
def shippedFree (phn : Nat) : Bool := shippedOwner phn == .free

/-- The shipped entries (R468, R131): every host hank MAPPED to slot 0, counter hanks bound to their groups (R263). -/
def shippedHost (lhn : Nat) : MapEntry :=
  MapEntry.sealChk { phn := shippedPhn lhn, key := 0, state := 1, isSealed := false, ply := 0, hint := false, heat := 0, chk := 0 } lhn
def shippedSys (idx : Nat) : MapEntry :=
  MapEntry.sealChk { phn := shippedSysPhn idx, key := 0, state := 1, isSealed := false, ply := 0, hint := false, heat := 0, chk := 0 } idx

/-- The digests of a hank map image and of a system map image, each over its entries of eight bytes (R132). -/
def imageDigest (host sys : Tbl MapEntry) : BitVec 384 × BitVec 384 :=
  (Config.sha384Long (8 * hostHanks) fun n => (dget shippedHost host (n / 8)).word.extractLsb' (8 * (n % 8)) 8,
   Config.sha384Long (8 * sysHanks) fun n => (dget shippedSys sys (n / 8)).word.extractLsb' (8 * (n % 8)) 8)

end Sys2Proof.Machine
end

