-- ==== Sys2Proof/Machine/State.lean ====
section
/-! DEFINITION. The state of the module as plain data, its state after reset, and the reasons a step can stop. Every register
bit of BAR2/3 stands in `regs`; the other fields hold the memories, queues, tables and pins that the spec gives the module. -/

namespace Sys2Proof.Machine

/-! ### The data path: maps, medium, counters, pool, cache (chapters 1, 3, 4, 5, 8) -/

/-- A stored line (Table 3-1) without its check fields, which are functions of the rest. -/
structure Stored where
  ct : Line
  tag : BitVec 56
  poison : Bool
  role : Bool
  wep : Nat
  deriving DecidableEq, Repr

/-- A counter block (Table 8-5): `min` lists the non-zero minors. -/
structure CBlock where
  z : Bool
  lost : Bool
  maj : Nat
  min : Tbl Nat
  deriving DecidableEq, Repr

/-- A node in the counter cache (R267): its block, its write-back deadline while dirty, whether it stands on chip, and its way of the
working-memory level. -/
structure CacheNode where
  blk : CBlock
  due : Option Nat
  onChip : Bool
  way : Nat := 0
  deriving DecidableEq, Repr

/-- How a pool line is paid for (R472): a pool credit, a shadow credit, or none (an image line of a replay). -/
inductive PoolKind where
  | credit | shadow | image
  deriving DecidableEq, Repr

/-- A line of the persistence pool. `master` is the LD (0–15), 16 or 17 for a line held for HL-A or HL-B, 18 for the module's
own. `slot` is its slot of the pool (R185); `bucket` the directory bucket (none: overflow area); `op` the write-back in flight; `again`:
written since it began. -/
structure PoolLine where
  data : Line
  key : Nat
  poison : Bool
  kind : PoolKind
  accept : Nat
  due : Nat
  master : Nat
  slot : Nat
  bucket : Option Bool
  op : Option Nat
  again : Bool
  deriving DecidableEq, Repr

/-- A line of the line cache, keyed by 16 × set + way (R176); `poison` follows a poisoned write to the line (R23). -/
structure CacheLine where
  line : Nat
  data : Line
  poison : Bool
  deriving DecidableEq, Repr

/-- What waits for a line: a host request of the deadline table, or line `k` of a ring command. -/
inductive Waiter where
  | host (seq : Nat)
  | cmd (id k : Nat)
  deriving DecidableEq, Repr

/-- What a medium read is for. -/
inductive Purpose where
  /-- serve the waiters, filling the cache when `fill` (R177, R179) -/
  | serve (ws : List Waiter) (fill : Bool)
  /-- old line of a stripe operation (R133) -/
  | old (op : Nat)
  /-- a line of the old-page reads of a merge buffer entry (R96); `counted`: admission counted it against the read slots (R95) -/
  | page (entry : Nat) (counted : Bool)
  /-- one of the 16 reads of the stripe rebuild of another read (R22, R99) -/
  | part (parent : Nat)
  deriving DecidableEq, Repr

/-- Where a medium read stands (steps 5 to 14 of Table 2-2). -/
inductive RStage where
  | queued | valley | latched | rebuild | crypto | served
  deriving DecidableEq, Repr

/-- A medium read: logical line, position (`d` = 16 for the parity page), stage, the line read, the counter nodes still to be
fetched (level, index), the crypto engine, and the tick from which it is an interruption. `busy`: its sense runs, at the threshold
`thr` (R83, R105). `need`: the stripe reads of its rebuild still to come, whose XOR so far stands in `stored`; `bad`: the pages of
those that did not decode (R99, R100). -/
structure ReadOp where
  line : Nat
  phn : Nat
  s : Nat
  d : Nat
  j : Nat
  stage : RStage
  stored : Stored
  key : Nat
  nodes : List (Nat × Nat)
  engine : Nat
  onset : Option Nat
  purpose : Purpose
  busy : Bool
  thr : Nat
  need : Nat
  bad : List Nat
  deriving DecidableEq, Repr

/-- One data line of a stripe operation: logical line, data page, line in page, its new plaintext, key, poison, and the new
stored form once encrypted. -/
structure SLine where
  line : Nat
  d : Nat
  j : Nat
  data : Line
  key : Nat
  poison : Bool
  deriving DecidableEq, Repr

/-- What a stripe operation is: a pool write-back (R133), a write-through merge entry (R187), the refresh of a page (R114), the recompute of a
parity-suspect stripe (R134), the copy of a stripe by migration `mig` (R142), or a page of the die rebuild of channel `ch` (R119). -/
inductive SKind where
  | writeBack | through (entry : Nat) | refresh | recompute | copy (mig : Nat) | rebuild (ch : Nat)
  deriving DecidableEq, Repr

/-- A stripe operation: programs of one stripe in flight. `need`: old lines still to be read; `olds`: old stored lines by
8 × d + j; `full`: a full-stripe write; `started`: its programs have been formed; `left`: those not yet verified;
`failed`: the pages whose program failed (R90); `reparity`: the parity page is programmed once more (R136); `pages`: the pages that a refresh,
a die rebuild or a recompute programs, by bit. -/
structure StripeOp where
  kind : SKind
  phn : Nat
  s : Nat
  lines : List SLine
  need : Nat
  olds : Tbl Stored
  nodes : List (Nat × Nat)
  full : Bool
  started : Bool
  left : List Nat
  failed : List Nat
  reparity : Bool
  pages : Nat
  deriving DecidableEq, Repr

/-- The internal operations that hold an operation table entry of their own. -/
inductive OpKind where
  | read (r : ReadOp)
  | stripe (o : StripeOp)
  deriving DecidableEq, Repr

/-- An entry of the operation table (R20): deadline, EDF class (0 read, 1 write, 2 internal), LD, sequence number (R72, R73),
PMC class (Table 13-2) and master. -/
structure Op where
  kind : OpKind
  deadline : Nat
  rank : Nat
  ld : Nat
  seq : Nat
  cls : Nat
  master : Nat
  deriving DecidableEq, Repr

/-- What a page program writes: a page of a stripe, the swatch page of an epoch with the EPOCH and STEP of its line 0 (R107), the next
page of a die rebuild on the spare die (R119), or a page of a migration's copy of physical hank `src` (R142). -/
inductive PgmKind where
  | page
  | swatch (epoch step : Nat)
  | rebuild
  | copy (src : Nat)
  deriving DecidableEq, Repr

/-- A page program (R88): channel, physical die, partition, position (phn, s, d), the stored lines it writes by line in page,
lines not yet transferred, stitches done, deferrals, the tick of its first stitch, whether a stitch runs, and its operation. -/
structure Program where
  kind : PgmKind
  ch : Nat
  die : Nat
  part : Nat
  phn : Nat
  s : Nat
  d : Nat
  lines : Tbl Stored
  toMove : Nat
  stitches : Nat
  deferrals : Nat
  start : Option Nat
  running : Bool
  op : Option Nat
  deadline : Nat
  deriving DecidableEq, Repr

/-- States of a write-through merge buffer entry (R187). -/
inductive MbState where
  | opened | read | merged | program
  deriving DecidableEq, Repr

/-- A line of a merge buffer entry: data, key, poison, the requests to complete, and the acceptance tick of its newest write. -/
structure MbLine where
  data : Line
  key : Nat
  poison : Bool
  seqs : List Nat
  line : Nat
  accept : Nat
  deriving DecidableEq, Repr

/-- A merge buffer entry: the data page (phn, s, d), its lines by line in page, its deadline, whether it is one of the four
held entries (R186), and its stripe operation; the class and LD of the request of that deadline (R72). `need`: lines of its old pages still to be read (R187). `stuck`: its program failed and
a retirement carries its lines (R146). -/
structure MbEntry where
  state : MbState
  phn : Nat
  s : Nat
  d : Nat
  lines : Tbl MbLine
  due : Nat
  rank : Nat
  ld : Nat
  held : Bool
  op : Option Nat
  need : Nat
  stuck : Bool
  deriving DecidableEq, Repr

/-- An MSHR (R179): the medium read it tracks, its secondaries, and whether a write to the line came meanwhile (R177). -/
structure Mshr where
  op : Nat
  secondaries : Nat
  wrote : Bool
  deriving DecidableEq, Repr

/-- Kinds of host request (Table 2-1). -/
inductive ReqKind where
  | read | write | part
  deriving DecidableEq, Repr

/-- An entry of the deadline table (R48): kind, LD, DPA, logical line, acceptance tick, tick the bound counts from, deadline (none while the
skein is not ready, R52), whether it is routed, data and byte mask of a write, its write guard cover (true: a pool credit set
aside, R61), the link whose MIRROR_ACK it waits for, and whether it waits for a translation credit or in translation for room.
`merged`: a partial write whose old line is merged; `wpol` and `key`: the write policy and the key index under which it was routed (R183, R253). -/
structure DlEntry where
  kind : ReqKind
  ld : Nat
  dpa : Nat
  line : Nat
  accept : Nat
  base : Nat
  deadline : Option Nat
  routed : Bool
  data : Line
  mask : BitVec 64
  cover : Bool
  mirror : Option Nat
  stuck : Bool
  merged : Bool
  wpol : Option Nat
  key : Option Nat
  deriving DecidableEq, Repr

/-- Migration kinds (R139, R140, R145, R147). -/
inductive MigKind where
  | wear | static | retire | evac
  deriving DecidableEq, Repr

/-- Migration journal states (Table 4-4); `verifying` and `waiting` are the steps between records. -/
inductive MigState where
  | copying | verifying | copied | committed | released
  deriving DecidableEq, Repr

/-- A migration journal slot (R142): map select and index, source, destination, kind, state, the stripes copied, from MIG_COPIED on the
digest of the destination, and its deadline (R53, R145). `again`: the stripes that have been copied a second time (R142); `bad`: a program of
the copy failed, so that the destination is to be retired (R145). -/
structure Mig where
  sys : Bool
  idx : Nat
  src : Nat
  dst : Nat
  kind : MigKind
  state : MigState
  bitmap : BitVec 128
  again : BitVec 128
  digest : BitVec 384
  due : Nat
  bad : Bool
  deriving DecidableEq, Repr

/-- A map journal record (R129). -/
structure JRec where
  seq : Nat
  sys : Bool
  idx : Nat
  entry : MapEntry
  deriving DecidableEq, Repr

/-- A map checkpoint image (R130, R132): the entries that differ from the shipped binding, and the sequence number at which it
began; `done` once its digests, of the hank map image and of the system map image, are recorded in ANCHOR, with those digests. -/
structure Image where
  host : Tbl MapEntry
  sys : Tbl MapEntry
  seq : Nat
  done : Bool
  digest : BitVec 384 × BitVec 384
  deriving DecidableEq, Repr

/-- Work on a whole hank that runs in the background of a command or of the module: which kind it is. -/
inductive HankWork where
  /-- background zeroing after a hint discard (R152) -/
  | hint
  /-- ZERO_HANKS, KEY_BIND, FM API removal (R153, R254, R156) -/
  | zero (cmd : Option Nat)
  /-- secure discard (R154) -/
  | secure (cmd : Option Nat)
  deriving DecidableEq, Repr

/-- The hank store: maps, free pool, wear, journals, migrations, discards (chapter 4). `anchor` is the anchor table (R131); `wearSub` the
programs of a hank below one unit of its ledger entry (R138); `retireQ` the retirements that cannot start yet: map select, index and the
deadline of the lines that wait (R145); `failedAt` the stripes (128 × hank + stripe) whose program failed and that no destination holds yet
(R146). -/
structure Hanks where
  host : Tbl MapEntry
  sys : Tbl MapEntry
  anchor : Tbl Nat
  free : Tbl Bool
  wear : Tbl Nat
  wearSub : Tbl Nat
  heatSub : Tbl Nat
  cursor : Nat
  journal : List JRec
  seq : Nat
  ckptRun : Option Nat
  imgA : Image
  imgB : Image
  rmw : Tbl Nat
  suspect : Tbl Nat
  dead : Tbl Nat
  migs : Tbl Mig
  nextMig : Nat
  retireQ : List (Bool × Nat × Nat)
  tookLast : Option (Nat × Nat × Nat × Nat)
  failedAt : List Nat
  work : Tbl HankWork
  zeroed : Tbl (List Nat)
  evac : List Nat
  sweep : Nat
  retireAttr : Tbl Nat
  dropAttr : Tbl Nat
  restore : List (Bool × Nat)
  fillRebuild : Bool
  mapsReady : Bool
  poweredTicks : Nat
  deriving DecidableEq, Repr

/-- A swatch page (R107): the EPOCH and STEP in its line 0 with the check stored over them, and the pattern in each of its lines 1 to 7. -/
structure SwatchPage where
  epoch : Nat
  step : Nat
  check : BitVec 64
  pattern : Line
  deriving DecidableEq, Repr

/-- The medium and its channels (chapter 3). `swatch`: the swatch pages, by 64 × (9 × channel + die) + page (R107); `swatchDue`: the dies whose
swatch page waits to be programmed; `stitched`: the row in which each partition started its newest stitch, by 16 × (9 × channel + die) +
partition (R87); `blankAll`: the label of the blank pages, and `blankWep`: that of a hank blanked on its own; `window`: the stitches of a die's programs, with the copy that the Stash holds (R92); `timeSaved`: medium time as saved in the
Stash (R102); `refreshQ`: pages queued for refresh with their deadlines (R101); `corrupt`: stored lines that INJECT_FAULT has corrupted
beyond decode (Table 12-10). -/
structure Medium where
  lines : Tbl Stored
  blankAll : Nat
  blankWep : Tbl Nat
  progs : Tbl Program
  nextProg : Nat
  labels : Tbl (Nat × Nat)
  swatch : Tbl (Option SwatchPage)
  swatchDue : List (Nat × Nat)
  stitched : Tbl Nat
  window : Tbl (List Nat)
  windowSaved : Tbl (List Nat)
  timeSaved : Nat
  rescues : Tbl (List Nat)
  fails : Tbl (List Nat)
  starts : Tbl (List Nat)
  restartAt : Tbl Nat
  refreshQ : List (Nat × Nat × Nat × Nat)
  staged : Tbl (Tbl Stored)
  plan : Tbl Nat
  eDown : Option (Nat × Nat)
  wallDown : Option Int
  gapDone : Bool
  hankRescue : Tbl Nat
  sweepPages : Nat
  corrupt : List Nat
  deriving DecidableEq, Repr

/-- The record of a key slot in the Stash (Table 8-3), but for KEYIDX, its place, and the bytes that are zero. -/
structure KeySlot where
  state : Nat
  wkey : BitVec 320
  gen : Nat
  kcv : Nat
  crc : BitVec 32
  deriving DecidableEq, Repr

/-- What the on-chip key store holds for a slot (R251): the key, and the hash key of R245. -/
structure KeyMat where
  key : BitVec 256
  h : BitVec 128
  deriving DecidableEq, Repr

/-- Counters and crypto (chapter 8): node copies in the medium and the Stash by level × 2^32 + index, the counter cache, the
key records, the volatile key store, MAXMAJ's record, and the engines' work. -/
structure Crypto where
  nodes : Tbl CBlock
  cache : Tbl CacheNode
  slots : Tbl KeySlot
  store : Tbl KeyMat
  rootSeq : Nat
  gen : Nat
  rmin : Tbl Nat
  rmaj : Nat
  retiring : Tbl (Option Nat)
  eraseCount : Nat
  base : Nat
  ideMem : Tbl (BitVec 256)
  ideIo : Tbl (BitVec 256)
  ideMemSecure : Bool
  ideIoSecure : Bool
  ideMemFailed : Bool
  deriving DecidableEq, Repr

/-- A maintenance operation in progress (R182): OP of Table 5-7, scope (0 all, 1 set, 2 set/way, 3 lines `a` to `b`), set or first
line, way or last line, the ring command it serves, the lines its clean still waits for, and whether its full invalidation runs. -/
structure Maint where
  op : Nat
  scope : Nat
  a : Nat
  b : Nat
  cmd : Option Nat
  left : List Nat
  inval : Bool
  deriving DecidableEq, Repr

/-- A line that a command writes and that waits in translation for room in the pool or the merge buffer (R25, R28). `alone`: written by a poison
command of a mailbox, which is not mirrored (R364); `wpol` and `key`: the write policy and the key index under which it was routed. -/
structure WaitLine where
  line : Nat
  data : Line
  poison : Bool
  master : Nat
  accept : Nat
  cmd : Nat
  alone : Bool
  wpol : Nat
  key : Nat
  deriving DecidableEq, Repr

/-- Pool, merge buffer, line cache and MSHRs (chapter 5), the lines of commands that wait for room, oldest first, the lines that fills
brought into the cache in this tick (R191), and the TLC_ATTR values that writes of this tick replaced (R183). -/
structure Tlc where
  pool : Tbl PoolLine
  mb : Tbl MbEntry
  cache : Tbl CacheLine
  mshr : Tbl Mshr
  inval : Bool
  dirKey : Nat
  maint : Option Maint
  waits : List WaitLine
  filled : List Nat
  attrs0 : Tbl W64
  deriving DecidableEq, Repr

/-- A narrow-write merge entry (R172): pending bytes and their mask, and the QCLK cycle of its first write as an order. -/
structure Narrow where
  bytes : Line
  mask : BitVec 64
  order : Nat
  deriving DecidableEq, Repr

/-- Working memory controller (chapter 5): stored faults by device and WMA (XOR pattern over 72 bits), stuck words, spare
words, narrow-write entries, recent uncorrectable ticks per device. -/
structure Wm where
  errs : Tbl (BitVec 72)
  hard : List Nat
  narrow : Tbl Narrow
  order : Nat
  ueTicks : Tbl (List (Nat × Nat))
  deriving DecidableEq, Repr

/-! ### Admission, time and the event queues (chapters 1, 2, 11, 13) -/

/-- A credit consumed and not yet returned to the link (R62, R64): kind (RwD) and the LD that consumed it. -/
structure Owed where
  rwd : Bool
  ld : Nat
  deriving DecidableEq, Repr

/-- A write of a reservation register in this tick (Table 2-22): its path (0 ring, 1 register, 2 FM API), party, the bits it writes, their value,
and the register before it. -/
structure ResvWrite where
  path : Nat
  party : Nat
  mask : W64
  val : W64
  prev : W64
  deriving DecidableEq, Repr

/-- Admission: sequence counter (R73), credits out at the link (Req count; RwD covers, true for a pool credit set aside, R61),
credits owed, tokens of credit issued in this row and the last, guards that withheld a credit in this row (as ADM_STATUS bits),
live balances in 1/16 tokens, tokens charged in this row, the parties
held, the row last started (tick + 1), the deadline table, the operation table, open faults with the tick of the onset, and
past interruptions (R80); whether RwD credit may be given (R234); the occupancies of the rows of the last 1 ms, newest first (R77, R349), and the tick of the newest accepted request, for the
activity LED (R373); the reservation words in force in this row, none before the first (R68), and the row's scale; and the writes of reservation registers in this tick (R81). -/
structure Adm where
  seq : Nat
  reqOut : Nat
  covers : List Bool
  owed : List Owed
  issued : Nat
  withheld : Nat
  bal : List Int
  charged : List Nat
  held : List Bool
  rowAt : Nat
  dl : Tbl DlEntry
  ops : Tbl Op
  nextOp : Nat
  faults : List Nat
  onset : Nat
  intrs : List (Nat × Nat)
  critical : Bool
  rwdOn : Bool
  occs : List Nat
  lastReq : Option Nat
  inForce : List W64
  rowScale : Nat
  resvLog : List ResvWrite
  deriving DecidableEq, Repr

/-- Supplies, pins and clocks (chapters 1, 7, 16), device time (R41) and the wall time offset in ns (R42) with the one that
applies from the next tick; `timeSet`: Set Timestamp has come since cast-on, and `firstOffset` the offset that the first one set (R111); `wallSet`: since device time began, so that wall time is
valid (Table 9-6); `castAt`: the tick of the newest cast-on; the registers as they stood when the tick began, the bits of RW1C fields that hardware has
set in this tick, and whether software wrote 1 to the flip mask's ARMED in this tick (R17). -/
structure Clk where
  now : Nat
  p12v : Bool
  aux : Bool
  pll : Bool
  offset : Int
  nextOffset : Option Int
  timeSet : Bool
  firstOffset : Int
  wallSet : Bool
  castAt : Nat
  regs0 : Tbl W64
  armAgain : Bool
  deriving DecidableEq, Repr

/-- An event record (Tables 8-8, 11-8, 13-5): class, severity, AKIND, LD (0xFFFF none), ADDR, REPEAT, device time of the first
and the last, wall time at creation, ARGs or data, the handle in its log, and the handle of the other record of a pair. -/
structure Event where
  cls : Nat
  sev : Nat
  akind : Nat
  ld : Nat
  addr : Nat
  rep : Nat
  first : Nat
  last : Nat
  wall : Int
  args : List Nat
  handle : Nat
  pair : Nat
  deriving DecidableEq, Repr

/-- A CXL event log (R36, R37, R359): its records in order (a marker is a record of class GAP), the next handle, overflow count
and its first and last wall time. -/
structure Log where
  recs : List Event
  nextHandle : Nat
  ovf : Nat
  ovfFirst : Int
  ovfLast : Int
  deriving DecidableEq, Repr

/-- A record of the history ring (Table 13-5). -/
structure HistRec where
  ev : Event
  log : Nat
  caston : Nat
  rseq : Nat
  deriving DecidableEq, Repr

/-- The extremes of one histogram kind (R401): value, LD, cast-on count and tick of the largest and of the smallest. -/
structure Extreme where
  max : Nat
  maxLd : Nat
  maxCast : Nat
  maxTick : Nat
  min : Nat
  minLd : Nat
  minCast : Nat
  minTick : Nat
  deriving DecidableEq, Repr

/-- Counting and remembering (chapter 13): previous level of each counter's condition, bytes of the bandwidth windows in
progress (`bytes0`: as the tick began), the tick of the last window end and whether the window was discarded, histogram bins on chip and flushed by 33 × (16 × kind + LD) + bin, extremes,
the ingest queue, the record ring, the header words, and the tick at which GEN was last written 1. -/
structure Hist where
  prev : List Bool
  bytes : List Nat
  bytes0 : List Nat
  winAt : Option Nat
  winLive : Bool
  bins : Tbl Nat
  flushed : Tbl Nat
  ext : Tbl Extreme
  ingest : List HistRec
  ring : Tbl HistRec
  resetTick : List Nat
  resetCast : List Nat
  flushes : Nat
  dirty : Bool
  genAt : Option Nat
  deriving DecidableEq, Repr

/-! ### The reserve, bind-off and cast-on (chapters 6, 7) -/

/-- A capacitor bank beside its GAU_BANK fields: tested capacitance in 0.1 µF and the zone temperature of the test (R470), the
voltage it holds by itself in mV while it is off the bus, and the device time of its last test. -/
structure Bank where
  cTest : Nat
  tTest : Int
  own : Nat
  testedAt : Nat
  deriving DecidableEq, Repr

/-- What bind-off dumps, as it stands at the freeze (R210): SRC, KEYIDX, ADDR and the flags of its index entry, and the line (SRC 0 to 2) or the
counter block (SRC 3). -/
structure DumpItem where
  src : Nat
  key : Nat
  addr : Nat
  poison : Bool
  ply : Bool
  data : Line
  blk : CBlock
  deriving DecidableEq, Repr

/-- An item of a selvedge image, its index entry (Table 6-8) with the stored CHK, and its stored line (R217). -/
structure Item where
  src : Nat
  key : Nat
  addr : Nat
  poison : Bool
  ply : Bool
  chk : Nat
  stored : Stored
  deriving DecidableEq, Repr

/-- A selvedge half (R213–R215): its header, with SEQ, state (true: COMPLETE), trigger, section counts (counter, merge buffer, spill, pool) and
CRC-32C, its items in index order, and whether it has been blanked since its last replay. -/
structure Selvedge where
  seq : Nat
  complete : Bool
  trig : Nat
  counts : Nat × Nat × Nat × Nat
  crc : BitVec 32
  items : List Item
  blanked : Bool
  deriving DecidableEq, Repr

/-- Phases of the bind-off record (R213): 0 STARTED, 1 FROZEN, 2 INDEXED, 3 SECTIONS, 4 COMPLETE. -/
structure BindRec where
  seq : Nat
  trig : Nat
  tick : Nat
  phase : Nat
  cut : Bool
  counted : Bool
  half : Bool
  nCtr : Nat
  nMb : Nat
  nSpill : Nat
  nPool : Nat
  watermark : Nat
  medium : Option (Nat × Nat)
  wall : Option Int
  aTrig : Nat
  aTick : Nat
  aPhase : Nat
  noImage : Bool
  deriving DecidableEq, Repr

/-- What of the module is powered (R204–R207, R227): no supply; D0 alone; cast-on or service; a bind-off by phase; BOUND;
switched off by PWRDIS; waiting for P12V to be stable after a bind-off (R219); thermal shutdown (R431). -/
inductive Power where
  | none | aux | on | bindoff | bound | waitP12v
  deriving DecidableEq, Repr

/-- The reserve, the gauge and bind-off (chapter 6). `lastTest`: the active bank tested last, `wantSpare`: lost banks that wait for a spare under
test, `apart`: a bank whose test a bind-off abandoned, `charged`: the bus has reached 33.0 V in this cast-on, `p12vFell`: P12V has failed
under the bind-off, `noRec`: power has gone without a bind-off record, `dump`: what the freeze fixed, `rcd` and `rcdB`: the two copies of the
bind-off record. -/
structure Energy where
  banks : Tbl Bank
  vbus : Nat
  capTemp : Int
  phases : Nat
  test : Option (Nat × Option Nat)
  testSpare : Bool
  trig : Nat
  drained : Bool
  low : Bool
  lastTest : Option Nat
  wantSpare : Nat
  apart : Option Nat
  charged : Bool
  p12vFell : Bool
  noRec : Bool
  dump : List DumpItem
  rcd : BindRec
  rcdB : BindRec
  halfA : Selvedge
  halfB : Selvedge
  zoneMap : List Nat
  prepareCmd : Option Nat
  pwrdis : Bool
  gpf : Bool
  deriving DecidableEq, Repr

/-- Cast-on (chapter 7): which functions have come up beside RDY_STATUS, the lost items of the replay, the zones and skeins
that still hold work, and the L3 image; `failed`: the items of the image that the replay is to find wrong, by index number, with whether
their index entry is. -/
structure Cast where
  l3 : Bool
  failed : List (Nat × Bool)
  replayLeft : List Nat
  ctrLeft : List Nat
  held : Bool
  deriving DecidableEq, Repr

/-! ### Helra links, two-ply and the chain (chapter 10) -/

/-- What a packet to be sent carries (Table 10-3). -/
inductive PktBody where
  | hello (d : HelloData)
  | auth (part : Nat) (last : Bool) (kind : Nat)
  | mirrorWrite (region hoff line : Nat) (lines : List Line) (seqs : List Nat)
  | mirrorAck (aseq : Nat)
  | resyncReq (op region part : Nat) (resp : Bool) (status : Nat) (args : List Nat) (rcd : Option LedgerRec)
  | resyncData (region hoff line pmask : Nat) (lines : List Line)
  | chain (m : ChainMsg)
  | claim (c : ClaimMsg)
  | credit (mirror resync chain : Nat)
  | nak (expseq : Nat)
  deriving DecidableEq, Repr

/-- A packet waiting for the transmitter, with its deadline (R318). -/
structure TxPkt where
  body : PktBody
  deadline : Nat
  deriving DecidableEq, Repr

/-- A line of the mirror-out queue: the host request, its region, hank offset and line, data, deadline (R317, R327) and LD. -/
structure MirrorLine where
  seq : Nat
  region : Nat
  hoff : Nat
  line : Nat
  data : Line
  deadline : Nat
  ld : Nat
  deriving DecidableEq, Repr

/-- A line of a mirror spill queue (R330). -/
structure SpillLine where
  line : Nat
  key : Nat
  data : Line
  poison : Bool
  deriving DecidableEq, Repr

/-- The holder of a region (R322): its SERIAL and the area base there. -/
structure Holder where
  serial : Nat
  base : Nat
  deriving DecidableEq, Repr

/-- A seal record held for the neighbour (R336): the area, the record, its extent within the region (hank offset and count), and
whether both parts have come. -/
structure HeldSeal where
  region : Nat
  rcd : LedgerRec
  hoff : Nat
  count : Nat
  whole : Bool
  deriving DecidableEq, Repr

/-- An operation on a replica that waits for the link or for the holder's answer (R331, R335): OP and DATA of Table 10-12, the
record of SEAL and RELEASE, whether it has been sent, and the ring command it holds. -/
structure PlyOp where
  op : Nat
  region : Nat
  args : List Nat
  rcd : Option LedgerRec
  sent : Bool
  cmd : Option Nat
  deriving DecidableEq, Repr

/-- A resync in progress (R331, R332): region, full or spill replay, its step (0 waiting for admission, 1 BEGIN sent, 2 sending,
3 END sent), the lines still to send, and the deadline of the operation, which its packets carry (R318). -/
structure Sync where
  region : Nat
  full : Bool
  step : Nat
  left : List (Nat × Nat)
  due : Nat
  deriving DecidableEq, Repr

/-- A Helra link (R307–R336): its queues (`mirrorWait`: lines that wait in translation for a mirror-out credit, R47), session counters (ESEQ of the next packet sent and expected), the peer's HELLO, the
progress of authentication, the replay buffer and the replay in progress, MIRROR_WRITEs without MIRROR_ACK, credits received, used and given per class, pool
credits set aside (R316), regions' holders, areas' senders, held seals, pending operations, spill queue and resync, and the wait before training again, in ms from `downAt` (R307); `late`: the
MIRROR_WRITEs without MIRROR_ACK when the link last left UP, in tick `lateAt` (R81). -/
structure Link where
  mirrorOut : List MirrorLine
  mirrorWait : List MirrorLine
  tx : List TxPkt
  replay : List (Nat × TxPkt × Nat)
  replaying : Option Nat
  replays : List Nat
  txSeq : Nat
  rxSeq : Nat
  uctr : Nat
  rxUctr : Nat
  ackDue : Bool
  nakDue : Option Nat
  creditDue : Bool
  got : List Nat
  used : List Nat
  given : List Nat
  rxUsed : List Nat
  unacked : List (Nat × PktBody)
  peer : Option HelloData
  authIn : List AuthPart
  authOk : Bool
  confirmSent : Bool
  confirmOk : Bool
  peerKey : BitVec 384 × BitVec 384
  holders : Tbl Holder
  senders : Tbl Nat
  seals : List HeldSeal
  ops : List PlyOp
  setPly : Option (Nat × Nat × Nat × Nat)
  spill : List SpillLine
  sync : Option Sync
  wantSync : List Nat
  backoff : Nat
  downAt : Nat
  lastRx : Nat
  lastCredit : Nat
  late : List (Nat × PktBody)
  lateAt : Nat
  deriving DecidableEq, Repr

/-- A chain walk, relay or status request in progress: its command, the MID and class it sent, and the replies received, by UADDR (R390). -/
structure Walk where
  cmd : Nat
  mid : Nat
  kind : Nat
  dest : Nat
  replies : Tbl (List Byte)
  deriving DecidableEq, Repr

/-- The chain (R337–R341): messages seen, next MID, claims seen, the candidate address (none: not claiming), the round of its claim,
whether that has been beaten, addresses heard held or won by others, the inbox with ticks of arrival, and the walks in progress. -/
structure Chain where
  seen : List (Nat × Nat)
  mid : Nat
  seenClaims : List (Nat × Nat × Nat × Bool)
  cand : Option Nat
  claimRound : Nat
  beaten : Bool
  taken : List Nat
  inbox : List (Nat × ChainMsg)
  walks : Tbl Walk
  firstUp : Bool
  deriving DecidableEq, Repr

/-! ### CXL attachment and sideband (chapter 11) -/

/-- A logical device: base hank, hanks held, and its QoS numbers as last set by the fabric manager (R43, R349, R70). -/
structure LdCap where
  base : Nat
  count : Nat
  deriving DecidableEq, Repr

/-- An HDM decoder (R351): base and size of the HPA range, interleave ways and granularity (bytes), position of the module in
the interleave set, DPA skip and start, lock, and poison on decode error. -/
structure Hdm where
  base : Nat
  size : Nat
  ways : Nat
  gran : Nat
  pos : Nat
  dpa : Nat
  locked : Bool
  poisonErr : Bool
  deriving DecidableEq, Repr

/-- What leaves the module, newest first in `State.outbox`: responses, credits, messages and pin changes. -/
inductive Out where
  | data (ld hpa : Nat) (d : Line) (poison : Bool) (devload : Nat)
  | cmp (ld hpa : Nat) (devload : Nat)
  | credit (rwd : Bool)
  | host (addr : Nat) (bytes : List Byte)
  | cqe (ring slot tag status phase result0 result1 time : Nat)
  | msix (vector : Nat)
  | mailbox (mb : Mailbox) (code : Nat) (payload : List Nat) (bytes : List Byte)
  | carrier (c : Carrier) (tag status result0 result1 time : Nat) (bytes : List Byte)
  | fm (code : Nat) (payload : List Nat)
  | spdm (code : Nat) (payload : List Nat) (bytes : List Byte)
  | doe (payload : List Nat)
  | helra (link : Nat) (body : PktBody) (seq ack : Nat)
  | idle (link : Nat)
  | smbus (bytes : List Byte)
  | mctp (payload : List Nat)
  | gpf (phase durationUs powerLimit : Nat)
  deriving DecidableEq, Repr

/-- A poison list record (R363): LD, DPA, lines, injected or internal. -/
structure PoisonRec where
  ld : Nat
  dpa : Nat
  lines : Nat
  injected : Bool
  deriving DecidableEq, Repr

/-- The attachment (chapter 11): capacities, MLD operation, decoders by 4 × LD + index and those whose last commit failed (Error Not Committed), the host link, mailboxes' background
operation, interrupt policy, labels, alerts, shutdown state, poison list, scans, firmware transfer, security state, SMBus and
MCTP addresses, the basic status block, the QoS values of R349 that are stored, and the hanks that a Set LD Allocations waits for. -/
structure Cxl where
  mld : Bool
  lds : List LdCap
  decoders : Tbl Hdm
  hdmErr : List Nat
  perst : Bool
  linkUp : Bool
  cxlOn : Bool
  lanes : Nat
  rate : Nat
  refclk : Bool
  common : Bool
  memActive : Bool
  mboxBusy : List Mailbox
  bgOp : Nat
  bgDone : Nat
  policy : List Nat
  lsa : Tbl Byte
  alerts : List Nat
  alertOn : Nat
  shutdown : Tbl Nat
  poison : List PoisonRec
  poisonOvf : Bool
  poisonOvfTime : Int
  scan : Option (Nat × Nat × Nat × Bool)
  scanFound : List (Nat × Nat)
  scanMb : Option Mailbox
  fwStage : Option (Nat × Nat)
  userPass : Option (BitVec 384)
  masterPass : BitVec 384
  masterSet : Bool
  locked : Bool
  frozen : Bool
  userTries : Nat
  masterTries : Nat
  sanitizing : Nat
  health : List Nat
  corrBase : Nat
  wmBase : Nat
  smbAddr : Option Nat
  eid : Nat
  basic : List Byte
  qosSet : Bool
  qosTelemetry : Nat
  qosInterval : Nat
  fmWait : List Nat
  deriving DecidableEq, Repr

/-! ### Rings (chapter 12) -/

/-- A ring, mailbox or MCTP packet accepted and not yet completed. `started`: it has changed something persistent (R383);
`work`: what it still waits for; `done`: RESULT0's count; `bad`: lines that read as poison; `lines`: data in hand;
`output`: what it writes when it completes; `endWith`: the status it ends with after the hank in progress (R383, R387);
`host`: the access to host memory that fails. -/
structure Cmd where
  carrier : Carrier
  pkt : Packet
  sgl : List SglEntry
  accept : Nat
  expiry : Option Nat
  input : List Byte
  running : Bool
  started : Bool
  stopping : Bool
  work : List Nat
  done : Nat
  bad : Nat
  extra : Nat
  status : Nat
  lines : Tbl Line
  output : List Byte
  endWith : Option Nat
  host : HostMem
  deriving DecidableEq, Repr

/-- A completion that was not written (R239, R387), as GET_READINESS reports it (Table 12-9). -/
structure Unwritten where
  tag : Nat
  ring : Nat
  opcode : Nat
  status : Nat
  result0 : Nat
  time : Nat
  deriving DecidableEq, Repr

/-- The rings (R375–R387): completions not written, newest first (R388), completions since the last MSI-X per ring and the tick of
the first of them, and whether the ring is stopping. -/
structure Rings where
  unwritten : List Unwritten
  coal : List Nat
  coalOn : List (Option Nat)
  stopping : List Bool
  deriving DecidableEq, Repr

/-! ### Identity and seals (chapter 9) -/

/-- A seal in progress, or an extent that is verified (R290, R291, R300): the command, LD, key, first LHN and count, label, reference, flags, the
deadline of its hashing, and whether a TIMEOUT set that (R382). -/
structure SealJob where
  cmd : Nat
  ld : Nat
  key : Nat
  first : Nat
  count : Nat
  flags : Nat
  label : Nat
  ref : Nat
  due : Nat
  timed : Bool
  deriving DecidableEq, Repr

/-- A live seal (R296): the SEQ of its record, its extent with its first LHN, and its SEAL record. -/
structure LiveSeal where
  seq : Nat
  ld : Nat
  first : Nat
  count : Nat
  rcd : LedgerRec
  deriving DecidableEq, Repr

/-- An SPDM session (R284, R285). -/
structure SpdmSession where
  established : Bool
  updates : Nat
  deriving DecidableEq, Repr

/-- Identity, ratchets, seals and SPDM (chapter 9). -/
structure Seals where
  owner : Option (BitVec 384 × BitVec 384)
  jobs : Tbl SealJob
  nextJob : Nat
  ledger : Tbl LedgerRec
  live : Tbl LiveSeal
  verify : Tbl SealJob
  held : Bool
  version : Bool
  caps : Bool
  algs : Bool
  dhe : Bool
  sessions : Tbl SpdmSession
  nextSession : Nat
  deriving DecidableEq, Repr

/-! ### Platform (chapters 14, 15) -/

/-- A slot of a dual-copy record (R414): its payload, its SEQ, and whether its CRC-32C is valid. -/
structure StashSlot where
  bytes : List Byte
  seq : Nat
  crcOk : Bool
  deriving DecidableEq, Repr

/-- A dual-copy Stash record (R414–R417): its two slots, the record-hash ratchet (the SEQ of the newest write and the payload it was the hash
of), and the contest flag. -/
structure StashRec where
  a : StashSlot
  b : StashSlot
  ratSeq : Nat
  ratBytes : List Byte
  contest : Bool
  deriving DecidableEq, Repr

/-- Stash, flash, sensors and power (chapters 14, 15): host-writable records by ID, wrong bits of Stash words by word number, those that
stand in worn cells, the rows served from spare rows (R411), flash words by 2^19 × bank + word, the
programs of each word since its erase, the sectors (256 × bank + sector) erased in service, those whose
contents are open (a failed or cut erase) with the count their free values start from, the flash operation running (OP, word), consecutive
samples at or over, and 5 °C below, each threshold per zone, resume timers, the thermal shutdown record's device and wall time, management cores'
state (0 active, 1 spare, 2 failed, 3 stopped for a takeover), SRAM test cursor, and the components that INJECT_FAULT failed (R391). -/
structure Plat where
  recs : Tbl StashRec
  stashErrs : Tbl (BitVec 72)
  stashHard : List Nat
  stashRows : List Nat
  flash : Tbl W64
  flashPgm : Tbl Nat
  flashErased : List Nat
  flashLost : Tbl Nat
  slotEmpty : List Bool
  fwNext : Nat
  unlockStep : Nat
  flashOp : Option (Nat × Nat)
  flashWord : W64
  overCnt : List (List Nat)
  fallCnt : List (List Nat)
  belowCnt : Nat
  coldHold : Bool
  thermCrit : Option (Nat × Nat × Int)
  thermRec : Option (Nat × Int)
  sramRow : List Nat
  cores : List Nat
  takeover : Bool
  warmWait : Bool
  lifeEnd : Bool
  injected : List (Nat × Nat × Nat)
  deriving DecidableEq, Repr

/-! ### The machine -/

/-- The reasons a command stops the machine. -/
inductive Fault where
  /-- raised by REGISTER_WRITE at an offset outside the 16 MiB of BAR2/3: the address does not exist (R14). Safe. -/
  | noSuchAddress (offset : Nat)
  deriving DecidableEq, Repr

/-- The reasons a command is refused. -/
inductive Refusal where
  /-- raised by an arm of `exec` whose command has no meaning yet. Safe: nothing is claimed of it. -/
  | notModelled (mnemonic : String)
  deriving DecidableEq, Repr

/-- The state of the module. `pending` is the queue of commands, first in, first out. `freeCtr` counts the free values drawn
(assumption log 4); it and `outbox` are the model's own fields. -/
structure State where
  pending : List Instr
  outbox : List Out
  freeCtr : Nat
  regs : Tbl W64
  hwSet : Tbl W64
  power : Power
  clk : Clk
  adm : Adm
  hanks : Hanks
  med : Medium
  crypto : Crypto
  tlc : Tlc
  wm : Wm
  energy : Energy
  cast : Cast
  linkA : Link
  linkB : Link
  chain : Chain
  cxl : Cxl
  rings : Rings
  cmds : Tbl Cmd
  nextCmd : Nat
  seals : Seals
  logs : List Log
  hist : Hist
  plat : Plat
  deriving DecidableEq, Repr

/-! ### The machine right after reset -/

/-- Admission with nothing in flight. -/
def Adm.init : Adm :=
  { seq := 0, reqOut := 0, covers := [], owed := [], issued := 0, withheld := 0, bal := List.replicate 24 0,
    charged := List.replicate 24 0, held := List.replicate 24 false,
    rowAt := 0, dl := [], ops := [], nextOp := 0, faults := [], onset := 0, intrs := [], critical := false, rwdOn := false, occs := [], lastReq := none,
    inForce := [], rowScale := 100, resvLog := [] }

/-- A link with no session (R309, R310). -/
def Link.init : Link :=
  { mirrorOut := [], mirrorWait := [], tx := [], replay := [], replaying := none, replays := [], txSeq := 0, rxSeq := 0, uctr := 0, rxUctr := 0,
    ackDue := false, nakDue := none, creditDue := false, got := [0, 0, 0], used := [0, 0, 0], given := [0, 0, 0], rxUsed := [0, 0, 0],
    unacked := [], peer := none, authIn := [], authOk := false, confirmSent := false, confirmOk := false,
    peerKey := (0, 0), holders := [], senders := [], seals := [], ops := [], setPly := none, spill := [], sync := none, wantSync := [],
    backoff := 0, downAt := 0, lastRx := 0, lastCredit := 0, late := [], lateAt := 0 }

/-- Pool, merge buffer, line cache and MSHRs, empty. -/
def Tlc.init : Tlc := { pool := [], mb := [], cache := [], mshr := [], inval := true, dirKey := 0, maint := none, waits := [], filled := [], attrs0 := [] }

/-- Working memory without errors. -/
def Wm.init : Wm := { errs := [], hard := [], narrow := [], order := 0, ueTicks := [] }

/-- The chain with no address (R337). -/
def Chain.init : Chain :=
  { seen := [], mid := 0, seenClaims := [], cand := none, claimRound := 0, beaten := false, taken := [], inbox := [], walks := [], firstUp := false }

/-- The rings with nothing in flight (R239). -/
def Rings.init : Rings :=
  { unwritten := [], coal := List.replicate 8 0, coalOn := List.replicate 8 none, stopping := List.replicate 8 false }

/-- The hank store as shipped (R131, R468): image A holds the shipped binding. -/
def Hanks.init : Hanks :=
  let img : Image := { host := [], sys := [], seq := 0, done := false, digest := imageDigest [] [] }
  { host := [], sys := [], anchor := [], free := [], wear := [], wearSub := [], heatSub := [], cursor := 0, journal := [], seq := 0, ckptRun := none,
    imgA := { img with done := true }, imgB := img, rmw := [], suspect := [], dead := [], migs := [], nextMig := 0, retireQ := [], tookLast := none, failedAt := [], work := [], zeroed := [],
    evac := [], sweep := 0, retireAttr := [], dropAttr := [], restore := [], fillRebuild := false, mapsReady := false, poweredTicks := 0 }

/-- The medium as shipped: every page blank (R128), label 0, swatch page 0 of epoch 0 on every die (the default of `swatch`), and E_down 0. -/
def Medium.init : Medium :=
  { lines := [], blankAll := 0, blankWep := [], progs := [], nextProg := 0, labels := [(0, (0, 0))], swatch := [], swatchDue := [], stitched := [], window := [], windowSaved := [], timeSaved := 0, rescues := [], fails := [],
    starts := [], restartAt := [], refreshQ := [], staged := [], plan := [], eDown := some (0, 0), wallDown := none, gapDone := false,
    hankRescue := [], sweepPages := 0, corrupt := [] }

/-- Keys and counters as shipped (R252, R265). -/
def Crypto.init : Crypto :=
  { nodes := [], cache := [], slots := [], store := [], rootSeq := 0, gen := 0, rmin := [], rmaj := 0, retiring := [], eraseCount := 0, base := 0, ideMem := [], ideIo := [], ideMemSecure := false, ideIoSecure := false, ideMemFailed := false }

/-- A bank as tested at the factory: 100.0 µF at 25 °C. -/
def Bank.init : Bank := { cTest := 1000, tTest := 25, own := 0, testedAt := 0 }

/-- The factory's bind-off record: COMPLETE with SEQ 0 (R213). -/
def BindRec.init : BindRec :=
  { seq := 0, trig := 0, tick := 0, phase := 4, cut := false, counted := false, half := false, nCtr := 0, nMb := 0, nSpill := 0, nPool := 0,
    watermark := 0, medium := some (0, 0), wall := none, aTrig := 0, aTick := 0, aPhase := 4, noImage := false }

/-- A half that holds no item: half A as shipped carries the header of an empty image. -/
def Selvedge.init (complete : Bool) : Selvedge :=
  { seq := 0, complete := complete, trig := 0, counts := (0, 0, 0, 0), crc := Config.crc32c (headerBytes 0 complete 0 (0, 0, 0, 0)), items := [],
    blanked := true }

/-- The reserve and the factory's bind-off record, half A holding an empty image (R213). -/
def Energy.init : Energy :=
  { banks := [], vbus := 0, capTemp := 25, phases := 4, test := none, testSpare := false, trig := 0,
    drained := false, low := false,
    lastTest := none, wantSpare := 0, apart := none, charged := false, p12vFell := false, noRec := false, dump := [],
    rcd := BindRec.init, rcdB := BindRec.init, halfA := Selvedge.init true, halfB := Selvedge.init false,
    zoneMap := [], prepareCmd := none, pwrdis := false, gpf := false }

/-- The attachment as shipped: one LD that holds every hank (R43, R349), alert thresholds of R358, no labels, no passphrase. -/
def Cxl.init : Cxl :=
  { mld := false, lds := ⟨0, 6291456⟩ :: List.replicate 15 ⟨0, 0⟩, decoders := [], hdmErr := [], perst := true, linkUp := false,
    cxlOn := false, lanes := 0, rate := 0, refclk := false, common := false, memActive := false, mboxBusy := [], bgOp := 0, bgDone := 0,
    policy := [0, 0, 0, 0], lsa := [], alerts := [75, 95, 65496, 65535, 65535], alertOn := 0, shutdown := [], poison := [],
    poisonOvf := false, poisonOvfTime := 0, scan := none, scanFound := [], scanMb := none, fwStage := none, userPass := none,
    masterPass := 0, masterSet := false, locked := false, frozen := false, userTries := 0, masterTries := 0, sanitizing := 0, health := [],
    corrBase := 0, wmBase := 0, smbAddr := none, eid := 0, basic := [], qosSet := false, qosTelemetry := 0, qosInterval := 8, fmWait := [] }

/-- Identity and seals as shipped: no owner, an empty ledger (R283, R296). -/
def Seals.init : Seals :=
  { owner := none, jobs := [], nextJob := 0, ledger := [], live := [], verify := [], held := false, version := false,
    caps := false, algs := false, dhe := false, sessions := [], nextSession := 0 }

/-- The history recorder with nothing recorded (R399 to R409). -/
def Hist.init : Hist :=
  { prev := List.replicate 8 false, bytes := List.replicate 6 0, bytes0 := List.replicate 6 0, winAt := none, winLive := false, bins := [], flushed := [], ext := [], ingest := [],
    ring := [], resetTick := List.replicate 8 0, resetCast := List.replicate 8 0, flushes := 0, dirty := false, genAt := none }

/-- Platform state as shipped: flash slot 1 holds the firmware, three cores active and one spare (R411, R447). -/
def Plat.init : Plat :=
  { recs := [], stashErrs := [], stashHard := [], stashRows := [], flash := [], flashPgm := [], flashErased := [], flashLost := [], slotEmpty := [false, true], fwNext := 0, unlockStep := 0,
    flashOp := none, flashWord := 0, overCnt := List.replicate 5 [0, 0, 0], fallCnt := List.replicate 5 [0, 0, 0], belowCnt := 0, coldHold := false,
    thermCrit := none, thermRec := none, sramRow := List.replicate 8 0, cores := [0, 0, 0, 1], takeover := false, warmWait := false,
    lifeEnd := false, injected := [] }

/-- A CXL event log with no record (Table 1-3). -/
def Log.init : Log := { recs := [], nextHandle := 1, ovf := 0, ovfFirst := 0, ovfLast := 0 }

/-- The module right after reset: as shipped, D0 alone powered (AO and STASH are 1, Table 7-1), before 12 V is good. Every register
stands at the reset value of its table; the values that the spec leaves open are listed in assumption log 5. -/
def State.reset : State :=
  { pending := [], outbox := [], freeCtr := 0, regs := [], hwSet := [], power := .aux,
    clk := { now := 0, p12v := false, aux := true, pll := false, offset := 0, nextOffset := none, timeSet := false, firstOffset := 0, wallSet := false, castAt := 0, regs0 := [], armAgain := false },
    adm := Adm.init, hanks := Hanks.init, med := Medium.init, crypto := Crypto.init, tlc := Tlc.init, wm := Wm.init, energy := Energy.init,
    cast := { l3 := false, failed := [], replayLeft := [], ctrLeft := [], held := false },
    linkA := Link.init, linkB := Link.init, chain := Chain.init, cxl := Cxl.init, rings := Rings.init, cmds := [], nextCmd := 0,
    seals := Seals.init, logs := List.replicate 4 Log.init, hist := Hist.init, plat := Plat.init }

end Sys2Proof.Machine
end

