-- ==== Sys2Proof/Machine/Ops.lean ====
section
/-! DEFINITION. The named operations every family is written over: registers and their fields, event records, free values,
operation table entries, shares of tokens, counts, interruptions. -/

namespace Sys2Proof.Machine

/-! ### Bit fields and registers (R14–R18) -/

/-- Width of a field. -/
def fwidth (f : Field) : Nat := f.hi - f.lo + 1

/-- The value of a field of a word. -/
def getF (w : W64) (f : Field) : Nat := (w.toNat / 2 ^ f.lo) % 2 ^ fwidth f

/-- The mask of a field. -/
def maskF (f : Field) : W64 := BitVec.ofNat 64 ((2 ^ fwidth f - 1) * 2 ^ f.lo)

/-- A word with one field replaced. -/
def setF (w : W64) (f : Field) (v : Nat) : W64 :=
  (w &&& ~~~(maskF f)) ||| (BitVec.ofNat 64 ((v % 2 ^ fwidth f) * 2 ^ f.lo))

/-- The registers of the block that holds an offset (64 KiB per block; R79, R122, R160, R189 and the others). -/
def blockOf (off : Nat) : List RegSpec :=
  match off / 0x10000 with
  | 0x0 => RegMap.blockRDY
  | 0x1 => RegMap.blockCRG
  | 0x2 => RegMap.blockADM
  | 0x3 => RegMap.blockTLC
  | 0x4 => RegMap.blockMCH
  | 0x5 => RegMap.blockGAU
  | 0x6 => RegMap.blockKEY
  | 0x7 => RegMap.blockSEL
  | 0x8 => RegMap.blockPLK
  | 0x9 => RegMap.blockTHM
  | 0xA => RegMap.blockPWR
  | 0xB => RegMap.blockPMC
  | 0xC => RegMap.blockHST
  | 0xD => RegMap.blockWME
  | 0xE => RegMap.blockSRB
  | 0xF => RegMap.blockEFC
  | _ => []

/-- Whether a register, or an element of its array, stands at an offset. -/
def RegSpec.atOffset (r : RegSpec) (off : Nat) : Bool :=
  if off < r.base then false
  else
    let d := off - r.base
    let i := if r.s1 = 0 then 0 else d / r.s1
    let e := if r.s1 = 0 then d else d % r.s1
    let j := if r.s2 = 0 then 0 else e / r.s2
    let e' := if r.s2 = 0 then e else e % r.s2
    decide (i < r.n1) && decide (j < r.n2) && decide (e' = 0)

/-- The register at an offset; none at a reserved offset (R15). -/
def specOf (off : Nat) : Option RegSpec := (blockOf off).find? (fun r => RegSpec.atOffset r off)

/-- The thresholds, spare and range of sensors of each zone (Table 14-5). -/
def zoneTable : List (Nat × Nat × Nat × Nat × Nat) :=
  [(0, 8, 100, 105, 115), (9, 26, 85, 90, 100), (27, 33, 85, 95, 105), (34, 44, 95, 100, 110), (45, 57, 95, 105, 115)]

/-- The zone of a sensor (Table 14-5). -/
def zoneOf (sensor : Nat) : Nat :=
  if sensor ≤ 8 then 0 else if sensor ≤ 26 then 1 else if sensor ≤ 33 then 2 else if sensor ≤ 44 then 3 else 4

/-- Whether a sensor is the spare of its zone (Table 14-5). -/
def isSpareSensor (sensor : Nat) : Bool := [8, 26, 33, 44, 57].contains sensor

/-- SHARE and WINDOW of internal class `k` at cast-on in lane plan B (Table 2-8). -/
def classShare (k : Nat) : Nat := ([64, 128, 96, 256, 512, 128, 64, 0] : List Nat).getD k 0
def classWindow (k : Nat) : Nat := ([1000000, 1000000, 100000, 0, 30, 0, 1000000, 100000] : List Nat).getD k 0

/-- Size in KiB and owner code of an SRAM bank (Table 14-8a). -/
def sramSize (b : Nat) : Nat := ([1024, 2048, 512, 2048, 24576, 512, 4096, 256] : List Nat).getD b 0
def sramOwner (b : Nat) : Nat := ([0, 1, 2, 2, 1, 3, 4, 2] : List Nat).getD b 0

/-- Reset values that differ between the elements of an array, or that the unit supplies (R69, Tables 2-8, 14-5, 14-8a, 6-4,
7-11, 10-21). -/
def elementReset (off : Nat) (w : W64) : W64 :=
  if off = Reg.RDY_SERIAL then BitVec.ofNat 64 Config.serial
  else if off = Reg.RDY_IDENT then setF w Fld.RDY_IDENT_FWMAJ (Config.imageMajor fun k => Config.shippedFlash (k % 2 ^ 19))
  else if off = Reg.PLK_UADDR then setF w Fld.PLK_UADDR_PREF (Config.serial % 16384)
  else if off = Reg.ADM_RESV 0 then setF w Fld.ADM_RESV_SHARE 2848
  else if Reg.ADM_RESV_INT 0 ≤ off ∧ off ≤ Reg.ADM_RESV_INT 7 then
    let k := (off - Reg.ADM_RESV_INT 0) / 8
    setF (setF w Fld.ADM_RESV_INT_SHARE (classShare k)) Fld.ADM_RESV_INT_WINDOW (classWindow k)
  else if off = Reg.GAU_BANK 10 ∨ off = Reg.GAU_BANK 11 then setF w Fld.GAU_BANK_STATE 1
  else if Reg.THM_ZONE 0 ≤ off ∧ off ≤ Reg.THM_ZONE 4 then
    let z := (off - Reg.THM_ZONE 0) / 8
    match zoneTable[z]? with
    | some (_, sp, wa, th, cr) =>
      setF (setF (setF (setF w Fld.THM_ZONE_CRIT cr) Fld.THM_ZONE_THROT th) Fld.THM_ZONE_WARN wa) Fld.THM_ZONE_SPARE sp
    | none => w
  else if Reg.THM_SENSOR 0 ≤ off ∧ off ≤ Reg.THM_SENSOR 57 then
    let s := (off - Reg.THM_SENSOR 0) / 8
    let w1 := setF w Fld.THM_SENSOR_ZONE (zoneOf s)
    if isSpareSensor s then setF w1 Fld.THM_SENSOR_SPARE 1 else setF w1 Fld.THM_SENSOR_ACTIVE 1
  else if Reg.SRB_BANK 0 ≤ off ∧ off ≤ Reg.SRB_BANK 7 then
    let b := (off - Reg.SRB_BANK 0) / 8
    setF (setF w Fld.SRB_BANK_SIZE (sramSize b)) Fld.SRB_BANK_OWNER (sramOwner b)
  else w

/-- The value of a register after reset, by the Reset columns of the register tables. -/
def regReset (off : Nat) : W64 :=
  match specOf off with
  | none => 0
  | some r => elementReset off (r.fields.foldl (fun w f => setF w f.field f.reset) 0)

/-- A register's value. -/
def State.reg (s : State) (off : Nat) : W64 := dget regReset s.regs off

/-- Set a register. -/
def State.setReg (s : State) (off : Nat) (w : W64) : State := { s with regs := dput regReset s.regs off w }

/-- A field's value. -/
def State.fget (s : State) (off : Nat) (f : Field) : Nat := getF (s.reg off) f

/-- Set a field, whatever its access type: the hardware's own update. -/
def State.fset (s : State) (off : Nat) (f : Field) (v : Nat) : State := s.setReg off (setF (s.reg off) f v)

/-- Hardware sets a one-bit field that software clears by writing 1 (RW1C), whether or not it stood already. -/
def State.raise (s : State) (off : Nat) (f : Field) : State :=
  let seen := dget (fun _ => 0) s.hwSet off ||| maskF f
  State.fset { s with hwSet := dput (fun _ => 0) s.hwSet off seen } off f 1

/-- The bits of a field that hardware has set in this tick: a write of 1 to clear them in the same tick leaves them set (R17; DESIGN CHOICE,
log 60: the model's cycle is the tick). -/
def State.setNow (s : State) (off : Nat) (f : Field) : Nat :=
  s.fget off f &&& getF (dget (fun _ => 0) s.hwSet off) f

/-- Set a field unless an update would pass its width: the greatest value stays (a saturating count). -/
def State.fsetSat (s : State) (off : Nat) (f : Field) (v : Nat) : State :=
  s.fset off f (min v (2 ^ fwidth f - 1))

/-- Raise a saturating count by `n`. -/
def State.fadd (s : State) (off : Nat) (f : Field) (n : Nat) : State := s.fsetSat off f (s.fget off f + n)

/-- Bit `b` of a field. -/
def State.fbit (s : State) (off : Nat) (f : Field) (b : Nat) : Bool := (s.fget off f).testBit b

/-- Set or clear bit `b` of a field. -/
def State.fsetBit (s : State) (off : Nat) (f : Field) (b : Nat) (v : Bool) : State :=
  let x := s.fget off f
  if x.testBit b = v then s else s.fset off f (if v then x + 2 ^ b else x - 2 ^ b)

/-- Add to a 64-bit error counter. -/
def State.addCnt (s : State) (off : Nat) : State := s.setReg off (s.reg off + 1)

/-! ### Free values and outputs -/

/-- The next free value of `w` bits (assumption log 4). -/
def State.draw (s : State) (w : Nat) : BitVec w × State :=
  (Config.freeValue w s.freeCtr, { s with freeCtr := s.freeCtr + 1 })

/-- The next draw of the module's random source. -/
def State.random (s : State) : Nat × State := (Config.random s.freeCtr, { s with freeCtr := s.freeCtr + 1 })

/-- Send something out of the module. -/
def State.out (s : State) (o : Out) : State := { s with outbox := o :: s.outbox }

/-! ### Readiness (chapter 7) -/

/-- The function names of Table 7-2 as bits of RDY_STATUS.READY. -/
def rAO : Nat := 0
def rSTASH : Nat := 1
def rFW : Nat := 2
def rMBOX : Nat := 3
def rRINGS : Nat := 4
def rWMEM : Nat := 5
def rMAP : Nat := 6
def rGAUGE : Nat := 7
def rKEYS : Nat := 8
def rSEAL : Nat := 9
def rHLA : Nat := 10
def rHLB : Nat := 11
def rCHAIN : Nat := 12
def rPLY : Nat := 13
def rMEDIA : Nat := 14
def rDRIFT : Nat := 15
def rSKEINS : Nat := 16

/-- Whether function `n` is ready. -/
def State.ready (s : State) (n : Nat) : Bool := s.fbit Reg.RDY_STATUS Fld.RDY_STATUS_READY n

/-- Whether function `n` cannot become ready. -/
def State.failedBit (s : State) (n : Nat) : Bool := s.fbit Reg.RDY_STATUS Fld.RDY_STATUS_FAIL n

/-- Whether skein `k` is ready (R235). -/
def State.skeinReady (s : State) (k : Nat) : Bool := s.fbit Reg.RDY_SKEIN Fld.RDY_SKEIN_SKEIN k

/-- Whether the replay is complete (R234). -/
def State.replayDone (s : State) : Bool := s.fget Reg.RDY_REPLAY Fld.RDY_REPLAY_STATE == 3

/-- The normal service state of R36: SKEINS_ALL is 1, no test command runs and no fault is being handled. -/
def State.normalService (s : State) : Bool :=
  s.ready rSKEINS && s.adm.faults.isEmpty && !(s.cmds.any fun e => e.2.running && (e.2.pkt.opcode == 0x0D01 || e.2.pkt.opcode == 0x0D02))

/-! ### Event records (R36, R37, R359–R362, R402) -/

/-- Event classes (Table 11-8a). -/
def evREADY : Nat := 0x01
def evGAUGE : Nat := 0x02
def evBINDOFF : Nat := 0x03
def evTHERMAL : Nat := 0x04
def evSPARE : Nat := 0x05
def evPLY : Nat := 0x06
def evSEAL : Nat := 0x07
def evKEY : Nat := 0x08
def evTREE : Nat := 0x09
def evSALVAGE : Nat := 0x0A
def evSEALED_WRITE : Nat := 0x0B
def evDROPPED : Nat := 0x0C
def evCONTEST : Nat := 0x0D
def evGAP : Nat := 0x0E
def evFAULT : Nat := 0x0F
def evCHAIN : Nat := 0x10
def evDRIFT : Nat := 0x11
def evMEDIA : Nat := 0x80
def evMODULE : Nat := 0x81

/-- The default severity of a class, by its default log (Table 11-7): 0 informational, 1 warning, 2 failure. -/
def defaultSev (cls : Nat) : Nat :=
  if cls = evREADY ∨ cls = evCHAIN ∨ cls = evGAP then 0
  else if cls = evBINDOFF ∨ cls = evFAULT ∨ cls = evMEDIA then 2
  else 1

/-- A tick as wall time in ns (R42). -/
def State.wallOf (s : State) (tick : Nat) : Int := (tick : Int) * 10 + s.clk.offset

/-- An event record of the present tick. -/
def State.mkEvent (s : State) (cls sev akind ld addr : Nat) (args : List Nat) : Event :=
  { cls := cls, sev := sev, akind := akind, ld := ld, addr := addr, rep := 1, first := s.clk.now, last := s.clk.now,
    wall := s.wallOf s.clk.now, args := args, handle := 0, pair := 0 }

/-- Records of a log that are not the marker. -/
def logCount (l : Log) : Nat := (l.recs.filter fun e => e.cls != evGAP).length

/-- A marker for a drop at tick `t` (R37). -/
def gapMarker (t : Nat) : Event :=
  { cls := evGAP, sev := 0, akind := 0, ld := 0xFFFF, addr := 0, rep := 1, first := t, last := t, wall := 0, args := [],
    handle := 0, pair := 0 }

/-- Drop an item for a full queue in the cast-on, test or recovery state: a marker stands where it would, or the marker that is
last in the queue is updated (Table 1-4). DESIGN CHOICE (log 59): a drop behind an earlier marker that is no longer last gets a marker of
its own, beyond the one slot that R37 reserves. -/
def dropMark (recs : List Event) (t : Nat) : List Event :=
  match recs.getLast? with
  | some m =>
    if m.cls = evGAP then recs.dropLast ++ [{ m with rep := min (m.rep + 1) (2 ^ 32 - 1), last := t }]
    else recs ++ [gapMarker t]
  | none => recs ++ [gapMarker t]

/-- Place a record in a log; full, it behaves as in Table 1-4. Answers the log and the handle (0 when it had no room). -/
def logPut (l : Log) (normal : Bool) (now : Nat) (wall : Int) (e : Event) : Log × Nat :=
  if logCount l < 512 then
    ({ l with recs := l.recs ++ [{ e with handle := l.nextHandle }],
              nextHandle := if l.nextHandle ≥ 65535 then 1 else l.nextHandle + 1 }, l.nextHandle)
  else if normal then
    ({ l with ovf := l.ovf + 1, ovfFirst := if l.ovf = 0 then wall else l.ovfFirst, ovfLast := wall }, 0)
  else
    let r := dropMark l.recs now
    if r.length = l.recs.length then ({ l with recs := r }, 0)
    else ({ l with recs := l.recs ++ [{ gapMarker now with handle := l.nextHandle, wall := wall }],
                   nextHandle := if l.nextHandle ≥ 65535 then 1 else l.nextHandle + 1 }, 0)

/-- A history record enters the ingest queue (R402), with the full behaviour of R36. -/
def State.ingest (s : State) (log : Nat) (e : Event) : State :=
  let cast := s.fget Reg.RDY_CASTON Fld.RDY_CASTON_COLD % 65536
  let r : HistRec := { ev := e, log := log, caston := cast, rseq := 0 }
  let n := (s.hist.ingest.filter fun x => x.ev.cls != evGAP).length
  if n < 1024 then { s with hist := { s.hist with ingest := s.hist.ingest ++ [r] } }
  else if s.normalService then s.raise Reg.HST_STAT Fld.HST_STAT_OVERRUN
  else
    let q := s.hist.ingest
    match q.getLast? with
    | some m =>
      if m.ev.cls = evGAP then
        { s with hist := { s.hist with ingest := q.dropLast ++
            [{ m with ev := { m.ev with rep := min (m.ev.rep + 1) (2 ^ 32 - 1), last := s.clk.now } }] } }
      else { s with hist := { s.hist with ingest := q ++ [{ r with ev := gapMarker s.clk.now }] } }
    | none => { s with hist := { s.hist with ingest := q ++ [{ r with ev := gapMarker s.clk.now }] } }

/-- Place an event record in log `log` (0 informational, 1 warning, 2 failure, 3 fatal) and in the ingest queue. The first record of an
empty log sends the log's interrupt, when its policy asks for MSI/MSI-X (R355). -/
def State.record (s : State) (log : Nat) (e : Event) : State :=
  match s.logs[log]? with
  | none => s
  | some l =>
    let (l', h) := logPut l s.normalService s.clk.now e.wall e
    let s1 : State := { s with logs := lset s.logs log l' }
    let p := s.cxl.policy.getD log 0
    State.ingest (if l.recs.isEmpty && p % 4 == 1 then s1.out (.msix (p / 16)) else s1) log { e with handle := h }

/-- Raise an event of a class with the severity given (its log is the severity's, R359). -/
def State.eventSev (s : State) (cls sev akind ld addr : Nat) (args : List Nat) : State :=
  s.record sev (s.mkEvent cls sev akind ld addr args)

/-- Raise an event of a class with its default severity (Table 11-7). -/
def State.event (s : State) (cls akind ld addr : Nat) (args : List Nat) : State :=
  s.eventSev cls (defaultSev cls) akind ld addr args

/-- A change of a RDY_STATUS bit: RDY_TIME takes the tick of a rise (R229), and after SKEINS_ALL has risen each change raises a
READY event with RDY_STATUS and the bit (R361). -/
def State.setReady (s : State) (n : Nat) (v : Bool) : State :=
  if s.ready n = v then s
  else
    let before := s.ready rSKEINS
    let s1 := s.fsetBit Reg.RDY_STATUS Fld.RDY_STATUS_READY n v
    let s2 := if v then s1.setReg (Reg.RDY_TIME n) (BitVec.ofNat 64 s.clk.now) else s1
    if before || (n == rSKEINS && v) then s2.event evREADY 0 0xFFFF 0 [(s2.reg Reg.RDY_STATUS).toNat, n] else s2

/-- A function cannot become ready: its FAIL bit sets, and a FAULT event, fatal, names it (R232, R359). -/
def State.setFail (s : State) (n : Nat) : State :=
  if s.failedBit n then s
  else
    let s1 := s.setReady n false
    let s2 := s1.fsetBit Reg.RDY_STATUS Fld.RDY_STATUS_FAIL n true
    let s3 := s2.eventSev evFAULT 3 4 0xFFFF n []
    if s.ready rSKEINS then s3.event evREADY 0 0xFFFF 0 [(s3.reg Reg.RDY_STATUS).toNat, 32 + n] else s3

/-! ### Counting (R396–R400) -/

/-- The setting under which counter `i` counts: a PMC_CTL written while EN is 1 applies from the next tick (R409). -/
def State.pmcSetting (s : State) (i : Nat) : W64 :=
  let old := dget regReset s.clk.regs0 (Reg.PMC_CTL i)
  if getF old Fld.PMC_CTL_EN = 1 then old else s.reg (Reg.PMC_CTL i)

/-- Count `n` occurrences of a traffic event of a PMC counter (Table 13-1): `inst` its instance for SEL, `cls` its class
(Table 13-2), `master` the LD, 16 or 17 for HL-A or HL-B as holder, 18 internal; `lhn` its logical hank, if it has one. -/
def State.count (s : State) (ev inst n cls master : Nat) (lhn : Option Nat) : State :=
  if s.fget Reg.PMC_GCTL Fld.PMC_GCTL_GEN = 0 ∨ s.hist.genAt = some s.clk.now then s
  else
    (List.range 8).foldl (fun s i =>
      let ctl := s.pmcSetting i
      let sel := getF ctl Fld.PMC_CTL_SEL
      let addrOk : Bool := getF ctl Fld.PMC_CTL_ADDR_EN == 0 ||
        (match lhn with
         | none => false
         | some l => decide (s.fget (Reg.PMC_FILT_BASE i) Fld.PMC_FILT_BASE_LHN ≤ l) &&
             decide (l ≤ s.fget (Reg.PMC_FILT_LIMIT i) Fld.PMC_FILT_LIMIT_LHN))
      if getF ctl Fld.PMC_CTL_EN = 1 ∧ getF ctl Fld.PMC_CTL_EVENT = ev ∧ (sel = inst ∨ sel = 0xFFFF) ∧
          (s.reg (Reg.PMC_FILT_MASTER i)).toNat.testBit master ∧
          (s.fget (Reg.PMC_FILT_CLASS i) Fld.PMC_FILT_CLASS_CLASS).testBit cls ∧ addrOk = true then
        s.setReg (Reg.PMC_CNT i) (s.reg (Reg.PMC_CNT i) + BitVec.ofNat 64 n)
      else s) s

/-- Bytes in bandwidth window `i` (Table 13-3). -/
def State.bytes (s : State) (i n : Nat) : State :=
  { s with hist := { s.hist with bytes := lset s.hist.bytes i (s.hist.bytes.getD i 0 + n) } }

/-- A working memory line access (WM_ACCESS, window 3): map reads and line reads and writes of the data path (log 16). -/
def State.wmAccess (s : State) (n cls master : Nat) (lhn : Option Nat) : State :=
  (s.count 0x0010 0 n cls master lhn).bytes 3 (64 * n)

/-- Charge tokens (Table 2-7) to a party: LD 0–15, class 16–23. -/
def State.charge (s : State) (party n : Nat) : State :=
  { s with adm := { s.adm with
      charged := lset s.adm.charged party (s.adm.charged.getD party 0 + n)
      bal := lset s.adm.bal party (s.adm.bal.getD party 0 - 16 * (n : Int)) } }

/-! ### Interruptions (R80) -/

/-- The onset of fault `f`: an interruption opens unless one is open (overlapping intervals join). -/
def State.openFault (s : State) (f : Nat) : State :=
  if s.adm.faults.contains f then s
  else { s with adm := { s.adm with
    onset := if s.adm.faults.isEmpty then s.clk.now else s.adm.onset
    faults := s.adm.faults ++ [f] } }

/-- The handling of fault `f` is complete: the interruption closes with the last of them, joined with past ones that its onset falls into, and
ADM_INTR_MAX records it. -/
def State.closeFault (s : State) (f : Nat) : State :=
  if s.adm.faults.contains f then
    let rest := s.adm.faults.filter (· != f)
    let s1 := { s with adm := { s.adm with faults := rest } }
    if rest.isEmpty then
      let joins := fun (p : Nat × Nat) => decide (s.adm.onset < p.2)
      let start := (s.adm.intrs.filter joins).foldl (fun a p => min a p.1) s.adm.onset
      let s2 := { s1 with adm := { s1.adm with intrs := (start, s.clk.now) :: s1.adm.intrs.filter fun p => !(joins p) } }
      s2.setReg Reg.ADM_INTR_MAX (BitVec.ofNat 64 (max (s.clk.now - start) (s.reg Reg.ADM_INTR_MAX).toNat))
    else s1
  else s

/-- Whether a tick lies within an interruption, open or past. -/
def State.inInterruption (s : State) (t : Nat) : Bool :=
  (!s.adm.faults.isEmpty && decide (s.adm.onset ≤ t)) || s.adm.intrs.any (fun p => decide (p.1 ≤ t) && decide (t ≤ p.2))

/-! ### Addresses and the maps (chapters 1, 4) -/

/-- Logical hank and line within the hank of a logical line number (R176). -/
def lhnOf (line : Nat) : Nat := line / 16384
def stripeOf (line : Nat) : Nat := (line / 128) % 128
def pageOf (line : Nat) : Nat := (line / 8) % 16
def lineOf (line : Nat) : Nat := line % 8

/-- The page number, which is the stripe number, of stripe `s` of a physical hank; its parity position (R45). -/
def pageNo (phn s : Nat) : Nat := phnHwp phn * 128 + s
def parityPos (phn s : Nat) : Nat := pageNo phn s % 17

/-- The channel (0–33) of data page `d` of a stripe, `d` = 16 for its parity page (R45). -/
def chanOf (phn s d : Nat) : Nat :=
  phnGrp phn * 17 + (if d = 16 then parityPos phn s else (parityPos phn s + 1 + d) % 17)

/-- The physical die that MCH_DIESUB of channel `ch` gives for an active index. -/
def State.dieOf (s : State) (ch adie : Nat) : Nat :=
  (s.fget (Reg.MCH_DIESUB ch) Fld.MCH_DIESUB_MAP / 16 ^ adie) % 16

/-- The MLOC of line `j` of page `d` of a stripe (Table 1-8, R45). -/
def State.mlocOf (s : State) (phn st d j : Nat) : Nat :=
  let ch := chanOf phn st d
  phnGrp phn * 2 ^ 38 + (ch % 17) * 2 ^ 33 + s.dieOf ch (phnAdie phn) * 2 ^ 29 + phnPart phn * 2 ^ 25 + pageNo phn st * 8 + j

/-- Key of a stored line in the medium: physical hank, stripe, page (16 for parity), line. -/
def medKey (phn s d j : Nat) : Nat := phn * 17408 + s * 136 + d * 8 + j

/-- The 576 decoded bits of a stored line, its 640 bits, and the 5,120 bits of a page of eight (Table 3-1, R84). -/
def Stored.core (v : Stored) : BitVec 576 :=
  v.tag.append ((BitVec.ofBool v.role).append ((BitVec.ofBool v.poison).append ((BitVec.ofNat 6 v.wep).append v.ct)))
/-- The stored line whose bits 575:0 are given. -/
def Stored.ofCore (b : BitVec 576) : Stored :=
  { ct := b.extractLsb' 0 512, wep := (b.extractLsb' 512 6).toNat, poison := b.getLsbD 518, role := b.getLsbD 519, tag := b.extractLsb' 520 56 }
def Stored.bits (v : Stored) : BitVec 640 := (Config.mchk v.core).append ((Config.bchCheck v.core).append v.core)
def pageBits (t : Tbl Stored) (d : Stored) : BitVec 5120 :=
  (List.range 8).foldl (fun a j => a ||| ((dget (fun _ => d) t j).bits.setWidth 5120 <<< (640 * j))) 0

/-- What a blank line holds (R128). -/
def blankStored : Stored := { ct := 0, tag := 0, poison := false, role := false, wep := 0 }

/-- What an unlisted line of the medium holds: blank, with the label of its hank's blank pages. -/
def Medium.wepOf (m : Medium) (phn : Nat) : Nat := dget (fun _ => m.blankAll) m.blankWep phn
def Medium.blank (m : Medium) (k : Nat) : Stored := { blankStored with wep := m.wepOf (k / 17408) }

/-- A stored line of the medium. -/
def State.medGet (s : State) (phn st d j : Nat) : Stored := dget s.med.blank s.med.lines (medKey phn st d j)

/-- Write a stored line of the medium. -/
def State.medPut (s : State) (phn st d j : Nat) (v : Stored) : State :=
  { s with med := { s.med with
    lines := dput s.med.blank s.med.lines (medKey phn st d j) v
    corrupt := s.med.corrupt.filter (· != medKey phn st d j) } }

/-- Whether a stored line was corrupted beyond decode and not written since (Table 12-10). -/
def State.isCorrupt (s : State) (phn st d j : Nat) : Bool := s.med.corrupt.contains (medKey phn st d j)

/-- The number that little-endian bytes spell. -/
def ofBytes : List Byte → Nat
  | [] => 0
  | b :: bs => b.toNat + 256 * ofBytes bs

/-- Entries of the two maps. -/
def State.hostEntry (s : State) (lhn : Nat) : MapEntry := dget shippedHost s.hanks.host lhn
def State.sysEntry (s : State) (idx : Nat) : MapEntry := dget shippedSys s.hanks.sys idx
def State.entry (s : State) (sys : Bool) (idx : Nat) : MapEntry := if sys then s.sysEntry idx else s.hostEntry idx

/-- Whether an entry passes its CHK (R126). -/
def State.entryOk (s : State) (sys : Bool) (idx : Nat) : Bool :=
  let e := s.entry sys idx
  e.chk == e.goodChk idx

/-- Put an entry into a map without a journal record. -/
def State.putEntry (s : State) (sys : Bool) (idx : Nat) (e : MapEntry) : State :=
  if sys then { s with hanks := { s.hanks with sys := dput shippedSys s.hanks.sys idx e } }
  else { s with hanks := { s.hanks with host := dput shippedHost s.hanks.host idx e } }

/-- Whether a journal record of sequence number `a` is at or after `b`: 31-bit numbers, of which fewer than 2^30 are in use (R129, R130). -/
def jFrom (b a : Nat) : Bool := decide ((a + 2 ^ 31 - b) % 2 ^ 31 < 2 ^ 30)

/-- The newest completed image (R130, R132). -/
def Hanks.newestImage (h : Hanks) : Option Image :=
  match h.imgA.done, h.imgB.done with
  | true, true => some (if jFrom h.imgA.seq h.imgB.seq then h.imgB else h.imgA)
  | true, false => some h.imgA
  | false, true => some h.imgB
  | false, false => none

/-- The journal records that are needed: those from the start of the newest completed image (R130). -/
def State.journalLive (s : State) : List JRec :=
  match s.hanks.newestImage with
  | some i => s.hanks.journal.filter fun r => jFrom i.seq r.seq
  | none => s.hanks.journal

/-- Whether the map journal is full, so that changes to the map wait (R130): 32,768 records since the last completed checkpoint. -/
def State.journalFull (s : State) : Bool := decide (32768 ≤ s.journalLive.length)

/-- The skein of a hank (R44). -/
def skeinOf (lhn : Nat) : Nat := lhn / 98304

/-! ### The operation table (R20, R53, R72, R73) -/

/-- Put an operation in the table. Answers its number. -/
def State.addOp (s : State) (o : Op) : Nat × State :=
  (s.adm.nextOp, { s with adm := { s.adm with
    ops := tput s.adm.ops s.adm.nextOp { o with seq := s.adm.seq }
    nextOp := s.adm.nextOp + 1
    seq := (s.adm.seq + 1) % 2 ^ 32 } })

def State.setOp (s : State) (id : Nat) (o : Op) : State := { s with adm := { s.adm with ops := tput s.adm.ops id o } }
def State.freeOp (s : State) (id : Nat) : State := { s with adm := { s.adm with ops := tdel s.adm.ops id } }

/-- Entries of the operation table that an operation holds: its own, and one for each counter node it fetches (R20, R268). -/
def Op.entries (o : Op) : Nat :=
  match o.kind with
  | .read r => 1 + r.nodes.length
  | .stripe r => 1 + r.nodes.length

/-- Lines that a packet transfers to the neighbour, as mirrored lines or for a resync. -/
def PktBody.lineCount : PktBody → Nat
  | .mirrorWrite _ _ _ ls _ => ls.length
  | .resyncData _ _ _ _ ls => ls.length
  | _ => 0

/-- Mirror and resync transfers of a link: lines to be sent, and lines sent and not acknowledged. A line received is placed in the step of its
packet, and holds no entry. -/
def Link.transfers (l : Link) : Nat := l.mirrorOut.length + (l.unacked.map fun u => u.2.lineCount).sum

/-- Migrations in progress. -/
def State.migActive (s : State) : Nat := (s.hanks.migs.filter fun m => m.2.state != .released).length

/-- Entries of the operation table in use: every internal operation in flight (R20, Table 2-14): reads, stripe operations, the counter nodes they
fetch, page programs, and transfers to the neighbours. A migration, a zeroing or a rebuild holds those of the operations it has in flight. -/
def State.opsUsed (s : State) : Nat :=
  (s.adm.ops.map fun e => e.2.entries).sum + s.med.progs.length + s.linkA.transfers + s.linkB.transfers

/-- Whether the operation table has `n` free entries (R20). -/
def State.opRoom (s : State) (n : Nat) : Bool := decide (s.opsUsed + n ≤ 16384)

/-- The read operation under a number. -/
def State.readOp (s : State) (id : Nat) : Option (Op × ReadOp) :=
  match tget s.adm.ops id with
  | some o => match o.kind with | .read r => some (o, r) | _ => none
  | none => none

/-- The stripe operation under a number. -/
def State.stripeOp (s : State) (id : Nat) : Option (Op × StripeOp) :=
  match tget s.adm.ops id with
  | some o => match o.kind with | .stripe r => some (o, r) | _ => none
  | none => none

/-- Replace the read or stripe of an operation. -/
def State.setRead (s : State) (id : Nat) (o : Op) (r : ReadOp) : State := s.setOp id { o with kind := .read r }
def State.setStripe (s : State) (id : Nat) (o : Op) (r : StripeOp) : State := s.setOp id { o with kind := .stripe r }

/-- Whether sequence number `a` comes before `b`, modulo 2^32 (R73). -/
def seqBefore (a b : Nat) : Bool := a != b && decide ((b + 2 ^ 32 - a) % 2 ^ 32 < 2 ^ 31)

/-- The order of R71 and R72: deadline, then class, then LD, then sequence number. -/
def edfBefore (d1 c1 l1 s1 d2 c2 l2 s2 : Nat) : Bool :=
  decide (d1 < d2) || (d1 == d2 && (decide (c1 < c2) || (c1 == c2 && (decide (l1 < l2) || (l1 == l2 && seqBefore s1 s2)))))

def opBefore (a b : Op) : Bool := edfBefore a.deadline a.rank a.ld a.seq b.deadline b.rank b.ld b.seq

/-- Reservation registers by party: LD 0–15, class 16–23. -/
def resvReg (p : Nat) : Nat := if p < 16 then Reg.ADM_RESV p else Reg.ADM_RESV_INT (p - 16)

/-- The reservation word of a party that is in force: that of the newest row boundary (R68), the register's before the first. -/
def State.resvNow (s : State) (p : Nat) : W64 := (s.adm.inForce[p]?).getD (s.reg (resvReg p))

/-- WINDOW in force of internal class `k`, and the deadline of background work created now (R53). -/
def State.window (s : State) (k : Nat) : Nat := getF (s.resvNow (16 + k)) Fld.ADM_RESV_INT_WINDOW
def State.bgDeadline (s : State) (k : Nat) : Nat := s.clk.now + s.window k

/-! ### Links by number -/

def State.link (s : State) (k : Nat) : Link := if k = 0 then s.linkA else s.linkB
def State.setLink (s : State) (k : Nat) (l : Link) : State := if k = 0 then { s with linkA := l } else { s with linkB := l }

/-- Whether Helra link `k` is UP (Table 10-1). -/
def State.linkUp (s : State) (k : Nat) : Bool := s.fget (Reg.PLK_LINK k) Fld.PLK_LINK_STATE == 4

/-- Whether lane plan B is in force (R10). -/
def State.planB (s : State) : Bool := s.fget Reg.RDY_CASTON Fld.RDY_CASTON_PLAN == 1

/-! ### Status fields that follow the state -/

/-- Commands of ring `n` in flight. -/
def State.inflight (s : State) (n : Nat) : Nat :=
  (s.cmds.filter fun e => match e.2.carrier with | .ring m => m == n | _ => false).length

def bitOf (b : Bool) : Nat := if b then 1 else 0

/-- The read-only fields that at every moment report what stands elsewhere in the state: register, field, and what it reports. A count that
would pass its field's width shows the field's greatest value. -/
def liveFields : List (Nat × Field × (State → Nat)) :=
  [(Reg.RDY_DEVTIME, Fld.RDY_DEVTIME_TICKS, fun s => s.clk.now),
   (Reg.TLC_MIG_STAT, Fld.TLC_MIG_STAT_ACTIVE, State.migActive),
   (Reg.TLC_MIG_STAT, Fld.TLC_MIG_STAT_JFULL, fun s => bitOf s.journalFull),
   (Reg.TLC_JRNL, Fld.TLC_JRNL_RMWJ, fun s => s.hanks.rmw.length),
   (Reg.TLC_JRNL, Fld.TLC_JRNL_SUSPECT, fun s => s.hanks.suspect.length),
   (Reg.TLC_MSHR_STAT, Fld.TLC_MSHR_STAT_IN_USE, fun s => s.tlc.mshr.length),
   (Reg.TLC_CACHE_STAT, Fld.TLC_CACHE_STAT_VALID, fun s => s.tlc.cache.length),
   (Reg.TLC_CACHE_STAT, Fld.TLC_CACHE_STAT_INVAL, fun s => bitOf s.tlc.inval),
   (Reg.TLC_MAINT, Fld.TLC_MAINT_BUSY, fun s => bitOf s.tlc.maint.isSome),
   (Reg.WME_MERGE_STAT, Fld.WME_MERGE_STAT_IN_USE, fun s => s.wm.narrow.length),
   (Reg.GAU_TEST_CTL, Fld.GAU_TEST_CTL_BUSY, fun s => bitOf s.energy.test.isSome),
   (Reg.KEY_STAT, Fld.KEY_STAT_RETIRE_BUSY, fun s => bitOf (!s.crypto.retiring.isEmpty)),
   (Reg.EFC_STAT, Fld.EFC_STAT_OP, fun s => match s.plat.flashOp with | some (op, _) => op | none => 0),
   (Reg.EFC_STAT, Fld.EFC_STAT_BUSY, fun s => bitOf s.plat.flashOp.isSome)] ++
  (List.range 8).map fun n => (Reg.CRG_STAT n, Fld.CRG_STAT_INFLIGHT, fun s => s.inflight n)

/-- What a live field shows. -/
def liveValue (f : Field) (v : Nat) : Nat := min v (2 ^ fwidth f - 1)

/-- Set the live fields of a list from a state. -/
def State.settleFrom (s : State) (l : List (Nat × Field × (State → Nat))) (s0 : State) : State :=
  l.foldl (fun s x => s.fset x.1 x.2.1 (liveValue x.2.1 (x.2.2 s0))) s

/-- Every live field shows what it reports. -/
def State.settle (s : State) : State := s.settleFrom liveFields s

/-- The outcome of a command. -/
abbrev Res := Host.Outcome State Fault Refusal

/-- The command has had its effect: the next state, its live fields settled. -/
def nextState (s : State) : Res := .next s.settle

end Sys2Proof.Machine
end

