-- ==== Sys2Proof/Machine/Words.lean ====
section
/-! DEFINITION. The words of working memory (chapter 5): devices, stored errors and their correction, remaps, line writes with the flip mask,
narrow writes, and the changes of map entries that go through them. A word that stands in `Wm.errs` is stored with those bits wrong; every
other word is as its line makes it. -/

namespace Sys2Proof.Machine

/-! ### The line of nine words (R162, Table 5-1) -/

/-- The 64 data bits of slot `k` of a line: its bytes 8k to 8k + 7, and in slot 8 their XOR. -/
def slotBits (d : Line) (k : Nat) : BitVec 64 :=
  if k < 8 then d.extractLsb' (64 * k) 64 else (List.range 8).foldl (fun a i => a ^^^ d.extractLsb' (64 * i) 64) 0

/-- The 72-bit word of slot `k` of a line, with its SECDED check byte. -/
def slotWord (d : Line) (k : Nat) : BitVec 72 := (Config.secdedCheck (slotBits d k)).append (slotBits d k)

/-- Key of a device word: physical device and WMA. -/
def wordKey (dev wma : Nat) : Nat := dev * 2 ^ 22 + wma

/-- The wrong bits stored in a device word; the spare word of a remapped one stands under the same key (R167). -/
def State.wrongBits (s : State) (dev wma : Nat) : BitVec 72 := dget (fun _ => 0) s.wm.errs (wordKey dev wma)

/-- What physical device `dev` holds for slot `k` of a line at a WMA. -/
def State.storedWord (s : State) (d : Line) (k dev wma : Nat) : BitVec 72 := slotWord d k ^^^ s.wrongBits dev wma

/-! ### Devices (R162, R168–R170) -/

/-- The physical device in a slot; the spare, if one is free (Table 5-13). -/
def State.slotDev (s : State) (k : Nat) : Nat := s.fget Reg.WME_STATE Fld.WME_STATE_MAP / 16 ^ k % 16
def State.devFailed (s : State) (d : Nat) : Bool := s.fbit Reg.WME_STATE Fld.WME_STATE_FAILED d
def State.spareDev (s : State) : Option Nat :=
  (List.range 10).find? fun d => !(s.devFailed d) && !((List.range 9).any fun k => s.slotDev k == d)

/-- Whether a line write reaches a device: it fills a slot, or a rebuild writes it (R163, R169). -/
def State.devWritten (s : State) (dev : Nat) : Bool :=
  !(s.devFailed dev) && (((List.range 9).any fun k => s.slotDev k == dev) ||
    (s.fget Reg.WME_STATE Fld.WME_STATE_REBUILD == 1 && s.fget Reg.WME_REBUILD Fld.WME_REBUILD_TARGET == dev))

/-- The flip mask is spent, or its device has failed: ARMED clears, but for a 1 that software writes to it in the same tick (R17). -/
def State.disarm (s : State) : State :=
  if s.clk.armAgain then s else s.fset Reg.WME_FLIP_CTL Fld.WME_FLIP_CTL_ARMED 0

/-- A line is written at a WMA: its words are stored right, but that the armed flip mask makes the word of device DEV wrong (R163, R174).
`wma` none: the write's place is the module's own choice, drawn as a free value when ANY lets it match. -/
def State.lineWrite (s : State) (wma : Option Nat) : State :=
  let s := match wma with
    | some w => if s.wm.errs.isEmpty then s else { s with wm := { s.wm with errs := s.wm.errs.filter fun e => e.1 % 2 ^ 22 != w } }
    | none => s
  let c := Reg.WME_FLIP_CTL
  let dev := s.fget c Fld.WME_FLIP_CTL_DEV
  if s.fget c Fld.WME_FLIP_CTL_ARMED = 0 ∨ s.devWritten dev = false then s
  else
    let any := s.fget c Fld.WME_FLIP_CTL_ANY == 1
    if !any && wma != some (s.fget c Fld.WME_FLIP_CTL_WMA) then s
    else
      let (x, s1) := match wma with
        | some w => (w, s)
        | none => let (v, t) := s.draw 22; (v.toNat, t)
      let pat : BitVec 72 := (BitVec.ofNat 8 (s.fget c Fld.WME_FLIP_CTL_CHKMASK)).append (s.reg Reg.WME_FLIP_MASK)
      State.disarm { s1 with wm := { s1.wm with errs := dput (fun _ => 0) s1.wm.errs (wordKey dev x) pat } }

/-! ### Corrections and remaps (R166–R173) -/

/-- Valid log entries, COUNT following. -/
def State.logStat (s : State) : State :=
  s.fset Reg.WME_CE_LOG_STAT Fld.WME_CE_LOG_STAT_COUNT
    ((List.range 16).filter fun n => s.fget (Reg.WME_CE_LOG n) Fld.WME_CE_LOG_VALID == 1).length

/-- Log a correction (R173). -/
def State.ceLog (s : State) (dev wma bit : Nat) (ue hard : Bool) : State :=
  let valid := fun n => s.fget (Reg.WME_CE_LOG n) Fld.WME_CE_LOG_VALID == 1
  match (List.range 16).find? fun n => valid n && s.fget (Reg.WME_CE_LOG n) Fld.WME_CE_LOG_DEV == dev && s.fget (Reg.WME_CE_LOG n) Fld.WME_CE_LOG_WMA == wma with
  | some n =>
    let r := Reg.WME_CE_LOG n
    let s1 := s.fadd r Fld.WME_CE_LOG_REPEAT 1
    let s2 := if ue then s1.fset r Fld.WME_CE_LOG_UE 1 else s1
    if hard then s2.fset r Fld.WME_CE_LOG_HARD 1 else s2
  | none =>
    match (List.range 16).find? fun n => !(valid n) with
    | none => s.raise Reg.WME_CE_LOG_STAT Fld.WME_CE_LOG_STAT_OVERRUN
    | some n =>
      let w : W64 := setF (setF (setF (setF (setF (setF (setF 0 Fld.WME_CE_LOG_VALID 1) Fld.WME_CE_LOG_UE (if ue then 1 else 0))
        Fld.WME_CE_LOG_HARD (if hard then 1 else 0)) Fld.WME_CE_LOG_REPEAT 1) Fld.WME_CE_LOG_BIT bit) Fld.WME_CE_LOG_DEV dev) Fld.WME_CE_LOG_WMA wma
      ((s.setReg (Reg.WME_CE_LOG n) w).raise (Reg.WME_CE_LOG n) Fld.WME_CE_LOG_VALID).logStat

/-- Free the remap entries of a device that leaves its slot (R167). -/
def State.freeRemaps (s : State) (dev : Nat) : State :=
  (List.range 32).foldl (fun s n =>
    if s.fget (Reg.WME_REMAP n) Fld.WME_REMAP_VALID = 1 ∧ s.fget (Reg.WME_REMAP n) Fld.WME_REMAP_DEV = dev then s.setReg (Reg.WME_REMAP n) 0 else s) s

/-- A QDR device is declared failed (R168–R170): its slot is served by XOR; the spare is rebuilt, or the module runs degraded. -/
def State.devFail (s : State) (d : Nat) : State :=
  if s.devFailed d then s
  else
    let st := Reg.WME_STATE
    let inSlot := (List.range 9).any fun k => s.slotDev k == d
    let target := s.fget st Fld.WME_STATE_REBUILD == 1 && s.fget Reg.WME_REBUILD Fld.WME_REBUILD_TARGET == d
    let s1 := ((s.openFault (500000 + d)).fsetBit st Fld.WME_STATE_FAILED d true).event evSPARE 4 0xFFFF d [10]
    let s2 := if s.fget Reg.WME_FLIP_CTL Fld.WME_FLIP_CTL_DEV = d then s1.disarm else s1
    let degraded := fun (s : State) => (s.fset st Fld.WME_STATE_DEGRADED 1).eventSev evSPARE 2 4 0xFFFF d [10, 1]
    let s3 :=
      if target then degraded (s2.fset st Fld.WME_STATE_REBUILD 0)
      else if inSlot then
        match (if s2.fget st Fld.WME_STATE_REBUILD = 1 then none else s2.spareDev) with
        | some sp => (((s2.fset st Fld.WME_STATE_REBUILD 1).fset Reg.WME_REBUILD Fld.WME_REBUILD_SOURCE d).fset Reg.WME_REBUILD Fld.WME_REBUILD_TARGET sp).fset
            Reg.WME_REBUILD Fld.WME_REBUILD_DONE 0
        | none => degraded s2
      else s2
    let mine := fun (k : Nat) => k / 2 ^ 22 == d
    let s4 : State := { s3 with wm := { s3.wm with errs := s3.wm.errs.filter fun e => !(mine e.1), hard := s3.wm.hard.filter fun k => !(mine k) } }
    s4.closeFault (500000 + d)

/-- A hard fault takes the lowest free remap entry, whose spare word then serves the device word; with eight of the device in use, or none
free, the device fails (R167, R168), or, once the module runs degraded, the word is served by reconstruction on every access (R170). -/
def State.remap (s : State) (dev wma : Nat) : State :=
  let valid := fun n => s.fget (Reg.WME_REMAP n) Fld.WME_REMAP_VALID == 1
  let mine := (List.range 32).filter fun n => valid n && s.fget (Reg.WME_REMAP n) Fld.WME_REMAP_DEV == dev
  let full := fun (s : State) =>
    if s.fget Reg.WME_STATE Fld.WME_STATE_DEGRADED = 1 then
      { s with wm := { s.wm with hard := if s.wm.hard.contains (wordKey dev wma) then s.wm.hard else s.wm.hard ++ [wordKey dev wma] } }
    else s.devFail dev
  if mine.any fun n => s.fget (Reg.WME_REMAP n) Fld.WME_REMAP_WMA == wma then s
  else
    match (List.range 32).find? fun n => !(valid n) with
    | some n =>
      if 8 ≤ mine.length then full s
      else State.setReg { s with wm := { s.wm with errs := tdel s.wm.errs (wordKey dev wma) } } (Reg.WME_REMAP n)
        (setF (setF (setF 0 Fld.WME_REMAP_VALID 1) Fld.WME_REMAP_DEV dev) Fld.WME_REMAP_WMA wma)
    | none => full s

/-- An uncorrectable word of a device: four at distinct WMAs within 1 s fail it (R168). -/
def State.noteUe (s : State) (dev wma : Nat) : State :=
  let old := (dget (fun _ => []) s.wm.ueTicks dev).filter fun x => decide (s.clk.now ≤ x.2 + 100000000) && x.1 != wma
  let now := old ++ [(wma, s.clk.now)]
  let s1 : State := { s with wm := { s.wm with ueTicks := tput s.wm.ueTicks dev now } }
  if 4 ≤ now.length then s1.devFail dev else s1

/-- One word of a line in error, the line rewritten: corrected, or rebuilt from the others. A word that errs again after the rewrite is
hard, and is remapped (R166, R167); a device whose interface is down fails (R168). -/
def State.wordFix (s : State) (wma : Nat) (e : WordErr) : State :=
  let dev := s.slotDev e.slot
  if 9 ≤ e.slot ∨ s.devFailed dev = true then s
  else if e.down then s.devFail dev
  else
    let hard := e.hard || s.wrongBits dev wma != 0
    let s1 := match e.bit with
      | some b => (s.addCnt Reg.WME_CE_COUNT).ceLog dev wma b false hard
      | none => ((s.addCnt Reg.WME_UE_COUNT).ceLog dev wma 127 true hard).noteUe dev wma
    if hard then s1.remap dev wma else s1

/-- Bits set in a word. -/
def bitsSet (w : BitVec 72) : List Nat := (List.range 72).filter fun k => w.getLsbD k

/-- What SECDED finds in the stored words of a line: a single wrong bit is corrected, two are flagged. Of three or more it flags those that
`Config.secdedFlags` says: the spec names no code (log 64). -/
def State.flipErrs (s : State) (w : Nat) : List WordErr :=
  (List.range 9).filterMap fun k =>
    let pat := s.wrongBits (s.slotDev k) w
    match bitsSet pat with
    | [] => none
    | [b] => some { slot := k, bit := some b, hard := false }
    | [_, _] => some { slot := k, bit := none, hard := false }
    | _ => if Config.secdedFlags pat then some { slot := k, bit := none, hard := false } else none

/-- Whether a stored word of a line is wrong in a way that SECDED does not flag, so that only the XOR check catches it (R163, R171). -/
def State.unflagged (s : State) (w : Nat) : Bool :=
  (List.range 9).any fun k =>
    let pat := s.wrongBits (s.slotDev k) w
    decide (3 ≤ (bitsSet pat).length) && !(Config.secdedFlags pat)

/-- Words of a line that its read must rebuild: those on failed devices, and worn ones without a spare word (R169, R170). -/
def State.rebuiltWords (s : State) (w : Nat) : Nat :=
  ((List.range 9).filter fun k => s.devFailed (s.slotDev k) || s.wm.hard.contains (wordKey (s.slotDev k) w)).length

/-- A line is read (R163): its words in error, those its devices show and those stored wrong, are corrected and the line is rewritten
(R166), or it cannot be recovered, two of its words being lost (R171). Answers whether it was lost. -/
def State.checkWords (s : State) (w : Nat) (errs : List WordErr) : Bool × State :=
  let all := (errs.filter fun e => decide (e.slot < 9)) ++ (s.flipErrs w).filter fun f => !(errs.any fun e => e.slot == f.slot)
  if all.isEmpty && !(s.unflagged w) then (false, s)
  else
    let lost := (all.filter fun e => (e.bit.isNone || e.down) && !(s.devFailed (s.slotDev e.slot))).length + s.rebuiltWords w
    let s1 := s.lineWrite (some w)
    if decide (2 ≤ lost) || s.unflagged w then (true, s1) else (false, all.foldl (fun s e => s.wordFix w e) s1)

/-! ### Regions and lost map entries (Table 5-2, R126, R171) -/

/-- The region of a WMA, numbered in the order of Table 5-2. -/
def wmRegion (w : Nat) : Nat :=
  if w < 786432 then 0 else if w < 819200 then 1 else if w < 835584 then 2 else if w < 851968 then 3 else if w < 917504 then 4
  else if w < 983040 then 5 else if w < 1048576 then 6 else if w < 1572864 then 7 else if w < 1966080 then 8 else if w < 2097152 then 9 else 10

/-- Set a hank aside for restoring because its entry fails its CHK (R126): a FAULT event names it, once. -/
def State.badEntry (s : State) (sys : Bool) (idx : Nat) : State :=
  if s.hanks.restore.contains (sys, idx) then s
  else State.event { s with hanks := { s.hanks with restore := s.hanks.restore ++ [(sys, idx)] } } evFAULT 2 0xFFFF idx [if sys then 1 else 0]

/-- The map entries of a line fail their CHK (R126). -/
def State.spoilEntries (s : State) (sys : Bool) (first : Nat) : State :=
  (List.range 8).foldl (fun s k =>
    let idx := first + k
    if idx < (if sys then sysHanks else hostHanks) then
      let e := s.entry sys idx
      (s.putEntry sys idx { e with chk := (e.goodChk idx) ^^^ 0xFF }).badEntry sys idx
    else s) s

/-! ### Narrow writes (R172) -/

/-- The working memory line and word of a map entry (Table 5-2). -/
def mapWma (sys : Bool) (idx : Nat) : Nat := (if sys then 786432 else 0) + idx / 8

/-- A narrow-write entry drains into its line: unless it covers the line, the old line is read and checked first, and a map line that cannot
be recovered fails the CHK of its entries (R171, R172). -/
def State.drainLine (s : State) (w : Nat) : State :=
  match tget s.wm.narrow w with
  | none => s
  | some e =>
    let s1 : State := { s with wm := { s.wm with narrow := tdel s.wm.narrow w } }
    let (n, s2) :=
      if e.mask == BitVec.allOnes 64 then (1, s1)
      else
        let (lost, t) := s1.checkWords w []
        (2, if lost && decide (wmRegion w ≤ 1) then
          (t.spoilEntries (decide (wmRegion w = 1)) (8 * (w - if w < 786432 then 0 else 786432))).event evFAULT 4 0xFFFF w [wmRegion w]
        else t)
    (s2.lineWrite (some w)).wmAccess n 1 18 none

/-- A narrow write of eight bytes at byte `8 × k` of a working memory line: it joins the line's entry, or takes one, the oldest of eight
being drained for a ninth line; an entry that covers its line drains. -/
def State.narrowWrite (s : State) (wma k : Nat) (v : W64) : State :=
  let put := fun (e : Narrow) => { e with
    bytes := (e.bytes &&& ~~~((BitVec.ofNat 512 (2 ^ 64 - 1)) <<< (64 * k))) ||| (BitVec.ofNat 512 v.toNat <<< (64 * k))
    mask := e.mask ||| (BitVec.ofNat 64 0xFF <<< (8 * k)) }
  let s1 :=
    if (tget s.wm.narrow wma).isSome || decide (s.wm.narrow.length < 8) then s
    else match leastBy (fun a b => decide (a.2.order < b.2.order)) s.wm.narrow with
      | some (o, _) => s.drainLine o
      | none => s
  let e := (tget s1.wm.narrow wma).getD { bytes := 0, mask := 0, order := s1.wm.order }
  let t := tput s1.wm.narrow wma (put e)
  let s2 : State := { s1 with wm := { s1.wm with narrow := t, order := s1.wm.order + 1 } }
  let s3 := s2.fset Reg.WME_MERGE_STAT Fld.WME_MERGE_STAT_PEAK (max t.length (s.fget Reg.WME_MERGE_STAT Fld.WME_MERGE_STAT_PEAK))
  if (put e).mask == BitVec.allOnes 64 then s3.drainLine wma else s3

/-- Change a map entry: the journal takes the whole new entry first (R129). The record counts in TLC_JRNL.MAPJ. -/
def State.setEntry (s : State) (sys : Bool) (idx : Nat) (e : MapEntry) : State :=
  let e' := e.sealChk idx
  let s1 := { s with hanks := { s.hanks with
      journal := s.hanks.journal ++ [(⟨s.hanks.seq, sys, idx, e'⟩ : JRec)]
      seq := (s.hanks.seq + 1) % 2 ^ 31 } }
  (State.putEntry (s1.fadd Reg.TLC_JRNL Fld.TLC_JRNL_MAPJ 1) sys idx e').narrowWrite (mapWma sys idx) (idx % 8) e'.word

end Sys2Proof.Machine
end

