-- ==== Sys2Proof/Machine/Crypt.lean ====
section
/-! DEFINITION. Keys, counters and the line cipher (chapter 8): counter blocks and their cache, the tree's levels, key slots,
encryption and tags. Nodes are held as plaintext blocks (assumption log 6). -/

namespace Sys2Proof.Machine

/-! ### The line cipher (R244, R245) -/

/-- The major counter word of a block, flags included (Table 8-5). -/
def CBlock.word (b : CBlock) : Nat := b.maj % 2 ^ 62 + (if b.lost then 2 ^ 62 else 0) + (if b.z then 2 ^ 63 else 0)

/-- A minor counter of a block. -/
def CBlock.minor (b : CBlock) (k : Nat) : Nat := dget (fun _ => 0) b.min k

/-- A block with one minor set. -/
def CBlock.setMinor (b : CBlock) (k v : Nat) : CBlock := { b with min := dput (fun _ => 0) b.min k v }

/-- The counter input block (Table 8-1): byte `k` is bits 8k+7:8k. -/
def inputBlock (majWord minor addr dom j : Nat) : BitVec 128 :=
  BitVec.ofNat 128 (majWord * 2 ^ 64 + minor * 2 ^ 57 + addr * 2 ^ 20 + dom * 2 ^ 16 + j)

/-- The keystream of a line, block `j` in bits 128j+127:128j. -/
def keystream (key : BitVec 256) (majWord minor addr dom : Nat) : Line :=
  (Config.aes256 key (inputBlock majWord minor addr dom 3)).append
    ((Config.aes256 key (inputBlock majWord minor addr dom 2)).append
      ((Config.aes256 key (inputBlock majWord minor addr dom 1)).append
        (Config.aes256 key (inputBlock majWord minor addr dom 0))))

/-- The length block of GHASH for 512 bits of ciphertext and no additional data (NIST SP 800-38D), in the byte order above. -/
def lenBlock : BitVec 128 := BitVec.ofNat 128 (2 * 2 ^ 112)

/-- GHASH over the four blocks of a ciphertext and the length block. -/
def ghash (h : BitVec 128) (ct : Line) : BitVec 128 :=
  let step := fun (s : BitVec 128) (x : BitVec 128) => Config.gf128Mul (s ^^^ x) h
  step (step (step (step (step 0 (ct.extractLsb' 0 128)) (ct.extractLsb' 128 128)) (ct.extractLsb' 256 128)) (ct.extractLsb' 384 128)) lenBlock

/-- What the key store holds for a key (R251). -/
def KeyMat.of (key : BitVec 256) : KeyMat := { key := key, h := Config.aes256 key 0 }

/-- The tag of a ciphertext (R245). -/
def lineTag (key : KeyMat) (majWord minor addr dom : Nat) (ct : Line) : BitVec 56 :=
  (ghash key.h ct ^^^ Config.aes256 key.key (inputBlock majWord minor addr dom 4)).extractLsb' 0 56

/-- The ciphertext of a line; decryption is the same operation. -/
def lineCipher (key : KeyMat) (majWord minor addr dom : Nat) (pt : Line) : Line := pt ^^^ keystream key.key majWord minor addr dom

/-- A stored line with a plaintext encrypted and tagged under a key and an input (R245): label `wep`. -/
def sealedLine (key : KeyMat) (majWord minor addr dom : Nat) (pt : Line) (poison : Bool) (wep : Nat) : Stored :=
  let ct := lineCipher key majWord minor addr dom pt
  { ct := ct, tag := lineTag key majWord minor addr dom ct, poison := poison, role := false, wep := wep }

/-- The 512 bits of a counter block (Table 8-5). -/
def CBlock.bits (b : CBlock) : Line :=
  BitVec.ofNat 512 (b.word + (List.range 64).foldl (fun a k => a + b.minor k * 2 ^ (64 + 7 * k)) 0)

/-- The counter block that 512 bits spell (Table 8-5). -/
def CBlock.ofBits (d : Line) : CBlock :=
  let minor := fun (t : Tbl Nat) (k : Nat) => dput (fun _ => 0) t k (d.extractLsb' (64 + 7 * k) 7).toNat
  { z := d.getLsbD 63, lost := d.getLsbD 62, maj := (d.extractLsb' 0 62).toNat, min := (List.range 64).foldl minor [] }

/-! ### Wrapped keys (R248, R249) -/

/-- A step of AES key wrap (RFC 3394) with its number, over the check value and the four words of the key in turn, the first in the low bits: the
first byte of a string stands lowest. -/
def wrapStep (kek : BitVec 256) (x : BitVec 64 × BitVec 256) (t : Nat) : BitVec 64 × BitVec 256 :=
  let b := Config.aes256 kek ((x.2.extractLsb' 0 64).append x.1)
  (b.extractLsb' 0 64 ^^^ (BitVec.ofNat 64 t <<< 56), (b.extractLsb' 64 64).append (x.2.extractLsb' 64 192))

/-- A step of AES key wrap taken back. -/
def unwrapStep (kek : BitVec 256) (x : BitVec 64 × BitVec 256) (t : Nat) : BitVec 64 × BitVec 256 :=
  let b := (Config.aes256 kek).symm ((x.2.extractLsb' 192 64).append (x.1 ^^^ (BitVec.ofNat 64 t <<< 56)))
  (b.extractLsb' 0 64, (x.2.extractLsb' 0 192).append (b.extractLsb' 64 64))

/-- The 24 steps of the wrap of a 32-byte key. -/
def wrapSteps : List Nat := (List.range 24).map (· + 1)

/-- A 32-byte key wrapped: its check value, then its four words. -/
def keyWrap (kek key : BitVec 256) : BitVec 320 :=
  let x := wrapSteps.foldl (wrapStep kek) (0xA6A6A6A6A6A6A6A6, key)
  x.2.append x.1

/-- A key unwrapped; none when its integrity check fails (R250). -/
def keyUnwrap (kek : BitVec 256) (w : BitVec 320) : Option (BitVec 256) :=
  let x := wrapSteps.reverse.foldl (unwrapStep kek) (w.extractLsb' 0 64, w.extractLsb' 64 256)
  if x.1 = 0xA6A6A6A6A6A6A6A6 then some x.2 else none

/-- The `n` bytes of a number, big-endian. -/
def beBytes (n v : Nat) : List Byte := ((leBytes n v).reverse).map (BitVec.ofNat 8)

/-- HMAC-SHA-384 (FIPS 198-1) under a key of at most 128 bytes. -/
def hmac384 (key msg : List Byte) : List Byte :=
  let k := key ++ List.replicate (128 - key.length) 0
  let inner := beBytes 48 (Config.sha384 (k.map (· ^^^ 0x36) ++ msg)).toNat
  beBytes 48 (Config.sha384 (k.map (· ^^^ 0x5C) ++ inner)).toNat

/-- The first 32 bytes of HKDF-SHA-384 (RFC 5869). -/
def hkdf384 (salt ikm info : List Byte) : List Byte := (hmac384 (hmac384 salt ikm) (info ++ [1])).take 32

/-- The key transport key of a KEY_LOAD (R249), its first byte in the low bits. -/
def keyLoadKtk (q : BitVec 384 × BitVec 384) (nonce : List Byte) (slot : Nat) : BitVec 256 :=
  let name : List Nat := [0x45, 0x4D, 0x36, 0x54, 0x2D, 0x4B, 0x45, 0x59, 0x4C, 0x4F, 0x41, 0x44]
  let info := (name ++ leBytes 2 slot ++ leBytes 8 Config.serial).map (BitVec.ofNat 8)
  BitVec.ofNat 256 (ofBytes (hkdf384 nonce (beBytes 48 (Config.ecdhX q).toNat) info))

/-! ### Key slots (R247–R252) -/

/-- The key check value of a key (Table 8-3). -/
def kcvOf (key : BitVec 256) : Nat :=
  let h := (Config.sha384 (([0x4B, 0x43, 0x56] : List Nat).map (BitVec.ofNat 8) ++ (leBytes 32 key.toNat).map (BitVec.ofNat 8))).toNat
  h / 2 ^ 376 % 256 + 256 * (h / 2 ^ 368 % 256) + 65536 * (h / 2 ^ 360 % 256) + 16777216 * (h / 2 ^ 352 % 256)

/-- Bytes 0 to 59 of the record of slot `n` (Table 8-3). -/
def KeySlot.bytes (k : KeySlot) (n : Nat) : List Byte :=
  (leBytes 40 k.wkey.toNat ++ [k.state, 0] ++ leBytes 2 n ++ leBytes 4 k.gen ++ leBytes 4 k.kcv ++ List.replicate 8 0).map (BitVec.ofNat 8)

/-- The record of slot `n` that a load writes: LOADED, the key wrapped, and the CRC over all of it (R248). -/
def loadedSlot (n : Nat) (key : BitVec 256) (gen : Nat) : KeySlot :=
  let k : KeySlot := { state := 1, wkey := keyWrap Config.kek key, gen := gen, kcv := kcvOf key, crc := 0 }
  { k with crc := Config.crc32c (k.bytes n) }

/-- The slots as shipped: slot 0 LOADED with the key drawn at manufacture, the others EMPTY and all zero. -/
def shippedSlot (n : Nat) : KeySlot :=
  if n = 0 then loadedSlot 0 (Config.slot0Key 0) 1 else { state := 0, wkey := 0, gen := 0, kcv := 0, crc := 0 }

def State.slot (s : State) (n : Nat) : KeySlot := dget shippedSlot s.crypto.slots n
def State.setSlot (s : State) (n : Nat) (k : KeySlot) : State :=
  { s with crypto := { s.crypto with slots := dput shippedSlot s.crypto.slots n k } }

/-- Whether a slot is LOADED or RETIRING, so that its key stands in the on-chip store (R251). -/
def State.keyLive (s : State) (n : Nat) : Bool := (s.slot n).state == 1 || (s.slot n).state == 2

/-- What the engines take from the key store for a slot (R251). -/
def State.keyMat (s : State) (n : Nat) : KeyMat := (tget s.crypto.store n).getD { key := 0, h := 0 }

/-- A key comes into the store or leaves it. -/
def State.storeKey (s : State) (n : Nat) (key : BitVec 256) : State := { s with crypto := { s.crypto with store := tput s.crypto.store n (KeyMat.of key) } }
def State.dropKey (s : State) (n : Nat) : State := { s with crypto := { s.crypto with store := tdel s.crypto.store n } }

/-- KEY_STAT's totals follow the slots (Table 8-10). -/
def State.slotTotals (s : State) : State :=
  let n1 := (s.crypto.slots.filter fun e => e.2.state == 1).length
  let shipped := if (tget s.crypto.slots 0).isNone then 1 else 0
  let r := (s.crypto.slots.filter fun e => e.2.state == 2 || e.2.state == 3).length
  (s.fset Reg.KEY_STAT Fld.KEY_STAT_LOADED (n1 + shipped)).fset Reg.KEY_STAT Fld.KEY_STAT_RETIRED r

/-- Hanks bound to a slot other than as shipped, in the present map: the hanks of an LD whose entry names it. -/
def State.boundHanks (s : State) (n : Nat) : List Nat := (s.hanks.host.filter fun e => e.2.key == n).map Prod.fst

/-- A KEY event of a slot and its new state. -/
def State.keyEvent (s : State) (slot : Nat) : State := s.event evKEY 4 0xFFFF slot [(s.slot slot).state]

/-- A RETIRED slot becomes EMPTY when its last hank has left it (R258). -/
def State.slotLeft (s : State) (n : Nat) : State :=
  if (s.slot n).state = 3 ∧ s.boundHanks n = [] then
    (State.slotTotals (s.setSlot n { s.slot n with state := 0 })).keyEvent n
  else s

/-- A key is destroyed: it leaves the store, WKEY is written as zeros, and the slot is RETIRED, or EMPTY when no hank refers to it (step 5 of
R256). -/
def State.keyGone (s : State) (n : Nat) : State :=
  (s.setSlot n { s.slot n with wkey := 0, state := if s.boundHanks n = [] then 0 else 3 }).dropKey n

/-! ### Counter nodes (R260–R271) -/

def nodeKey (lvl idx : Nat) : Nat := lvl * 2 ^ 32 + idx

/-- Nodes as shipped, or as the last crypto erase wrote them with major count `base` (R275): leaves with Z = 1, minors 0 (R127, log 6). -/
def shippedNode (base k : Nat) : CBlock := { z := decide (k < 2 ^ 32), lost := false, maj := base, min := [] }

/-- The verified contents of a node's persistent copy. -/
def State.node (s : State) (lvl idx : Nat) : CBlock := dget (shippedNode s.crypto.base) s.crypto.nodes (nodeKey lvl idx)
def State.setNode (s : State) (lvl idx : Nat) (b : CBlock) : State :=
  { s with crypto := { s.crypto with nodes := dput (shippedNode s.crypto.base) s.crypto.nodes (nodeKey lvl idx) b } }

/-- A cached node. -/
def State.cached (s : State) (lvl idx : Nat) : Option CacheNode := tget s.crypto.cache (nodeKey lvl idx)

/-- The newest contents of a node: its cached block, else its persistent copy. -/
def State.nodeNow (s : State) (lvl idx : Nat) : CBlock :=
  match s.cached lvl idx with
  | some c => c.blk
  | none => s.node lvl idx

def State.putCached (s : State) (lvl idx : Nat) (c : CacheNode) : State :=
  { s with crypto := { s.crypto with cache := tput s.crypto.cache (nodeKey lvl idx) c } }

/-- Dirty blocks of the counter cache. -/
def State.dirtyNodes (s : State) : List (Nat × CacheNode) := s.crypto.cache.filter fun e => e.2.due.isSome

/-- KEY_CC_STAT follows the dirty blocks. -/
def State.ccStat (s : State) : State :=
  let d := s.dirtyNodes.length
  (s.fset Reg.KEY_CC_STAT Fld.KEY_CC_STAT_DIRTY d).fset Reg.KEY_CC_STAT Fld.KEY_CC_STAT_PEAK
    (max d (s.fget Reg.KEY_CC_STAT Fld.KEY_CC_STAT_PEAK))

/-- The working memory line of a node of that level: 32,768 sets of 12 ways (Table 5-2, R267). -/
def nodeWma (k way : Nat) : Nat := 1572864 + 12 * (k % 32768) + way

/-- A node moves from the on-chip level into a way of the working-memory level. -/
def State.nodeDown (s : State) (k : Nat) (c : CacheNode) (way : Nat) : State :=
  State.lineWrite { s with crypto := { s.crypto with cache := tput s.crypto.cache k { c with onChip := false, way := way } } } (some (nodeWma k way))

/-- Put a fetched node in the on-chip level, moving a victim of a full set to the working-memory level, whose victim is a
random clean block (R267). A node that cannot be placed is not. -/
def State.placeNode (s : State) (lvl idx : Nat) (b : CBlock) : State :=
  let fresh : CacheNode := { blk := b, due := none, onChip := true }
  let here := s.crypto.cache.filter fun e => e.2.onChip && e.1 % 2048 == nodeKey lvl idx % 2048
  if here.length < 16 then s.putCached lvl idx fresh
  else
    let (r, s1) := s.random
    match here[r % 16]? with
    | none => s1
    | some (vk, v) =>
      let there := s1.crypto.cache.filter fun e => !e.2.onChip && e.1 % 32768 == vk % 32768
      match (List.range 12).find? fun w => !(there.any fun e => e.2.way == w) with
      | some w => (s1.nodeDown vk v w).putCached lvl idx fresh
      | none =>
        let clean := there.filter fun e => e.2.due.isNone
        let (r2, s2) := s1.random
        match clean[r2 % clean.length]? with
        | none => s2
        | some (wk, x) =>
          (State.nodeDown { s2 with crypto := { s2.crypto with cache := tdel s2.crypto.cache wk } } vk v x.way).putCached lvl idx fresh

/-- The uncached nodes that a leaf needs, leaf first, up to L2 (R268). -/
def State.missing (s : State) (p : Nat) : List (Nat × Nat) :=
  ([(0, p), (1, p / 64), (2, p / 4096)] : List (Nat × Nat)).filter fun n => (s.cached n.1 n.2).isNone

/-- Record a lookup (KEY_CC_HIT, KEY_CC_MISS, CTR_FETCH; R268). -/
def State.countLookup (s : State) (miss : List (Nat × Nat)) (master : Nat) : State :=
  if miss.isEmpty then s.setReg Reg.KEY_CC_HIT (s.reg Reg.KEY_CC_HIT + 1)
  else (s.setReg Reg.KEY_CC_MISS (s.reg Reg.KEY_CC_MISS + BitVec.ofNat 64 miss.length)).count 0x0031 0 miss.length 3 master none

/-- MAXMAJ takes a larger major count (R262). -/
def State.noteMaj (s : State) (maj : Nat) : State :=
  if s.fget Reg.KEY_MAXMAJ Fld.KEY_MAXMAJ_MAXMAJ < maj then s.fset Reg.KEY_MAXMAJ Fld.KEY_MAXMAJ_MAXMAJ maj else s

/-- Mark a cached block dirty with a write-back deadline: the earliest stands (R269). -/
def State.dirtyNode (s : State) (lvl idx due : Nat) (b : CBlock) : State :=
  let d := match s.cached lvl idx with
    | some c => (match c.due with | some x => min x due | none => due)
    | none => due
  match s.cached lvl idx with
  | some c =>
    let s1 := s.putCached lvl idx { c with blk := b, due := some d }
    (if c.onChip then s1 else s1.lineWrite (some (nodeWma (nodeKey lvl idx) c.way))).ccStat
  | none => (s.putCached lvl idx { blk := b, due := some d, onChip := true }).ccStat

/-- Raise a minor of a leaf before a medium write of the line (R261). Answers whether it overflowed (R262): then the major rises,
all minors are 0, and the flags clear. -/
def State.raiseLeaf (s : State) (line due : Nat) : Bool × State :=
  let p := line / 64
  let b := s.nodeNow 0 p
  let m := b.minor (line % 64)
  if m < 127 then (false, s.dirtyNode 0 p due (b.setMinor (line % 64) (m + 1)))
  else
    let b' : CBlock := { z := false, lost := false, maj := b.maj + 1, min := [] }
    (true, ((s.dirtyNode 0 p due b').setReg Reg.KEY_OVF (s.reg Reg.KEY_OVF + 1)).noteMaj (b.maj + 1))

/-- Zero a patch: counter block with major + 1, Z = 1, every minor 0 (R127). -/
def State.zeroPatch (s : State) (p due : Nat) : State :=
  let b := s.nodeNow 0 p
  (s.dirtyNode 0 p due { z := true, lost := false, maj := b.maj + 1, min := [] }).noteMaj (b.maj + 1)

/-- Whether a line is a zero line or a lost line by its leaf: minor 0 with Z or LOST (R127, R261). -/
def State.lineZero (s : State) (line : Nat) : Bool :=
  let b := s.nodeNow 0 (line / 64)
  b.z && b.minor (line % 64) == 0
def State.lineLost (s : State) (line : Nat) : Bool :=
  let b := s.nodeNow 0 (line / 64)
  b.lost && b.minor (line % 64) == 0

/-- Encrypt a data line under its slot and present counter: its stored form (page role 0, label `wep`). -/
def State.seal (s : State) (line key : Nat) (pt : Line) (poison : Bool) (wep : Nat) : Stored :=
  let b := s.nodeNow 0 (line / 64)
  sealedLine (s.keyMat key) b.word (b.minor (line % 64)) line 0 pt poison wep

/-- Major and minor of the input of a node's persistent copy: its parent's, or the root's (Table 8-1, R265). -/
def State.nodeInput (s : State) (lvl idx : Nat) : Nat × Nat :=
  if lvl = 5 then (s.crypto.rmaj, dget (fun _ => 0) s.crypto.rmin idx)
  else
    let b := s.nodeNow (lvl + 1) (idx / 64)
    (b.maj, b.minor (idx % 64))

/-- The stored form of a node's persistent copy (R264): the node under slot 0, both copies of an L0 to L3 node alike (R246). It is a function of
the node and its parent, since the parent's minor rises before every write of the copies (log 6). -/
def State.nodeStored (s : State) (lvl idx : Nat) : Stored :=
  let (maj, min) := s.nodeInput lvl idx
  sealedLine (s.keyMat 0) maj min idx (1 + lvl) (s.node lvl idx).bits false 0

/-- Whether a stored line's tag verifies under its slot and present counter. -/
def State.tagOk (s : State) (line key : Nat) (v : Stored) : Bool :=
  let b := s.nodeNow 0 (line / 64)
  v.tag == lineTag (s.keyMat key) b.word (b.minor (line % 64)) line 0 v.ct

/-- The plaintext of a stored line. -/
def State.open' (s : State) (line key : Nat) (v : Stored) : Line :=
  let b := s.nodeNow 0 (line / 64)
  lineCipher (s.keyMat key) b.word (b.minor (line % 64)) line 0 v.ct

/-- Write the root record: SEQ rises by 1 (R265). -/
def State.writeRoot (s : State) : State := { s with crypto := { s.crypto with rootSeq := s.crypto.rootSeq + 1 } }

/-- Raise the parent's minor for a node before its copies are written (R264); L3 parents are pinned: L3, L4, L5 and the root are
rewritten at once. A parent minor above 127 overflows (R262): its major rises, its minors clear. -/
def bumpBlock (b : CBlock) (k : Nat) : Bool × CBlock :=
  if b.minor k < 127 then (false, b.setMinor k (b.minor k + 1)) else (true, { b with maj := b.maj + 1, min := [] })

def State.raisePinned : Nat → State → Nat → Nat → State
  | 0, s, _, _ => s
  | fuel + 1, s, lvl, idx =>
    if lvl ≥ 6 then
      -- the root: RMINn, or RMAJ on overflow
      let m := dget (fun _ => 0) s.crypto.rmin idx
      let c := if m < 127 then { s.crypto with rmin := dput (fun _ => 0) s.crypto.rmin idx (m + 1) }
        else { s.crypto with rmaj := s.crypto.rmaj + 1, rmin := [] }
      State.writeRoot { s with crypto := c }
    else
      let (ovf, b) := bumpBlock (s.node lvl (idx / 64)) (idx % 64)
      let s1 := s.setNode lvl (idx / 64) b
      let s2 := if ovf then (s1.setReg Reg.KEY_OVF (s1.reg Reg.KEY_OVF + 1)).noteMaj b.maj else s1
      State.raisePinned fuel s2 (lvl + 1) (idx / 64)

/-- Before node (lvl, idx) is written, its parent's minor rises: a cached parent becomes dirty with the same deadline, the pinned
levels change at once up to the root (R264, R269). -/
def State.raiseParent (s : State) (lvl idx due : Nat) : State :=
  if lvl ≥ 2 then State.raisePinned 5 s (lvl + 1) idx
  else
    let (ovf, b) := bumpBlock (s.nodeNow (lvl + 1) (idx / 64)) (idx % 64)
    let s1 := s.dirtyNode (lvl + 1) (idx / 64) due b
    if ovf then (s1.setReg Reg.KEY_OVF (s1.reg Reg.KEY_OVF + 1)).noteMaj b.maj else s1

/-- A ply area with a line among logical hanks `a` to `b` is LOST when such a line is lost or poisoned by a fault (R326). -/
def State.areaLost (s : State) (a b : Nat) : State :=
  (List.range 2).foldl (fun s k => (List.range 16).foldl (fun s n =>
    let base := s.fget (Reg.PLK_AREA k n) Fld.PLK_AREA_BASE
    if s.fget (Reg.PLK_AREA k n) Fld.PLK_AREA_STATE = 2 ∧ base ≤ b ∧ a < base + s.fget (Reg.PLK_AREA k n) Fld.PLK_AREA_COUNT then
      s.fset (Reg.PLK_AREA k n) Fld.PLK_AREA_STATE 1
    else s) s) s

/-- Recreate a node both of whose copies are lost (R271): MAJ = MAXMAJ + 1, every minor 0, LOST in a leaf; recreating an L1 or L2
node makes every leaf under it a lost one. KEY_LOST counts it, and a TREE event (failure) names it. -/
def State.recreate (s : State) (lvl idx due : Nat) : State :=
  let maj := s.fget Reg.KEY_MAXMAJ Fld.KEY_MAXMAJ_MAXMAJ + 1
  let per := 64 ^ lvl
  let lost : CBlock := { z := false, lost := true, maj := maj, min := [] }
  let mk := fun (l i : Nat) (c : Tbl CBlock) => tput c (nodeKey l i) (if l = 0 then lost else { lost with lost := false })
  let nodes1 := mk lvl idx s.crypto.nodes
  let nodes2 := if lvl = 0 then nodes1
    else if lvl = 1 then (List.range 64).foldl (fun c i => mk 0 (idx * 64 + i) c) nodes1
    else (List.range 64).foldl (fun c i => (List.range 64).foldl (fun c j => mk 0 ((idx * 64 + i) * 64 + j) c) (mk 1 (idx * 64 + i) c)) nodes1
  let under := fun (k : Nat) =>
    let l := k / 2 ^ 32
    let i := k % 2 ^ 32
    decide (l ≤ lvl) && i / 64 ^ (lvl - l) == idx
  let cache1 := s.crypto.cache.filter fun e => !(under e.1)
  let made := if lvl = 0 then 1 else if lvl = 1 then 65 else 64 * 65 + 1
  let s1 : State := { s with crypto := { s.crypto with nodes := nodes2, cache := cache1 } }
  let s2 := (s1.noteMaj maj).raiseParent lvl idx due
  let s3 := s2.setReg Reg.KEY_LOST (s2.reg Reg.KEY_LOST + BitVec.ofNat 64 made)
  let first := idx * per * 64 / 16384
  let last := ((idx + 1) * per * 64 - 1) / 16384
  (s3.areaLost first last).eventSev evTREE 2 2 0xFFFF first [lvl, idx, last]

end Sys2Proof.Machine
end

