-- ==== Sys2Proof/Machine/Pool.lean ====
section
/-! DEFINITION. The persistence pool and its credits, the write-through merge buffer, the line cache and the region attributes
(chapter 5), and the completion of host requests (chapters 2, 13). -/

namespace Sys2Proof.Machine

/-! ### Region attributes (R183) -/

/-- A field of an attribute register as it applies in this tick: a write applies from the next (R183, R191). -/
def State.attrField (s : State) (off : Nat) (f : Field) : Nat := getF (dget (fun o => s.reg o) s.tlc.attrs0 off) f

/-- WPOL, ALLOC and DISC for a hank: the lowest-numbered valid entry whose range holds it, else TLC_ATTR_DFLT. -/
def State.attrOf (s : State) (lhn : Nat) : Nat × Nat × Nat :=
  match (List.range 64).find? (fun n =>
      s.attrField (Reg.TLC_ATTR n) Fld.TLC_ATTR_VALID == 1 && decide (s.attrField (Reg.TLC_ATTR n) Fld.TLC_ATTR_BASE ≤ lhn) &&
        decide (lhn ≤ s.attrField (Reg.TLC_ATTR n) Fld.TLC_ATTR_LIMIT)) with
  | some n => (s.attrField (Reg.TLC_ATTR n) Fld.TLC_ATTR_WPOL, s.attrField (Reg.TLC_ATTR n) Fld.TLC_ATTR_ALLOC,
      s.attrField (Reg.TLC_ATTR n) Fld.TLC_ATTR_DISC)
  | none => (s.attrField Reg.TLC_ATTR_DFLT Fld.TLC_ATTR_DFLT_WPOL, s.attrField Reg.TLC_ATTR_DFLT Fld.TLC_ATTR_DFLT_ALLOC,
      s.attrField Reg.TLC_ATTR_DFLT Fld.TLC_ATTR_DFLT_DISC)

/-- An attribute register is written: what it held stays in force for this tick. -/
def State.keepAttr (s : State) (off : Nat) : State :=
  if (tget s.tlc.attrs0 off).isSome then s else { s with tlc := { s.tlc with attrs0 := tput s.tlc.attrs0 off (s.reg off) } }

/-! ### The line cache (R176–R181) -/

/-- The set of a line: L[14:0] XOR L[29:15] XOR L[36:30]. -/
def cacheSet (line : Nat) : Nat := (line % 2 ^ 15) ^^^ (line / 2 ^ 15 % 2 ^ 15) ^^^ (line / 2 ^ 30 % 2 ^ 7)

/-- The tag of a line: L[36:15]. -/
def cacheTag (line : Nat) : Nat := line / 2 ^ 15 % 2 ^ 22

/-- The way that holds a line. -/
def State.cacheWay (s : State) (line : Nat) : Option Nat :=
  if s.tlc.inval then none
  else (List.range 16).find? fun w =>
    match tget s.tlc.cache (16 * cacheSet line + w) with
    | some c => c.line == line
    | none => false

/-- The cached copy of a line, with its poison. -/
def State.cacheGet (s : State) (line : Nat) : Option (Line × Bool) :=
  match s.cacheWay line with
  | some w => (tget s.tlc.cache (16 * cacheSet line + w)).map fun c => (c.data, c.poison)
  | none => none

/-- Replace the cache. -/
def State.setCache (s : State) (c : Tbl CacheLine) : State := { s with tlc := { s.tlc with cache := c } }

/-- Write a way of the line cache: its data stands at WMA 1,048,576 + 16 × set + way (Table 5-2). -/
def State.cachePut (s : State) (k : Nat) (c : CacheLine) : State := (s.setCache (tput s.tlc.cache k c)).lineWrite (some (1048576 + k))

/-- Update the cached copy of a line, if there is one (R23). -/
def State.cacheUpdate (s : State) (line : Nat) (d : Line) (poison : Bool) : State :=
  match s.cacheWay line with
  | some w => s.cachePut (16 * cacheSet line + w) { line := line, data := d, poison := poison }
  | none => s

/-- A write to a line is accepted: the medium read of it in flight fills nothing (R177), nor has one that arrived earlier in this tick
(R191). -/
def State.noteWrote (s : State) (line : Nat) : State :=
  { s with tlc := { s.tlc with
      mshr := tmod s.tlc.mshr line fun m => { m with wrote := true }
      cache := if s.tlc.filled.contains line then s.tlc.cache.filter fun e => e.2.line != line else s.tlc.cache
      filled := s.tlc.filled.filter (· != line) } }

/-- The medium reads in flight of the lines that meet a test fill nothing (R177, R180). -/
def State.noFill (s : State) (p : Nat → Bool) : State :=
  { s with tlc := { s.tlc with mshr := s.tlc.mshr.map fun e => if p e.1 then (e.1, { e.2 with wrote := true }) else e } }

/-- One step of the 32-bit Galois LFSR with polynomial x^32 + x^22 + x^2 + x + 1 (R178; right shift, log 12). -/
def lfsrStep (x : Nat) : Nat := if x % 2 = 1 then (x / 2) ^^^ 0x80200003 else x / 2

/-- Allocate a line: its present way, the lowest invalid way, else the way TLC_LFSR gives after one step (R178). -/
def State.cacheFill (s : State) (line : Nat) (d : Line) : State :=
  if s.tlc.inval then s
  else
    match s.cacheWay line with
    | some w => s.cachePut (16 * cacheSet line + w) { line := line, data := d, poison := false }
    | none =>
      match (List.range 16).find? (fun w => (tget s.tlc.cache (16 * cacheSet line + w)).isNone) with
      | some w => s.cachePut (16 * cacheSet line + w) { line := line, data := d, poison := false }
      | none =>
        let x := lfsrStep (s.fget Reg.TLC_LFSR Fld.TLC_LFSR_STATE)
        let s1 := s.fset Reg.TLC_LFSR Fld.TLC_LFSR_STATE x
        s1.cachePut (16 * cacheSet line + x % 16) { line := line, data := d, poison := false }

/-- Invalidate the cached lines that meet a test. -/
def State.cacheDrop (s : State) (p : Nat → Bool) : State := s.setCache (s.tlc.cache.filter fun e => !(p e.2.line))

/-- Invalidate the cached lines of a hank; a medium read of it in flight puts none back (R180). -/
def State.cacheDropHank (s : State) (lhn : Nat) : State := (s.cacheDrop fun l => lhnOf l == lhn).noFill fun l => lhnOf l == lhn

/-- Start a full invalidation (R181): every lookup misses from now on. -/
def State.invalStart (s : State) : State := { s with tlc := { s.tlc with inval := true } }

/-! ### The pool (R185, R186, R472) -/

def State.poolGet (s : State) (line : Nat) : Option PoolLine := tget s.tlc.pool line

/-- GAU_CAP_LINES. -/
def State.capLines (s : State) : Nat := s.fget Reg.GAU_CAP_LINES Fld.GAU_CAP_LINES_CAP

/-- Pool credits set aside at a holder: one for each MIRROR credit given and not used, three for each RESYNC credit (R316). -/
def asideOf (l : Link) : Nat :=
  (l.given.getD 0 0 - l.rxUsed.getD 0 0) + 3 * (l.given.getD 1 0 - l.rxUsed.getD 1 0)
def State.holderAside (s : State) : Nat :=
  (if s.linkUp 0 then asideOf s.linkA else 0) + (if s.linkUp 1 then asideOf s.linkB else 0)

/-- Pool credits that admission has set aside for unrouted writes (R61). -/
def State.setAside (s : State) : Nat :=
  (s.adm.covers.filter (fun c => c)).length +
    (s.adm.dl.filter fun e => e.2.kind != .read && !e.2.routed && e.2.cover).length

/-- Pool credits in use (R472). -/
def State.poolUsed (s : State) : Nat :=
  (s.tlc.pool.filter fun e => e.2.kind == .credit).length + 1024 + s.setAside + s.holderAside

/-- Free pool credits. -/
def State.poolFree (s : State) : Nat := s.capLines - s.poolUsed

/-- The bucket of a line by one of its two hashes. -/
def State.bucketOf (s : State) (second : Bool) (line : Nat) : Nat := Config.dirHash s.tlc.dirKey second line % 262144

/-- Tags in a bucket. -/
def State.bucketFill (s : State) (b : Nat) : Nat :=
  (s.tlc.pool.filter fun e => match e.2.bucket with | some h => s.bucketOf h e.1 == b | none => false).length

/-- Where a new line's tag goes: the less full of its two buckets, the first on a tie; when both are full, a resident of one of
them moves to its other bucket; none when the placement fails (R185, R186). DESIGN CHOICE (log 65): of the residents that can move, the one
of the lowest line number moves. -/
def State.dirPlace (s : State) (line : Nat) : Option (Bool × Option (Nat × Bool)) :=
  let b0 := s.bucketOf false line
  let b1 := s.bucketOf true line
  let n0 := s.bucketFill b0
  let n1 := s.bucketFill b1
  if n0 < 16 ∨ n1 < 16 then some (if n1 < n0 then true else false, none)
  else
    match s.tlc.pool.find? (fun e => match e.2.bucket with
        | some h => (s.bucketOf h e.1 == b0 || s.bucketOf h e.1 == b1) && decide (s.bucketFill (s.bucketOf (!h) e.1) < 16)
        | none => false) with
    | some (l, e) =>
      let h := e.bucket.getD false
      some (if s.bucketOf h l == b0 then false else true, some (l, !h))
    | none => none

/-- Tags in the overflow area. -/
def State.dirOverflow (s : State) : Nat := (s.tlc.pool.filter fun e => e.2.bucket.isNone).length

/-- The working memory line of a pool slot (Table 5-2). -/
def poolWma (slot : Nat) : Nat := 2097152 + slot

/-- The slot that a new line takes: the lowest free one (R185; DESIGN CHOICE, log 19). -/
def State.poolSlot (s : State) : Nat :=
  (firstFrom (fun k => !(s.tlc.pool.any fun e => e.2.slot == k)) (s.tlc.pool.length + 1) 0).getD 0

/-- A pool line in the pool, TLC_POOL following: the zone's bit is set first (R221), and the peak and the shadow count. -/
def State.poolSet (s : State) (line : Nat) (p : PoolLine) : State :=
  let zone := lhnOf line / 96
  let zm := if s.energy.zoneMap.contains zone then s.energy.zoneMap else s.energy.zoneMap ++ [zone]
  let pool := tput s.tlc.pool line p
  let s1 := { s with tlc := { s.tlc with pool := pool }, energy := { s.energy with zoneMap := zm } }
  let s2 := (s1.fset Reg.TLC_POOL Fld.TLC_POOL_PEAK (max pool.length (s.fget Reg.TLC_POOL Fld.TLC_POOL_PEAK))).wmAccess 1 1 p.master (some (lhnOf line))
  let s2 := s2.lineWrite (some (poolWma p.slot))
  s2.fset Reg.TLC_POOL Fld.TLC_POOL_SHADOW ((pool.filter fun e => e.2.kind == .shadow).length)

/-- Take a slot for a new line. `must`: a line that stays on the pool path takes the overflow area when both buckets are full
(R186). None: the placement failed. -/
def State.poolInsert (s : State) (line : Nat) (p : PoolLine) (must : Bool) : Option State :=
  let p := { p with slot := s.poolSlot }
  match s.dirPlace line with
  | some (h, moved) =>
    let s1 := match moved with
      | some (l, h') => { s with tlc := { s.tlc with pool := tmod s.tlc.pool l fun q => { q with bucket := some h' } } }
      | none => s
    some ((s1.poolSet line { p with bucket := some h }).count 0x0011 0 1 1 p.master (some (lhnOf line)))
  | none =>
    let s1 := s.fadd Reg.TLC_POOL Fld.TLC_POOL_DIR_OVF 1
    if must then some ((s1.poolSet line { p with bucket := none }).count 0x0011 0 1 1 p.master (some (lhnOf line))) else none

/-- Drop a pool line; its credit returns. -/
def State.poolDrop (s : State) (line : Nat) : State :=
  let pool := tdel s.tlc.pool line
  State.fset { s with tlc := { s.tlc with pool := pool } } Reg.TLC_POOL Fld.TLC_POOL_SHADOW ((pool.filter fun e => e.2.kind == .shadow).length)

/-- A new pool line. -/
def newPool (data : Line) (key : Nat) (poison : Bool) (kind : PoolKind) (accept master : Nat) : PoolLine :=
  { data := data, key := key, poison := poison, kind := kind, accept := accept, due := accept + 3900000, master := master,
    slot := 0, bucket := some false, op := none, again := false }

/-- Overwrite a dirty pool line in place (R25); a write-back in flight does not clean it (Table 1-9). -/
def State.poolOverwrite (s : State) (line : Nat) (p : PoolLine) (data : Line) (key : Nat) (poison : Bool) (accept master : Nat) : State :=
  s.poolSet line { p with data := data, key := key, poison := poison, accept := accept, due := accept + 3900000,
                          master := master, again := p.again || p.op.isSome }

/-! ### The merge buffer (R187, R188) -/

/-- The entry that holds a page, in a given test of its state. -/
def State.mbFind (s : State) (phn st d : Nat) (p : MbState → Bool) : Option (Nat × MbEntry) :=
  tfind s.tlc.mb fun _ e => e.phn == phn && e.s == st && e.d == d && p e.state

def mbJoins : MbState → Bool
  | .opened => true
  | .read => true
  | _ => false

/-- The newest merge buffer copy of a line. -/
def State.mbGet (s : State) (line : Nat) : Option MbLine :=
  match s.tlc.mb.reverse.find? (fun e => e.2.lines.any fun l => l.2.line == line) with
  | some (_, e) => (e.lines.find? fun l => l.2.line == line).map Prod.snd
  | none => none

/-- Entries in use, held entries in use, and TLC_WT_STAT following them. -/
def State.mbStat (s : State) : State :=
  let n := s.tlc.mb.length
  let h := (s.tlc.mb.filter fun e => e.2.held).length
  let s1 := s.fset Reg.TLC_WT_STAT Fld.TLC_WT_STAT_IN_USE n
  let s2 := s1.fset Reg.TLC_WT_STAT Fld.TLC_WT_STAT_PEAK (max n (s1.fget Reg.TLC_WT_STAT Fld.TLC_WT_STAT_PEAK))
  s2.fset Reg.TLC_WT_STAT Fld.TLC_WT_STAT_HELD (4 - h)

def State.setMb (s : State) (mb : Tbl MbEntry) : State := State.mbStat { s with tlc := { s.tlc with mb := mb } }

/-- Free entries for admission's WT guard: 60 beside the four held ones; none while NOFREE is 1. -/
def State.mbFree (s : State) : Nat :=
  if s.fget Reg.TLC_WT_STAT Fld.TLC_WT_STAT_NOFREE = 1 ∨ s.fget Reg.GAU_CAP_LINES Fld.GAU_CAP_LINES_CAP < 1024 then 0
  else 60 - (s.tlc.mb.filter fun e => !e.2.held).length

/-- The lowest free entry number. -/
def State.mbSlot (s : State) : Option Nat := (List.range 64).find? fun n => (tget s.tlc.mb n).isNone

/-! ### DevLoad (Table 2-10) and completions (R1, R48, R80, R400, R401) -/

/-- DevLoad of a response to an LD (R77). -/
def State.devload (s : State) (ld : Nat) : Nat :=
  let m := s.fget Reg.ADM_DEVLOAD Fld.ADM_DEVLOAD_MODULE
  if s.cxl.mld then max m (s.fget Reg.ADM_DEVLOAD Fld.ADM_DEVLOAD_LD_VAL / 4 ^ ld % 4) else m

/-- The histogram kind whose bound is an offset (Table 13-4). -/
def histKind (bound : Nat) : Option Nat :=
  match bound with
  | 240 => some 0
  | 45 => some 1
  | 160 => some 2
  | 800 => some 3
  | 260 => some 4
  | 375 => some 5
  | 1040 => some 6
  | 4000000 => some 7
  | _ => none

/-- The bin of a completion after `t` ticks (R400). -/
def histBin (t bound : Nat) : Nat := if t ≤ bound then 32 * t / (bound + 1) else 32

/-- The extremes before any count (R401). -/
def noExtreme : Extreme := { max := 0, maxLd := 0, maxCast := 0, maxTick := 0, min := 0xFFFFFFFF, minLd := 0, minCast := 0, minTick := 0 }

/-- Count a completion in the tension histograms and the extremes, while HST_CTL.EN is 1. -/
def State.histCount (s : State) (bound ld t : Nat) : State :=
  if s.fget Reg.HST_CTL Fld.HST_CTL_EN = 0 then s
  else
    match histKind bound with
    | none => s
    | some k =>
      let key := 33 * (16 * k + ld) + histBin t bound
      let t' := min t (2 ^ 32 - 1)
      let c := s.fget Reg.RDY_CASTON Fld.RDY_CASTON_COLD % 65536
      let e := dget (fun _ => noExtreme) s.hist.ext k
      let e1 := if e.max < t' then { e with max := t', maxLd := ld, maxCast := c, maxTick := s.clk.now } else e
      let e2 := if t' < e.min then { e1 with min := t', minLd := ld, minCast := c, minTick := s.clk.now } else e1
      { s with hist := { s.hist with
          bins := dput (fun _ => 0) s.hist.bins key (dget (fun _ => 0) s.hist.bins key + 1)
          ext := dput (fun _ => noExtreme) s.hist.ext k e2
          dirty := true } }

/-- A completion at this tick of a request whose deadline was `dl`: counted once when late (R80). -/
def State.lateCount (s : State) (kind ld dl : Nat) : State :=
  if s.clk.now ≤ dl then s
  else
    let s1 := s.count 0x0002 0 1 (if kind = 0 then 0 else 1) ld none
    if s.inInterruption dl then s1.setReg Reg.ADM_INTR_LATE (s1.reg Reg.ADM_INTR_LATE + 1)
    else (s1.setReg Reg.ADM_LATE (s1.reg Reg.ADM_LATE + 1)).event evFAULT 0 ld 0 [kind, dl, s.clk.now]

/-- The kind number of a request, for records. -/
def ReqKind.num : ReqKind → Nat
  | .read => 0
  | .write => 1
  | .part => 2

/-- Complete a host request: the response is sent, the deadline entry freed, the completion counted. -/
def State.complete (s : State) (seq : Nat) (d : Option Line) (poison : Bool) : State :=
  match tget s.adm.dl seq with
  | none => s
  | some e =>
    let o := match e.kind with
      | .read => Out.data e.ld e.dpa (d.getD 0) poison (s.devload e.ld)
      | _ => Out.cmp e.ld e.dpa (s.devload e.ld)
    let s1 := State.out { s with adm := { s.adm with dl := tdel s.adm.dl seq } } o
    match e.deadline with
    | none => s1
    | some dl => (s1.lateCount e.kind.num e.ld dl).histCount (dl - e.base) e.ld (s.clk.now - e.base)

/-- Complete every request of a list with one line. -/
def State.completeAll (s : State) (seqs : List Nat) (d : Option Line) (poison : Bool) : State :=
  seqs.foldl (fun s q => s.complete q d poison) s

/-- The deadline offset of a request by its kind and path: 0 pool, 1 two-ply, 2 write-through (Table 2-1). -/
def boundOf (k : ReqKind) (path : Nat) : Nat :=
  match k, path with
  | .read, _ => 240
  | .write, 0 => 45
  | .write, 1 => 160
  | .write, _ => 800
  | .part, 0 => 260
  | .part, 1 => 375
  | .part, _ => 1040

/-- Rewrite the deadline of a request for its path (R48, R50). -/
def State.setPath (s : State) (seq path : Nat) : State :=
  { s with adm := { s.adm with dl := tmod s.adm.dl seq fun e => { e with deadline := some (e.base + boundOf e.kind path) } } }

/-- Mark a request as routed: its guard cover is spent (R61). -/
def State.setRouted (s : State) (seq : Nat) : State :=
  { s with adm := { s.adm with dl := tmod s.adm.dl seq fun e => { e with routed := true } } }

/-! ### Records of writes that are not applied (R150, R151, R302) -/

/-- Raise a DROPPED_WRITE or SEALED_WRITE event: the newest record of its class still in the Warning log takes a repeat in
place of a new record when it names the same thing (R151, R302). -/
def State.dropEvent (s : State) (cls dpa ld : Nat) (args : List Nat) (same : Event → Bool) : State :=
  match s.logs[1]? with
  | none => s
  | some l =>
    match (l.recs.filter fun e => e.cls == cls).getLast? with
    | some e =>
      if same e then
        let upd := fun (x : Event) => if x.handle == e.handle && x.cls == cls then
          { x with rep := min (x.rep + 1) (2 ^ 32 - 1), last := s.clk.now } else x
        { s with logs := lset s.logs 1 { l with recs := l.recs.map upd } }
      else s.event cls 1 ld dpa args
    | none => s.event cls 1 ld dpa args

/-- The logical hank of a DPA of an LD (R43). -/
def State.lhnOfDpa (s : State) (ld dpa : Nat) : Nat := (s.cxl.lds.getD ld ⟨0, 0⟩).base + dpa / 2 ^ 20

/-- The logical line of a DPA of an LD. -/
def State.lineOfDpa (s : State) (ld dpa : Nat) : Nat := (s.cxl.lds.getD ld ⟨0, 0⟩).base * 16384 + dpa / 64

/-- Remove a line from the poison list, splitting its record where needed (R363). -/
def State.unpoison (s : State) (ld dpa : Nat) : State :=
  let a := dpa / 64 * 64
  let cut := fun (r : PoisonRec) =>
    if r.ld == ld && decide (r.dpa ≤ a) && decide (a < r.dpa + 64 * r.lines) then
      let before := (a - r.dpa) / 64
      let after := r.lines - before - 1
      (if before = 0 then [] else [{ r with lines := before }]) ++
        (if after = 0 then [] else [{ r with dpa := a + 64, lines := after }])
    else [r]
  { s with cxl := { s.cxl with poison := s.cxl.poison.flatMap cut } }

/-- Record a poisoned line in the poison list: contiguous lines of one source share a record; at 1,024 records the list keeps
its records and sets its overflow flag (R363). -/
def State.notePoison (s : State) (ld dpa : Nat) (inj : Bool) : State :=
  let a := dpa / 64 * 64
  if s.cxl.poison.any (fun r => r.ld == ld && decide (r.dpa ≤ a) && decide (a < r.dpa + 64 * r.lines)) then s
  else
    match s.cxl.poison.find? (fun r => r.ld == ld && r.injected == inj && (r.dpa + 64 * r.lines == a || r.dpa == a + 64)) with
    | some r =>
      let r' := if r.dpa == a + 64 then { r with dpa := a, lines := r.lines + 1 } else { r with lines := r.lines + 1 }
      { s with cxl := { s.cxl with poison := s.cxl.poison.map fun x => if x = r then r' else x } }
    | none =>
      if s.cxl.poison.length < 1024 then
        { s with cxl := { s.cxl with poison := s.cxl.poison ++ [{ ld := ld, dpa := a, lines := 1, injected := inj }] } }
      else { s with cxl := { s.cxl with poisonOvf := true, poisonOvfTime := s.wallOf s.clk.now } }

/-- The LD and DPA that reach a logical line, if an LD holds its hank (R43). -/
def State.ldOf (s : State) (line : Nat) : Option (Nat × Nat) :=
  match (List.range 16).find? (fun n => match s.cxl.lds[n]? with
      | some c => decide (c.base ≤ lhnOf line) && decide (lhnOf line < c.base + c.count)
      | none => false) with
  | some n => some (n, (line - (s.cxl.lds.getD n ⟨0, 0⟩).base * 16384) * 64)
  | none => none

/-- A General Media Event Record for a line the medium poisons (R362). `by'` is the Transaction Type: 1 host read, 2 host write,
3 host scan media, 4 internal media scrub, 6 internal media management. -/
def State.mediaEvent (s : State) (line ch die part by' : Nat) : State :=
  let (ld, dpa) := (s.ldOf line).getD (0xFFFF, line * 64)
  let s1 := (s.areaLost (lhnOf line) (lhnOf line)).eventSev evMEDIA 2 1 ld dpa [by', ch, die, part]
  if ld = 0xFFFF then s1 else s1.notePoison ld dpa false

end Sys2Proof.Machine
end

