-- ==== Sys2Proof/Machine/Lost.lean ====
section
/-! DEFINITION. Lines of working memory that cannot be recovered (R171, Table 5-3), and the reads of the data path. -/

namespace Sys2Proof.Machine

/-! ### Spill queues and regions of a link, as the losses need them (R322, R330) -/

/-- The region of link `k` that holds a hank, with its state; lane plan A has none (R11). -/
def State.regionOn (s : State) (k lhn : Nat) : Option (Nat × Nat) :=
  match (List.range 16).find? (fun r => s.planB &&
      decide (s.fget (Reg.PLK_REGION k r) Fld.PLK_REGION_STATE ≠ 0) && decide (s.fget (Reg.PLK_REGION k r) Fld.PLK_REGION_BASE ≤ lhn) &&
        decide (lhn < s.fget (Reg.PLK_REGION k r) Fld.PLK_REGION_BASE + s.fget (Reg.PLK_REGION k r) Fld.PLK_REGION_COUNT)) with
  | some r => some (r, s.fget (Reg.PLK_REGION k r) Fld.PLK_REGION_STATE)
  | none => none

/-- Set a region's state. -/
def State.setRegion (s : State) (k r st : Nat) : State := s.fset (Reg.PLK_REGION k r) Fld.PLK_REGION_STATE st

/-- Lines in a spill queue, PLK_SPILL following. -/
def State.setSpill (s : State) (k : Nat) (q : List SpillLine) : State :=
  let s1 := s.setLink k { s.link k with spill := q }
  let s2 := s1.fset (Reg.PLK_SPILL k) Fld.PLK_SPILL_LINES q.length
  s2.fset (Reg.PLK_SPILL k) Fld.PLK_SPILL_PEAK (max q.length (s.fget (Reg.PLK_SPILL k) Fld.PLK_SPILL_PEAK))

/-! ### Operations that have read nothing to the end -/

/-- Key of a stripe. -/
def stripeKey (phn st : Nat) : Nat := phn * 128 + st

/-- What the table of suspect stripes holds of a recompute that waits: the pages to be programmed beside the parity page, by bit, and its
deadline; 0 once it runs. -/
def suspectMark (mask due : Nat) : Nat := 2 ^ 18 * due + 2 ^ 17 + mask

/-- Drop some operations with their old-line reads, and the reads of the rebuilds of all these; interruptions that ran end. -/
def State.dropOps (s : State) (ids : List Nat) : State :=
  let olds := tkeys s.adm.ops fun o => match o.kind with | .read r => (match r.purpose with | .old i => ids.contains i | _ => false) | _ => false
  let parts := tkeys s.adm.ops fun o => match o.kind with | .read r => (match r.purpose with | .part i => (ids ++ olds).contains i | _ => false) | _ => false
  let open' := (ids ++ olds).filter fun i => match s.readOp i with | some (_, r) => r.onset.isSome | none => false
  (ids ++ olds ++ parts).foldl (fun s i => s.freeOp i) (open'.foldl (fun s i => s.closeFault (100000 + i)) s)

/-- Whether an operation that reads whole pages has not formed its programs, so that it stands in the working buffers alone. -/
def StripeOp.gathers (r : StripeOp) : Bool :=
  !r.started && (match r.kind with | .writeBack => false | .through _ => false | _ => true)

/-- The operations that gather pages in the working buffers start again (Table 5-3): refreshes are queued, recomputes wait, and the copier and the
die rebuilds take their stripe anew. -/
def State.regather (s : State) : State :=
  let mine := s.adm.ops.filterMap fun e => match e.2.kind with | .stripe r => if r.gathers then some (e.1, e.2.deadline, r) else none | _ => none
  mine.foldl (fun s x =>
    let r := x.2.2
    match r.kind with
    | .refresh =>
      { s with med := { s.med with refreshQ := s.med.refreshQ ++ (((List.range 17).filter fun d => r.pages.testBit d).map fun d => (r.phn, r.s, d, x.2.1)) } }
    | .recompute => { s with hanks := { s.hanks with suspect := tput s.hanks.suspect (stripeKey r.phn r.s) (suspectMark r.pages x.2.1) } }
    | _ => s) (s.dropOps (mine.map Prod.fst))

/-! ### Losses by region (Table 5-3) -/

/-- A counter cache line of the working memory level: a clean block is fetched again, a dirty one is lost in both copies (Table 5-3). -/
def State.spoilNode (s : State) (n : Nat) : State :=
  match s.crypto.cache.find? fun e => !e.2.onChip && e.1 % 32768 == n / 12 && e.2.way == n % 12 with
  | none => s
  | some (k, c) =>
    let s1 : State := { s with crypto := { s.crypto with cache := tdel s.crypto.cache k } }
    match c.due with
    | none => s1
    | some due => (s1.ccStat).recreate (k / 2 ^ 32) (k % 2 ^ 32) due

/-- A line lost from a spill queue breaks its region (Table 5-3). -/
def State.spoilSpill (s : State) (k n : Nat) : State :=
  match (s.link k).spill[n]? with
  | none => s
  | some l =>
    match s.regionOn k (lhnOf l.line) with
    | some (r, _) =>
      let base := s.fget (Reg.PLK_REGION k r) Fld.PLK_REGION_BASE
      let cnt := s.fget (Reg.PLK_REGION k r) Fld.PLK_REGION_COUNT
      ((s.setRegion k r 4).setSpill k ((s.link k).spill.filter fun x => decide (lhnOf x.line < base) || decide (base + cnt ≤ lhnOf x.line))).event
        evPLY 4 0xFFFF r [k, 4]
    | none => s.setSpill k ((s.link k).spill.eraseIdx n)

/-- The line in slot `n` of the pool is poisoned. -/
def State.spoilPool (s : State) (n : Nat) : State × List Nat :=
  match s.tlc.pool.find? fun e => e.2.slot == n with
  | none => (s, [])
  | some (line, p) =>
    let (ld, dpa) := (s.ldOf line).getD (0xFFFF, line * 64)
    (State.mediaEvent { s with tlc := { s.tlc with pool := tput s.tlc.pool line { p with poison := true } } } line 0 0 0 6, [dpa, ld])

/-- A line of the working buffers is lost: a line of a merge buffer page is poisoned; else a migration that copies or verifies starts again
from its journal state, and so does every operation that gathers pages there. DESIGN CHOICE (log 66): the pages stand first, eight lines to an entry. -/
def State.spoilBuffers (s : State) (n : Nat) : State × List Nat :=
  if n < 512 then
    match tget s.tlc.mb (n / 8) with
    | none => (s, [])
    | some e =>
      match tget e.lines (n % 8) with
      | none => (s, [])
      | some l =>
        let (ld, dpa) := (s.ldOf l.line).getD (0xFFFF, l.line * 64)
        (State.mediaEvent (s.setMb (tput s.tlc.mb (n / 8) { e with lines := tput e.lines (n % 8) { l with poison := true } })) l.line 0 0 0 6, [dpa, ld])
  else
    let again := fun (g : Mig) => if g.state == .copying || g.state == .verifying then { g with state := MigState.copying, bitmap := 0, again := 0 } else g
    (State.regather { s with hanks := { s.hanks with migs := s.hanks.migs.map fun e => (e.1, again e.2) } }, [])

/-- A line of working memory cannot be recovered (R171, Table 5-3): the FAULT event names the WMA and the region. -/
def State.lineGone (s : State) (w : Nat) : State :=
  let (s1, extra) :=
    if w < 786432 then (s.spoilEntries false (8 * w), [])
    else if w < 819200 then (s.spoilEntries true (8 * (w - 786432)), [])
    else if w < 835584 then (({ s with hanks := { s.hanks with fillRebuild := true } } : State), [])
    else if w < 851968 then s.spoilBuffers (w - 835584)
    else if w < 917504 then (s.spoilSpill 0 (w - 851968), [])
    else if w < 983040 then (s.spoilSpill 1 (w - 917504), [])
    else if w < 1048576 then (s, [])
    else if w < 1572864 then (s.setCache (tdel s.tlc.cache (w - 1048576)), [])
    else if w < 1966080 then (s.spoilNode (w - 1572864), [])
    else if w < 2097152 then (s, [])
    else s.spoilPool (w - 2097152)
  s1.event evFAULT 4 0xFFFF w (wmRegion w :: extra)

/-- Check and correct one line that is read, with the errors its devices show (R163, R166, R171). -/
def State.checkLine (s : State) (w : Nat) (errs : List WordErr) : State :=
  let (lost, s1) := s.checkWords w errs
  if lost then s1.lineGone w else s1

/-- A line of working memory that the data path reads. Nothing but stored errors, which `wm` lists, makes such a read change anything. -/
def State.wmRead (s : State) (w : Nat) : State := if s.wm.errs.isEmpty then s else s.checkLine w []

/-- The nodes that a leaf needs are looked up: those of the working-memory level are read there (R163, R268). -/
def State.nodesRead (s : State) (p : Nat) : State :=
  ([(0, p), (1, p / 64), (2, p / 4096)] : List (Nat × Nat)).foldl (fun s n => match s.cached n.1 n.2 with
    | some c => if c.onChip then s else s.wmRead (nodeWma (nodeKey n.1 n.2) c.way)
    | none => s) s

end Sys2Proof.Machine
end

