-- ==== Sys2Proof/Machine/Senses.lean ====
section
/-! DEFINITION. Medium reads at the dies (chapter 3): medium time, labels and thresholds, the sense units and stitches of a partition, the
start of senses in deadline order, the reads of a stripe rebuild, and the queues of the channels. -/

namespace Sys2Proof.Machine

/-! ### Medium time, labels and thresholds (R102 to R105) -/

/-- Medium time in drift steps. -/
def State.medTime (s : State) : Nat := s.fget Reg.MCH_EPOCH Fld.MCH_EPOCH_EPOCH * 64 + s.fget Reg.MCH_EPOCH Fld.MCH_EPOCH_STEP

/-- A swatch page as its program writes it, and whether its line 0 checks (R107, R109). -/
def swatchPage (epoch step : Nat) : SwatchPage :=
  { epoch := epoch, step := step, check := Config.swatchCheck epoch step, pattern := Config.swatchPattern }
def SwatchPage.checks (p : SwatchPage) : Bool := p.check == Config.swatchCheck p.epoch p.step

/-- The swatch pages as shipped: page 0 of every die, of EPOCH 0 and STEP 0 (R107). -/
def swatchReset (k : Nat) : Option SwatchPage := if k % 64 = 0 then some (swatchPage 0 0) else none

/-- Medium time of a label's allocation (R103). -/
def State.labelTime (s : State) (w : Nat) : Nat :=
  let x := dget (fun _ => (0, 0)) s.med.labels w
  x.1 * 64 + x.2

/-- floor (16 × log2 (1 + age)), exactly: the logarithm of the sixteenth power (R105). -/
def driftLog (age : Nat) : Nat := Nat.log2 ((1 + age) ^ 16)

/-- The threshold of a die's drift model for an age in drift steps (R105). -/
def thrAt (base nu l : Nat) : Nat := min 255 (base + nu * l / 256)
def driftThr (base nu age : Nat) : Nat := thrAt base nu (driftLog age)

/-- The threshold at which a page is sensed now: by its label, and by the BASE and NU of its die (R105). -/
def State.senseThr (s : State) (phn st d : Nat) : Nat :=
  let ch := chanOf phn st d
  let m := Reg.MCH_DRIFT ch (s.dieOf ch (phnAdie phn))
  driftThr (s.fget m Fld.MCH_DRIFT_BASE) (s.fget m Fld.MCH_DRIFT_NU) (s.medTime - s.labelTime (s.medGet phn st d 0).wep)

/-! ### Partitions: senses and stitches (R83, R87, R89, R91, R123) -/

/-- Whether the die of a position no longer serves it (R118 to R120): it is failed, or stands for a position that is rebuilt or degraded. -/
def State.dieGone (s : State) (phn st d : Nat) : Bool :=
  let ch := chanOf phn st d
  let a := phnAdie phn
  s.fbit (Reg.MCH_STATE ch) Fld.MCH_STATE_DIE_FAILED (s.dieOf ch a) ||
    (s.fget (Reg.MCH_DIESUB ch) Fld.MCH_DIESUB_REB_VALID == 1 && s.fget (Reg.MCH_DIESUB ch) Fld.MCH_DIESUB_REB_ADIE == a)

/-- The die and engine state of a position: whether its page can be sensed (R22, R118, R119, R121). -/
def State.canSense (s : State) (phn st d : Nat) : Bool :=
  s.fget (Reg.MCH_STATE (chanOf phn st d)) Fld.MCH_STATE_ENGINE == 1 && !(s.dieGone phn st d)

/-- Whether a position is lost to every read: its engine is failed, or its die no longer serves it. One whose engine is off or restarting is only
waited for. -/
def State.posGone (s : State) (phn st d : Nat) : Bool :=
  s.fget (Reg.MCH_STATE (chanOf phn st d)) Fld.MCH_STATE_ENGINE == 3 || s.dieGone phn st d

/-- The die of a read's position. -/
def State.readDie (s : State) (r : ReadOp) : Nat := s.dieOf (chanOf r.phn r.s r.d) (phnAdie r.phn)

/-- Whether a read waits at its partition or is sensed there. -/
def ReadOp.atPart (r : ReadOp) : Bool := r.stage == .queued || r.stage == .valley

/-- The sense units that a read's sense occupies: a valley sense takes all four (R83, R98). -/
def ReadOp.units (r : ReadOp) : Nat := if r.stage = .valley then 4 else 1

/-- The reads at a partition, by operation. -/
def State.readsAt (s : State) (ch die part : Nat) : List (Nat × Op × ReadOp) :=
  s.adm.ops.filterMap fun e => match e.2.kind with
    | .read r => if r.atPart && chanOf r.phn r.s r.d == ch && phnPart r.phn == part && s.readDie r == die then some (e.1, e.2, r) else none
    | _ => none

/-- Whether a sense runs in a partition. -/
def State.senseRuns (s : State) (ch die part : Nat) : Bool := (s.readsAt ch die part).any fun x => x.2.2.busy

/-- Whether a stitch runs in the partition of a position (R83). -/
def State.stitchRuns (s : State) (phn st d : Nat) : Bool :=
  let ch := chanOf phn st d
  s.med.progs.any fun e => e.2.ch == ch && e.2.running && e.2.part == phnPart phn && e.2.die == s.dieOf ch (phnAdie phn)

/-- Whether a page is being programmed: it is then not sensed (R123). -/
def State.pageBusy (s : State) (phn st d : Nat) : Bool :=
  s.med.progs.any fun e => e.2.phn == phn && e.2.s == st && e.2.d == d && e.2.start.isSome

/-- The order of programs: deadline, then class, LD and sequence of the operation they belong to (R71, R72). -/
def State.progBefore (s : State) (a b : Nat × Program) : Bool :=
  let key := fun (x : Nat × Program) => match x.2.op with
    | some id => (match tget s.adm.ops id with | some o => (o.rank, o.ld, o.seq) | none => (2, 16, 0))
    | none => (2, 16, 0)
  let (c1, l1, s1) := key a
  let (c2, l2, s2) := key b
  edfBefore a.2.deadline c1 l1 s1 b.2.deadline c2 l2 s2 || (!(edfBefore b.2.deadline c2 l2 s2 a.2.deadline c1 l1 s1) && decide (a.1 < b.1))

/-- Starts of programs on a die in the last 16 rows (R91). -/
def State.recentStarts (s : State) (ch die : Nat) : List Nat :=
  (dget (fun _ => []) s.med.starts (9 * ch + die)).filter fun t => decide (s.clk.now < t + 640)

/-- The key of a partition. -/
def partKey (ch die part : Nat) : Nat := 16 * (9 * ch + die) + part

/-- Whether a program has a stitch due: its lines are in the page buffer, its partition has started no stitch in this row and programs no
other page before it, and its die may start a program (R87, R91). -/
def State.stitchDue (s : State) (id : Nat) (p : Program) : Bool :=
  let same := fun (q : Program) => q.ch == p.ch && q.die == p.die && q.part == p.part
  p.toMove == 0 && !p.running && s.fget (Reg.MCH_STATE p.ch) Fld.MCH_STATE_ENGINE == 1 &&
    tget s.med.stitched (partKey p.ch p.die p.part) != some (s.clk.now / 40) &&
    !(s.med.progs.any fun e => e.1 != id && same e.2 && (e.2.running ||
        (p.start.isNone && (e.2.start.isSome || (e.2.toMove == 0 && s.progBefore e (id, p)))))) &&
    (p.start.isSome || decide ((s.recentStarts p.ch p.die).length < 3))

/-- Whether a due stitch of a partition has no deferral left: no new sense starts (R89). -/
def State.stitchPressed (s : State) (ch die part : Nat) : Bool :=
  s.med.progs.any fun e => e.2.ch == ch && e.2.die == die && e.2.part == part && decide (4 ≤ e.2.deferrals) && s.stitchDue e.1 e.2

/-- Whether the sense of a read may start: its page can be sensed and is not being programmed, medium lines are sensed (R108), no stitch runs
or must run, the four sense units hold it (R83), and no read before it waits there (R71). -/
def State.senseMay (s : State) (id : Nat) (o : Op) (r : ReadOp) : Bool :=
  let ch := chanOf r.phn r.s r.d
  let here := s.readsAt ch (s.readDie r) (phnPart r.phn)
  r.atPart && !r.busy && s.ready rDRIFT && s.canSense r.phn r.s r.d && !(s.pageBusy r.phn r.s r.d) && !(s.stitchRuns r.phn r.s r.d) &&
    !(s.stitchPressed ch (s.readDie r) (phnPart r.phn)) &&
    decide (((here.filter fun x => x.2.2.busy).map fun x => x.2.2.units).sum + r.units ≤ 4) &&
    !(here.any fun x => x.1 != id && !x.2.2.busy && opBefore x.2.1 o && !(s.pageBusy x.2.2.phn x.2.2.s x.2.2.d))

/-- A merge buffer entry whose page reads have all been issued to their partitions is READ from there on (R187). -/
def State.mbIssued (s : State) : State :=
  if s.tlc.mb.any fun e => e.2.state == .opened then
    let issued := fun (n : Nat) => (s.adm.ops.filter fun e => match e.2.kind with
      | .read r => (match r.purpose with | .page m _ => m == n && !((r.stage == .queued && !r.busy) || r.need == 17) | _ => false)
      | _ => false).length
    s.setMb (s.tlc.mb.map fun e => if e.2.state = .opened ∧ issued e.1 = e.2.need then (e.1, { e.2 with state := .read }) else e)
  else s

/-- Start every sense that may start, in the order of R71 and R72; a normal sense takes its threshold then (R105). -/
def State.senseStart (s : State) : State :=
  let waiting := s.adm.ops.filter fun e => match e.2.kind with | .read r => r.atPart && !r.busy | _ => false
  ((sortBy (fun a b => opBefore a.2 b.2) waiting).foldl (fun s e => match s.readOp e.1 with
    | some (o, r) =>
      if s.senseMay e.1 o r then
        s.setRead e.1 o { r with busy := true, thr := if r.stage = .queued then s.senseThr r.phn r.s r.d else r.thr }
      else s
    | none => s) s).mbIssued

/-! ### Medium reads -/

/-- The staged copy of a page under refresh or a counter rewrite (R114, R262). -/
def State.stagedLine (s : State) (phn st d j : Nat) : Option Stored :=
  match tget s.med.staged (medKey phn st d 0) with
  | some t => tget t j
  | none => none

/-- The logical line at a position of the stripe of a line. -/
def posLine (line d j : Nat) : Nat := line / 128 * 128 + d % 16 * 8 + j

/-- Medium operations of a channel: the reads in its queue and its programs (Table 1-2). -/
def State.chanLoad (s : State) (ch : Nat) : Nat :=
  (s.adm.ops.filter fun e => match e.2.kind with
    | .read r => chanOf r.phn r.s r.d == ch && (r.atPart || r.stage == .latched)
    | _ => false).length + (s.med.progs.filter fun e => e.2.ch == ch).length

/-- Whether a channel's queue has credits for `n` more operations (R27). -/
def State.chanRoom (s : State) (ch n : Nat) : Bool := decide (s.chanLoad ch + n ≤ 256)

/-- Whether the channel of each of some pages of a stripe has credits for `n` operations (R27). -/
def State.pagesRoom (s : State) (phn st : Nat) (ds : List Nat) (n : Nat) : Bool := ds.all fun d => s.chanRoom (chanOf phn st d) n

/-- Whether the reads of a rebuild must wait: a program of the stripe goes first (R123), or the operation table or a channel's queue has no
room (R20, R27). -/
def State.rebuildWaits (s : State) (phn st : Nat) : Bool :=
  (s.med.progs.any fun e => e.2.phn == phn && e.2.s == st) || !(s.opRoom 16) || !(s.pagesRoom phn st (List.range 17) 1)

/-- Whether the reads of a rebuild from a stripe are under way: no program of the stripe begins meanwhile (R123). -/
def State.rebuildRuns (s : State) (phn st : Nat) : Bool :=
  s.adm.ops.any fun e => match e.2.kind with
    | .read r => r.phn == phn && r.s == st && r.stage == .rebuild && decide (0 < r.need) && decide (r.need < 17)
    | _ => false

/-- One of the reads of a rebuild is answered: its fields join the XOR of the read it serves (R86), or its page is noted as failed. -/
def State.partDone (s : State) (parent d : Nat) (v : Option Stored) : State :=
  match s.readOp parent with
  | none => s
  | some (o, r) =>
    match v with
    | some x => s.setRead parent o { r with need := r.need - 1, stored :=
        { ct := r.stored.ct ^^^ x.ct, tag := r.stored.tag ^^^ x.tag, poison := r.stored.poison != x.poison, role := decide (r.d = 16), wep := 0 } }
    | none => s.setRead parent o { r with need := r.need - 1, bad := r.bad ++ [d] }

/-- Begin the rebuild of a read from its stripe (R22, R99): the line at the same place of the other 16 pages is read, with the read's own
deadline; one whose channel's engine restarts waits for it (R121). `need` 17: the reads wait to be issued. -/
def State.rebuildStart (s : State) (id : Nat) : State :=
  match s.readOp id with
  | none => s
  | some (o, r) =>
    if s.rebuildWaits r.phn r.s then s.setRead id o { r with stage := .rebuild, busy := false, need := 17 }
    else
      let s1 := s.setRead id o { r with stage := .rebuild, busy := false, need := 16, bad := [], stored := blankStored }
      ((List.range 17).filter (· != r.d)).foldl (fun s d =>
        let part := fun (stage : RStage) (v : Stored) =>
          let q := { r with line := posLine r.line d r.j, d := d, stage := stage, stored := v, nodes := [], onset := none,
                            purpose := .part id, busy := false, need := 0, bad := [] }
          (s.addOp { o with kind := .read q }).2
        match s.stagedLine r.phn r.s d r.j with
        | some v => part .latched v
        | none => if s.posGone r.phn r.s d then s.partDone id d none else part .queued blankStored) s1

/-- Issue the reads of the rebuilds that waited. -/
def State.rebuildPump (s : State) : State :=
  (s.adm.ops.filter fun e => match e.2.kind with | .read r => r.stage == .rebuild && r.need == 17 | _ => false).foldl
    (fun s e => s.rebuildStart e.1) s

/-- Issue a medium read of a line: with its missing counter nodes in parallel (R268), rebuilt from its stripe at once when its
page cannot be sensed (R22), latched at once from a staged page. Answers the operation's number. -/
def State.issueRead (s : State) (line key phn st d j : Nat) (needCtr : Bool) (purpose : Purpose) (deadline rank ld cls master : Nat) : Nat × State :=
  let s := if needCtr then s.nodesRead (line / 64) else s
  let miss := if needCtr then s.missing (line / 64) else []
  let s1 := if needCtr then s.countLookup miss master else s
  let (stage, stored) := match s1.stagedLine phn st d j with
    | some v => (RStage.latched, v)
    | none => if s1.canSense phn st d then (RStage.queued, blankStored) else (RStage.rebuild, blankStored)
  let s2 := if stage = .rebuild then s1.count 0x0024 (chanOf phn st d) 1 cls master (some (lhnOf line)) else s1
  let (id, s3) := s2.addOp { kind := .read { line := line, phn := phn, s := st, d := d, j := j, stage := stage, stored := stored, key := key,
                                             nodes := miss, engine := 0, onset := none, purpose := purpose, busy := false, thr := 0,
                                             need := 0, bad := [] },
                             deadline := deadline, rank := rank, ld := ld, seq := 0, cls := cls, master := master }
  (id, (if stage = .rebuild then s3.rebuildStart id else s3).senseStart)

/-- Whether the medium read of a line can be issued now: entries of the operation table for it, its counter nodes and the reads of a rebuild
(R20), and a credit of its channel's queue (R27). -/
def State.readRoom (s : State) (line : Nat) : Bool :=
  let e := s.hostEntry (lhnOf line)
  let up := s.canSense e.phn (stripeOf line) (pageOf line)
  s.opRoom (1 + (s.missing (line / 64)).length + (if up then 0 else 16)) && s.chanRoom (chanOf e.phn (stripeOf line) (pageOf line)) 1

end Sys2Proof.Machine
end

