-- ==== Sys2Proof/Machine/Path.lean ====
section
/-! DEFINITION. The paths of reads and writes through translation, pool, merge buffer, mirror queues and medium reads
(chapters 1 and 5), over which the commands of the host path, the rings and the links are written. -/

namespace Sys2Proof.Machine

/-! ### Patches of hanks being zeroed (R152–R154) -/

/-- Whether a line's patch still waits to be zeroed: its hank has zeroing work and the patch is not in the list done. -/
def State.patchWaits (s : State) (line : Nat) : Bool :=
  (tget s.hanks.work (lhnOf line)).isSome && !((dget (fun _ => []) s.hanks.zeroed (lhnOf line)).contains (line / 64 % 256))

/-- Zero the patch of a line ahead of a request, when it waits (R153). -/
def State.zeroFirst (s : State) (line : Nat) : State :=
  if s.patchWaits line then
    let lhn := lhnOf line
    let s1 := s.zeroPatch (line / 64) (s.clk.now + 3900000)
    { s1 with hanks := { s1.hanks with
        zeroed := tput s1.hanks.zeroed lhn ((dget (fun _ => []) s1.hanks.zeroed lhn) ++ [line / 64 % 256]) } }
  else s

/-! ### Two-ply regions (R322, R325) -/

/-- The link, region and region state of a two-ply hank, by the PLY of its map entry (Table 4-1). -/
def State.regionOf (s : State) (lhn : Nat) : Option (Nat × Nat × Nat) :=
  let p := (s.hostEntry lhn).ply
  if p = 1 ∨ p = 2 then (s.regionOn (p - 1) lhn).map fun x => (p - 1, x.1, x.2) else none

/-- The region whose neighbour mirrors a line: two-ply, SYNCING or MIRRORED, its link UP (R24, R327). -/
def State.mirrorOf (s : State) (line : Nat) : Option (Nat × Nat) :=
  match s.regionOf (lhnOf line) with
  | some (k, r, st) => if (st = 1 ∨ st = 2) ∧ s.linkUp k then some (k, r) else none
  | none => none

/-- The path whose bound a write of a line is accepted under: two-ply, or the pool path until it falls back (R48, R50). -/
def State.firstPath (s : State) (line : Nat) : Nat := if (s.mirrorOf line).isSome then 1 else 0

/-- Whether any region is SYNCING or MIRRORED (R473). -/
def State.anyMirrored (s : State) : Bool :=
  s.planB && (List.range 2).any fun k => (List.range 16).any fun r =>
    let st := s.fget (Reg.PLK_REGION k r) Fld.PLK_REGION_STATE
    st == 1 || st == 2

/-- Append a line to the spill queue of link `k`; a full queue breaks every DEGRADED region of the link (R330). -/
def State.spillPut (s : State) (k : Nat) (l : SpillLine) : State :=
  let q := (s.link k).spill
  if q.length < 65536 then (s.setSpill k (q ++ [l])).lineWrite (some (851968 + 65536 * k + q.length))
  else
    let broken := (List.range 16).filter fun r => s.fget (Reg.PLK_REGION k r) Fld.PLK_REGION_STATE == 3
    let s1 := broken.foldl (fun s r => (s.setRegion k r 4).event evPLY 4 0xFFFF r [k, 4]) s
    (s1.setSpill k []).fadd (Reg.PLK_SPILL k) Fld.PLK_SPILL_OVF 1

/-! ### Placing lines -/

/-- A full line to be placed: its data and poison, the master it is written for (an LD, HL-A or HL-B as holder, or the module), whether a
pool credit is set aside for it (R61), the host request that it completes, its acceptance tick (R59), its deadline (R53), the write policy
and the key index under which it was routed (R183, R253), and whether it stays on the pool path whatever room there is (R186). -/
structure Put where
  line : Nat
  data : Line
  poison : Bool
  master : Nat
  cover : Bool
  seq : Option Nat
  accept : Nat
  due : Nat
  wpol : Nat
  key : Nat
  keep : Bool
  deriving DecidableEq, Repr

/-- A line of a merge buffer entry. -/
def newMbLine (p : Put) (seqs : List Nat) : MbLine :=
  { data := p.data, key := p.key, poison := p.poison, seqs := seqs, line := p.line, accept := p.accept }

/-- Queue the reads of the old data page and the old parity page of a merge buffer entry, with its deadline (R96, R187), charged to class 3
(R471). -/
def State.pageReads (s : State) (n line phn st d due rank ld : Nat) (counted : Bool) : State :=
  (([d, 16] : List Nat).flatMap fun q => (List.range 8).map fun j => (q, j)).foldl (fun s x =>
    (s.issueRead (posLine line x.1 x.2) 0 phn st x.1 x.2 false (.page n counted) due rank ld 4 18).2) (s.charge 19 16)

/-- The working memory line of line `j` of the page in merge buffer entry `n` (log 66). -/
def mbWma (n j : Nat) : Nat := 835584 + 8 * n + j

/-- The class and LD of a line to be placed: those of the host request it completes, else those of internal work (R53, R72). -/
def Put.order (p : Put) : Nat × Nat := if p.seq.isSome then (1, p.master) else (2, 16)

/-- A merge buffer entry with a line's deadline: it keeps the earliest, with its class and LD (R53, R72, R187). -/
def MbEntry.sooner (x : MbEntry) (due rank ld : Nat) : MbEntry :=
  if decide (due < x.due) || (due == x.due && (decide (rank < x.rank) || (rank == x.rank && decide (ld < x.ld)))) then
    { x with due := due, rank := rank, ld := ld }
  else x

/-- Write a line through the merge buffer (R25, R187): join the page's open entry, or take the lowest free entry and queue the reads of its
old pages. `held`: the directory had no room, so one of the four held entries may serve (R186; DESIGN CHOICE, log 61: an ordinary
entry serves first, while fewer than 60 are in use). None: no entry is free. -/
def State.mbPlace (s : State) (p : Put) (e : MapEntry) (held : Bool) : Option State :=
  let st := stripeOf p.line
  let d := pageOf p.line
  let j := lineOf p.line
  match s.mbFind e.phn st d mbJoins with
  | some (n, x) =>
    let old := match tget x.lines j with | some l => l.seqs | none => []
    some ((s.setMb (tput s.tlc.mb n ({ x with lines := tput x.lines j (newMbLine p (old ++ p.seq.toList)) }.sooner p.due p.order.1 p.order.2))).lineWrite
      (some (mbWma n j)))
  | none =>
    let useHeld := decide (60 ≤ (s.tlc.mb.filter fun e => !e.2.held).length)
    if (useHeld && !held) || !(s.opRoom 16) || !(s.chanRoom (chanOf e.phn st d) 8) || !(s.chanRoom (chanOf e.phn st 16) 8) then none
    else
      match s.mbSlot with
      | none => none
      | some n =>
        some (((s.setMb (tput s.tlc.mb n
          { state := .opened, phn := e.phn, s := st, d := d, lines := [(j, newMbLine p p.seq.toList)],
            due := p.due, rank := p.order.1, ld := p.order.2, held := useHeld, op := none, need := 16, stuck := false })).lineWrite
              (some (mbWma n j))).pageReads n p.line e.phn st d p.due p.order.1 p.order.2 (!p.cover))

/-- Whether the page of a line has an entry in MERGED or PROGRAM, so that a write takes a shadow credit (R188). -/
def State.mbBusyPage (s : State) (line : Nat) (e : MapEntry) : Bool :=
  (s.mbFind e.phn (stripeOf line) (pageOf line) fun st => !(mbJoins st)).isSome

/-- What placing a full line did: it is in the pool, it waits for the programs of the merge buffer, or it could not be placed and
waits in translation. -/
inductive Placed where
  | pool | through | stuck
  deriving DecidableEq, Repr

/-- A line has been placed: the cached copy follows (R23), and a medium read of it in flight fills nothing (R177). -/
def State.placed (s : State) (p : Put) : State := (s.cacheUpdate p.line p.data p.poison).noteWrote p.line

/-- Place a line in the merge buffer, or leave it waiting. -/
def State.placeThrough (s : State) (p : Put) (e : MapEntry) (held : Bool) : Placed × State :=
  match s.mbPlace p e held with
  | some s' => (.through, s'.placed p)
  | none => (.stuck, s)

/-- Place a full line: over a dirty pool line in place; under a shadow credit while its page is programmed; else by the write policy and
the credits (R25, R184 to R188). No line takes a pool credit that is not there (R30): one that must stay on the pool path waits for it. -/
def State.placeLine (s : State) (p : Put) : Placed × State :=
  let e := s.hostEntry (lhnOf p.line)
  match s.poolGet p.line with
  | some q => (.pool, (s.poolOverwrite p.line q p.data p.key p.poison p.accept p.master).placed p)
  | none =>
    if s.mbBusyPage p.line e then
      match s.poolInsert p.line (newPool p.data p.key p.poison .shadow p.accept p.master) true with
      | some s' => (.pool, s'.placed p)
      | none => (.stuck, s)
    else if p.wpol = 1 && !p.keep then s.placeThrough p e false
    else if p.cover || decide (0 < s.poolFree) then
      match s.poolInsert p.line (newPool p.data p.key p.poison .credit p.accept p.master) p.keep with
      | some s' => (.pool, s'.placed p)
      | none => (s.fadd Reg.TLC_POOL Fld.TLC_POOL_DIR_OVF 1).placeThrough p e true
    else if p.keep then (.stuck, s)
    else s.placeThrough p e false

/-! ### Old contents and lookups -/

/-- What a lookup of a line finds before the medium: data (with its poison) or that the medium must be read. -/
inductive Found where
  | here (d : Line) (poison : Bool)
  | medium
  deriving DecidableEq, Repr

/-- Look a line up in the pool, the merge buffer, the line cache, and by its leaf when the leaf is cached (R21, R127, R177). -/
def State.lookup (s : State) (line : Nat) : Found :=
  match s.poolGet line with
  | some p => .here p.data p.poison
  | none =>
    match s.mbGet line with
    | some l => .here l.data l.poison
    | none =>
      match s.cacheGet line with
      | some (d, p) => .here d p
      | none =>
        if (s.cached 0 (line / 64)).isSome then
          if s.lineZero line then .here 0 false
          else if s.lineLost line then .here 0 true
          else .medium
        else .medium

/-- The line of working memory that serves a logical line, in the order of R177, is read and checked (R163, R166). -/
def State.hitRead (s : State) (line : Nat) : State :=
  match s.poolGet line with
  | some p => s.wmRead (poolWma p.slot)
  | none =>
    match s.tlc.mb.reverse.find? (fun e => e.2.lines.any fun l => l.2.line == line) with
    | some (n, _) => s.wmRead (mbWma n (lineOf line))
    | none => match s.cacheWay line with | some w => s.wmRead (1048576 + 16 * cacheSet line + w) | none => s

/-- The PMC count of a read served or missed (Table 13-1). -/
def State.countHit (s : State) (line master : Nat) : State :=
  if (s.poolGet line).isSome || (s.mbGet line).isSome then s.wmAccess 1 0 master (some (lhnOf line))
  else if (s.cacheGet line).isSome then (s.count 0x0013 0 1 0 master (some (lhnOf line))).wmAccess 1 0 master (some (lhnOf line))
  else s.count 0x0014 0 1 0 master (some (lhnOf line))

/-- An operation that serves one more request: it keeps the earliest deadline, with that request's class and LD (R53, R71, R72). -/
def Op.sooner (o : Op) (deadline rank ld cls : Nat) : Op :=
  if decide (deadline < o.deadline) || (deadline == o.deadline && (decide (rank < o.rank) || (rank == o.rank && decide (ld < o.ld)))) then
    { o with deadline := deadline, rank := rank, ld := ld, cls := cls }
  else o

/-- Queue a medium read for a waiter: joining the line's MSHR as a secondary when it has room, else with an MSHR when one is free
(the read then fills, R177), else by a read of its own (R179). A write that waits for the line keeps the read from filling (R177). -/
def State.missRead (s : State) (line : Nat) (w : Waiter) (writes : Bool) (deadline rank ld cls master : Nat) : State :=
  let e := s.hostEntry (lhnOf line)
  let alloc := (s.attrOf (lhnOf line)).2.1
  let own := fun (s : State) (fill : Bool) =>
    s.issueRead line e.key e.phn (stripeOf line) (pageOf line) (lineOf line) true (.serve [w] fill) deadline rank ld cls master
  match tget s.tlc.mshr line with
  | some m =>
    if m.secondaries < 8 then
      match s.readOp m.op with
      | some (o, r) =>
        match r.purpose with
        | .serve ws f =>
          let s1 := { s with tlc := { s.tlc with mshr := tput s.tlc.mshr line { m with secondaries := m.secondaries + 1, wrote := m.wrote || writes } } }
          s1.setRead m.op (o.sooner deadline rank ld cls) { r with purpose := .serve (ws ++ [w]) f }
        | _ => (own s false).2
      | none => (own s false).2
    else (own s false).2
  | none =>
    if s.tlc.mshr.length < 256 then
      let (id, s1) := own s (alloc == 0 || alloc == 1)
      let mshr := tput s1.tlc.mshr line { op := id, secondaries := 0, wrote := writes }
      let s2 := { s1 with tlc := { s1.tlc with mshr := mshr } }
      s2.fset Reg.TLC_MSHR_STAT Fld.TLC_MSHR_STAT_PEAK (max mshr.length (s.fget Reg.TLC_MSHR_STAT Fld.TLC_MSHR_STAT_PEAK))
    else (own s false).2

/-! ### Writes (R23–R26, R50, R51, R126, R150, R257, R302) -/

/-- Merge written bytes into a line under a byte mask. -/
def mergeBytes (old new : Line) (mask : BitVec 64) : Line :=
  let m : Line := (List.range 64).foldl (fun (a : Line) i => if mask.getLsbD i then a ||| (BitVec.ofNat 512 0xFF <<< (8 * i)) else a) 0
  (old &&& ~~~m) ||| (new &&& m)

/-- The SEQ of the live seal of a hank; 0 while its seal is in progress (R302). -/
def State.sealSeqOf (s : State) (lhn : Nat) : Nat :=
  match tfind s.seals.live (fun _ l => decide (l.first ≤ lhn) && decide (lhn < l.first + l.count)) with
  | some (_, l) => l.seq
  | none => 0

/-- Record a write to a sealed hank (R302). -/
def State.sealedWrite (s : State) (ld dpa lhn : Nat) : State :=
  let q := s.sealSeqOf lhn
  let s1 := s.setReg Reg.SEL_WRDROP (s.reg Reg.SEL_WRDROP + 1)
  s1.dropEvent evSEALED_WRITE dpa ld [q] fun e => e.ld == ld && e.args.getD 0 0 == q

/-- An older copy of a line above the medium reads as poison from here on (R150). -/
def State.copiesBad (s : State) (line : Nat) : State :=
  let spoil := fun (l : Nat × MbLine) => if l.2.line = line then (l.1, { l.2 with poison := true }) else l
  { s with tlc := { s.tlc with
      pool := tmod s.tlc.pool line fun p => { p with poison := true }
      mb := s.tlc.mb.map fun e => (e.1, { e.2 with lines := e.2.lines.map spoil }) } }

/-- Record a write to a line of a dead stripe: the line's minor advances, so the old contents no longer verify (R150, R151). -/
def State.deadWrite (s : State) (ld dpa line : Nat) : State :=
  let (_, s0) := s.raiseLeaf line (s.clk.now + 3900000)
  let s1 := s0.copiesBad line
  let s2 := s1.setReg Reg.TLC_DROPPED (s1.reg Reg.TLC_DROPPED + 1)
  let e := s.hostEntry (lhnOf line)
  let ch := chanOf e.phn (stripeOf line) (pageOf line)
  let s3 := { s2 with hanks := { s2.hanks with dropAttr := tput s2.hanks.dropAttr ch (dget (fun _ => 0) s2.hanks.dropAttr ch + 1) } }
  (s3.dropEvent evDROPPED dpa ld [s.clk.now] fun e => s.lhnOfDpa e.ld e.addr == lhnOf line).cacheDrop fun l => l == line

/-- Why a write to a line is not applied (the entry fails its CHK, the hank is sealed, the key of its routing is retiring or retired, its stripe
is dead), or that it is. -/
inductive WriteFate where
  | apply | badEntry | isSealed | noKey | dead
  deriving DecidableEq, Repr

def State.fateUnder (s : State) (line key : Nat) : WriteFate :=
  let lhn := lhnOf line
  let e := s.hostEntry lhn
  if !(s.entryOk false lhn) then .badEntry
  else if e.isSealed then .isSealed
  else if !((s.slot key).state == 1) then .noKey
  else if (tget s.hanks.dead (stripeKey e.phn (stripeOf line))).isSome then .dead
  else .apply

/-- The fate of a write to a line that is routed now. -/
def State.writeFate (s : State) (line : Nat) : WriteFate := s.fateUnder line (s.hostEntry (lhnOf line)).key

/-- The effect of a write that is not applied. -/
def State.notApplied (s : State) (f : WriteFate) (ld dpa line : Nat) : State :=
  match f with
  | .apply => s
  | .badEntry => s.badEntry false (lhnOf line)
  | .isSealed => s.sealedWrite ld dpa (lhnOf line)
  | .noKey => s.setReg Reg.KEY_DROPWR (s.reg Reg.KEY_DROPWR + 1)
  | .dead => s.deadWrite ld dpa line

/-- Whether a mirrored line goes before another: by deadline, then LD (R71, R72), but never before a line of the same place. -/
def mirrorBefore (m q : MirrorLine) : Bool :=
  (decide (m.deadline < q.deadline) || (m.deadline == q.deadline && decide (m.ld < q.ld))) &&
    !(m.region == q.region && m.hoff == q.hoff && m.line == q.line)

/-- Put a line into a mirror-out queue, from its end towards its head as far as it goes first. -/
def mirrorInsert (m : MirrorLine) (l : List MirrorLine) : List MirrorLine :=
  let tail := l.reverse.takeWhile (mirrorBefore m)
  l.take (l.length - tail.length) ++ m :: tail.reverse

/-- Free mirror-out credits of a link: each stands for a MIRROR credit held that no line of the queue has taken; 512 while it is not UP (R317). -/
def State.mirrorFree (s : State) (k : Nat) : Nat :=
  let l := s.link k
  if s.linkUp k then l.got.getD 0 0 - l.used.getD 0 0 - l.mirrorOut.length else 512

/-- Queue a line for the neighbour that mirrors its region (R24, R327); without a mirror-out credit, or with a full operation table, it waits
in translation (R20, R28, R47). -/
def State.mirrorPut (s : State) (k : Nat) (m : MirrorLine) : State :=
  let l := s.link k
  if l.mirrorWait.isEmpty && decide (0 < s.mirrorFree k) && s.opRoom 1 then s.setLink k { l with mirrorOut := mirrorInsert m l.mirrorOut }
  else s.setLink k { l with mirrorWait := mirrorInsert m l.mirrorWait }

/-- The lines that wait take the mirror-out credits that have come back, in deadline order (R71). -/
def State.mirrorFill (s : State) (k : Nat) : State :=
  let l := s.link k
  let n := min (s.mirrorFree k) (16384 - s.opsUsed)
  s.setLink k { l with mirrorOut := (l.mirrorWait.take n).foldl (fun q m => mirrorInsert m q) l.mirrorOut, mirrorWait := l.mirrorWait.drop n }

/-- The request waits in translation, its full line in hand. -/
def State.holdLine (s : State) (seq : Nat) (data : Line) : State :=
  { s with adm := { s.adm with dl := tmod s.adm.dl seq fun x => { x with stuck := true, merged := true, data := data } } }

/-- The write policy and the key index under which a line is routed (R183, R253): a two-ply hank has the pool path (R184). -/
def State.polOf (s : State) (line : Nat) : Nat := if (s.regionOf (lhnOf line)).isSome then 0 else (s.attrOf (lhnOf line)).1
def State.keyOf (s : State) (line : Nat) : Nat := (s.hostEntry (lhnOf line)).key

/-- The policy and the key index of a request: those of its routing, which it keeps. -/
def State.polFor (s : State) (e : DlEntry) : Nat := e.wpol.getD (s.polOf e.line)
def State.keyFor (s : State) (e : DlEntry) : Nat := e.key.getD (s.keyOf e.line)

/-- Take the write policy and the key index at routing; the request keeps them (R183, R253). -/
def State.takePolicy (s : State) (seq : Nat) (e : DlEntry) : State :=
  { s with adm := { s.adm with dl := tmod s.adm.dl seq fun x =>
      { x with wpol := some (x.wpol.getD (s.polOf e.line)), key := some (x.key.getD (s.keyOf e.line)) } } }

/-- The line of a request, to be placed. -/
def DlEntry.put (e : DlEntry) (seq path wpol key : Nat) (keep : Bool) (data : Line) : Put :=
  { line := e.line, data := data, poison := false, master := e.ld, cover := e.cover, seq := some seq, accept := e.accept,
    due := e.base + boundOf e.kind path, wpol := wpol, key := key, keep := keep }

/-- Route a full line of a request whose write is to be applied: to both plies when the neighbour mirrors it; else to the pool or the merge
buffer, a DEGRADED region's line entering the spill queue too. The request completes, or waits for what it needs. DESIGN CHOICE (log 62): a
line of a DEGRADED or BROKEN region that finds no pool credit takes the write-through path, as R473 lets the guards assume. -/
def State.routeFull (s : State) (seq : Nat) (e : DlEntry) (data : Line) : State :=
  let s := (s.zeroFirst e.line).unpoison e.ld e.dpa
  let lhn := lhnOf e.line
  match s.mirrorOf e.line with
  | some (k, r) =>
    match s.placeLine (e.put seq 1 0 (s.keyFor e) true data) with
    | (.stuck, s1) => s1.holdLine seq data
    | (_, s1) =>
      let s2 := (s1.setPath seq 1).setRouted seq
      let base := s.fget (Reg.PLK_REGION k r) Fld.PLK_REGION_BASE
      let s3 := s2.mirrorPut k { seq := seq, region := r, hoff := lhn - base, line := e.line % 16384, data := data,
                                 deadline := e.base + boundOf e.kind 1, ld := e.ld }
      { s3 with adm := { s3.adm with dl := tmod s3.adm.dl seq fun x => { x with mirror := some k } } }
  | none =>
    let spill := fun (s1 : State) => match s.regionOf lhn with
      | some (k, _, 3) => s1.spillPut k { line := e.line, key := s.keyFor e, data := data, poison := false }
      | _ => s1
    match s.placeLine (e.put seq 2 (s.polFor e) (s.keyFor e) false data) with
    | (.pool, s1) => ((spill s1).setRouted seq).complete seq none false
    | (.through, s1) => ((spill s1).setPath seq 2).setRouted seq
    | (.stuck, s1) => (s1.setPath seq 2).holdLine seq data

/-- The SALVAGE pair of a partial write whose old line does not verify: both records or neither (R26, R274). -/
def State.salvage (s : State) (e : DlEntry) (cause : Nat) : State :=
  let key := (s.hostEntry (lhnOf e.line)).key
  let bytes := mergeBytes 0 e.data e.mask
  let r1 := s.mkEvent evSALVAGE 1 0 e.ld e.dpa [1, e.ld, key, cause, e.dpa, e.mask.toNat, e.accept]
  let r2 := s.mkEvent evSALVAGE 1 0 e.ld e.dpa [2, bytes.toNat]
  match s.logs[1]? with
  | none => s
  | some l =>
    if logCount l + 2 ≤ 512 then
      let h1 := l.nextHandle
      let h2 := if h1 ≥ 65535 then 1 else h1 + 1
      (s.record 1 { r1 with pair := h2 }).record 1 { r2 with pair := h1 }
    else if s.normalService then
      let w := s.wallOf s.clk.now
      let s1 := { s with logs := lset s.logs 1 { l with ovf := l.ovf + 2, ovfFirst := if l.ovf = 0 then w else l.ovfFirst, ovfLast := w } }
      (s1.ingest 1 r1).ingest 1 r2
    else
      let w := s.wallOf s.clk.now
      let s1 := { s with logs := lset s.logs 1 (logPut (logPut l false s.clk.now w r1).1 false s.clk.now w r2).1 }
      (s1.ingest 1 r1).ingest 1 r2

/-- Route a line of a request that has waited since its routing: it is placed only when it is still to be applied, under the key index of its
routing (R253, R257). -/
def State.routeHeld (s : State) (seq : Nat) (e : DlEntry) (f : State → State) : State :=
  match s.fateUnder e.line (s.keyFor e) with
  | .apply => f s
  | x => ((s.notApplied x e.ld e.dpa e.line).setRouted seq).complete seq none false

/-- Merge a partial write with its old line and route the result, or record the salvage and complete (R26, R49). -/
def State.mergeAndRoute (s : State) (seq : Nat) (e : DlEntry) (old : Line) (poison : Bool) (cause : Nat) : State :=
  s.routeHeld seq e fun s =>
    if poison then ((s.salvage e cause).setRouted seq).complete seq none false
    else s.routeFull seq e (mergeBytes old e.data e.mask)

/-- Serve a waiter with a line. -/
def State.serveHost (s : State) (seq : Nat) (d : Line) (poison : Bool) (cause : Nat) : State :=
  match tget s.adm.dl seq with
  | none => s
  | some e =>
    match e.kind with
    | .read => s.complete seq (some d) poison
    | .part => s.mergeAndRoute seq e d poison cause
    | .write => s

/-- Whether reads of a hank answer poison before any lookup: its entry fails its CHK, or its key is gone (R126, R256). -/
def State.readDenied (s : State) (line : Nat) : Bool :=
  let e := s.hostEntry (lhnOf line)
  !(s.entryOk false (lhnOf line)) || !(s.keyLive e.key)

/-- The request waits for a credit of translation, or in translation for room for its medium read (R20, R27). -/
def State.holdReq (s : State) (seq : Nat) : State :=
  { s with adm := { s.adm with dl := tmod s.adm.dl seq fun x => { x with stuck := true } } }

/-- Whether a read of a line can join the medium read of its MSHR (R179). -/
def State.joins (s : State) (line : Nat) : Bool :=
  match tget s.tlc.mshr line with
  | some m => decide (m.secondaries < 8) && (s.readOp m.op).isSome
  | none => false

/-- Queue the medium read of a request, or let it wait in translation for room. -/
def State.missReq (s : State) (seq : Nat) : State :=
  match tget s.adm.dl seq with
  | none => s
  | some e =>
    if s.joins e.line || s.readRoom e.line then
      let (rank, cls) := if e.kind = .read then (0, 0) else (1, 2)
      (if e.kind = .read then s.setRouted seq else s).missRead e.line (.host seq) (e.kind != .read) (e.deadline.getD 0) rank e.ld cls e.ld
    else s.holdReq seq

/-- The path of a partial write whose old line must be read, decided as it is routed (R50, R184): with neither a pool credit set aside nor
one free, or under write-through, its deadline is rewritten; otherwise a pool credit is set aside for it until its line is merged. -/
def State.partPath (s : State) (seq : Nat) (e : DlEntry) : State :=
  if (s.mirrorOf e.line).isSome then s
  else if e.wpol = some 1 || !(e.cover || decide (0 < s.poolFree)) then
    let s1 := s.setPath seq 2
    { s1 with adm := { s1.adm with dl := tmod s1.adm.dl seq fun x => { x with wpol := some 1 } } }
  else { s with adm := { s.adm with dl := tmod s.adm.dl seq fun x => { x with cover := true } } }

/-- Route an accepted request whose skein is ready (steps 3 to 5 of Table 2-2). -/
def State.routeReq (s : State) (seq : Nat) : State :=
  match tget s.adm.dl seq with
  | none => s
  | some e =>
    let line := e.line
    let lhn := lhnOf line
    let s := (s.wmRead (mapWma false lhn)).hitRead line
    match e.kind with
    | .read =>
      if s.cxl.locked then s.complete seq (some 0) true
      else if s.readDenied line then
        (if s.entryOk false lhn then s else s.badEntry false lhn).complete seq (some 0) true
      else
        let s := (s.zeroFirst line).countHit line e.ld
        match s.lookup line with
        | .here d p => (s.setRouted seq).complete seq (some d) p
        | .medium => s.missReq seq
    | .write =>
      if s.cxl.locked then (s.setRouted seq).complete seq none false
      else
        match s.writeFate line with
        | .apply => (s.takePolicy seq e).routeFull seq e e.data
        | f => ((s.notApplied f e.ld e.dpa line).setRouted seq).complete seq none false
    | .part =>
      if s.cxl.locked then (s.setRouted seq).complete seq none false
      else
        match s.writeFate line with
        | .apply =>
          let s := (s.zeroFirst line).takePolicy seq e
          match s.lookup line with
          | .here d p => s.mergeAndRoute seq e d p (if s.lineLost line then 3 else 4)
          | .medium =>
            match tget s.adm.dl seq with
            | some e1 => (s.partPath seq e1).missReq seq
            | none => s
        | f => ((s.notApplied f e.ld e.dpa line).setRouted seq).complete seq none false

/-! ### HDM decode and acceptance (R43, R48, R52, R351, R352) -/

/-- The DPA of an HPA by the committed decoders of an LD. -/
def State.decodeHpa (s : State) (ld hpa : Nat) : Option Nat :=
  (List.range 4).findSome? fun m =>
    match tget s.cxl.decoders (4 * ld + m) with
    | some h =>
      let off := hpa - h.base
      if h.base ≤ hpa ∧ hpa < h.base + h.size ∧ off / h.gran % h.ways = h.pos then
        let dpa := h.dpa + off / (h.gran * h.ways) * h.gran + off % h.gran
        if dpa < (s.cxl.lds.getD ld ⟨0, 0⟩).count * 2 ^ 20 then some dpa else none
      else none
    | none => none

/-- Requests that wait in translation or before it, and whether translation has a credit for another (R27). -/
def State.transRoom (s : State) : Bool := decide ((tkeys s.adm.dl fun e => e.stuck).length < 1024)

/-- Accept a host request: a credit is consumed, a deadline entry taken, its tokens charged (Table 2-7), and the request routed when its
skein is ready and translation takes it. -/
def State.accept (s : State) (kind : ReqKind) (ld hpa : Nat) (data : Line) (mask : BitVec 64) : State :=
  let rwd := kind != .read
  let cover := s.adm.covers.headD false
  let seq := s.adm.seq
  let s1 : State := { s with adm := { s.adm with
      reqOut := if rwd then s.adm.reqOut else s.adm.reqOut - 1
      covers := if rwd then s.adm.covers.tail else s.adm.covers
      owed := s.adm.owed ++ [{ rwd := rwd, ld := ld }]
      seq := (seq + 1) % 2 ^ 32
      lastReq := some s.clk.now } }
  let s2 := (s1.count 0x0001 0 1 (if kind = .read then 0 else if kind = .write then 1 else 2) ld none).bytes 0 64
  match s.decodeHpa ld hpa with
  | none =>
    let s2 := s2.charge ld (if kind = .part then 2 else 1)
    match kind with
    | .read => s2.out (.data ld hpa 0 true (s.devload ld))
    | _ => s2.out (.cmp ld hpa (s.devload ld))
  | some dpa =>
    let line := s.lineOfDpa ld dpa
    let path := if rwd then s.firstPath line else 0
    let s2 := s2.charge ld (if kind = .part ∨ path = 1 then 2 else 1)
    let ready := s.skeinReady (skeinOf (lhnOf line))
    let e : DlEntry := { kind := kind, ld := ld, dpa := dpa / 64 * 64, line := line, accept := s.clk.now, base := s.clk.now,
                         deadline := if ready then some (s.clk.now + boundOf kind path) else none, routed := false,
                         data := data, mask := mask, cover := cover, mirror := none, stuck := false, merged := false, wpol := none, key := none }
    let s2 := s2.wmAccess 1 (if kind = .read then 0 else if kind = .write then 1 else 2) ld (some (lhnOf line))
    let s2 := if rwd then s2.noteWrote line else s2
    let s3 := { s2 with adm := { s2.adm with dl := tput s2.adm.dl seq e } }
    if !ready then s3 else if s.transRoom then s3.routeReq seq else s3.holdReq seq

/-- Give the requests that wait for skein `k` their deadlines and route them (R1, R52). -/
def State.wakeSkein (s : State) (k : Nat) : State :=
  let seqs := tkeys s.adm.dl fun e => e.deadline.isNone && skeinOf (lhnOf e.line) == k
  seqs.foldl (fun s q =>
    let s1 := { s with adm := { s.adm with dl := tmod s.adm.dl q fun e =>
      { e with base := s.clk.now, deadline := some (s.clk.now + boundOf e.kind (if e.kind = ReqKind.read then 0 else s.firstPath e.line)) } } }
    if s1.transRoom then s1.routeReq q else s1.holdReq q) s

/-- Whether the host link can carry CXL.mem (R346, R348). -/
def State.memLink (s : State) : Bool := s.cxl.linkUp && s.cxl.cxlOn

end Sys2Proof.Machine
end

