-- ==== Sys2Proof/Machine/MedOps.lean ====
section
/-! DEFINITION. Stripe operations and page programs (chapters 3 and 4): rebuilding a line from its stripe, forming the programs of a
write-back, a write-through, a refresh or a recompute, their end, program failures, retirement, and migrations' ends. -/

namespace Sys2Proof.Machine

/-! ### Engines and counts -/

/-- Items in an engine, of its 128 credits, and whether the engine runs (R27, R255). -/
def State.engineLoad (s : State) (n : Nat) : Nat :=
  (s.adm.ops.filter fun e => match e.2.kind with | .read r => r.stage == .crypto && r.engine == n | _ => false).length
def engineField (n : Nat) : Field := if n = 0 then Fld.KEY_STAT_ENG0 else Fld.KEY_STAT_ENG1
def State.engineState (s : State) (n : Nat) : Nat := s.fget Reg.KEY_STAT (engineField n)
def State.engineOn (s : State) (n : Nat) : Bool := s.engineState n == 1

/-- The free credits of an engine; none when it has failed (R27, R255). -/
def State.engineFree (s : State) (n : Nat) : Nat := if s.engineOn n then 128 - s.engineLoad n else 0

/-- The engine a line goes to: more free credits, engine 0 on a tie (R255). 2: neither has one, and the line waits for it (R28). -/
def State.pickEngine (s : State) : Nat :=
  if s.engineFree 0 = 0 ∧ s.engineFree 1 = 0 then 2 else if s.engineFree 1 ≤ s.engineFree 0 then 0 else 1

/-- The lines that wait for an engine's credit take those that are free, in deadline order (R28, R71). -/
def State.cryptoPump (s : State) : State :=
  (sortBy (fun a b => opBefore a.2 b.2) (s.adm.ops.filter fun e => match e.2.kind with
    | .read r => r.stage == .crypto && r.engine == 2
    | _ => false)).foldl (fun s e => match s.readOp e.1 with
      | some (o, r) => s.setRead e.1 o { r with engine := s.pickEngine }
      | none => s) s

/-- Count an event of a page program (Tables 13-1, 13-2): parity, refresh, migration or write class. -/
def State.countProg (s : State) (ev : Nat) (p : Program) : State :=
  let (cls, master, lhn) := match p.op with
    | none => (match p.kind with | .swatch _ _ => 6 | _ => 5, 18, none)
    | some id =>
      match s.stripeOp id with
      | some (o, r) =>
        let c := match r.kind with
          | .refresh => 6
          | .rebuild _ => 5
          | .copy _ => 5
          | _ => if p.d = 16 then 4 else 1
        (c, o.master, r.lines.head?.map fun x => lhnOf x.line)
      | none => (5, 18, none)
  s.count ev p.ch 1 cls master lhn

/-- Whether a stripe operation changes lines by their old and new contents: its old parity fits the stripe without them (R136). -/
def SKind.writes : SKind → Bool
  | .writeBack => true
  | .through _ => true
  | _ => false

/-- The system map entry that holds a node of a copy of the tree (R263). -/
def nodeHank (copyB : Bool) (lvl idx : Nat) : Nat :=
  (if copyB then 99872 else 0) + (if lvl = 0 then 0 else if lvl = 1 then 98304 else if lvl = 2 then 99840 else 99864) + idx / 16384

/-! ### Stripe parity (R86) -/

/-- XOR of the fields that stripe parity covers. -/
def xorStored (a b : Stored) : Stored :=
  { ct := a.ct ^^^ b.ct, tag := a.tag ^^^ b.tag, poison := a.poison != b.poison, role := a.role, wep := a.wep }

/-- Line `j` of page `d` of a stripe, rebuilt from the other 16 pages (R86). -/
def State.rebuilt (s : State) (phn st d j : Nat) : Stored :=
  let x := ((List.range 17).filter (· != d)).foldl (fun a e => xorStored a (s.medGet phn st e j)) blankStored
  { x with role := decide (d = 16) }

/-- The label that new pages take (R103). -/
def State.label (s : State) : Nat := s.fget Reg.MCH_EPOCH Fld.MCH_EPOCH_LABEL

/-- Whether a stripe is parity-suspect (R100, R134). -/
def State.isSuspect (s : State) (phn st : Nat) : Bool := (tget s.hanks.suspect (stripeKey phn st)).isSome

/-- The RMW journal lane of a stripe (R134), and whether it has room for an entry. -/
def laneOf (phn st : Nat) : Nat := (phnGrp phn * 17 + parityPos phn st) % 8
def State.laneRoom (s : State) (phn st : Nat) : Bool :=
  decide ((s.hanks.rmw.filter fun e => e.2 == laneOf phn st).length < 1024)
def State.setRmw (s : State) (phn st : Nat) : State :=
  { s with hanks := { s.hanks with rmw := tput s.hanks.rmw (stripeKey phn st) (laneOf phn st) } }
def State.dropRmw (s : State) (phn st : Nat) : State :=
  { s with hanks := { s.hanks with rmw := tdel s.hanks.rmw (stripeKey phn st), suspect := tdel s.hanks.suspect (stripeKey phn st) } }

/-- Every program of a stripe operation has verified: the journal entry clears, unless the stripe is suspect and waits for its recompute. -/
def State.clearRmw (s : State) (phn st : Nat) : State := if s.isSuspect phn st then s else s.dropRmw phn st

/-- Make a stripe parity-suspect, its recompute waiting to rewrite some of its data pages (R100, R134); with its lane full, the recompute enters
it in the journal when it can. -/
def State.suspectStripe (s : State) (phn st mask due : Nat) : State :=
  let v := match tget s.hanks.suspect (stripeKey phn st) with
    | some x => if x / 2 ^ 17 % 2 = 1 then suspectMark (x % 2 ^ 17 ||| mask) (min (x / 2 ^ 18) due) else suspectMark mask due
    | none => suspectMark mask due
  let s1 : State := { s with hanks := { s.hanks with suspect := tput s.hanks.suspect (stripeKey phn st) v } }
  if s.laneRoom phn st then s1.setRmw phn st else s1

/-- Whether a page is queued for refresh. -/
def State.refreshQueued (s : State) (phn st d : Nat) : Bool := s.med.refreshQ.any fun q => q.1 == phn && q.2.1 == st && q.2.2.1 == d

/-- Queue a page for refresh with the deadline of the refresh class (R53, R101). -/
def State.queueRefresh (s : State) (phn st d : Nat) : State :=
  if s.refreshQueued phn st d then s
  else { s with med := { s.med with refreshQ := s.med.refreshQ ++ [(phn, st, d, s.bgDeadline 2)] } }

/-- Poison a line of the medium in place (CT and TAG unchanged), its parity following (R100). -/
def State.poisonLine (s : State) (phn st d j : Nat) : State :=
  let v := s.medGet phn st d j
  if v.poison then s.medPut phn st d j v
  else
    let p := s.medGet phn st 16 j
    (s.medPut phn st d j { v with poison := true }).medPut phn st 16 j { p with poison := !p.poison }

/-! ### Page programs (R88–R91) -/

/-- The physical die a program for a position goes to: the spare die once its die is failed (R118). -/
def State.pgmDie (s : State) (ch adie : Nat) : Nat :=
  let d := s.dieOf ch adie
  if s.fbit (Reg.MCH_STATE ch) Fld.MCH_STATE_DIE_FAILED d then s.fget (Reg.MCH_REBUILD ch) Fld.MCH_REBUILD_TARGET else d

/-- Whether a position runs degraded: its die is failed and no spare takes its programs (R120). -/
def State.degradedPos (s : State) (ch adie : Nat) : Bool :=
  s.fget (Reg.MCH_STATE ch) Fld.MCH_STATE_ENGINE == 3 ||
    (s.fget (Reg.MCH_STATE ch) Fld.MCH_STATE_DEGRADED == 1 && s.fbit (Reg.MCH_STATE ch) Fld.MCH_STATE_DIE_FAILED (s.dieOf ch adie))

/-- Queue the program of a page. `moves`: stored lines to transfer. Answers its number. -/
def State.addProg (s : State) (phn st d : Nat) (lines : Tbl Stored) (moves : Nat) (op : Option Nat) (deadline : Nat) : Nat × State :=
  let ch := chanOf phn st d
  let id := s.med.nextProg
  (id, { s with med := { s.med with
    nextProg := id + 1
    progs := tput s.med.progs id
      { kind := .page, ch := ch, die := s.pgmDie ch (phnAdie phn), part := phnPart phn, phn := phn, s := st, d := d, lines := lines, toMove := moves,
        stitches := 0, deferrals := 0, start := none, running := false, op := op, deadline := deadline } } })

/-- Queue a program of another kind: a swatch page (R107), a page of a die rebuild (R119) or of a copy (R142). Answers its number. -/
def State.addOther (s : State) (kind : PgmKind) (ch die part phn st d : Nat) (lines : Tbl Stored) (op : Option Nat) (deadline : Nat) : Nat × State :=
  (s.med.nextProg, { s with med := { s.med with
    nextProg := s.med.nextProg + 1
    progs := tput s.med.progs s.med.nextProg
      { kind := kind, ch := ch, die := die, part := part, phn := phn, s := st, d := d, lines := lines, toMove := 8, stitches := 0, deferrals := 0,
        start := none, running := false, op := op, deadline := deadline } } })

/-- Queue the program of a page of a migration's destination (R142, R143). -/
def State.addCopy (s : State) (src dst st d : Nat) (lines : Tbl Stored) (op deadline : Nat) : Nat × State :=
  s.addOther (.copy src) (chanOf dst st d) (s.pgmDie (chanOf dst st d) (phnAdie dst)) (phnPart dst) dst st d lines (some op) deadline

/-- The eight lines of a page as they stand, with a label and some of them replaced. -/
def State.pageImage (s : State) (phn st d wep : Nat) (new : Tbl Stored) : Tbl Stored :=
  (List.range 8).map fun j =>
    (j, match tget new j with
        | some v => { v with wep := wep, role := decide (d = 16) }
        | none => { s.medGet phn st d j with wep := wep, role := decide (d = 16) })

/-- Write the lines of a page into the medium. -/
def State.writePage (s : State) (phn st d : Nat) (lines : Tbl Stored) : State :=
  lines.foldl (fun s l => s.medPut phn st d l.1 l.2) s

/-- Whether work on a stripe must wait for work already on it: operations on one stripe run one after the other, and a rebuild that reads
it goes first (R123, R161); the programs of a migration's copy of the stripe are such work. -/
def State.stripeBusy (s : State) (phn st : Nat) : Bool :=
  s.med.progs.any (fun e => (e.2.phn == phn || e.2.kind == .copy phn) && e.2.s == st) ||
    s.adm.ops.any (fun e => match e.2.kind with
      | .stripe r => r.phn == phn && r.s == st
      | .read r => r.phn == phn && r.s == st && r.stage == .rebuild && r.need != 17)

/-! ### The lines of a stripe operation (R97, R133, R261, R262) -/

/-- The plaintext of a line of an overflowing patch, before its counters move (R262): newest data, zeros, or poison. -/
def State.plainOf (s : State) (line : Nat) : Line × Bool :=
  match s.poolGet line with
  | some p => (p.data, p.poison)
  | none =>
    if s.lineZero line then (0, false)
    else if s.lineLost line then (0, true)
    else
      let e := s.hostEntry (lhnOf line)
      let v := s.medGet e.phn (stripeOf line) (pageOf line) (lineOf line)
      if v.poison || !(s.tagOk line e.key v) then (0, true) else (s.open' line e.key v, false)

/-- The lines to be rewritten beside one whose minor overflows: the other lines of its patch (R262). -/
def State.overflowLines (s : State) (line : Nat) : List SLine :=
  let key := (s.hostEntry (lhnOf line)).key
  ((List.range 64).filter (· != line % 64)).map fun k =>
    let l := line / 64 * 64 + k
    let (d, p) := s.plainOf l
    { line := l, d := pageOf l, j := lineOf l, data := d, key := key, poison := p }

/-- Raise the minors of a list of lines, adding the other lines of a patch that overflows. Answers all lines to write. -/
def State.raiseAll : List SLine → State → Nat → List SLine × State
  | [], s, _ => ([], s)
  | x :: xs, s, due =>
    let ovf := decide ((s.nodeNow 0 (x.line / 64)).minor (x.line % 64) ≥ 127)
    let extra := if ovf then (s.overflowLines x.line).filter fun y => !(xs.any fun z => z.line == y.line) else []
    let (_, s1) := s.raiseLeaf x.line due
    let (rest, s2) := State.raiseAll xs s1 due
    (x :: (extra ++ rest), s2)

/-- The new stored form of a line: a line that was poison in an overflowing patch has CT and TAG zero (R262). -/
def State.encLine (s : State) (x : SLine) (wep : Nat) : Stored := s.seal x.line x.key x.data x.poison wep

/-- The new contents of the data pages and of the parity page of a stripe, by 8 × d + j (R86, R133). -/
def State.newStripe (s : State) (phn st wep : Nat) (lines : List SLine) : Tbl Stored :=
  let data := lines.foldl (fun (t : Tbl Stored) x => tput t (8 * x.d + x.j) (s.encLine x wep)) []
  (List.range 8).foldl (fun t j =>
    let touched := data.filter fun e => e.1 % 8 == j
    if touched.isEmpty then t
    else
      let par := if touched.length = 16 then touched.foldl (fun a e => xorStored a e.2) blankStored
        else touched.foldl (fun a e => xorStored (xorStored a (s.medGet phn st (e.1 / 8) j)) e.2) (s.medGet phn st 16 j)
      tput t (8 * 16 + j) { par with wep := wep, role := true }) data

/-- Stage the new contents of a page whose counters have moved on (R123, R262). -/
def State.stagePage (s : State) (phn st d : Nat) (img : Tbl Stored) : State :=
  { s with med := { s.med with staged := tput s.med.staged (medKey phn st d 0) img } }

/-- Unstage a page that a program rewrote (R114, R262). -/
def State.unstage (s : State) (phn st d : Nat) : State := { s with med := { s.med with staged := tdel s.med.staged (medKey phn st d 0) } }

/-- The other hank a program also goes to: the destination of a migration of its hank, once the stripe is copied and until the commit
(R143). -/
def State.dualDest (s : State) (phn st : Nat) : Option Nat :=
  match tfind s.hanks.migs fun _ m => m.src == phn && (m.state == .copying || m.state == .verifying || m.state == .copied) && m.bitmap.getLsbD st with
  | some (_, m) => some m.dst
  | none => none

/-- Queue the programs of the pages of a stripe that some new lines touch, by 8 × d + j, and those of a migration's destination beside them (R143),
every program but the data pages of a host write being charged to class 3 (R471). A page on a degraded position is only covered by the parity
(R120). Answers the programs. -/
def State.progPages (s : State) (id phn st wep : Nat) (new : Tbl Stored) (moves : Nat → Nat) (stage : Nat → Bool) (due : Nat) : List Nat × State :=
  ((List.range 17).filter fun d => new.any fun e => e.1 / 8 == d).foldl (fun (acc : List Nat × State) d =>
    let mine := (new.filter fun e => e.1 / 8 == d).map fun e => (e.1 % 8, e.2)
    let img := acc.2.pageImage phn st d wep mine
    let (ids, s1) :=
      if acc.2.degradedPos (chanOf phn st d) (phnAdie phn) then (acc.1, acc.2.writePage phn st d img)
      else
        let (pid, sx) := acc.2.addProg phn st d img (moves mine.length) (some id) due
        let sy := if stage d then sx.stagePage phn st d img else sx
        (acc.1 ++ [pid], if d = 16 then sy.charge 19 8 else sy)
    match s1.dualDest phn st with
    | some dst => let (pid, sx) := s1.addCopy phn dst st d img id due; (ids ++ [pid], sx.charge 19 8)
    | none => (ids, s1)) ([], s)

/-- The counters of some lines of a stripe have moved on (R123, R262): a host read of one of them takes the line as newly encrypted, from the staged
copy of its page in place of a sense. -/
def State.newCt (s : State) (phn st : Nat) (new : Tbl Stored) (staged : Nat → Bool) : State :=
  let upd := fun (r : ReadOp) (v : Stored) =>
    if r.stage = .latched ∨ r.stage = .crypto ∨ (r.stage = .rebuild ∧ r.need = 0) then { r with stored := v, bad := [] }
    else if staged r.d ∧ r.stage ≠ .served then { r with stage := .latched, busy := false, stored := v, need := 0, bad := [] }
    else r
  { s with adm := { s.adm with ops := s.adm.ops.map fun e => match e.2.kind with
      | .read r => (match r.purpose, tget new (8 * r.d + r.j) with
        | .serve _ _, some v => if r.phn = phn ∧ r.s = st then (e.1, { e.2 with kind := .read (upd r v) }) else e
        | _, _ => e)
      | _ => e } }

/-- Lines encrypted by each engine when a stripe operation sends it some more, each to the one with more free credits (R255). -/
def splitLines : Nat → Nat → Nat → Nat × Nat
  | _, _, 0 => (0, 0)
  | a, b, n + 1 =>
    if a ≤ b then let (x, y) := splitLines (a + 1) b n; (x + 1, y) else let (x, y) := splitLines a (b + 1) n; (x, y + 1)

/-- Count the lines that a stripe operation encrypts, by engine (R255). -/
def State.countCrypt (s : State) (n master : Nat) (lhn : Option Nat) : State :=
  let (x, y) := if !(s.engineOn 0) then (0, n) else if !(s.engineOn 1) then (n, 0) else splitLines (s.engineLoad 0) (s.engineLoad 1) n
  let s1 := if x = 0 then s else s.count 0x0030 0 x 1 master lhn
  if y = 0 then s1 else s1.count 0x0030 1 y 1 master lhn

/-- Form the programs of a write-back or write-through: minors rise, lines are encrypted, parity is computed, the journal takes its entry, and one
program per touched page is queued. When minors overflow, the pages rewritten for them are staged (R262). -/
def State.writeGo (s : State) (id : Nat) (o : Op) (r : StripeOp) : State :=
  let (lines, s1) := State.raiseAll r.lines s o.deadline
  let s2 := (s1.setRmw r.phn r.s).countCrypt lines.length o.master (lines.head?.map fun x => lhnOf x.line)
  let wep := s2.label
  let new := s2.newStripe r.phn r.s wep lines
  let extra := lines.filter fun x => !(r.lines.any fun y => y.line == x.line)
  let staged := fun (d : Nat) => extra.any fun x => x.d == d
  let par := (List.range 8).map fun j => (128 + j, s.medGet r.phn r.s 16 j)
  let moves := fun (n : Nat) => if r.kind = .writeBack ∧ r.full = false then n else 8
  let (ids, s3) := (s2.newCt r.phn r.s new staged).progPages id r.phn r.s wep new moves staged o.deadline
  let s4 := s3.setStripe id o { r with lines := lines, left := ids, started := true, olds := par.foldl (fun t e => tput t e.1 e.2) r.olds }
  match r.kind with
  | .through e => s4.setMb (tmod s4.tlc.mb e fun x => { x with state := .program })
  | _ => s4

/-- The page lines that an operation has read, with a label. -/
def StripeOp.page (r : StripeOp) (d wep : Nat) : Tbl Stored :=
  (List.range 8).map fun j => (j, { (tget r.olds (8 * d + j)).getD blankStored with wep := wep })

/-- The pages that an operation programs beside the parity page. -/
def StripeOp.dataPages (r : StripeOp) : List Nat := (List.range 16).filter fun d => r.pages.testBit d

/-- A refresh has read its page: the page is staged as it stands and programmed (R114). -/
def State.refreshGo (s : State) (id : Nat) (o : Op) (r : StripeOp) : State :=
  (((List.range 17).filter fun d => r.pages.testBit d).foldl (fun s d =>
    let old := (List.range 8).map fun j => (j, (tget r.olds (8 * d + j)).getD blankStored)
    let (pid, s1) := (s.stagePage r.phn r.s d old).addProg r.phn r.s d (r.page d s.label) 8 (some id) o.deadline
    s1.setStripe id o { r with left := [pid], started := true }) s)

/-- A die rebuild has read its page, which is programmed onto the spare die (R119). -/
def State.rebuildGo (s : State) (id ch : Nat) (o : Op) (r : StripeOp) : State :=
  (((List.range 17).filter fun d => r.pages.testBit d).foldl (fun s d =>
    let (pid, s1) := s.addOther (.rebuild) ch (s.fget (Reg.MCH_REBUILD ch) Fld.MCH_REBUILD_TARGET) (phnPart r.phn) r.phn r.s d (r.page d s.label)
      (some id) o.deadline
    s1.setStripe id o { r with left := [pid], started := true }) s)

/-- A recompute has read its stripe: the pages with poisoned lines and a new parity page over the data pages as they stand are programmed
(R100, R134). -/
def State.recomputeGo (s : State) (id : Nat) (o : Op) (r : StripeOp) : State :=
  let par := (List.range 8).map fun j =>
    (j, ({ (List.range 16).foldl (fun a d => xorStored a (s.medGet r.phn r.s d j)) blankStored with role := true, wep := s.label } : Stored))
  let (ids, s1) := (r.dataPages ++ [16]).foldl (fun (acc : List Nat × State) d =>
    let img := if d = 16 then par else acc.2.pageImage r.phn r.s d s.label []
    if acc.2.degradedPos (chanOf r.phn r.s d) (phnAdie r.phn) then (acc.1, acc.2.writePage r.phn r.s d img)
    else
      let (p, sx) := acc.2.addProg r.phn r.s d img 8 (some id) o.deadline
      (acc.1 ++ [p], sx.charge 19 8)) ([], s.setRmw r.phn r.s)
  if ids.isEmpty then (s1.dropRmw r.phn r.s).freeOp id else s1.setStripe id o { r with left := ids, started := true }

/-! ### The copier's stripe (R142, R143, R146) -/

/-- Pool lines of a hank whose program failed: their operation has ended, and the destination is to hold them (R146). -/
def State.orphans (s : State) (lhn : Nat) : List (Nat × PoolLine) :=
  s.tlc.pool.filter fun q => lhnOf q.1 == lhn && (match q.2.op with | some id => (s.stripeOp id).isNone | none => false)

/-- Merge buffer entries of a physical hank whose program failed (R146). -/
def State.stuckIn (s : State) (phn : Nat) : List MbEntry :=
  (s.tlc.mb.filter fun e => e.2.stuck && e.2.phn == phn).map Prod.snd

/-- The lines that a copy of a stripe takes from the pool or the merge buffer, where they are newer than the medium (R21, R142, R146). -/
def State.copyNewer (s : State) (g : Mig) (st : Nat) : List SLine :=
  if g.sys then []
  else
    let pool := (s.tlc.pool.filter fun q => lhnOf q.1 == g.idx && stripeOf q.1 == st).map fun q =>
      ({ line := q.1, d := pageOf q.1, j := lineOf q.1, data := q.2.data, key := q.2.key, poison := q.2.poison } : SLine)
    let mb := ((s.stuckIn g.src).filter fun e => e.s == st).flatMap fun e => e.lines.map fun l =>
      ({ line := l.2.line, d := e.d, j := l.1, data := l.2.data, key := l.2.key, poison := l.2.poison } : SLine)
    pool ++ mb.filter fun x => !(pool.any fun y => y.line == x.line)

/-- A copy has read its stripe: it is programmed into the destination as a full stripe with new parity (R142), each line from the pool when it is
dirty there, its minor raised, else as the source has it. Lines of an overflowing patch are rewritten in the source too, where reads come
from (R262). -/
def State.copyGo (s : State) (id : Nat) (o : Op) (r : StripeOp) (g : Mig) : State :=
  let newer := s.copyNewer g r.s
  let s := newer.foldl (fun s x => match s.poolGet x.line with | some q => s.wmRead (poolWma q.slot) | none => s) s
  let newer := s.copyNewer g r.s
  let (all, s1) := State.raiseAll newer s o.deadline
  let wep := s1.label
  let extra := all.filter fun x => !(newer.any fun y => y.line == x.line)
  let s2 := s1.countCrypt all.length o.master (all.head?.map fun x => lhnOf x.line)
  let src := s2.newStripe r.phn r.s wep extra
  let staged := fun (d : Nat) => decide (d < 16)
  let s3 := if extra.isEmpty then s2 else (s2.setRmw r.phn r.s).newCt r.phn r.s src staged
  let (ids, s4) := s3.progPages id r.phn r.s wep src (fun _ => 8) staged o.deadline
  let data := fun (d j : Nat) => match all.find? fun x => x.d == d && x.j == j with
    | some x => s4.encLine x wep
    | none => (tget r.olds (8 * d + j)).getD blankStored
  let par := fun (j : Nat) => (List.range 16).foldl (fun a d => xorStored a (data d j)) blankStored
  let page := fun (d : Nat) => (List.range 8).map fun j =>
    (j, if d = 16 then ({ par j with role := true, wep := wep } : Stored) else { data d j with wep := wep })
  let (ids', s5) := (List.range 17).foldl (fun (acc : List Nat × State) d =>
    let (pid, sx) := acc.2.addCopy r.phn g.dst r.s d (page d) id o.deadline
    (acc.1 ++ [pid], sx)) (ids, s4.setRmw g.dst r.s)
  s5.setStripe id o { r with left := ids', started := true }

/-- Whether the RMW journal lanes have room for the entries of an operation (R134). A refresh and a die rebuild change no parity, and need
none. -/
def State.lanesOk (s : State) (r : StripeOp) : Bool :=
  let ok := fun (phn : Nat) => (tget s.hanks.rmw (stripeKey phn r.s)).isSome || s.laneRoom phn r.s
  match r.kind with
  | .refresh => true
  | .rebuild _ => true
  | .copy m => (match tget s.hanks.migs m with | some g => ok g.dst && ok r.phn | none => true)
  | _ => ok r.phn

/-- Whether a stripe operation whose old lines are read and whose counters are cached may form its programs: its journal lanes (R134), the operation
table (R20) and the queues of its channels (R27) have room, and no rebuild reads its stripe (R123). -/
def State.stripeReady (s : State) (r : StripeOp) : Bool :=
  let hanks := match r.kind with
    | .copy m => (match tget s.hanks.migs m with | some g => [r.phn, g.dst] | none => [])
    | .rebuild _ => [r.phn]
    | _ => r.phn :: (s.dualDest r.phn r.s).toList
  r.need == 0 && r.nodes.isEmpty && !r.started && s.lanesOk r && !(s.rebuildRuns r.phn r.s) && s.opRoom 34 &&
    hanks.all fun p => s.pagesRoom p r.s (List.range 17) 1

/-- Form the programs of a stripe operation, when it may. -/
def State.stripeGo (s : State) (id : Nat) : State :=
  match s.stripeOp id with
  | none => s
  | some (o, r) =>
    if !(s.stripeReady r) then s
    else match r.kind with
      | .refresh => s.refreshGo id o r
      | .rebuild ch => s.rebuildGo id ch o r
      | .recompute => s.recomputeGo id o r
      | .copy m => (match tget s.hanks.migs m with | some g => s.copyGo id o r g | none => s.freeOp id)
      | _ => s.writeGo id o r

/-- The stripe operations that waited for room go on, in deadline order (R20, R27, R134). -/
def State.stripePump (s : State) : State :=
  let waiting := s.adm.ops.filter fun e => match e.2.kind with
    | .stripe r => r.need == 0 && r.nodes.isEmpty && !r.started
    | _ => false
  (sortBy (fun a b => opBefore a.2 b.2) waiting).foldl (fun s e => s.stripeGo e.1) s

/-- Old line read for a stripe operation: the last one lets it go on. -/
def State.oldArrived (s : State) (id d j : Nat) (v : Stored) : State :=
  match s.stripeOp id with
  | none => s
  | some (o, r) => (s.setStripe id o { r with need := r.need - 1, olds := tput r.olds (8 * d + j) v }).stripeGo id

/-! ### Work that reads whole pages (R83, R95, R100, R114, R119, R134, R142) -/

/-- The line number of a page line that is no line of a host hank. -/
def noLine : Nat := 2 ^ 40

/-- Whether the operation table and the queues of the channels have room for the reads of some pages of a stripe (R20, R27). -/
def State.walkRoom (s : State) (phn st : Nat) (ds : List Nat) : Bool := s.opRoom (1 + 8 * ds.length) && s.pagesRoom phn st ds 8

/-- Start an operation that reads whole pages of a stripe and programs from them. `lhn`: the host hank bound there. -/
def State.walkStart (s : State) (kind : SKind) (phn st : Nat) (lhn : Option Nat) (ds : List Nat) (pages due cls : Nat) : State :=
  let (id, s1) := s.addOp
    { kind := .stripe { kind := kind, phn := phn, s := st, lines := [], need := 8 * ds.length, olds := [], nodes := [],
                        full := false, started := false, left := [], failed := [], reparity := false, pages := pages },
      deadline := due, rank := 2, ld := 16, seq := 0, cls := cls, master := 18 }
  let line := fun (d j : Nat) => match lhn with | some l => if d < 16 then l * 16384 + st * 128 + d * 8 + j else noLine | none => noLine
  (ds.flatMap fun d => (List.range 8).map fun j => (d, j)).foldl (fun s x =>
    (s.issueRead (line x.1 x.2) 0 phn st x.1 x.2 false (.old id) due 2 16 cls 18).2) s1

/-- The counter nodes that the leaves of some lines lack. -/
def State.missingAll (s : State) (lines : List SLine) : List (Nat × Nat) :=
  (lines.flatMap fun x => s.missing (x.line / 64)).eraseDups

/-- Start a stripe operation over lines of one stripe: a full stripe reads nothing; otherwise the old copy of each line and the old
parity line at each position touched are read as single lines (R97, R133). -/
def State.stripeStart (s : State) (kind : SKind) (phn st : Nat) (lines : List SLine) (deadline rank ld master : Nat) : Nat × State :=
  let full := decide (lines.length = 128) && decide (kind = .writeBack)
  let through := match kind with | .through _ => true | _ => false
  let js := (lines.map (·.j)).eraseDups
  let first := match lines.head? with | some x => x.line | none => 0
  let reads := if full || through then [] else lines.map (fun x => (x.line, x.d, x.j)) ++ js.map fun j => (posLine first 16 j, 16, j)
  let s := lines.foldl (fun s x => s.nodesRead (x.line / 64)) s
  let miss := s.missingAll lines
  let (id, s1) := s.addOp
    { kind := .stripe { kind := kind, phn := phn, s := st, lines := lines, need := reads.length, olds := [], nodes := miss,
                        full := full, started := false, left := [], failed := [], reparity := false, pages := 0 },
      deadline := deadline, rank := rank, ld := ld, seq := 0, cls := 1, master := master }
  let s2 := reads.foldl (fun s q =>
    ((s.issueRead q.1 0 phn st q.2.1 q.2.2 false (.old id) deadline rank ld 4 master).2).charge 19 1) s1
  (id, if reads.isEmpty ∧ miss.isEmpty then s2.stripeGo id else s2)

/-! ### Retirement and dead stripes (R145–R150) -/

/-- Free hanks and spare use: TLC_FREE follows the pool of free hanks; SPARE events at 50, 75 and 90 %, and life-critical at the
floor (R148, R149). -/
def State.freeStat (s : State) (free : Nat) : State :=
  let used := min 100 (100 * (1896736 - free) / 1895712)
  let s1 := (s.fset Reg.TLC_FREE Fld.TLC_FREE_FREE free).fset Reg.TLC_FREE Fld.TLC_FREE_SPARE_USED used
  let s2 := s1.fset Reg.TLC_FREE Fld.TLC_FREE_FLOOR_LEFT (min free 1024)
  let mark := fun (s : State) (th : Nat) (f : Field) =>
    if used ≥ th ∧ s.fget Reg.TLC_FREE f = 0 then (s.fset Reg.TLC_FREE f 1).event evSPARE 0 0xFFFF 0 [th, free] else s
  let s3 := mark (mark (mark s2 50 Fld.TLC_FREE_W50) 75 Fld.TLC_FREE_W75) 90 Fld.TLC_FREE_W90
  if free ≤ 1024 ∧ s3.fget Reg.TLC_FREE Fld.TLC_FREE_LIFE_CRIT = 0 then
    ((s3.fset Reg.TLC_FREE Fld.TLC_FREE_LIFE_CRIT 1).fset Reg.TLC_MIG_STAT Fld.TLC_MIG_STAT_WEAR_PAUSED 1).eventSev evSPARE 2 0 0xFFFF 0 [free]
  else s3

def State.freeCount (s : State) : Nat := s.fget Reg.TLC_FREE Fld.TLC_FREE_FREE

/-- Whether a physical hank is free: the free bitmap, the shipped pool being its default (Table 4-3). -/
def State.isFree (s : State) (phn : Nat) : Bool := dget shippedFree s.hanks.free phn

/-- Write a bit of the free bitmap, which stands in 16,384 lines of working memory (Table 5-2). -/
def State.setFree (s : State) (phn : Nat) (v : Bool) : State :=
  State.lineWrite { s with hanks := { s.hanks with free := dput shippedFree s.hanks.free phn v } } (some (819200 + phn / 512))

/-- Whether a position (GRP, ADIE) is under evacuation or degraded on one of its channels (R141, R147). -/
def State.posOut (s : State) (phn : Nat) : Bool :=
  s.fbit Reg.TLC_MIG_STAT Fld.TLC_MIG_STAT_EVAC (8 * phnGrp phn + phnAdie phn) ||
    (List.range 17).any fun k => s.degradedPos (17 * phnGrp phn + k) (phnAdie phn)

/-- The first free hank after the cursor that a migration may take (R141, R263): not on the source's position, nor on a degraded or
evacuated one, and in the source's group for a counter hank. The search looks at no more than `fuel` hanks. -/
def State.pickFree (s : State) (src : Nat) (sys : Bool) : Nat → Nat → Option Nat
  | 0, _ => none
  | fuel + 1, c =>
    let p := c % 2 ^ 23
    if s.isFree p && !(phnGrp p == phnGrp src && phnAdie p == phnAdie src) && !(s.posOut p) && (!sys || phnGrp p == phnGrp src) then some p
    else State.pickFree s src sys fuel (c + 1)

/-- Whether a hank is migrating. -/
def State.migOf (s : State) (sys : Bool) (idx : Nat) : Option (Nat × Mig) :=
  tfind s.hanks.migs fun _ m => m.sys == sys && m.idx == idx && m.state != .released

/-- Start a migration (R142): MIG_COPYING is written, STATE becomes MIGRATING. Nothing happens when the hank migrates already, 16 run,
the map waits for a checkpoint, the free bitmap is being rebuilt, or (except for a retirement) the module is life-critical, or (but for
retirements, those of an evacuation among them) the migration class is held (R64). DESIGN CHOICE (log 67): Table 4-4 says that STATE becomes
MIGRATING, and the spec does not say how that combines with UNASSIGNED, ZEROING or SECURING; a hank in one of those keeps its STATE. -/
def State.startMig (s : State) (sys : Bool) (idx : Nat) (kind : MigKind) (due : Nat) : State :=
  let e := s.entry sys idx
  if (s.migOf sys idx).isSome || decide (16 ≤ s.migActive) || s.journalFull || s.hanks.fillRebuild ||
      ((kind == .wear || kind == .static) && !s.hanks.evac.isEmpty) ||
      ((kind == .wear || kind == .static) && s.adm.held.getD 17 false) ||
      (kind != .retire && s.fget Reg.TLC_MIG_STAT Fld.TLC_MIG_STAT_WEAR_PAUSED == 1) then s
  else
    match State.pickFree s e.phn sys (2 ^ 23) s.hanks.cursor with
    | none => s
    | some dst =>
      let m : Mig := { sys := sys, idx := idx, src := e.phn, dst := dst, kind := kind, state := .copying, bitmap := 0, again := 0, digest := 0,
                       due := due, bad := false }
      let id := s.hanks.nextMig
      let s1 := { s with hanks := { s.hanks with
          migs := tput s.hanks.migs id m, nextMig := id + 1, cursor := (dst + 1) % 2 ^ 23 } }
      ((s1.setFree dst false).freeStat (s1.freeCount - 1)).setEntry sys idx { e with state := if e.state = 1 then 2 else e.state }

/-- What a physical hank is bound to: by the two maps and the anchor table, else as shipped. -/
def State.boundTo (s : State) (phn : Nat) : Owner :=
  match s.hanks.host.find? fun e => e.2.phn == phn with
  | some (l, _) => .host l
  | none =>
    match s.hanks.sys.find? fun e => e.2.phn == phn with
    | some (i, _) => .sys i
    | none =>
      match s.hanks.anchor.find? fun e => e.2 == phn with
      | some (n, _) => .anchor n
      | none =>
        match shippedOwner phn with
        | .host l => if (tget s.hanks.host l).isNone then .host l else .free
        | .sys i => if (tget s.hanks.sys i).isNone then .sys i else .free
        | .anchor n => if (tget s.hanks.anchor n).isNone then .anchor n else .free
        | .free => .free

/-- The wear ledger takes page programs of a hank (R138): entries count units of 2^20, and what is below a unit is kept beside them. -/
def State.ledgerAdd (s : State) (phn n : Nat) : State :=
  let w := dget (fun _ => 0) s.hanks.wear phn
  if w = 0xFFFF then s
  else
    let t := dget (fun _ => 0) s.hanks.wearSub phn + n
    { s with hanks := { s.hanks with
      wear := dput (fun _ => 0) s.hanks.wear phn (min 65534 (w + t / 2 ^ 20))
      wearSub := dput (fun _ => 0) s.hanks.wearSub phn (t % 2 ^ 20) } }

/-- A hank is unbound: the ledger takes the HEAT of its entry, in units of 1,024 programs, and the programs not yet in HEAT (R138). -/
def State.unbindWear (s : State) (phn heat : Nat) : State :=
  let s1 := s.ledgerAdd phn (1024 * heat + dget (fun _ => 0) s.hanks.heatSub phn)
  { s1 with hanks := { s1.hanks with heatSub := dput (fun _ => 0) s1.hanks.heatSub phn 0 } }

/-- The stripe of a failed page dies when no free hank remains (R150). -/
def State.deadStripe (s : State) (phn st : Nat) : State :=
  { s with hanks := { s.hanks with dead := tput s.hanks.dead (stripeKey phn st) 0 } }

/-- Whether a stripe is dead. -/
def State.isDead (s : State) (phn st : Nat) : Bool := (tget s.hanks.dead (stripeKey phn st)).isSome

/-- A retirement begins because of a page on channel `ch` (R145, Table 4-6). -/
def State.retireNoted (s : State) (ch : Nat) : State :=
  { s with hanks := { s.hanks with retireAttr := tput s.hanks.retireAttr ch (dget (fun _ => 0) s.hanks.retireAttr ch + 1) } }

/-- A hank is to be retired (R145): a migration of it that runs becomes the retirement, and copies again what it had copied (R146, R161); else
a retirement starts, or waits until one can. -/
def State.retire (s : State) (sys : Bool) (idx due ch : Nat) : State :=
  match s.migOf sys idx with
  | some (m, g) =>
    let back := g.state == .verifying || g.state == .copied
    let g1 : Mig := { g with kind := .retire, due := min g.due due, state := if back then .copying else g.state, bitmap := if back then 0 else g.bitmap }
    let s1 : State := { s with hanks := { s.hanks with migs := tput s.hanks.migs m g1 } }
    if g.kind = .retire then s1 else s1.retireNoted ch
  | none =>
    if s.hanks.retireQ.any fun q => q.1 == sys && q.2.1 == idx then s
    else
      let s1 := s.startMig sys idx .retire due
      let s2 := if s1.hanks.nextMig = s.hanks.nextMig then { s with hanks := { s.hanks with retireQ := s.hanks.retireQ ++ [(sys, idx, due)] } } else s1
      s2.retireNoted ch

/-- The retirements that wait start, the earliest deadline first (R145). -/
def State.retireNext (s : State) : State :=
  (sortBy (fun (a b : Bool × Nat × Nat) => decide (a.2.2 < b.2.2)) s.hanks.retireQ).foldl (fun s q =>
    let s1 := s.startMig q.1 q.2.1 .retire q.2.2
    if s1.hanks.nextMig = s.hanks.nextMig then s else { s1 with hanks := { s1.hanks with retireQ := s1.hanks.retireQ.filter (· != q) } }) s

/-- The stripe of a failed program is copied first, or again, by the migration of its hank (R146, R161). -/
def State.uncopied (s : State) (phn st : Nat) : State :=
  let again := fun (g : Mig) => if g.src == phn && g.state == .copying then { g with bitmap := g.bitmap &&& ~~~(1#128 <<< st) } else g
  let k := stripeKey phn st
  { s with hanks := { s.hanks with
      migs := s.hanks.migs.map fun e => (e.1, again e.2)
      failedAt := if s.hanks.failedAt.contains k then s.hanks.failedAt else s.hanks.failedAt ++ [k] } }

/-- Copy a physical hank's lines (R131), and blank one (R128). -/
def State.copyHank (s : State) (src dst : Nat) : State :=
  let moved := (s.med.lines.filter fun e => e.1 / 17408 == src).map fun e => (e.1 % 17408 + dst * 17408, e.2)
  let base := s.med.lines.filter fun e => e.1 / 17408 != dst
  { s with med := { s.med with
    lines := moved.foldl (fun t e => tput t e.1 e.2) base
    blankWep := dput (fun _ => s.med.blankAll) s.med.blankWep dst (s.med.wepOf src)
    corrupt := s.med.corrupt.filter fun k => k / 17408 != dst } }
def State.blankHank (s : State) (phn : Nat) : State :=
  { s with med := { s.med with
    lines := s.med.lines.filter fun e => e.1 / 17408 != phn
    blankWep := dput (fun _ => s.med.blankAll) s.med.blankWep phn s.label
    corrupt := s.med.corrupt.filter fun k => k / 17408 != phn
    staged := s.med.staged.filter fun e => e.1 / 17408 != phn } }

/-- Mark a physical hank retired in the wear ledger (R138, R145). -/
def State.markRetired (s : State) (phn : Nat) : State :=
  let s1 := s.blankHank phn
  let s2 := { s1 with hanks := { s1.hanks with wear := tput s1.hanks.wear phn 0xFFFF } }
  s2.setReg Reg.TLC_RETIRED (s2.reg Reg.TLC_RETIRED + 1)

/-- Return a hank, blanked by 2,176 page programs, to the free bitmap (R138, R142), or mark it retired. -/
def State.releaseHank (s : State) (phn : Nat) (retired : Bool) : State :=
  if retired then s.markRetired phn
  else
    let s1 := (s.blankHank phn).ledgerAdd phn 2176
    (s1.setFree phn true).freeStat (s1.freeCount + 1)

/-- An anchor hank is replaced from the free pool: its contents move, the anchor table follows, and the old one is retired (R131). -/
def State.replaceAnchor (s : State) (n phn : Nat) : State :=
  match State.pickFree s phn false (2 ^ 23) s.hanks.cursor with
  | none => s
  | some dst =>
    let s1 := s.copyHank phn dst
    let s2 := { s1 with hanks := { s1.hanks with
      anchor := dput shippedAnchor s1.hanks.anchor n dst, cursor := (dst + 1) % 2 ^ 23 } }
    (((s2.setFree dst false).freeStat (s2.freeCount - 1)).unbindWear phn 0).markRetired phn

/-- A physical hank is to be retired (R145): a bound one by a migration, an anchor hank by its replacement, a free one by its mark alone. -/
def State.retirePhys (s : State) (phn due ch : Nat) : State :=
  match s.boundTo phn with
  | .host l => s.retire false l due ch
  | .sys i => s.retire true i due ch
  | .anchor n => (s.replaceAnchor n phn).retireNoted ch
  | .free =>
    if s.isFree phn then
      let s1 := s.setFree phn false
      ((s1.freeStat (s1.freeCount - 1)).markRetired phn).retireNoted ch
    else s

/-- The retirement of a failed page's hank takes the last free hank away from one of a higher PHN that took it in the same tick (R161): migration `m`
goes over to the lower PHN with its destination, and the stripe of the other failure dies. -/
def State.takeOver (s : State) (m : Nat) (g : Mig) (st och : Nat) (sys : Bool) (idx : Nat) (p : Program) : State :=
  let g1 : Mig := { g with sys := sys, idx := idx, src := p.phn, state := .copying, bitmap := 0, again := 0, due := p.deadline, bad := false }
  let old := s.entry g.sys g.idx
  let e := s.entry sys idx
  let s1 : State := { s with hanks := { s.hanks with
    migs := tput s.hanks.migs m g1
    retireAttr := tput s.hanks.retireAttr och (dget (fun _ => 0) s.hanks.retireAttr och - 1) } }
  let s2 := (s1.setEntry g.sys g.idx { old with state := if old.state = 2 then 1 else old.state }).setEntry sys idx { e with state := if e.state = 1 then 2 else e.state }
  ((s2.deadStripe g.src st).retireNoted p.ch).uncopied p.phn p.s

/-- A page program of a bound hank fails: the hank is retired; when no free hank remains for it, the stripe of the failed page dies, unless the last
one was taken in the same tick for a higher PHN (R145, R150, R161). -/
def State.retireOrDie (s : State) (sys : Bool) (idx : Nat) (p : Program) : State :=
  if s.freeCount ≠ 0 ∨ (s.migOf sys idx).isSome = true then
    let s1 := (s.retirePhys p.phn p.deadline p.ch).uncopied p.phn p.s
    if s.freeCount ≠ 0 ∧ s1.freeCount = 0 then { s1 with hanks := { s1.hanks with tookLast := some (s.clk.now, s.hanks.nextMig, p.s, p.ch) } } else s1
  else
    match s.hanks.tookLast with
    | some (t, m, st, och) =>
      (match tget s.hanks.migs m with
      | some g => if t = s.clk.now ∧ p.phn < g.src then s.takeOver m g st och sys idx p else s.deadStripe p.phn p.s
      | none => s.deadStripe p.phn p.s)
    | none => s.deadStripe p.phn p.s

/-- A page program fails (R90): PGMFAIL counts, and the hank that holds the page is retired, or its stripe dies when no free hank remains
(R145, R150). A failed swatch page is only counted; a failed page of a copy lets the destination be retired. -/
def State.pgmFail (s : State) (p : Program) : State :=
  let s1 := s.addCnt (Reg.MCH_CNT_PGMFAIL p.ch)
  let recent := ((dget (fun _ => []) s1.med.fails (9 * p.ch + p.die)) ++ [s.clk.now]).filter fun t => decide (s.clk.now ≤ t + 100000000)
  let s2 := { s1 with med := { s1.med with fails := tput s1.med.fails (9 * p.ch + p.die) recent } }
  match p.kind with
  | .swatch _ _ => s2
  | .copy src =>
    let fresh := s2.hanks.migs.any fun e => e.2.src == src && !e.2.bad
    let s3 : State := { s2 with hanks := { s2.hanks with
      migs := s2.hanks.migs.map fun e => if e.2.src = src then (e.1, { e.2 with bad := true }) else e } }
    if fresh then s3.retireNoted p.ch else s3
  | _ =>
    match s2.boundTo p.phn with
    | .host l => s2.retireOrDie false l p
    | .sys i => s2.retireOrDie true i p
    | _ => s2.retirePhys p.phn p.deadline p.ch

/-- One page program into a physical hank: HEAT counts 1,024 of them (Table 4-1); at HEAT_THR a wear migration starts (R139), which waits
while the journal is full (R130). Programs of a hank that is bound to nothing in a map go to the ledger. -/
def State.heat (s : State) (phn : Nat) : State :=
  let n := dget (fun _ => 0) s.hanks.heatSub phn + 1
  let keep := fun (s : State) (k : Nat) => { s with hanks := { s.hanks with heatSub := dput (fun _ => 0) s.hanks.heatSub phn k } }
  let warm := fun (sys : Bool) (idx : Nat) =>
    let e := s.entry sys idx
    let h := min 1023 (e.heat + n / 1024)
    if s.fget Reg.TLC_MIG_CTL Fld.TLC_MIG_CTL_HEAT_THR ≤ h then
      (if s.journalFull then keep s n else ((keep s (n % 1024)).setEntry sys idx { e with heat := h }).startMig sys idx .wear (s.bgDeadline 1))
    else (keep s (n % 1024)).putEntry sys idx ({ e with heat := h }.sealChk idx)
  if n < 1024 then keep s n
  else
    match s.boundTo phn with
    | .host l => warm false l
    | .sys i => warm true i
    | _ => (keep s 0).ledgerAdd phn n

/-- The verify-retry index of a die over a window of its programs (R92): their mean, 8.8, and the largest. -/
def State.retryIdx (s : State) (ch die : Nat) (w : List Nat) : State :=
  (s.fset (Reg.MCH_RETRY_IDX ch die) Fld.MCH_RETRY_IDX_IDX (256 * w.foldl (· + ·) 0 / w.length)).fset (Reg.MCH_RETRY_IDX ch die)
    Fld.MCH_RETRY_IDX_MAXST (w.foldl max 0)

/-- The verify-retry index of a die takes a finished program (R92), over its last 65,536. -/
def State.noteStitches (s : State) (ch die n : Nat) : State :=
  let w := (n :: dget (fun _ => []) s.med.window (9 * ch + die)).take 65536
  State.retryIdx { s with med := { s.med with window := tput s.med.window (9 * ch + die) w } } ch die w

/-! ### The recompute of a suspect stripe (R100, R134, R235) -/

/-- The logical hank at a physical one. -/
def State.hostAt (s : State) (phn : Nat) : Option Nat := match s.boundTo phn with | .host l => some l | _ => none

/-- Read a suspect stripe and program its parity page and the data pages whose lines are poisoned: those of the mask, and those with a line that
does not decode (R134). It waits until the stripe is free and there is room; a stripe whose program failed is copied instead (R146). -/
def State.recompute (s : State) (phn st mask due : Nat) : State :=
  if s.stripeBusy phn st || s.hanks.failedAt.contains (stripeKey phn st) || !((tget s.hanks.rmw (stripeKey phn st)).isSome || s.laneRoom phn st) ||
      !(s.walkRoom phn st (List.range 16)) then s
  else
    let s1 := State.setRmw { s with hanks := { s.hanks with suspect := tput s.hanks.suspect (stripeKey phn st) 0 } } phn st
    (s1.walkStart .recompute phn st (s.hostAt phn) (List.range 16) mask due 4).charge 19 128

/-- The order of the recomputes that wait: by deadline, then by the skein of their hank, stripes of no host hank first (R71, R235). -/
def State.suspectRank (s : State) (e : Nat × Nat) : Nat :=
  e.2 / 2 ^ 18 * 128 + (match s.hostAt (e.1 / 128) with | some l => skeinOf l + 1 | none => 0)

/-- The recomputes that wait begin. -/
def State.recomputePump (s : State) : State :=
  (sortBy (fun a b => decide (s.suspectRank a < s.suspectRank b)) (s.hanks.suspect.filter fun e => e.2 / 2 ^ 17 % 2 == 1)).foldl (fun s e =>
    s.recompute (e.1 / 128) (e.1 % 128) (e.2 % 2 ^ 17) (e.2 / 2 ^ 18)) s

end Sys2Proof.Machine
end

