-- ==== Sys2Proof/Machine/Walks.lean ====
section
/-! DEFINITION. Work that walks over pages (chapters 3 and 4): the copier of a migration, and the rebuild of a failed die onto the spare. Each
row boundary lets it go on. -/

namespace Sys2Proof.Machine

/-! ### The copier (R142, R143, R146) -/

/-- Whether work under the migration class may go on: medium lines are sensed, the maps stand, and the class is not held, or must not be
(R64, R108, R145). -/
def State.walkMay (s : State) (must : Bool) : Bool :=
  s.power == .on && s.ready rDRIFT && s.hanks.mapsReady && (must || !(s.adm.held.getD 17 false))

/-- The stripe that a migration copies next: one whose program failed goes first (R146, R161), then the others in order. -/
def State.copyNext (s : State) (g : Mig) : Option Nat :=
  let first := (s.hanks.failedAt.filter fun k => k / 128 == g.src).map (· % 128) ++
    (if g.sys then [] else (s.orphans g.idx).map fun q => stripeOf q.1) ++ (s.stuckIn g.src).map MbEntry.s
  (first ++ List.range 128).find? fun st => !(g.bitmap.getLsbD st)

/-- Whether a migration's copier has a stripe in hand. -/
def State.copyRuns (s : State) (m : Nat) : Bool := s.adm.ops.any fun e => match e.2.kind with | .stripe r => r.kind == .copy m | _ => false

/-- The deadline of a copy: its creation plus the WINDOW of class 1, and a retirement's own when that comes first (R53, R145). -/
def State.copyBy (s : State) (g : Mig) : Nat := if g.kind = .retire then min g.due (s.bgDeadline 1) else s.bgDeadline 1

/-- The copier takes the next stripe of a migration, when its last one is done and no work is on that stripe (R142, R161): its 128 lines are read and
17 pages programmed, 264 tokens (R147). -/
def State.copyWalk (s : State) (m : Nat) : State :=
  match tget s.hanks.migs m with
  | some g =>
    match s.copyNext g with
    | some st =>
      if g.state = .copying ∧ s.walkMay (g.kind == .retire || g.kind == .evac) = true ∧ s.copyRuns m = false ∧
          s.stripeBusy g.src st = false ∧ s.laneRoom g.dst st = true ∧ s.walkRoom g.src st (List.range 16) = true then
        (s.walkStart (.copy m) g.src st (if g.sys then none else some g.idx) (List.range 16) 0 (s.copyBy g) 5).charge 17 264
      else s
    | none => s
  | none => s

/-- A copy of a stripe has been programmed: the journal entries clear and the stripe counts as copied (R134, R142). A failed page leaves the
destination as it was; the migration's verification does not match then. -/
def State.copyEnds (s : State) (m : Nat) (r : StripeOp) : State :=
  match tget s.hanks.migs m with
  | some g =>
    let s1 := (s.dropRmw g.dst r.s).clearRmw r.phn r.s
    if g.state = .copying then { s1 with hanks := { s1.hanks with migs := tput s1.hanks.migs m { g with bitmap := g.bitmap ||| (1#128 <<< r.s) } } }
    else s1
  | none => s.clearRmw r.phn r.s

/-! ### Evacuation (R147) -/

/-- Whether a physical hank lies on position 8 × GRP + ADIE. -/
def onPos (phn pos : Nat) : Bool := 8 * phnGrp phn + phnAdie phn == pos

/-- The lowest hank of a map that is bound at a position and has no migration. -/
def State.boundAt (s : State) (sys : Bool) (pos : Nat) : Option Nat :=
  firstFrom (fun l => onPos (s.entry sys l).phn pos && (s.migOf sys l).isNone) (if sys then sysHanks else hostHanks) 0

/-- The lowest anchor hank at a position (R131). -/
def State.anchorAt (s : State) (pos : Nat) : Option Nat :=
  firstFrom (fun n => onPos (dget shippedAnchor s.hanks.anchor n) pos) anchorHanks 0

/-- Retire the next bound hank of an evacuated position once the last one is done, anchor hanks among them; a position with none left leaves the
list (R147). -/
def State.evacNext (s : State) : State :=
  if s.hanks.migs.any fun g => g.2.kind == .evac then s else
  match s.hanks.mapsReady, s.hanks.evac with
  | _, [] => s
  | false, _ => s
  | true, pos :: rest =>
    match s.boundAt false pos, s.boundAt true pos, s.anchorAt pos with
    | some l, _, _ => s.startMig false l .evac (s.bgDeadline 1)
    | none, some k, _ => s.startMig true k .evac (s.bgDeadline 1)
    | none, none, some n => s.replaceAnchor n (dget shippedAnchor s.hanks.anchor n)
    | none, none, none =>
      if s.hanks.migs.any fun g => onPos g.2.src pos then s
      else State.fsetBit { s with hanks := { s.hanks with evac := rest } } Reg.TLC_MIG_STAT Fld.TLC_MIG_STAT_EVAC pos false

/-! ### The rebuild of a die (R119) -/

/-- The place of page `n` of a position (channel, active index): hank, stripe and page of the stripe (R45, Table 1-7). -/
def pageAt (ch adie n : Nat) : Nat × Nat × Nat :=
  let phn := ch / 17 * 2 ^ 22 + adie * 2 ^ 19 + n / 2 ^ 22 * 2 ^ 15 + n % 2 ^ 22 / 128
  let p := n % 2 ^ 22 % 17
  (phn, n % 128, if ch % 17 = p then 16 else (ch % 17 + 16 - p) % 17)

/-- Whether a position is rebuilt onto the spare die, and which. -/
def State.rebuilds (s : State) (ch : Nat) : Bool :=
  s.fget (Reg.MCH_STATE ch) Fld.MCH_STATE_REBUILD == 1 && s.fget (Reg.MCH_STATE ch) Fld.MCH_STATE_ENGINE == 1 &&
    decide (s.fget (Reg.MCH_REBUILD ch) Fld.MCH_REBUILD_DONE < 2 ^ 26)

/-- A die rebuild takes its next page (R119): rebuilt from its stripe after the work that is on the stripe (R123), and programmed onto the
spare die; 128 line reads and a page program of tokens. -/
def State.rebuildWalk (s : State) (ch : Nat) : State :=
  let a := s.fget (Reg.MCH_DIESUB ch) Fld.MCH_DIESUB_REB_ADIE
  let (phn, st, d) := pageAt ch a (s.fget (Reg.MCH_REBUILD ch) Fld.MCH_REBUILD_DONE)
  let runs := s.adm.ops.any fun e => match e.2.kind with | .stripe r => r.kind == .rebuild ch | _ => false
  if s.rebuilds ch && s.walkMay false && !runs && !(s.stripeBusy phn st) && s.walkRoom phn st [d] then
    (s.walkStart (.rebuild ch) phn st (s.hostAt phn) [d] (2 ^ d) (s.bgDeadline 1) 5).charge 17 136
  else s

/-! ### Swatch pages (R107) -/

/-- Program swatch page EPOCH mod 64 of the dies that wait, as far as the operation table and the queues of their channels have room
(R20, R27). The page lies in partition 0 and in no hank: its contents are those of `swatchPage` (log 68). -/
def State.swatchPump (s : State) : State :=
  s.med.swatchDue.foldl (fun s x =>
    if s.opRoom 1 && s.chanRoom x.1 1 then
      let t := s.medTime
      let s1 : State := { s with med := { s.med with swatchDue := s.med.swatchDue.erase x } }
      ((s1.addOther (.swatch (t / 64) (t % 64)) x.1 x.2 0 (2 ^ 23) 0 0 [] none (s.bgDeadline 2)).2).charge 18 8
    else s) s

/-- Retirements and evacuations that wait start, and the copiers, the die rebuilds and the swatch programs go on. -/
def State.walks (s : State) : State :=
  let s0 := if s.hanks.retireQ.isEmpty then s else s.retireNext
  let s1 := if s0.hanks.evac.isEmpty then s0 else s0.evacNext
  let s2 := (tkeys s1.hanks.migs fun g => g.state == .copying).foldl (fun s m => s.copyWalk m) s1
  (((List.range 34).filter s2.rebuilds).foldl (fun s ch => s.rebuildWalk ch) s2).swatchPump

end Sys2Proof.Machine
end

