-- ==== Sys2Proof/Machine/Cmds.lean ====
section
/-! DEFINITION. Completing commands on whatever path they came (chapter 12), reading a line at once for them, and what waits on
lines becoming durable. -/

namespace Sys2Proof.Machine

/-- Status codes (Table 12-2a). -/
def stOK : Nat := 0x0000
def stPARTIAL : Nat := 0x0001
def stBAD_OPCODE : Nat := 0x0010
def stBAD_PARAM : Nat := 0x0011
def stBAD_CHECK : Nat := 0x0012
def stRANGE : Nat := 0x0013
def stNOT_READY : Nat := 0x0020
def stBUSY : Nat := 0x0021
def stKEY_ABSENT : Nat := 0x0030
def stKEY_RETIRED : Nat := 0x0031
def stKEY_IN_USE : Nat := 0x0032
def stSEALED : Nat := 0x0040
def stAUTH_FAIL : Nat := 0x0041
def stPLY_DEGRADED : Nat := 0x0050
def stMEDIA_ERROR : Nat := 0x0060
def stPOISONED : Nat := 0x0061
def stNO_SPARE : Nat := 0x0070
def stTIMEOUT : Nat := 0x0080
def stABORTED : Nat := 0x00F0

/-- Entries of a ring's queues. -/
def State.ringSize (s : State) (n : Nat) : Nat := 2 ^ s.fget (Reg.CRG_SQ_SIZE n) Fld.CRG_SQ_SIZE_LOG2

/-- Bytes as written to a command's buffer: one run, or cut over its scatter list (R384). -/
def spread : List SglEntry → List Byte → List (Nat × List Byte)
  | [], _ => []
  | e :: es, bs => if bs.isEmpty then [] else (e.addr, bs.take e.len) :: spread es (bs.drop e.len)

def State.toBuffer (s : State) (c : Cmd) (bytes : List Byte) : State :=
  if bytes.isEmpty then s
  else if c.pkt.flags.testBit 10 then (spread c.sgl bytes).foldl (fun s x => s.out (.host x.1 x.2)) s
  else s.out (.host c.pkt.bufptr bytes)

/-- Count a completion for MSI-X: the message goes at COAL_CNT completions without NOIRQ (R378). -/
def State.msixCount (s : State) (n : Nat) (noirq : Bool) : State :=
  if noirq || s.fget (Reg.CRG_MSIX n) Fld.CRG_MSIX_EN == 0 then s
  else
    let k := s.rings.coal.getD n 0 + 1
    if s.fget (Reg.CRG_MSIX n) Fld.CRG_MSIX_COAL_CNT ≤ k then
      State.out { s with rings := { s.rings with coal := lset s.rings.coal n 0, coalOn := lset s.rings.coalOn n none } }
        (.msix (s.fget (Reg.CRG_MSIX n) Fld.CRG_MSIX_VECTOR))
    else { s with rings := { s.rings with coal := lset s.rings.coal n k, coalOn := lset s.rings.coalOn n (some ((s.rings.coalOn.getD n none).getD s.clk.now)) } }

/-- Commands of ring `n` in flight. -/
def State.ringCmds (s : State) (n : Nat) : List (Nat × Cmd) :=
  s.cmds.filter fun e => match e.2.carrier with | .ring m => m == n | _ => false

/-- RUNNING clears when a stopping or halted ring has written its last completion (R387). -/
def State.ringStat (s : State) (n : Nat) : State :=
  if s.inflight n = 0 ∧ s.rings.stopping.getD n false then
    State.fset { s with rings := { s.rings with stopping := lset s.rings.stopping n false } } (Reg.CRG_STAT n) Fld.CRG_STAT_RUNNING 0
  else s

/-- Write a completion at the CQ tail of ring `n` (R377): one 32-byte entry, its phase, the tail's advance, CRG_DONE, the interrupt. -/
def State.writeCqe (s : State) (n tag status r0 r1 : Nat) (noirq : Bool) : State :=
  let tail := s.fget (Reg.CRG_CQ_TAIL n) Fld.CRG_CQ_TAIL_TAIL
  let phase := s.fget (Reg.CRG_CQ_TAIL n) Fld.CRG_CQ_TAIL_PHASE
  let s1 := s.out (.cqe n tail tag status phase (r0 % 2 ^ 64) (r1 % 2 ^ 64) s.clk.now)
  let next := (tail + 1) % s.ringSize n
  let s2 := s1.fset (Reg.CRG_CQ_TAIL n) Fld.CRG_CQ_TAIL_TAIL next
  let s3 := if next = 0 then s2.fset (Reg.CRG_CQ_TAIL n) Fld.CRG_CQ_TAIL_PHASE (1 - phase) else s2
  (s3.setReg (Reg.CRG_DONE n) (s3.reg (Reg.CRG_DONE n) + 1)).msixCount n noirq

/-- Whether an entry of the command table stands for the line that a poison command of a mailbox writes (R364), which no packet asked for. -/
def isMbWrite (c : Cmd) : Bool := decide (65536 ≤ c.pkt.opcode)

/-- A mailbox is free again. -/
def State.mbIdle (s : State) (mb : Mailbox) : State := { s with cxl := { s.cxl with mboxBusy := s.cxl.mboxBusy.erase mb } }

/-- Report a completion that is not written (R239, R387): OK when the change finished, ABORTED when it was undone (Table 12-9). -/
def State.unwrite (s : State) (ring : Nat) (c : Cmd) (status r0 : Nat) : State :=
  if isMbWrite c then s else
  { s with rings := { s.rings with unwritten := (({ tag := c.pkt.tag, ring := ring, opcode := c.pkt.opcode
                                                    status := if status = stABORTED then stABORTED else stOK
                                                    result0 := r0, time := s.clk.now } : Unwritten) :: s.rings.unwritten).take 8 } }

/-- The number of a path in those reports: a ring, 8 and 9 for the mailboxes. -/
def carrierNo : Carrier → Nat
  | .ring n => n
  | .primary _ => 8
  | .secondary _ => 9
  | .mctp => 10

/-- A ring halts: HALTED and CAUSE are set, and a FAULT event names the ring (R387). -/
def State.haltMark (s : State) (n cause : Nat) : State :=
  let r := Reg.CRG_STAT n
  let s1 := (s.fset r Fld.CRG_STAT_HALTED 1).fset r Fld.CRG_STAT_CAUSE cause
  State.event { s1 with rings := { s1.rings with stopping := lset s1.rings.stopping n true } } evFAULT 4 0xFFFF n [cause]

/-- Whether no completion of ring `n` can be written (CAUSE 3). -/
def State.cqDead (s : State) (n : Nat) : Bool :=
  s.fget (Reg.CRG_STAT n) Fld.CRG_STAT_HALTED == 1 && s.fget (Reg.CRG_STAT n) Fld.CRG_STAT_CAUSE == 3

/-- A command that ends holds nothing outside its own record: no rehash or walk, and no OPEN that waits for its answer. -/
def State.dropRefs (s : State) (id : Nat) : State :=
  let open' := fun (l : Link) => match l.setPly with | some (c, _, _, _) => if c = id then { l with setPly := none } else l | none => l
  { s with
    seals := { s.seals with verify := tdel s.seals.verify id }
    chain := { s.chain with walks := s.chain.walks.filter fun w => w.2.cmd != id }
    linkA := open' s.linkA, linkB := open' s.linkB }

/-- A completion of ring `n` cannot be written: the ring halts with CAUSE 3. Its commands that have changed nothing end ABORTED, the others
after their hank, none with a completion that is written (R387). -/
def State.cqError (s : State) (n : Nat) : State :=
  if s.cqDead n then s.ringStat n
  else
    let s1 := s.haltMark n 3
    let gone := (s1.ringCmds n).filter fun e => !(e.2.running && e.2.started)
    let s2 := gone.foldl (fun s e => (s.dropRefs e.1).unwrite n e.2 stABORTED 0) { s1 with cmds := s1.cmds.filter fun e => !(gone.contains e) }
    let mine := (s2.ringCmds n).map Prod.fst
    State.ringStat { s2 with cmds := s2.cmds.map fun e => if mine.contains e.1 then (e.1, { e.2 with endWith := some stABORTED }) else e } n

/-- Complete a command (R377, R386, R392): its output first, then its completion on the path it came by. The completion of a command
whose ring was reset under it is not written (R239). A host error on its buffer makes it ABORTED (R385), and
a stop or an expiry gives it its own status (R383, R387). -/
def State.finish (s : State) (id status r0 r1 : Nat) (bytes : List Byte) : State :=
  match tget s.cmds id with
  | none => s
  | some c =>
    let s1 : State := { s.dropRefs id with cmds := tdel s.cmds id }
    let status := c.endWith.getD status
    if c.stopping then s1.unwrite (carrierNo c.carrier) c status r0
    else
    match c.carrier with
    | .ring n =>
      let bad := c.host == .output && !bytes.isEmpty
      let st := if bad then stABORTED else status
      let s2 := s1.toBuffer c (if bad then [] else bytes)
      if c.host == .cqWrite || s2.cqDead n then (s2.unwrite n c st r0).cqError n
      else (s2.writeCqe n c.pkt.tag st (if bad then 0 else r0) (if bad then 0 else r1) (c.pkt.flags.testBit 9)).ringStat n
    | .primary ld => (s1.mbIdle ⟨ld, false⟩).out (if isMbWrite c then .mailbox ⟨ld, false⟩ 0 [] [] else
        .carrier (.primary ld) c.pkt.tag status (r0 % 2 ^ 64) (r1 % 2 ^ 64) s.clk.now bytes)
    | .secondary ld => (s1.mbIdle ⟨ld, true⟩).out (if isMbWrite c then .mailbox ⟨ld, true⟩ 0 [] [] else
        .carrier (.secondary ld) c.pkt.tag status (r0 % 2 ^ 64) (r1 % 2 ^ 64) s.clk.now bytes)
    | .mctp => s1.out (.carrier .mctp c.pkt.tag status (r0 % 2 ^ 64) (r1 % 2 ^ 64) s.clk.now bytes)

/-- Change a command. -/
def State.setCmd (s : State) (id : Nat) (c : Cmd) : State := { s with cmds := tput s.cmds id c }

/-- A fixed output structure (R385): nothing when BUFLEN is 0. -/
def fixedOut (c : Cmd) (bytes : List Byte) : List Byte := if c.pkt.buflen = 0 then [] else bytes

/-- Take what has happened off the work of every command, completing those that have nothing left to wait for. -/
def State.workDone (s : State) (p : Nat → Bool) : State :=
  (tkeys s.cmds fun c => c.running && c.work.any p).foldl (fun s id =>
    match tget s.cmds id with
    | none => s
    | some c =>
      let w := c.work.filter fun x => !(p x)
      if w.isEmpty then s.finish id c.status c.done c.extra c.output
      else s.setCmd id { c with work := w }) s

/-- An item of a SELF_TEST ends (Table 12-10): RESULT1 counts it, RESULT0 takes the first that fails. -/
def State.itemDone (s : State) (w item : Nat) (pass : Bool) : State :=
  let mark := fun (e : Nat × Cmd) =>
    if e.2.running && e.2.work.contains w then
      (e.1, { e.2 with extra := e.2.extra + 1, done := if pass || e.2.done != 0 then e.2.done else item })
    else e
  State.workDone { s with cmds := s.cmds.map mark } fun x => x == w

/-- What a command's work list names: a line to become durable, a line's MIRROR_ACK, a hank to be zeroed, a secure discard. -/
def wLine (line : Nat) : Nat := line
def wMirror (line : Nat) : Nat := 2 ^ 40 + line
def wHank (lhn : Nat) : Nat := 2 ^ 41 + lhn
def wPly (link : Nat) (n : Nat) : Nat := 2 ^ 42 + link * 2 ^ 30 + n
def wKey (slot : Nat) : Nat := 2 ^ 43 + slot
def wOther (n : Nat) : Nat := 2 ^ 44 + n
/-- A line that waits in translation for room. -/
def wRoom (line : Nat) : Nat := 2 ^ 45 + line
/-- The rest of a range of hanks. -/
def wRange : Nat := wOther 1

/-- Whether a range command stands between two hanks. -/
def atGap (c : Cmd) : Bool := c.running && c.work.contains wRange && !(c.work.any fun w => decide (2 ^ 41 ≤ w ∧ w < 2 ^ 42))

/-- A fault that an INJECT_FAULT waits for is handled: RESULT1 is the interruption just closed (R391). -/
def State.injectDone (s : State) (fault : Nat) : State :=
  let len := match s.adm.intrs with | (a, b) :: _ => b - a | [] => 0
  let mark := fun (e : Nat × Cmd) => if e.2.work.contains (wOther fault) then (e.1, { e.2 with extra := len }) else e
  State.workDone { s with cmds := s.cmds.map mark } fun w => w == wOther fault

/-! ### Maintenance (R182) -/

/-- Whether a line is in the scope of a maintenance operation. -/
def Maint.covers (m : Maint) (line : Nat) : Bool :=
  if m.scope = 0 then true else if m.scope = 3 then decide (m.a ≤ line) && decide (line ≤ m.b) else cacheSet line == m.a

/-- The clean is done, or there was none: invalidate the scope when asked to, and complete. RESULT0 counts the pool lines cleaned, RESULT1
the cached lines invalidated (Table 12-7). -/
def State.maintEnd (s : State) (m : Maint) : State :=
  let finished := fun (s : State) =>
    let s1 : State := { s with tlc := { s.tlc with maint := none } }
    match m.cmd with
    | some id => (match tget s1.cmds id with | some c => s1.finish id stOK c.done c.extra [] | none => s1)
    | none => s1
  let gone := fun (p : Nat × CacheLine → Bool) =>
    let n := (s.tlc.cache.filter p).length
    match m.cmd with
    | some id => (match tget s.cmds id with | some c => s.setCmd id { c with extra := n } | none => s)
    | none => s
  if m.op = 1 then finished s
  else if m.scope = 0 then
    let s1 := (gone fun _ => true).invalStart
    { s1 with tlc := { s1.tlc with maint := some { m with left := [], inval := true } } }
  else if m.scope = 2 then
    let s1 := gone fun e => e.1 == 16 * m.a + m.b
    finished (s1.setCache (tdel s1.tlc.cache (16 * m.a + m.b)))
  else finished ((gone fun e => m.covers e.2.line).cacheDrop m.covers)

/-- The deadline of the write-backs of a clean: its command's expiry, else its creation plus the WINDOW of class 3 (R382). -/
def State.maintDue (s : State) (m : Maint) : Nat :=
  match m.cmd with
  | some id => (match tget s.cmds id with | some c => c.expiry.getD (s.bgDeadline 3) | none => s.bgDeadline 3)
  | none => s.bgDeadline 3

/-- Start a maintenance operation: BUSY sets, and the dirty lines of a clean fall due with it. -/
def State.maintStart (s : State) (m : Maint) : State :=
  let mine := if m.op = 2 then [] else (s.tlc.pool.filter fun q => m.covers q.1).map Prod.fst
  let due := fun (q : Nat × PoolLine) => if mine.contains q.1 then (q.1, { q.2 with due := min q.2.due (s.maintDue m) }) else q
  let s1 : State := { s with tlc := { s.tlc with maint := some { m with left := mine }, pool := s.tlc.pool.map due } }
  if mine.isEmpty then s1.maintEnd m else s1

/-- A pool line is in the medium, or gone: what waits for it goes on. -/
def State.lineDurable (s : State) (line : Nat) : State :=
  let s1 := s.workDone fun w => w == wLine line
  match s1.tlc.maint with
  | some m =>
    if m.left.contains line then
      let m1 := { m with left := m.left.filter (· != line) }
      if m1.left.isEmpty then s1.maintEnd m1 else { s1 with tlc := { s1.tlc with maint := some m1 } }
    else s1
  | none => s1

/-- Read a line at once, as a read would return it (R21): used by ring commands, seals and resync (log 14). -/
def State.readNow (s : State) (line : Nat) : Line × Bool :=
  if s.readDenied line then (0, true)
  else
    let waits := s.patchWaits line
    match s.poolGet line with
    | some p => (p.data, p.poison)
    | none =>
      match s.mbGet line with
      | some l => (l.data, l.poison)
      | none =>
        if waits then (0, false)
        else
          match s.cacheGet line with
          | some x => x
          | none =>
            if s.lineZero line then (0, false)
            else if s.lineLost line then (0, true)
            else
              let e := s.hostEntry (lhnOf line)
              let v := s.medGet e.phn (stripeOf line) (pageOf line) (lineOf line)
              if v.poison || !(s.tagOk line e.key v) then (0, true) else (s.open' line e.key v, false)

/-- The deadline of what a command creates outside the internal classes: its expiry, else its acceptance plus 100,000 ticks (R382); of a poison
command's line, which is no packet's, the tick plus `bound`. -/
def State.lineDue (s : State) (w : WaitLine) (bound : Nat) : Nat :=
  match tget s.cmds w.cmd with
  | some c => if isMbWrite c then s.clk.now + bound else c.expiry.getD (c.accept + 100000)
  | none => s.clk.now + bound

/-- Place one line that a command writes, poisoned or not, under the region's ply and path (R389), with its command's deadline; a line of a
poison command on this module alone, in the pool when it is poisoned (R364). Answers the work it leaves; none when it finds no room. -/
def State.tryWrite (s : State) (w : WaitLine) : Option (List Nat) × State :=
  let lhn := lhnOf w.line
  let s := s.zeroFirst w.line
  let s := match s.ldOf w.line with | some (ld, dpa) => if w.poison then s else s.unpoison ld dpa | none => s
  let put := fun (wpol due : Nat) (keep : Bool) =>
    ({ line := w.line, data := w.data, poison := w.poison, master := w.master, cover := false, seq := none, accept := w.accept, due := due,
       wpol := wpol, key := w.key, keep := keep } : Put)
  match if w.alone then none else s.mirrorOf w.line with
  | some (k, r) =>
    match s.placeLine (put 0 (s.lineDue w 160) true) with
    | (.stuck, s1) => (none, s1)
    | (_, s1) =>
      let base := s.fget (Reg.PLK_REGION k r) Fld.PLK_REGION_BASE
      let m : MirrorLine := { seq := 2 ^ 32 + w.cmd, region := r, hoff := lhn - base, line := w.line % 16384, data := w.data,
                              deadline := s.lineDue w 160, ld := 16 }
      (some [wMirror w.line], s1.mirrorPut k m)
  | none =>
    let spill := fun (s1 : State) => match if w.alone then none else s.regionOf lhn with
      | some (k, _, 3) => s1.spillPut k { line := w.line, key := w.key, data := w.data, poison := w.poison }
      | _ => s1
    match s.placeLine (put w.wpol (s.lineDue w 800) (w.alone && w.poison)) with
    | (.pool, s1) => (some [], spill s1)
    | (.through, s1) => (some [wLine w.line], spill s1)
    | (.stuck, s1) => (none, s1)

/-- A line that a command writes, with the write policy and the key index under which it is routed (R183, R253). -/
def State.waitLine (s : State) (line : Nat) (data : Line) (poison : Bool) (master cmd : Nat) (alone : Bool) : WaitLine :=
  { line := line, data := data, poison := poison, master := master, accept := s.clk.now, cmd := cmd, alone := alone
    wpol := s.polOf line, key := s.keyOf line }

/-- Write a line: without room, it waits in translation (R25, R28). Answers the work it leaves. -/
def State.writeWait (s : State) (w : WaitLine) : List Nat × State :=
  let s := s.noteWrote w.line
  let wait := fun (s : State) => ({ s with tlc := { s.tlc with waits := s.tlc.waits ++ [w] } } : State)
  if s.tlc.waits.any fun x => x.line == w.line then ([wRoom w.line], wait s)
  else
    match s.tryWrite w with
    | (some work, s1) => (work, s1)
    | (none, s1) => ([wRoom w.line], wait s1)

/-- Write one line for a command. -/
def State.writeNow (s : State) (line : Nat) (data : Line) (poison : Bool) (master cmd : Nat) : List Nat × State :=
  s.writeWait (s.waitLine line data poison master cmd false)

/-- Why a line of a command that has waited is not applied after all: never one that a poison command makes poison (R257, R364). -/
def State.waitFate (s : State) (w : WaitLine) : WriteFate := if w.alone && w.poison then .apply else s.fateUnder w.line w.key

/-- A command's line has its room, and leaves `work`; it completes when that was all it waited for. -/
def State.lineGoes (s : State) (w : WaitLine) (work : List Nat) : State :=
  let s1 : State := { s with cmds := tmod s.cmds w.cmd fun c => { c with work := (c.work.erase (wRoom w.line)) ++ work } }
  match tget s1.cmds w.cmd with
  | some c => if c.running && c.work.isEmpty then s1.finish w.cmd c.status c.done c.extra c.output else s1
  | none => s1

/-- Try again the first line of a command that waits: its command then waits for what is left of it. -/
def State.retryLine (s : State) : State :=
  match s.tlc.waits with
  | [] => s
  | w :: rest =>
    let s1 : State := { s with tlc := { s.tlc with waits := rest } }
    match s1.waitFate w with
    | .apply =>
      match s1.tryWrite w with
      | (some work, s2) => s2.lineGoes w work
      | (none, s2) => { s2 with tlc := { s2.tlc with waits := w :: s2.tlc.waits } }
    | f => let (ld, dpa) := (s.ldOf w.line).getD (0xFFFF, w.line * 64)
      (s1.notApplied f ld dpa w.line).lineGoes w []

/-- The order of requests that wait (R71, R72): deadline, class, LD, sequence number. -/
def dlBefore (a b : Nat × DlEntry) : Bool :=
  let cls := fun (e : DlEntry) => if e.kind = .read then 0 else 1
  edfBefore (a.2.deadline.getD 0) (cls a.2) a.2.ld a.1 (b.2.deadline.getD 0) (cls b.2) b.2.ld b.1

/-- The requests that hold a credit of translation and wait there, in the order in which they go on (R27, R71). -/
def State.waitingReqs (s : State) : List Nat :=
  ((sortBy dlBefore (s.adm.dl.filter fun e => e.2.stuck)).take 1024).map Prod.fst

/-- What waits for room goes on, as far as there is room now: mirrored lines, requests in translation, lines of commands, recomputes,
stripe operations and rebuilds (R25, R28, R47, R134, R186). After the freeze of a bind-off no medium work starts (R210, R212). -/
def State.retryStuck (s : State) : State :=
  let s1 := (s.mirrorFill 0).mirrorFill 1
  let s2 := s1.waitingReqs.foldl (fun s q =>
    match tget s.adm.dl q with
    | none => s
    | some e =>
      let s1 := { s with adm := { s.adm with dl := tput s.adm.dl q { e with stuck := false } } }
      if e.merged then s1.routeHeld q e fun s => s.routeFull q e e.data else s1.routeReq q) s1
  let s3 := (List.range s2.tlc.waits.length).foldl (fun s _ => s.retryLine) s2
  let s4 := if s3.hanks.suspect.isEmpty || s3.energy.drained then s3 else s3.recomputePump
  if s4.adm.ops.isEmpty || s4.energy.drained then s4 else (s4.stripePump.rebuildPump).senseStart

/-! ### Bytes of structures -/

def bytesOf (l : List Nat) : List Byte := l.map (BitVec.ofNat 8)
def le (n v : Nat) : List Byte := bytesOf (leBytes n v)
def lineBytes (d : Line) : List Byte := le 64 d.toNat
def lineOfBytes (b : List Byte) : Line := BitVec.ofNat 512 (ofBytes b)
/-- A number of `n` bytes, big-endian (SEC 1). -/
def be (n v : Nat) : List Byte := (le n v).reverse
def ofBe (b : List Byte) : Nat := ofBytes b.reverse

/-! ### Ledger records (R295) -/

/-- Bytes 0 to 159 of a ledger record (Table 9-6). -/
def recordBody (r : LedgerRec) : List Byte :=
  le 2 r.kind ++ le 2 r.ld ++ le 2 r.keyidx ++ le 2 r.flags ++ le 8 r.seq ++ le 4 r.first ++ le 4 r.count ++ le 8 r.devtime ++
    le 8 r.walltime ++ le 8 r.serial ++ le 8 r.label ++ le 8 r.ref ++ be 48 r.extentHash.toNat ++ be 48 r.prevHash.toNat

/-- A whole record, and its record hash. -/
def recordBytes (r : LedgerRec) : List Byte := recordBody r ++ be 96 r.sig.toNat
def recordHash (r : LedgerRec) : BitVec 384 := Config.sha384 (recordBytes r)

/-- What a ledger signature covers: the ASCII "EM6T-SEAL-RECORD" and bytes 0 to 159. -/
def sealMessage (r : LedgerRec) : List Byte :=
  bytesOf [0x45, 0x4D, 0x36, 0x54, 0x2D, 0x53, 0x45, 0x41, 0x4C, 0x2D, 0x52, 0x45, 0x43, 0x4F, 0x52, 0x44] ++ recordBody r

end Sys2Proof.Machine
end

