-- ==== Sys2Proof/Machine/Admission.lean ====
section
/-! DEFINITION. Admission (chapter 2): credits and their guards, row boundaries, shares, DevLoad, reservations. -/

namespace Sys2Proof.Machine

/-! ### Accepting requests (R21, R25, R49) -/

/-- Whether the host path runs: service, or a bind-off that still drains accepted requests (R76, R209). -/
def State.pathOn (s : State) : Bool := s.power == .on || (s.power == .bindoff && !s.energy.drained)

/-- Whether a request of an LD can arrive: the link carries CXL.mem, a credit of its kind is out, and the deadline table has room. -/
def State.canTake (s : State) (rwd : Bool) (ld : Nat) : Bool :=
  s.memLink && s.pathOn && decide (ld < 16) && decide (s.adm.dl.length < 8192) &&
    (if rwd then !s.adm.covers.isEmpty else decide (0 < s.adm.reqOut))

def execMemRd (ld hpa : Nat) (s : State) : Res :=
  nextState (if s.canTake false ld then s.accept .read ld hpa 0 0 else s)

def execMemWr (ld hpa : Nat) (data : Line) (s : State) : Res :=
  nextState (if s.canTake true ld then s.accept .write ld hpa data (BitVec.allOnes 64) else s)

def execMemWrPtl (ld hpa : Nat) (data : Line) (mask : BitVec 64) (s : State) : Res :=
  nextState (if s.canTake true ld then s.accept .part ld hpa data mask else s)

/-! ### Guards (Table 2-6) -/

/-- Unrouted requests: credits out, and accepted requests not yet routed (R60, R52). -/
def State.unrouted (s : State) : Nat :=
  s.adm.reqOut + s.adm.covers.length + (s.adm.dl.filter fun e => !e.2.routed).length

/-- Unrouted writes. -/
def State.unroutedW (s : State) : Nat :=
  s.adm.covers.length + (s.adm.dl.filter fun e => !e.2.routed && e.2.kind != .read).length

/-- The effective scale asked for: the least of the three (R74). -/
def State.scaleNow (s : State) : Nat :=
  min (s.fget Reg.ADM_THROTTLE Fld.ADM_THROTTLE_THERM_SCALE)
    (min (s.fget Reg.ADM_THROTTLE Fld.ADM_THROTTLE_PWR_SCALE) (s.fget Reg.ADM_THROTTLE Fld.ADM_THROTTLE_HOST_SCALE))

def State.scale (s : State) : Nat := s.fget Reg.ADM_THROTTLE Fld.ADM_THROTTLE_SCALE
def State.tokens (s : State) : Nat := s.fget Reg.ADM_CTL Fld.ADM_CTL_TOKENS

/-- Read slots of the row plan in force on a channel, and those of the next row: of a plan set since the row began, else of the plan in force
(R94). -/
def State.slotsNow (s : State) (ch : Nat) : Nat := ((List.range 12).filter fun k => s.fbit (Reg.MCH_ROWPLAN ch) Fld.MCH_ROWPLAN_READ_MASK k).length
def State.readSlots (s : State) (ch : Nat) : Nat := (tget s.med.plan ch).getD (s.slotsNow ch)

/-- Counter nodes that an operation still fetches; the channel of a node's copy is not told apart, so it counts on every channel. -/
def Op.fetches (o : Op) : Nat :=
  match o.kind with
  | .read r => r.nodes.length
  | .stripe r => r.nodes.length

/-- Reads queued on a channel without a slot: line reads, those of rebuilds and of old pages among them, the reads of a rebuild that waits
to issue them, and counter node fetches (R60, R268). -/
def State.queuedReads (s : State) (ch : Nat) : Nat :=
  (s.adm.ops.map fun e => e.2.fetches + (match e.2.kind with
    | .read r =>
      if r.atPart || r.stage == .latched then (if chanOf r.phn r.s r.d = ch then 1 else 0)
      else if r.stage == .rebuild && r.need == 17 && ch / 17 == phnGrp r.phn && chanOf r.phn r.s r.d != ch then 1 else 0
    | _ => 0)).sum

/-- CHAN: each unrouted request, the new one included, may read on the channel with the least room its data line or, fetched from the other
group, three counter nodes (R60, R263, R268; log 15). -/
def State.chanOk (s : State) : Bool :=
  (List.range 34).all fun ch => decide (s.queuedReads ch + 3 * (s.unrouted + 1) ≤ s.readSlots ch)

/-- CRYPTO: every engine that runs has room for the unrouted requests and the new one. -/
def State.cryptoOk (s : State) : Bool :=
  (s.engineOn 0 || s.engineOn 1) &&
    ([0, 1] : List Nat).all fun n => !(s.engineOn n) || decide (s.engineLoad n + s.unrouted + 1 ≤ 128)

/-- POOL: free pool credits exceed the unrouted writes, and the directory's overflow area has room (R186). -/
def State.poolOk (s : State) : Bool := decide (s.unroutedW < s.poolFree) && decide (s.dirOverflow < 64)

/-- Unrouted writes that no pool credit covers. -/
def State.uncovered (s : State) : Nat :=
  (s.adm.covers.filter fun c => !c).length + (s.adm.dl.filter fun e => !e.2.routed && e.2.kind != .read && !e.2.cover).length

/-- WT: a free page entry for every write that POOL does not cover, the new one included, and CHAN passes for their page reads: each of
those writes reads the eight lines of its old page on the channel, where other requests count as in CHAN (R60; DEDUCED, log 15). A partial write's
old line is read before its page reads are queued, and CHAN has counted it. -/
def State.wtOk (s : State) : Bool :=
  decide (s.uncovered < s.mbFree) &&
    (List.range 34).all fun ch => decide (s.queuedReads ch + 3 * (s.unrouted - s.uncovered) + 8 * (s.uncovered + 1) ≤ s.readSlots ch)

/-- MIRROR on link `k`: its free mirror-out credits cover the lines that wait for one, the unrouted writes and the new one (R317). -/
def State.mirrorOk (s : State) (k : Nat) : Bool :=
  decide ((s.link k).mirrorWait.length + s.unroutedW + 1 ≤ s.mirrorFree k)

/-- A line that still needs medium work (R474): its place and its write-back deadline. -/
structure DurLine where
  phn : Nat
  s : Nat
  d : Nat
  due : Nat
  deriving DecidableEq, Repr

/-- The dirty pool lines and merge buffer lines; a merge buffer line has the write-back deadline that R59 would give its write (log 63). -/
def State.durLines (s : State) : List DurLine :=
  (s.tlc.pool.map fun e => ({ phn := (s.hostEntry (lhnOf e.1)).phn, s := stripeOf e.1, d := pageOf e.1, due := e.2.due } : DurLine)) ++
    s.tlc.mb.flatMap fun e => e.2.lines.map fun l => ({ phn := e.2.phn, s := e.2.s, d := e.2.d, due := l.2.accept + 3900000 } : DurLine)

/-- The rows of R474 from the present row to the row that holds `d` − 100,000. -/
def State.durRows (s : State) (d : Nat) : Nat :=
  if d < 100000 + s.clk.now / 40 * 40 then 0 else (d - 100000) / 40 - s.clk.now / 40 + 1

/-- The pages of a node's line and of its parity line in one copy of the tree (R263, R264): hank, stripe and page. -/
def State.nodePages (s : State) (copyB : Bool) (lvl idx : Nat) : List (Nat × Nat × Nat) :=
  let phn := (s.sysEntry (nodeHank copyB lvl idx)).phn
  let i := idx % 16384
  [(phn, stripeOf i, pageOf i), (phn, stripeOf i, 16)]

/-- Programs queued for refresh, migration, rebuild, the counter path and other work that is not a write-back or write-through, by channel, die
and the write slots they still take (R97, R474): the programs in the queue, the pages queued for refresh, the page that a die rebuild programs
next, the pages of the stripe that a migration copies next, and the pages of the dirty counter nodes, where they lie. -/
def State.otherWork (s : State) : List (Nat × Nat × Nat) :=
  let page := fun (p : Nat × Nat × Nat) (n : Nat) => let c := chanOf p.1 p.2.1 p.2.2; (c, s.pgmDie c (phnAdie p.1), n)
  (s.med.progs.filter fun e => match e.2.op with
    | some id => (match s.stripeOp id with | some (_, r) => !r.kind.writes | none => true)
    | none => true).map (fun e => (e.2.ch, e.2.die, e.2.toMove)) ++
  s.med.refreshQ.map (fun q => page (q.1, q.2.1, q.2.2.1) 8) ++
  (((List.range 34).filter fun ch => s.fget (Reg.MCH_STATE ch) Fld.MCH_STATE_REBUILD == 1).map fun ch =>
    (ch, s.fget (Reg.MCH_REBUILD ch) Fld.MCH_REBUILD_TARGET, 8)) ++
  ((s.hanks.migs.filter fun g => g.2.state == .copying).flatMap fun g => match s.copyNext g.2 with
    | some st => (List.range 17).map fun d => page (g.2.dst, st, d) 8
    | none => []) ++
  (s.dirtyNodes.flatMap fun e => ([false, true] : List Bool).flatMap fun b => (s.nodePages b (e.1 / 2 ^ 32) (e.1 % 2 ^ 32)).map fun p => page p 1)

/-- DUR (R474): on every active die and every channel the counted work, with that of the unrouted writes and the new one, fits. -/
def State.durOk (s : State) : Bool :=
  let ls := s.durLines
  let w := s.unroutedW + 1
  let other := s.otherWork
  (List.range 34).all fun ch =>
    let hits := ls.flatMap fun l =>
      (if chanOf l.phn l.s l.d == ch then [(l, l.d)] else []) ++ (if chanOf l.phn l.s 16 == ch then [(l, 16)] else [])
    hits.isEmpty ||
      (let due := hits.foldl (fun a x => min a x.1.due) (2 ^ 64)
       let full := fun (l : DurLine) => decide ((ls.filter fun x => x.phn == l.phn && x.s == l.s).length = 128)
       let slots := hits.foldl (fun a x => a + if full x.1 && x.2 == 16 then 0 else 1) 0 +
         8 * ((hits.filter fun x => x.2 == 16 && full x.1).map fun x => (x.1.phn, x.1.s)).eraseDups.length
       let room := s.durRows due * (12 - s.slotsNow ch) * s.scale / 100
       decide (slots + 2 * w + ((other.filter fun x => x.1 == ch).map fun x => x.2.2).sum ≤ room)) &&
      ((List.range 8).all fun a =>
        let mine := hits.filter fun x => phnAdie x.1.phn == a
        mine.isEmpty ||
          (let due := mine.foldl (fun b x => min b x.1.due) (2 ^ 64)
           let pages := (mine.map fun x => (x.1.phn, x.1.s, x.2)).eraseDups.length
           let room := s.durRows due * 3 * s.scale / 1600
           decide (pages + w + (other.filter fun x => x.1 == ch && x.2.1 == s.pgmDie ch a).length ≤ room)))

/-- A region waits to enter SYNCING: WT covers no RwD credit until then (R473). -/
def State.syncWaits (s : State) : Bool :=
  [s.linkA, s.linkB].any fun l => match l.sync with | some y => y.step == 0 | none => false

/-- The guards that a credit of a kind fails, as bits of ADM_STATUS (Tables 2-6, 2-13). While the directory's overflow area is full POOL fails
whatever WT finds (R186). -/
def State.guardFails (s : State) (rwd : Bool) : Nat :=
  let bit := fun (b : Nat) (fails : Bool) => if fails then 2 ^ b else 0
  let two := s.anyMirrored
  let base := bit 5 (decide (8192 - s.adm.dl.length ≤ s.unrouted)) +
    bit 4 (decide (s.tokens * s.scale < (s.adm.issued + (if rwd then 2 else 1)) * 100)) + bit 6 (!s.chanOk) + bit 11 (!s.cryptoOk)
  if !rwd then base
  else
    let pool := s.poolOk
    let wt := s.wtOk && !two && !s.syncWaits
    base + bit 7 ((!pool && !wt) || decide (64 ≤ s.dirOverflow)) + bit 8 (!pool && !wt && !two) +
      bit 9 (two && !(s.mirrorOk 0)) + bit 10 (two && !(s.mirrorOk 1)) + bit 12 (!s.durOk)

/-- Whether credit of a kind may be given at all: the link carries CXL.mem, the thermal level is not critical (R76), the IDE stream is
keyed after a failure (R277), no Sanitize or Secure Erase runs (R368), and for writes the replay was complete at the last row boundary (R234). -/
def State.creditRuns (s : State) (rwd : Bool) : Bool :=
  s.memLink && s.power == .on && !s.adm.critical && !s.crypto.ideMemFailed && s.cxl.sanitizing == 0 && (!rwd || s.adm.rwdOn)

/-- The LD a kind's next returned credit was consumed by: the first credit owed whose LD is not held (R62, R64). -/
def State.owedIdx (s : State) (rwd : Bool) : Option Nat :=
  s.adm.owed.findIdx? fun o => o.rwd == rwd && !(s.adm.held.getD o.ld false)

/-- Issue a credit (R60–R62): every guard passes, and a credit owed for an LD that is not held goes back, or, with none owed of the
kind, a new one goes out. A withheld credit records the guards that stopped it. -/
def execCreditIssue (rwd : Bool) (s : State) : Res :=
  if !(s.creditRuns rwd) then nextState s
  else
    let bad := s.guardFails rwd
    if bad ≠ 0 then nextState { s with adm := { s.adm with withheld := s.adm.withheld ||| bad } }
    else
      let idx := s.owedIdx rwd
      if idx.isNone && s.adm.owed.any (fun o => o.rwd == rwd) then nextState s
      else
        let owed := match idx with | some i => s.adm.owed.eraseIdx i | none => s.adm.owed
        let cover := s.poolOk
        nextState (State.out { s with adm := { s.adm with
          owed := owed
          reqOut := if rwd then s.adm.reqOut else s.adm.reqOut + 1
          covers := if rwd then s.adm.covers ++ [cover] else s.adm.covers
          issued := s.adm.issued + (if rwd then 2 else 1) } } (.credit rwd))

/-! ### Row boundaries (R63–R67, R74–R78, R89, R91, R94) -/

def shareOf (w : W64) : Nat := w.toNat % 8192
def lendOf (w : W64) : Bool := w.toNat / 65536 % 2 == 1
def limitOf (w : W64) : Nat := w.toNat / 2 ^ 32 % 8192

/-- Whether a stripe operation of some kind runs. -/
def State.opRuns (s : State) (p : SKind → Bool) : Bool := s.adm.ops.any fun e => match e.2.kind with | .stripe r => p r.kind | _ => false

/-- Whether a party has pending work (R65). The scrubber does its lines as their time comes, so that it has some pending only while it is
held. -/
def State.hasWork (s : State) (p : Nat) : Bool :=
  if p < 16 then s.adm.dl.any fun e => e.2.ld == p
  else if p = 17 then decide (0 < s.migActive) || !s.hanks.work.isEmpty || (List.range 34).any s.rebuilds ||
    [s.linkA, s.linkB].any fun l => match l.sync with | some y => !y.left.isEmpty | none => false
  else if p = 18 then !s.med.refreshQ.isEmpty || !s.med.swatchDue.isEmpty || s.opRuns fun k => k == .refresh
  else if p = 19 then s.opRuns fun k => k.writes || k == .recompute
  else if p = 21 then !(s.dirtyNodes).isEmpty
  else if p = 22 then !s.seals.jobs.isEmpty || !s.seals.verify.isEmpty
  else if p = 20 then [s.linkA, s.linkB].any fun l => l.tx.any fun x => match x.body with | .mirrorAck _ => true | _ => false
  else if p = 16 then (s.fget Reg.WME_SCRUB_CTL Fld.WME_SCRUB_CTL_EN == 1 && s.ready rWMEM && s.adm.held.getD 16 false) || s.cxl.scan.isSome
  else s.energy.test.isSome || s.cmds.any fun e => e.2.running && e.2.pkt.opcode == 0x0D02

/-- An allotment in 1/16 tokens: TOKENS × scale × SHARE / 4,096, rounded down. -/
def allotOf (tokens scale share : Nat) : Nat := tokens * scale * share * 16 / (100 * 4096)

/-- The lendable tokens of the row that ends, in 1/16 tokens (R65): the unused allotments of parties without pending work and the share
not assigned, by the words and the scale of that row. -/
def State.lendable (s : State) : Nat :=
  let ws := (List.range 24).map s.resvNow
  let allot := fun (p : Nat) => allotOf s.tokens s.adm.rowScale (shareOf (ws.getD p 0))
  (List.range 24).foldl (fun a p => if s.hasWork p then a else a + (allot p - 16 * s.adm.charged.getD p 0))
    (allotOf s.tokens s.adm.rowScale (4096 - (ws.map shareOf).sum))

/-- The new balances, held flags and reservation words of a row (R64 to R68). DESIGN CHOICE (log 57): what a taker is lent is rounded down
to 1/16 token, and the remainder of the division is lost. -/
def State.newShares (s : State) (loaded : Bool) (scale : Nat) : List W64 × List Int × List Bool :=
  let ws := (List.range 24).map fun p => s.reg (resvReg p)
  let allot := ws.map fun w => allotOf s.tokens scale (shareOf w)
  let idle := s.lendable
  let takers := (List.range 24).filter fun p => s.hasWork p && lendOf (ws.getD p 0)
  let weight := (takers.map fun p => shareOf (ws.getD p 0)).sum
  let lends := !loaded || s.fget Reg.ADM_CTL Fld.ADM_CTL_LEND_EN == 1
  let bal := (List.range 24).map fun p =>
    let a : Int := allot.getD p 0
    let lent : Int := if lends && takers.contains p && weight ≠ 0 then (idle * shareOf (ws.getD p 0) / weight : Nat) else 0
    max (-2 * a) (min a (s.adm.bal.getD p 0 + a + lent))
  let held := (List.range 24).map fun p =>
    (loaded && decide (bal.getD p 0 < 0) && p != 18 && p != 19 && p != 21) ||
      (decide (p < 16) && limitOf (ws.getD p 0) != 0 &&
        decide (s.tokens * limitOf (ws.getD p 0) < s.adm.charged.getD p 0 * 4096))
  (ws, bal, held)

/-- READ_MASK of a plan (Table 3-2). -/
def readMask (slots : Nat) : Nat :=
  if slots = 6 then 0x555 else if slots = 7 then 0xD55 else if slots = 9 then 0x777 else 0x6DB

/-- Start the stitch that a program has due, when no sense runs in its partition. The first stitch gives the page its label (R103). -/
def State.tryStitch (s : State) (id : Nat) : State :=
  match tget s.med.progs id with
  | none => s
  | some p =>
    if !(s.stitchDue id p) || s.senseRuns p.ch p.die p.part then s
    else
      let first := p.start.isNone
      let p' := { p with
        start := some (p.start.getD s.clk.now), running := true
        lines := if first then p.lines.map fun l => (l.1, { l.2 with wep := s.label }) else p.lines }
      let s1 : State := { s with med := { s.med with
        progs := tput s.med.progs id p'
        stitched := tput s.med.stitched (partKey p.ch p.die p.part) (s.clk.now / 40)
        starts := if first then tput s.med.starts (9 * p.ch + p.die) (s.recentStarts p.ch p.die ++ [s.clk.now]) else s.med.starts } }
      let s2 := s1.countProg 0x0023 p
      if first then s2.countProg 0x0022 p else s2

/-- At a row boundary a due stitch starts, or is deferred by one row because a read waits, at most four times (R89). -/
def State.startStitch (s : State) (id : Nat) : State :=
  match tget s.med.progs id with
  | none => s
  | some p =>
    if s.stitchDue id p && !(s.readsAt p.ch p.die p.part).isEmpty && decide (p.deferrals < 4) then
      { s with med := { s.med with progs := tput s.med.progs id { p with deferrals := p.deferrals + 1 } } }
    else s.tryStitch id

/-- The stitches that may be deferred no more start once the senses before them have ended (R89). -/
def State.pressStitches (s : State) : State :=
  (tkeys s.med.progs fun p => decide (4 ≤ p.deferrals)).foldl (fun s id => s.tryStitch id) s

/-- Occupancy in % (Table 2-10's term, R77). DESIGN CHOICE (log 57): the scaled rate and the fractions are rounded down, and the tokens of the
row that ends are held against the rate at the scale of the row that begins. -/
def State.occNow (s : State) (scale : Nat) : Nat :=
  let rate := s.tokens * scale / 100
  let used := if rate = 0 then (if s.adm.issued = 0 then 0 else 100) else 100 * s.adm.issued / rate
  max (100 * s.adm.dl.length / 8192) used

/-- DevLoad values of the module and of an LD (Table 2-10). -/
def State.devModule (s : State) (scale : Nat) : Nat :=
  let occ := s.occNow scale
  let lvl := s.fget Reg.ADM_THROTTLE Fld.ADM_THROTTLE_THERM_LVL
  if s.fget Reg.ADM_DEVLOAD Fld.ADM_DEVLOAD_SEV_LO ≤ occ ∨ 2 ≤ lvl then 3
  else if s.fget Reg.ADM_DEVLOAD Fld.ADM_DEVLOAD_MOD_LO ≤ occ ∨ lvl = 1 ∨ s.fget Reg.ADM_THROTTLE Fld.ADM_THROTTLE_PWR_SCALE < 100 then 2
  else if s.fget Reg.ADM_DEVLOAD Fld.ADM_DEVLOAD_OPT_LO ≤ occ then 1
  else 0

def devLd (loaded limited neg : Bool) : Nat := if limited then 3 else if !loaded then 0 else if neg then 2 else 1

/-- Whether an LD is held by its LIMIT in the row that starts (R66). -/
def State.limited (s : State) (ws : List W64) (n : Nat) : Bool :=
  limitOf (ws.getD n 0) != 0 && decide (s.tokens * limitOf (ws.getD n 0) < s.adm.charged.getD n 0 * 4096)

/-- The registers that a row boundary samples. -/
def State.rowRegs (s : State) (loaded : Bool) (scale : Nat) (ws : List W64) (bal : List Int) : State :=
  let st := (s.fset Reg.ADM_STATUS Fld.ADM_STATUS_LOADED (if loaded then 1 else 0)).fset Reg.ADM_STATUS Fld.ADM_STATUS_THROTTLED
    (if scale < 100 then 1 else 0)
  let w := st.reg Reg.ADM_STATUS
  let guards : W64 := 0x1FF0
  let s1 := st.setReg Reg.ADM_STATUS ((w &&& ~~~guards) ||| (BitVec.ofNat 64 s.adm.withheld &&& guards))
  let s2 := s1.fset Reg.ADM_THROTTLE Fld.ADM_THROTTLE_SCALE scale
  let s3 := ((s2.fset Reg.ADM_OCC Fld.ADM_OCC_POOL_DIRTY s.poolUsed).fset Reg.ADM_OCC Fld.ADM_OCC_OPS s.opsUsed).fset
    Reg.ADM_OCC Fld.ADM_OCC_HOST s.adm.dl.length
  let s4 := s3.fset Reg.ADM_DEVLOAD Fld.ADM_DEVLOAD_MODULE (s.devModule scale)
  let lds := (List.range 16).foldl (fun a n => a + devLd loaded (s.limited ws n) (decide (bal.getD n 0 < 0)) * 4 ^ n) 0
  let s5 := s4.fset Reg.ADM_DEVLOAD Fld.ADM_DEVLOAD_LD_VAL lds
  (List.range 24).foldl (fun s p => s.fset (Reg.ADM_BAL p) Fld.ADM_BAL_BAL ((bal.getD p 0 % (2 ^ 32 : Int)).toNat)) s5

/-- PWR_LIMIT as watts, and its scale (Table 2-9). -/
def limitWatts (sel : Nat) : Nat := if sel = 0 then 40 else if sel = 1 then 55 else 70
def limitScale (sel : Nat) : Nat := if sel = 0 then 55 else if sel = 1 then 80 else 100

/-- The power limit applies from the row boundary (R75, R435). -/
def State.pwrScale (s : State) : State :=
  let sel := s.fget Reg.PWR_LIMIT Fld.PWR_LIMIT_SEL
  ((s.fset Reg.PWR_LIMIT Fld.PWR_LIMIT_WATTS (limitWatts sel)).fset Reg.PWR_LIMIT Fld.PWR_LIMIT_SCALE (limitScale sel)).fset
    Reg.ADM_THROTTLE Fld.ADM_THROTTLE_PWR_SCALE (limitScale sel)

/-- A row begins. -/
def State.rowBoundary (s : State) : State :=
  let s := s.pwrScale
  let loaded := decide (s.fget Reg.ADM_CTL Fld.ADM_CTL_LOAD_THR ≤ s.adm.dl.length) || s.adm.withheld != 0
  let scale := s.scaleNow
  let (ws, bal, held) := s.newShares loaded scale
  let s1 := s.rowRegs loaded scale ws bal
  let s2 := (if s.energy.drained then [] else s.med.plan).foldl (fun s e => s.fset (Reg.MCH_ROWPLAN e.1) Fld.MCH_ROWPLAN_READ_MASK (readMask e.2)) s1
  let s3 : State := { s2 with
    med := { s2.med with plan := [] }
    adm := { s2.adm with bal := bal, held := held, issued := 0, charged := List.replicate 24 0, withheld := 0,
                         rowAt := s.clk.now + 1, rwdOn := s.replayDone,
                         occs := (s.occNow scale :: s2.adm.occs).take 2500, inForce := ws, rowScale := scale } }
  let s4 := if s.energy.drained then s3 else s3.walks
  ((sortBy s4.progBefore s4.med.progs).foldl (fun s e => s.startStitch e.1) s4).retryStuck

def execRowBoundary (s : State) : Res :=
  nextState (if s.clk.now % 40 = 0 ∧ s.adm.rowAt ≠ s.clk.now + 1 ∧ (s.power = .on ∨ s.power = .bindoff) then s.rowBoundary else s)

/-! ### Reservations (R68–R70) -/

/-- Sum of the 24 SHARE values with one of them replaced. -/
def State.shareSum (s : State) (p share : Nat) : Nat :=
  ((List.range 24).map fun q => if q = p then share else shareOf (s.reg (resvReg q))).sum

/-- Write a reservation register: the software fields of the word, or nothing and RESV_REFUSED (R68). Answers whether it applied. -/
def State.resvPut (s : State) (p : Nat) (w : W64) : Bool × State :=
  let off := resvReg p
  let old := s.reg off
  let badWindow := (p = 19 ∨ p = 20 ∨ p = 21) ∧ w.toNat / 2 ^ 32 ≠ old.toNat / 2 ^ 32
  if 4096 < s.shareSum p (shareOf w) ∨ badWindow then (false, s.raise Reg.ADM_STATUS Fld.ADM_STATUS_RESV_REFUSED)
  else
    let mask : W64 := if p < 16 then 0x00001FFF00011FFF else 0xFFFFFFFF00011FFF
    (true, s.setReg off (w &&& mask))

/-- Apply one write of some bits of a reservation register, and note it. -/
def State.resvStep (s : State) (x : ResvWrite) : Bool × State :=
  let prev := s.reg (resvReg x.party)
  let (ok, s1) := s.resvPut x.party ((prev &&& ~~~x.mask) ||| (x.val &&& x.mask))
  (ok, { s1 with adm := { s1.adm with resvLog := s1.adm.resvLog ++ [{ x with prev := prev }] } })

/-- Write bits of a reservation register by a path (0 ring, 1 register, 2 FM API): of the writes of one tick to one register, those of an earlier
path go before it and those of a later path after it, each checked against the one before (R81). -/
def State.writeResv (s : State) (path p : Nat) (mask val : W64) : Bool × State :=
  let after := fun (y : ResvWrite) => y.party == p && decide (path < y.path)
  let x : ResvWrite := { path := path, party := p, mask := mask, val := val, prev := 0 }
  match s.adm.resvLog.filter after with
  | [] => s.resvStep x
  | y :: rest =>
    let s0 : State := { s.setReg (resvReg p) y.prev with adm := { s.adm with resvLog := s.adm.resvLog.filter fun z => !(after z) } }
    let (ok, s1) := s0.resvStep x
    (ok, (y :: rest).foldl (fun s z => (s.resvStep z).2) s1)

/-- ADM_RESV_WRITE: a register write of a reservation, checked under R68; it takes effect at the next row boundary, where the row's
reservations in force are read. -/
def execAdmResvWrite (internal : Bool) (n : Nat) (val : W64) (s : State) : Res :=
  let p := if internal then n % 8 + 16 else n % 16
  nextState (s.writeResv 1 p (BitVec.allOnes 64) val).2

end Sys2Proof.Machine
end

