-- ==== Sys2Proof/Machine/MediumPath.lean ====
section
/-! DEFINITION. The events of a medium access (chapters 2 to 4 and 8): slots, senses, rebuilds, decryption, counter fetches, write-backs,
stitches and the merge buffer. An event whose condition does not hold has not happened: its step leaves the state as it is
(assumption log 2). -/

namespace Sys2Proof.Machine

/-! ### Slots and senses (R83, R93–R101) -/

/-- Latched reads of a channel. -/
def State.latchedOn (s : State) (ch : Nat) : List (Nat × Op) :=
  s.adm.ops.filter fun e => match e.2.kind with | .read r => r.stage == .latched && chanOf r.phn r.s r.d == ch | _ => false

/-- Programs of a channel that still move lines. -/
def State.movingOn (s : State) (ch : Nat) : List (Nat × Program) := s.med.progs.filter fun e => e.2.ch == ch && e.2.toMove != 0

/-- A read's line has reached the controller: an old line goes to its stripe operation, a page line to its merge buffer entry, which is MERGED and
takes no more lines once it has both pages (R187), a line of a rebuild to the read it serves, others to a crypto engine. -/
def State.readArrives (s : State) (id : Nat) (o : Op) (r : ReadOp) : State :=
  let s1 := if r.onset.isSome && (match r.purpose with | .serve _ _ => false | _ => true) then s.closeFault (100000 + id) else s
  match r.purpose with
  | .old op => (s1.freeOp id).oldArrived op r.d r.j r.stored
  | .page n _ =>
    let s2 := s1.freeOp id
    s2.setMb (tmod s2.tlc.mb n fun e => { e with need := e.need - 1, state := if e.need ≤ 1 ∧ mbJoins e.state = true then .merged else e.state })
  | .part p => (s1.freeOp id).partDone p r.d (some r.stored)
  | .serve _ _ => s1.setRead id o { r with stage := .crypto, engine := s1.pickEngine }

/-- Whether a latched read may take a read slot, and whether it may take an idle write slot (R95). -/
def Purpose.takesRead : Purpose → Bool
  | .page _ counted => counted
  | _ => true
def Purpose.isPage : Purpose → Bool
  | .page _ _ => true
  | _ => false

/-- Whether a line goes to a crypto engine: it leaves the die against a credit of one (R27, R28). -/
def Purpose.isServe : Purpose → Bool
  | .serve _ _ => true
  | _ => false

/-- A slot transfers the latched read with the earliest deadline among those it may carry. -/
def State.moveRead (s : State) (ch : Nat) (p : Purpose → Bool) : State :=
  let can := (s.latchedOn ch).filter fun e => match e.2.kind with | .read r => p r.purpose && (!r.purpose.isServe || s.pickEngine != 2) | _ => false
  match leastBy (fun a b => opBefore a.2 b.2) can with
  | some (id, o) =>
    match o.kind with
    | .read r => (s.bytes (4 + ch / 17) 80).readArrives id o r
    | _ => s
  | none => s

/-- A slot carries the eligible line with the earliest deadline (R95): a read slot a line read whose sense has completed or a counted line of
a page read, a write slot a line bound for a page buffer or, with none waiting, a line of a page read. -/
def execTransferSlot (ch slot : Nat) (s : State) : Res :=
  nextState (
    if 34 ≤ ch ∨ 12 ≤ slot ∨ s.fget (Reg.MCH_STATE ch) Fld.MCH_STATE_ENGINE ≠ 1 then s
    else if s.fbit (Reg.MCH_ROWPLAN ch) Fld.MCH_ROWPLAN_READ_MASK slot then s.moveRead ch Purpose.takesRead
    else
      match leastBy s.progBefore (s.movingOn ch) with
      | some (id, p) =>
        State.bytes { s with med := { s.med with progs := tput s.med.progs id { p with toMove := p.toMove - 1 } } } (4 + ch / 17) 80
      | none => s.moveRead ch Purpose.isPage)

/-- A partition's sense or stitch has ended: what waits there starts, a stitch that may wait no more first (R89). -/
def State.partitionFree (s : State) : State := if s.adm.ops.isEmpty then s.pressStitches else s.pressStitches.senseStart

/-- A sense or valley sense decoded to a line: corrections count, heavy ones and valley senses queue the page for refresh (R101). -/
def State.decoded (s : State) (id : Nat) (o : Op) (r : ReadOp) (v : Stored) (n : Nat) (valley : Bool) : State :=
  let ch := chanOf r.phn r.s r.d
  let s1 := if 1 ≤ n then s.addCnt (Reg.MCH_CNT_CORR ch) else s
  let s2 := if 4 ≤ n ∨ valley then s1.queueRefresh r.phn r.s r.d else s1
  s2.setRead id o { r with stage := .latched, busy := false, stored := v }

/-- The LHN of a read for the counters' address filter: none for old parity lines and lines of no host hank. -/
def lhnFor (r : ReadOp) : Option Nat := if r.d = 16 ∨ noLine ≤ r.line then none else some (lhnOf r.line)

/-- Ones among the lowest `n` bits. -/
def onesIn (x : BitVec 640) (n : Nat) : Nat := ((List.range n).filter fun k => x.getLsbD k).length

/-- What the decoder makes of a stored line whose sense has the wrong bits `x` (R85): up to six wrong bits in bits 636:0 are corrected and seven
are detected; of more, what the code gives. A result that disagrees with MCHK counts as failed. Answers the line and the bits corrected. -/
def Stored.decode (v : Stored) (x : Sense) : Option (Stored × Nat) :=
  let k := onesIn x 637
  let m := Config.mchk v.core ^^^ x.extractLsb' 637 3
  if k ≤ 6 then (if x.extractLsb' 637 3 = 0 then some (v, k) else none)
  else if k = 7 then none
  else
    match Config.bchBeyond ((v.bits ^^^ x).extractLsb' 0 637) with
    | some (b, n) => if Config.mchk b = m then some (Stored.ofCore b, n) else none
    | none => none

/-- What the decoder makes of a read's sense; a line that INJECT_FAULT has corrupted beyond decode fails (Table 12-10). -/
def State.decodeOf (s : State) (r : ReadOp) (x : Sense) : Option (Stored × Nat) :=
  if s.isCorrupt r.phn r.s r.d r.j then none else (s.medGet r.phn r.s r.d r.j).decode x

def execSenseComplete (op : Nat) (x : Sense) (s : State) : Res :=
  nextState (match s.readOp op with
    | some (o, r) =>
      if r.stage = .queued ∧ r.busy = true then
        let s1 := s.count 0x0020 (chanOf r.phn r.s r.d) 1 o.cls o.master (lhnFor r)
        match s.decodeOf r x with
        | some (v, n) => (s1.decoded op o r v n false).partitionFree
        | none => (s1.setRead op o { r with stage := .valley, busy := false }).partitionFree
      else s
    | none => s)

/-! ### Serving and poisoning reads -/

/-- Free the MSHR of a finished read (R179). -/
def State.freeMshr (s : State) (line id : Nat) : State :=
  match tget s.tlc.mshr line with
  | some m =>
    if m.op = id then { s with tlc := { s.tlc with mshr := tdel s.tlc.mshr line } } else s
  | none => s

/-- The newest copy of a line above the medium, else what the medium gave. -/
def State.newest (s : State) (line : Nat) (d : Line) (poison : Bool) : Line × Bool :=
  match s.poolGet line with
  | some p => (p.data, p.poison)
  | none => match s.mbGet line with | some l => (l.data, l.poison) | none => (d, poison)

/-- A fill has brought a line into the cache in this tick (R191). -/
def State.noteFilled (s : State) (line : Nat) : State := { s with tlc := { s.tlc with filled := line :: s.tlc.filled } }

/-- End a read: its waiters take the line, the cache fills when no write came (R177), the operation and its MSHR are freed. -/
def State.readDone (s : State) (id : Nat) (r : ReadOp) (d : Line) (poison : Bool) (cause : Nat) : State :=
  match r.purpose with
  | .serve ws fill =>
    let wrote := match tget s.tlc.mshr r.line with | some m => m.wrote | none => true
    let s1 := if fill && !wrote && !poison then (s.cacheFill r.line d).noteFilled r.line else s
    let s2 := (s1.freeMshr r.line id).freeOp id
    let s3 := ws.foldl (fun s w => match w with
      | .host q => let (d', p') := s.newest r.line d poison; s.serveHost q d' p' cause
      | .cmd _ _ => s) s2
    if r.onset.isSome then s3.closeFault (100000 + id) else s3
  | _ => s

/-- The recompute of a suspect stripe that a read belongs to: the pages of the lines that do not decode join those it programs (R134). -/
def State.recomputeOf (s : State) (r : ReadOp) : Option (Nat × Op × StripeOp) :=
  match r.purpose with
  | .old id => (match s.stripeOp id with | some (o, q) => if q.kind = .recompute then some (id, o, q) else none | none => none)
  | _ => none

/-- A line whose stripe rebuild failed, or that no rebuild may serve: it and the other lines that did not decode are poisoned in place, their
stripe becomes suspect and is recomputed, and the media error is recorded (R100). -/
def State.lineFails (s : State) (r : ReadOp) (due by' : Nat) : State :=
  let ch := chanOf r.phn r.s r.d
  let pages := (r.d :: r.bad).filter fun d => decide (d < 16)
  let s1 := pages.foldl (fun s d => s.poisonLine r.phn r.s d r.j) s
  let s2 := match s1.recomputeOf r with
    | some (id, o, q) => s1.setStripe id o { q with pages := pages.foldl (fun a d => a ||| 2 ^ d) q.pages }
    | none => (s1.suspectStripe r.phn r.s (pages.foldl (fun a d => a ||| 2 ^ d) 0) due).recomputePump
  if r.d = 16 ∨ noLine ≤ r.line then s2 else s2.mediaEvent r.line ch (s.dieOf ch (phnAdie r.phn)) (phnPart r.phn) by'

/-- Whether a host read's line is zero by its leaf, so that what the medium gave does not matter (R127). -/
def State.zeroServed (s : State) (r : ReadOp) : Bool :=
  r.nodes.isEmpty && s.lineZero r.line && (match r.purpose with | .serve _ _ => true | _ => false)

/-- A read that ends unreadable: its line is poisoned in place; waiters take poison, or zeros when the leaf says so (R127); an operation goes
on with the poisoned line. -/
def State.readUnreadable (s : State) (id : Nat) (o : Op) (r : ReadOp) : State :=
  if s.zeroServed r then s.readDone id r 0 false 0
  else
    let s1 := s.lineFails r o.deadline 1
    match r.purpose with
    | .serve _ _ => if r.nodes.isEmpty then s1.readDone id r 0 true 2
        else s1.setRead id o { r with stage := .crypto, engine := s1.pickEngine, stored := { blankStored with poison := true } }
    | .part p => (s1.freeOp id).partDone p r.d none
    | _ => s1.readArrives id o { r with stored := s1.medGet r.phn r.s r.d r.j }

/-- Count a stripe rebuild of R99 on its channel, die and hank: from the 4th on a hank within a drift step, the hank is retired (R145). -/
def State.noteRescue (s : State) (o : Op) (r : ReadOp) : State :=
  let ch := chanOf r.phn r.s r.d
  let die := s.dieOf ch (phnAdie r.phn)
  let n := dget (fun _ => 0) s.med.hankRescue r.phn + 1
  let s1 := s.addCnt (Reg.MCH_CNT_RESCUE ch)
  let s2 : State := { s1 with med := { s1.med with
    hankRescue := tput s1.med.hankRescue r.phn n
    rescues := tput s1.med.rescues (9 * ch + die)
      ((s.clk.now :: dget (fun _ => []) s1.med.rescues (9 * ch + die)).filter fun t => decide (s.clk.now ≤ t + 100000000)) } }
  if n < 4 then s2 else s2.retirePhys r.phn o.deadline ch

/-- The reads of a rebuild have arrived (R86, R99, R100): the line is the XOR of the other 16, unless one of them did not decode or the stripe
is suspect. A rebuilt line's page is rewritten by a refresh program when the line had failed. `decoded`: the outcome as the event has it; an
event with another outcome than the lines give is not this rebuild's (log 2). -/
def execStripeRebuildComplete (op : Nat) (decoded : Bool) (s : State) : Res :=
  nextState (match s.readOp op with
    | some (o, r) =>
      if r.stage = .rebuild ∧ r.need = 0 ∧ (r.bad.isEmpty && !(s.isSuspect r.phn r.s)) = decoded then
        if decoded then
          let s1 := if r.onset.isSome then s.queueRefresh r.phn r.s r.d else s
          (s1.readArrives op o r).retryStuck
        else (s.readUnreadable op o r).retryStuck
      else s
    | none => s)

/-! ### Crypto engines (R245, R255, R272) -/

/-- An engine is declared failed: its items go to the other, as it has credits (R28, R255). With both failed, KEYS clears and its FAIL bit sets (R231). -/
def State.engineFail (s : State) (n : Nat) : State :=
  if s.engineState n = 2 then s
  else
    let s1 := (s.openFault (200000 + n)).fset Reg.KEY_STAT (engineField n) 2
    let s2 : State := { s1 with adm := { s1.adm with ops := s1.adm.ops.map fun e => match e.2.kind with
      | .read r => if r.stage = .crypto ∧ r.engine = n then (e.1, { e.2 with kind := .read { r with engine := 2 } }) else e
      | _ => e } }
    let s3 := s2.cryptoPump.event evFAULT 4 0xFFFF n [0xE0 + n]
    (if s.engineState (1 - n) = 2 then s3.setFail rKEYS else s3).closeFault (200000 + n)

/-- A line in a crypto engine ends: poison when its key has been cleared (R256), zero and lost lines by their leaf, poison, a verified tag, or the
course of R272. -/
def State.decrypt (s : State) (id : Nat) (r : ReadOp) (due : Nat) (engineOk : Bool) : State :=
  let ch := chanOf r.phn r.s r.d
  if !(s.keyLive r.key) then s.readDone id r 0 true 4
  else if s.lineZero r.line then s.readDone id r 0 false 0
  else if s.lineLost r.line then s.readDone id r 0 true 3
  else if r.stored.poison then s.readDone id r 0 true 2
  else if s.tagOk r.line r.key r.stored then
    let s1 := if engineOk then s else s.engineFail r.engine
    s1.readDone id r (s1.open' r.line r.key r.stored) false 0
  else
    let v := s.rebuilt r.phn r.s r.d r.j
    let s1 := s.addCnt (Reg.MCH_CNT_RESCUE ch)
    if s.tagOk r.line r.key v && !(s.isSuspect r.phn r.s) then
      ((s1.medPut r.phn r.s r.d r.j { v with wep := r.stored.wep }).queueRefresh r.phn r.s r.d).readDone id r (s.open' r.line r.key v) false 0
    else
      let (ld, dpa) := (s.ldOf r.line).getD (0xFFFF, r.line * 64)
      let s2 := (s1.setReg Reg.KEY_TAGFAIL (s1.reg Reg.KEY_TAGFAIL + 1)).event evTREE 1 ld dpa [r.key]
      (s2.lineFails { r with bad := [] } due 1).readDone id r 0 true 1

/-- Whether another line goes through an engine before a read's: engines serve the earliest deadline of those whose counters are there (R71). -/
def State.engineFirst (s : State) (id : Nat) (o : Op) (r : ReadOp) : Bool :=
  s.adm.ops.any fun e => e.1 != id && opBefore e.2 o && (match e.2.kind with
    | .read q => q.stage == .crypto && q.engine == r.engine && q.nodes.isEmpty
    | _ => false)

def execLineDecryptDone (op : Nat) (engineOk : Bool) (s : State) : Res :=
  nextState (match s.readOp op with
    | some (o, r) =>
      if r.stage = .crypto ∧ r.nodes = [] ∧ r.engine < 2 ∧ s.engineOn r.engine = true ∧ s.engineFirst op o r = false then
        ((s.count 0x0030 r.engine 1 o.cls o.master (lhnFor r)).decrypt op r o.deadline engineOk).cryptoPump
      else s
    | none => s)

/-! ### Counter nodes (R268–R271) -/

/-- Take one fetched node, the lowest last: verified, served from its other copy and repaired, or recreated. -/
def State.nodeArrives (s : State) (due : Nat) (lvl idx : Nat) (x : NodeRead) : State :=
  if (s.cached lvl idx).isSome then s
  else
    match x with
    | .good => s.placeNode lvl idx (s.node lvl idx)
    | .otherCopy =>
      let s1 := ((s.openFault (300000 + nodeKey lvl idx)).setReg Reg.KEY_REPAIR (s.reg Reg.KEY_REPAIR + 1)).placeNode lvl idx (s.node lvl idx)
      s1.closeFault (300000 + nodeKey lvl idx)
    | .lost => let s1 := s.recreate lvl idx due; s1.placeNode lvl idx (s1.node lvl idx)

/-- The fetched nodes of a read or of a stripe operation, given leaf first as they were asked for, are verified from the top. -/
def execCounterFetchDone (op : Nat) (nodes : List NodeRead) (s : State) : Res :=
  let run := fun (ns : List (Nat × Nat)) (due : Nat) =>
    (ns.zip nodes).reverse.foldl (fun s x => State.nodeArrives s due x.1.1 x.1.2 x.2) s
  nextState (match s.readOp op with
    | some (_, r) =>
      if r.nodes ≠ [] ∧ nodes.length = r.nodes.length then
        let s1 := run r.nodes (s.clk.now + 3900000)
        match s1.readOp op with | some (o, r1) => s1.setRead op o { r1 with nodes := [] } | none => s1
      else s
    | none =>
      match s.stripeOp op with
      | some (o, r) =>
        if r.nodes ≠ [] ∧ nodes.length = r.nodes.length then
          let s1 := run r.nodes o.deadline
          match s1.stripeOp op with
          | some (o1, r1) =>
            (s1.setStripe op o1 { r1 with nodes := [] }).stripeGo op
          | none => s1
        else s
      | none => s)

/-- A node's line and its parity line are programmed in both copies (R263, R264): the programs count for the hanks (R139). DESIGN CHOICE (log 85):
the programs of a node's copies stand within the one event that writes it. -/
def State.nodeHeat (s : State) (lvl idx : Nat) : State :=
  ([false, true] : List Bool).foldl (fun s b =>
    let phn := (s.sysEntry (nodeHank b lvl idx)).phn
    (s.heat phn).heat phn) s

/-- A dirty node is written to both copies; its parent's minor rises first (R264, R269). The node with the earliest deadline goes first (R71). Four
line reads and four page programs are charged to class 5 (R67). -/
def execCounterWriteBack (lvl idx : Nat) (s : State) : Res :=
  nextState (match s.cached lvl idx with
    | some c =>
      match c.due with
      | some due =>
        if s.crypto.cache.any fun e => match e.2.due with | some d => decide (d < due) | none => false then s else
        let s1 := s.raiseParent lvl idx due
        let s2 := ((s1.setNode lvl idx c.blk).charge 21 36).nodeHeat lvl idx
        let s3 : State := { s2 with cast := { s2.cast with ctrLeft := s2.cast.ctrLeft.filter (· != nodeKey lvl idx) } }
        ((s3.putCached lvl idx { c with due := none }).ccStat).retryStuck
      | none => s
    | none => s)

/-! ### Write-backs (R97, R133, R185) -/

/-- The class and LD of a dirty line's write-back: those of the host's write, else of internal work (R53, R72). -/
def PoolLine.order (p : PoolLine) : Nat × Nat := if p.master < 16 then (1, p.master) else (2, 16)

/-- Whether a migration of a hank holds its write-backs: from verify's end to the commit (Table 4-4). -/
def State.migHolds (s : State) (lhn : Nat) : Bool :=
  match s.migOf false lhn with | some (_, m) => m.state == .copied | none => false

/-- The dirty lines of a line's stripe that are not in flight. -/
def State.stripeMates (s : State) (line : Nat) : List (Nat × PoolLine) := s.tlc.pool.filter fun q => q.1 / 128 == line / 128 && q.2.op.isNone

/-- Whether the queues of the channels have credits for the old lines that the write-back of some lines of a stripe reads (R27, R133). -/
def State.mateRoom (s : State) (phn st : Nat) (lines : List Nat) : Bool :=
  decide (lines.length = 128) ||
    ((lines.map pageOf).eraseDups.all (fun d => s.chanRoom (chanOf phn st d) (lines.filter fun l => pageOf l == d).length) &&
      s.chanRoom (chanOf phn st 16) (lines.map lineOf).eraseDups.length)

/-- Whether the write-back of a dirty pool line can be issued: not once a bind-off has drained or while the module is BOUND (R210), nor while its
stripe has work or a merge buffer entry, its migration waits for the commit, its journal lane is full, the counter cache is all dirty (R269), or its
entries of the operation table and credits of the channels' queues are not free (R20, R27). -/
def State.wbMay (s : State) (line : Nat) (p : PoolLine) : Bool :=
  let lhn := lhnOf line
  let e := s.hostEntry lhn
  !(!s.pathOn || !(s.mateRoom e.phn (stripeOf line) ((s.stripeMates line).map Prod.fst)) || p.op.isSome || !(s.entryOk false lhn) || s.stripeBusy e.phn (stripeOf line) || s.migHolds lhn ||
    !(s.laneRoom e.phn (stripeOf line)) || !(s.opRoom (1 + 5 * (s.stripeMates line).length)) || decide (131072 ≤ (s.dirtyNodes).length) ||
    !(p.kind == .image || s.skeinReady (skeinOf lhn)) || s.tlc.mb.any fun m => m.2.phn == e.phn && m.2.s == stripeOf line)

/-- The replay's work left (R234): a line written back and verified leaves the list. -/
def State.replayWrote (s : State) (line : Nat) : State :=
  if s.cast.replayLeft.contains line then
    let l := s.cast.replayLeft.filter (· != line)
    State.fset { s with cast := { s.cast with replayLeft := l } } Reg.RDY_REPLAY Fld.RDY_REPLAY_LEFT l.length
  else s

/-- A line of a dead stripe that was still to be programmed is a write not applied (R150), and leaves the pool. -/
def State.deadLine (s : State) (line : Nat) : State :=
  let (ld, dpa) := (s.ldOf line).getD (0xFFFF, line * 64)
  let s1 := (s.areaLost (lhnOf line) (lhnOf line)).deadWrite ld dpa line
  ((s1.replayWrote line).poolDrop line).lineDurable line

/-- Issue the write-back of a dirty pool line, with every dirty line of its stripe not in flight (R133), each read from working memory and
checked (R163). A line that became dirty before its stripe died is a write not applied (DESIGN CHOICE, log 94). -/
def State.writeBack (s : State) (line : Nat) : State :=
  match s.poolGet line with
  | none => s
  | some p =>
    if !(s.wbMay line p) then s
    else if s.isDead (s.hostEntry (lhnOf line)).phn (stripeOf line) then s.deadLine line
    else
      let e := s.hostEntry (lhnOf line)
      let s := (s.stripeMates line).foldl (fun s q => s.wmRead (poolWma q.2.slot)) s
      let mine := s.stripeMates line
      let lines := mine.map fun q => ({ line := q.1, d := pageOf q.1, j := lineOf q.1, data := q.2.data, key := q.2.key, poison := q.2.poison } : SLine)
      let due := mine.foldl (fun a q => min a q.2.due) p.due
      let (id, s1) := s.stripeStart .writeBack e.phn (stripeOf line) lines due p.order.1 p.order.2 p.master
      { s1 with tlc := { s1.tlc with pool := s1.tlc.pool.map fun q =>
        if q.1 / 128 == line / 128 && q.2.op.isNone then (q.1, { q.2 with op := some id, again := false }) else q } }

/-- Whether a dirty line goes before another: by deadline, class, LD and arrival (R71, R72). -/
def poolBefore (a b : PoolLine) : Bool :=
  edfBefore a.due a.order.1 a.order.2 (a.accept % 2 ^ 32) b.due b.order.1 b.order.2 (b.accept % 2 ^ 32)

/-- A write-back falls due: of the lines that can be written back, the first in the order of R71 and R72 goes first. -/
def execWriteBack (line : Nat) (s : State) : Res :=
  nextState (match s.poolGet line with
    | none => s
    | some p => if s.tlc.pool.any fun q => poolBefore q.2 p && s.wbMay q.1 q.2 then s else s.writeBack line)

/-- A pool line's write-back has verified: the slot is freed, or the line stays dirty when it was written meanwhile (Table 1-9); a
cleaned line may go to the cache (R177). -/
def State.lineCleaned (s : State) (id : Nat) (x : SLine) : State :=
  match s.poolGet x.line with
  | none => s.lineDurable x.line
  | some p =>
    if p.op ≠ some id then s
    else
      let s0 := (s.histCount 4000000 (if p.master < 16 then p.master else 0) (s.clk.now - p.accept)).replayWrote x.line
      if p.again then
        State.lineDurable { s0 with tlc := { s0.tlc with pool := tput s0.tlc.pool x.line { p with op := none, again := false } } } x.line
      else
        let s1 := s0.poolDrop x.line
        let s2 := if (s.attrOf (lhnOf x.line)).2.1 = 0 ∧ p.poison = false then s1.cacheFill x.line p.data else s1
        s2.lineDurable x.line

/-- A stripe's journal entry clears when all its programs verified; a full stripe leaves it consistent whatever it was (R128, R134). -/
def State.stripeClean (s : State) (r : StripeOp) : State :=
  if r.failed ≠ [] then s else if r.full then s.dropRmw r.phn r.s else s.clearRmw r.phn r.s

/-- All programs of a write-back have ended: the lines of the pages that verified are clean (R185). -/
def State.writeBackEnds (s : State) (op : Nat) (r : StripeOp) : State :=
  let s1 := (r.lines.filter fun x => !(r.failed.contains x.d)).foldl (fun s x => s.lineCleaned op x) s
  (s1.stripeClean r).freeOp op

def execWriteBackDone (op : Nat) (s : State) : Res :=
  nextState (match s.stripeOp op with
    | some (_, r) => if r.kind = .writeBack ∧ r.started = true ∧ r.left = [] then (s.writeBackEnds op r).retryStuck else s
    | none => s)

/-! ### The merge buffer (R187, R188) -/

/-- Whether an entry that has its old pages may merge and program: its stripe is free, and there is room for its journal entry and its operations
(R20, R134). -/
def State.mbMay (s : State) (e : MbEntry) : Bool :=
  s.pathOn && e.state == .merged && e.op.isNone && e.need == 0 && !e.stuck && !(s.stripeBusy e.phn e.s) && s.laneRoom e.phn e.s && s.opRoom 4

/-- Whether an entry goes before another (R71, R72). -/
def mbBefore (a b : MbEntry) : Bool := edfBefore a.due a.rank a.ld 0 b.due b.rank b.ld 0

/-- Complete the writes of a merge buffer entry: host requests, and commands that wait for its lines; TLC_WT_COUNT counts them (Table 5-11). -/
def State.entryCompletes (s : State) (e : MbEntry) : State :=
  let seqs := e.lines.flatMap fun l => l.2.seqs
  let mine := fun (w : Nat) => e.lines.any fun l => w == wLine l.2.line
  let n := seqs.length + (s.cmds.map fun c => if c.2.running then (c.2.work.filter mine).length else 0).sum
  let s1 := s.completeAll seqs none false
  let s2 := (s1.setReg Reg.TLC_WT_COUNT (s1.reg Reg.TLC_WT_COUNT + BitVec.ofNat 64 n)).count 0x0012 0 n 1 18
    (e.lines.head?.map fun l => lhnOf l.2.line)
  s2.workDone mine

/-- An entry goes without being programmed: its writes complete, and the reads of its old pages are dropped. -/
def State.entryGone (s : State) (n : Nat) (e : MbEntry) : State :=
  let s1 := s.entryCompletes e
  (s1.setMb (tdel s1.tlc.mb n)).dropOps (tkeys s1.adm.ops fun o => match o.kind with
    | .read r => (match r.purpose with | .page k _ => k == n | _ => false)
    | _ => false)

/-- An entry of a dead stripe: its lines are writes not applied (R150). -/
def State.deadEntry (s : State) (n : Nat) (e : MbEntry) : State := (e.lines.foldl (fun s l => s.deadLine l.2.line) s).entryGone n e

/-- The lines of a stripe that has just died: those that the failed program carried, and those still to be written back or merged, are writes not
applied (R150; DESIGN CHOICE, log 94). -/
def State.deadLines (s : State) (p : Program) : State :=
  if !(s.isDead p.phn p.s) then s
  else
    let carried := match p.op.bind s.stripeOp with
      | some (_, r) => (r.lines.filter fun x => x.d == p.d).map (·.line)
      | none => []
    let here := fun (line : Nat) => (s.hostEntry (lhnOf line)).phn == p.phn && stripeOf line == p.s
    let dirty := (s.tlc.pool.filter fun q => q.2.op.isNone && here q.1).map Prod.fst
    let s1 := (carried ++ dirty.filter fun l => !(carried.contains l)).foldl (fun s l => s.deadLine l) s
    (s1.tlc.mb.filter fun e => e.2.op.isNone && e.2.phn == p.phn && e.2.s == p.s).foldl (fun s e => s.deadEntry e.1 e.2) s1

/-- The old-page reads of an entry have ended: it merges, encrypts and programs, its lines read from working memory and checked (R163, R187); of the
entries that can, the first in the order of R71 and R72. -/
def execMergeBufferReadsDone (entry : Nat) (s : State) : Res :=
  nextState (match tget s.tlc.mb entry with
    | some e =>
      if s.mbMay e = true ∧ (s.tlc.mb.any fun x => mbBefore x.2 e && s.mbMay x.2) = false then
        if s.isDead e.phn e.s then s.deadEntry entry e
        else
        let s := e.lines.foldl (fun s l => s.wmRead (mbWma entry l.1)) s
        let e := (tget s.tlc.mb entry).getD e
        let lines := e.lines.map fun l =>
          ({ line := l.2.line, d := e.d, j := l.1, data := l.2.data, key := l.2.key, poison := l.2.poison } : SLine)
        let (id, s2) := s.stripeStart (.through entry) e.phn e.s lines e.due e.rank e.ld 18
        s2.setMb (tmod s2.tlc.mb entry fun x => { x with op := some id })
      else s
    | none => s)

/-- A write-through entry's programs have verified: DONE (R25, R187); its page's shadow lines are due 800 ticks on (R188). -/
def State.throughDone (s : State) (n : Nat) : State :=
  match tget s.tlc.mb n with
  | none => s
  | some e =>
    let s1 := s.entryCompletes e
    let s2 := s1.setMb (tdel s1.tlc.mb n)
    { s2 with tlc := { s2.tlc with pool := s2.tlc.pool.map fun q =>
      if q.2.kind == .shadow && (s.hostEntry (lhnOf q.1)).phn == e.phn && stripeOf q.1 == e.s && pageOf q.1 == e.d then
        (q.1, { q.2 with due := s.clk.now + 800 }) else q } }

/-- The program of a write-through failed: its writes complete, and the entry holds its lines until the destination has them (R146); the
entry of a stripe that died is freed, its lines being writes not applied (R150). -/
def State.throughFailed (s : State) (n : Nat) : State :=
  match tget s.tlc.mb n with
  | none => s
  | some e =>
    let s1 := s.entryCompletes e
    if (tget s.hanks.dead (stripeKey e.phn e.s)).isSome then s1.setMb (tdel s1.tlc.mb n)
    else
    s1.setMb (tput s1.tlc.mb n { e with stuck := true, op := none, lines := e.lines.map fun l => (l.1, { l.2 with seqs := [] }) })

/-! ### Stitches (R88–R92, R136) -/

/-- All programs of a stripe operation have ended. Write-backs wait for their own event; the journal entry of a recompute clears with the
suspicion once all its programs verified, and a recompute with a failed program runs again (R100, R134); a copied stripe counts (R142), and so
does a page of a die rebuild (R119). -/
def State.stripeEnds (s : State) (id : Nat) (o : Op) (r : StripeOp) : State :=
  match r.kind with
  | .writeBack => s.setStripe id o r
  | .through n =>
    let s1 := (if r.failed = [] then (s.clearRmw r.phn r.s).throughDone n else s.throughFailed n)
    (s1.freeOp id).retryStuck
  | .recompute =>
    let again := match tget s.hanks.suspect (stripeKey r.phn r.s) with | some v => v / 2 ^ 17 % 2 == 1 | none => false
    let s1 := if r.failed ≠ [] then s.suspectStripe r.phn r.s r.pages o.deadline else if again then s else s.dropRmw r.phn r.s
    (s1.freeOp id).retryStuck
  | .refresh => (s.freeOp id).retryStuck
  | .rebuild ch =>
    (State.fset (s.freeOp id) (Reg.MCH_REBUILD ch) Fld.MCH_REBUILD_DONE (s.fget (Reg.MCH_REBUILD ch) Fld.MCH_REBUILD_DONE + 1)).retryStuck
  | .copy m => ((s.copyEnds m r).freeOp id).retryStuck

/-- A page has been programmed: the medium holds it, no staged copy serves it, and a refresh that is queued for it is dropped (R114, R123). -/
def State.pageDone (s : State) (p : Program) : State :=
  let s1 := (s.writePage p.phn p.s p.d p.lines).unstage p.phn p.s p.d
  { s1 with med := { s1.med with refreshQ := s1.med.refreshQ.filter fun q => !(q.1 == p.phn && q.2.1 == p.s && q.2.2.1 == p.d) } }

/-- The program of a die's swatch page has ended: the page holds its EPOCH and STEP (R107), or, failed, what its cells then hold, a free value. -/
def State.swatchDone (s : State) (p : Program) (epoch step : Nat) (ok : Bool) : State :=
  let k := 64 * (9 * p.ch + p.die) + epoch % 64
  let put := fun (s : State) (x : SwatchPage) => ({ s with med := { s.med with swatch := dput swatchReset s.med.swatch k (some x) } } : State)
  if ok then put s (swatchPage epoch step)
  else
    let (c, s1) := s.draw 64
    let (v, s2) := s1.draw 512
    put s2 { epoch := epoch, step := step, check := c, pattern := v }

/-- The old parity of a stripe operation, with which its parity page is programmed once more after a failure (R136). -/
def State.oldParity (s : State) (r : StripeOp) : Tbl Stored :=
  (List.range 8).map fun j => (j, { (tget r.olds (128 + j)).getD (s.medGet r.phn r.s 16 j) with role := true, wep := s.label })

/-- A stripe operation without one of its programs: its page has failed, unless the program only wrote a migration's destination beside the
operation's own (R143). -/
def StripeOp.without (r : StripeOp) (id : Nat) (p : Program) (ok : Bool) : StripeOp :=
  let own := match p.kind, r.kind with
    | .copy _, .copy _ => true
    | .copy _, _ => false
    | _, _ => true
  { r with left := r.left.filter (· != id), failed := if ok || !own then r.failed else r.failed ++ [p.d] }

/-- One program of a stripe operation has ended. When a data page failed and the parity page verified, the parity page is programmed once more with
the old parity (R136); where a data page has verified beside it, the old parity does not fit that one, and the stripe is suspect too (DEDUCED,
log 82). It is suspect as well when the parity page failed, or a page that the copier rewrites in its source. -/
def State.opProgEnds (s : State) (id op : Nat) (p : Program) (ok : Bool) : State :=
  match s.stripeOp op with
  | none => s
  | some (o, r0) =>
    let r := r0.without id p ok
    let copying := match r.kind with | .copy _ => true | _ => false
    let s1 := if !ok && (p.kind == .page) && (p.d = 16 || copying) && r.kind != .refresh then s.suspectStripe r.phn r.s 0 o.deadline else s
    if r.left ≠ [] then s1.setStripe op o r
    else if !r.kind.writes || r.failed = [] || r.failed.contains 16 || r.reparity then s1.stripeEnds op o r
    else
      let mixed := r.lines.any fun x => !(r.failed.contains x.d)
      let s2 := if mixed then s1.suspectStripe r.phn r.s 0 o.deadline else s1
      let (pid, s3) := (s2.charge 19 8).addProg r.phn r.s 16 (s2.oldParity r) 8 (some op) o.deadline
      s3.setStripe op o { r with left := [pid], reparity := true }

/-- A page program ends, verified or failed after its 8th stitch; one without a stitch was left to its parity (R120) and counts nowhere. -/
def State.progEnds (s : State) (id : Nat) (p : Program) (ok : Bool) : State :=
  let s1 : State := { s with med := { s.med with progs := tdel s.med.progs id } }
  let s2 := if p.stitches = 0 then s1 else s1.noteStitches p.ch p.die p.stitches
  let s3 := match p.kind with | .swatch _ _ => s2 | _ => if p.stitches = 0 then s2 else s2.heat p.phn
  let s4 := if ok then s3 else match p.kind with
    | .copy _ => s3.pgmFail p
    | .swatch _ _ => s3.pgmFail p
    | _ => (s3.pgmFail p).deadLines p
  let s5 := match p.kind with
    | .swatch e st => s4.swatchDone p e st ok
    | .rebuild => if ok then s4.writePage p.phn p.s p.d p.lines else s4
    | _ => if ok then s4.pageDone p else s4
  match p.op with
  | some op => s5.opProgEnds id op p ok
  | none => s5

/-- What a stitch pulses (R88): the first the cells to be 0, the second those to be 1, the others the cells that failed the verify before. -/
inductive Pulse where
  | reset | set | retry
  deriving DecidableEq, Repr

def pulseOf (stitch : Nat) : Pulse := if stitch = 1 then .reset else if stitch = 2 then .set else .retry

/-- A stitch's pulse and verify phases end (R88, R90): the first leaves the cells to be 1 unprogrammed, so that no verify ends the program
there. -/
def State.stitchEnds (s : State) (prog : Nat) (p : Program) (verified : Bool) : State :=
  let p1 := { p with stitches := p.stitches + 1, running := false }
  if verified && pulseOf p1.stitches != .reset then s.progEnds prog p1 true
  else if p1.stitches < 8 then { s with med := { s.med with progs := tput s.med.progs prog p1 } }
  else s.progEnds prog p1 false

end Sys2Proof.Machine
end

