-- ==== Sys2Proof/Machine/Hanks.lean ====
section
/-! DEFINITION. Maps, migrations, evacuation and discards (chapter 4): the commands of the hank map and of hanks. -/

namespace Sys2Proof.Machine

/-! ### Checkpoints and restores (R126, R130, R132) -/

/-- A checkpoint begins once 16,384 records have been appended since the last began (R130). -/
def execMapCheckpoint (s : State) : Res :=
  nextState (if s.hanks.mapsReady ∧ s.hanks.ckptRun = none ∧ 16384 ≤ s.fget Reg.TLC_JRNL Fld.TLC_JRNL_MAPJ then
    State.fset { s with hanks := { s.hanks with ckptRun := some s.hanks.seq } } Reg.TLC_JRNL Fld.TLC_JRNL_MAPJ 0
  else s)

/-- An image completes: its digest and its sequence number stand in ANCHOR, and journal records that no image needs go (R130, R132). Its 48
hanks are programmed under the migration class. -/
def execMapCheckpointDone (s : State) : Res :=
  nextState (match s.hanks.ckptRun with
    | none => s
    | some q =>
      let img : Image := { host := s.hanks.host, sys := s.hanks.sys, seq := q, done := true, digest := imageDigest s.hanks.host s.hanks.sys }
      let toB := s.hanks.imgA.done && s.fget Reg.TLC_CKPT Fld.TLC_CKPT_IMAGE == 0
      let h : Hanks := if toB then { s.hanks with imgB := img } else { s.hanks with imgA := img }
      let other := if toB then s.hanks.imgA else s.hanks.imgB
      let keep := fun (r : JRec) => jFrom q r.seq || (other.done && jFrom other.seq r.seq)
      let s1 : State := { s with hanks := { h with ckptRun := none, journal := h.journal.filter keep } }
      ((s1.charge 17 (48 * 17408)).fset Reg.TLC_CKPT Fld.TLC_CKPT_SEQ q).fset Reg.TLC_CKPT Fld.TLC_CKPT_IMAGE (if toB then 1 else 0)).retryStuck

/-- The entry that an image and the journal from its sequence number on give (R130). -/
def State.restoredFrom (s : State) (i : Option Image) (sys : Bool) (idx : Nat) : MapEntry :=
  let base := match i with
    | some i => if sys then dget shippedSys i.sys idx else dget shippedHost i.host idx
    | none => if sys then shippedSys idx else shippedHost idx
  let from' := match i with | some i => i.seq | none => 0
  (s.hanks.journal.filter fun r => r.sys == sys && r.idx == idx && jFrom from' r.seq).foldl (fun _ r => r.entry) base

/-- The entry as the newest checkpoint and the journal give it (R126). -/
def State.restored (s : State) (sys : Bool) (idx : Nat) : MapEntry := s.restoredFrom s.hanks.newestImage sys idx

def execMapEntryRestore (sys : Bool) (idx : Nat) (s : State) : Res :=
  nextState (if s.hanks.restore.contains (sys, idx) then
    let s1 : State := { s with hanks := { s.hanks with restore := s.hanks.restore.filter (· != (sys, idx)) } }
    (s1.putEntry sys idx (s.restored sys idx)).retryStuck
  else s)

/-! ### Migration (R140–R147) -/

/-- Map and index of hank `k` of the static sweep: the host hanks, then the system hanks (R140). -/
def sweepHank (k : Nat) : Bool × Nat := if k < hostHanks then (false, k) else (true, k - hostHanks)

/-- The static sweep's next hank: a static migration of it starts, and the sweep goes on to the next; where none can start, it stays
(R140). DESIGN CHOICE (log 92): a migration of the hank that runs already stands for the visit, which the spec does not say. -/
def execStaticSweepVisit (s : State) : Res :=
  nextState (if s.fget Reg.TLC_MIG_CTL Fld.TLC_MIG_CTL_STATIC_EN = 1 ∧ s.hanks.mapsReady then
    let (sys, idx) := sweepHank s.hanks.sweep
    let s1 := s.startMig sys idx .static (s.bgDeadline 1)
    if s1.hanks.nextMig = s.hanks.nextMig ∧ (s.migOf sys idx).isNone then s
    else { s1 with hanks := { s1.hanks with sweep := (s.hanks.sweep + 1) % (hostHanks + sysHanks) } }
  else s)

/-- Give a stripe parity that fits its data pages (R86). -/
def State.fixParity (s : State) (phn st : Nat) : State :=
  (List.range 8).foldl (fun s j =>
    let x := (List.range 16).foldl (fun a d => xorStored a (s.medGet phn st d j)) blankStored
    s.medPut phn st 16 j { x with role := true, wep := s.label }) s

/-- The copier has copied every stripe: verification begins (R142). -/
def execMigrationCopyDone (m : Nat) (s : State) : Res :=
  nextState (match tget s.hanks.migs m with
    | some g =>
      if g.state = .copying ∧ g.bitmap = BitVec.allOnes 128 then
        { s with hanks := { s.hanks with migs := tput s.hanks.migs m { g with state := .verifying } } }
      else s
    | none => s)

/-- The digest of a physical hank: SHA-384 over the CT and TAG of its data lines in line order (R142). -/
def State.hankDigest (s : State) (phn : Nat) : BitVec 384 :=
  Config.sha384Long (16384 * 71) fun n =>
    let v := s.medGet phn (stripeOf (n / 71)) (pageOf (n / 71)) (lineOf (n / 71))
    if n % 71 < 64 then v.ct.extractLsb' (8 * (n % 71)) 8 else v.tag.extractLsb' (8 * (n % 71 - 64)) 8

/-- Put the lines that wait on a retirement back to ordinary dirty lines. -/
def State.freeOrphans (s : State) (lhn : Nat) : State :=
  let os := (s.orphans lhn).map Prod.fst
  { s with tlc := { s.tlc with pool := s.tlc.pool.map fun q => if os.contains q.1 then (q.1, { q.2 with op := none }) else q } }

/-- A copy is discarded: its programs are given up, the destination is blanked and returned, or retired when one of its programs failed; the source stays bound, and a
retirement waits to start again (R142, R144, R145). -/
def State.migDiscard (s : State) (m : Nat) (g : Mig) : State :=
  let gone : State := { s with hanks := { s.hanks with migs := tdel s.hanks.migs m } }
  let reading := tkeys gone.adm.ops fun o => match o.kind with | .stripe r => r.kind == .copy m && !r.started | _ => false
  let s := (tkeys gone.med.progs fun p => p.kind == .copy g.src).foldl (fun s id => match tget s.med.progs id with
    | some p => s.progEnds id { p with stitches := 0 } true
    | none => s) (gone.dropOps reading)
  let s0 : State := { s with
    hanks := { s.hanks with
      failedAt := s.hanks.failedAt.filter fun k => k / 128 != g.dst
      rmw := s.hanks.rmw.filter fun e => e.1 / 128 != g.dst
      suspect := s.hanks.suspect.filter fun e => e.1 / 128 != g.dst
      retireQ := if g.kind = .retire then s.hanks.retireQ ++ [(g.sys, g.idx, g.due)] else s.hanks.retireQ } }
  let s1 := s0.releaseHank g.dst g.bad
  let e := s1.entry g.sys g.idx
  let s2 := if e.state = 2 then s1.setEntry g.sys g.idx { e with state := 1 } else s1
  if g.sys ∨ g.kind = .retire then s2 else s2.freeOrphans g.idx

/-- The stripes of a copy that do not match, as a mask: those the verification found, and those with a destination line that does not decode. -/
def State.mismatches (s : State) (g : Mig) (found : List Nat) : BitVec 128 :=
  (found ++ (s.med.corrupt.filter fun k => k / 17408 == g.dst).map fun k => k % 17408 / 136).foldl (fun b st => b ||| (1#128 <<< (st % 128))) 0

/-- Verification ends (R142): with no mismatch MIG_COPIED is written with the digest; a stripe that does not match is copied once more, and one that
does not match again, or a failed program of the copy, discards it, once the map journal has room (R130). `found`: the stripes that differ. -/
def execMigrationVerifyDone (m : Nat) (found : List Nat) (s : State) : Res :=
  nextState (match tget s.hanks.migs m with
    | some g =>
      let put := fun (g : Mig) => ({ s.charge 17 16384 with hanks := { s.hanks with migs := tput s.hanks.migs m g } } : State)
      let bad := s.mismatches g found
      if g.state ≠ .verifying then s
      else if bad = 0 ∧ g.bad = false then put { g with state := .copied, digest := s.hankDigest g.dst }
      else if g.bad = false ∧ bad &&& g.again = 0 then put { g with state := .copying, bitmap := g.bitmap &&& ~~~bad, again := g.again ||| bad }
      else if s.journalFull then s
      else (s.charge 17 16384).migDiscard m g
    | none => s)

/-- The lines that waited on a retirement are in the destination: the pool lines are clean, the merge buffer entries free (R146). -/
def State.orphansClean (s : State) (g : Mig) : State :=
  if g.sys then s
  else
    let s1 := (s.orphans g.idx).foldl (fun s q =>
      if q.2.again then { s with tlc := { s.tlc with pool := tput s.tlc.pool q.1 { q.2 with op := none, again := false } } }
      else ((s.replayWrote q.1).poolDrop q.1).lineDurable q.1) s
    s1.setMb (s1.tlc.mb.filter fun e => !(e.2.stuck && e.2.phn == g.src))

/-- Move per-stripe marks of a physical hank to another (dead stripes). -/
def moveMarks (t : Tbl Nat) (src dst : Nat) : Tbl Nat :=
  (t.filter fun e => e.1 / 128 == src).foldl (fun a e => tput a (dst * 128 + e.1 % 128) e.2) (t.filter fun e => e.1 / 128 != src)

/-- MIG_COMMITTED: the new entry, HEAT 0, is journalled and visible (R142). Nothing of the source stays staged, queued for refresh or marked in
the RMW journal. -/
def State.migCommit (s : State) (m : Nat) (g : Mig) : State :=
  let e := s.entry g.sys g.idx
  let s1 := (s.orphansClean g).unbindWear g.src e.heat
  let s2 := s1.setEntry g.sys g.idx { e with phn := g.dst, heat := 0, state := if e.state = 2 then 1 else e.state }
  { s2 with
    med := { s2.med with staged := s2.med.staged.filter fun e => e.1 / 17408 != g.src
                         refreshQ := s2.med.refreshQ.filter fun q => q.1 != g.src }
    hanks := { s2.hanks with
      migs := tput s2.hanks.migs m { g with state := .committed }
      dead := moveMarks s2.hanks.dead g.src g.dst
      failedAt := s2.hanks.failedAt.filter fun k => k / 128 != g.src
      rmw := s2.hanks.rmw.filter fun e => e.1 / 128 != g.src
      suspect := s2.hanks.suspect.filter fun e => e.1 / 128 != g.src } }

/-- Whether a stripe operation or a program is under way in a physical hank. -/
def State.hankBusy (s : State) (phn : Nat) : Bool :=
  s.med.progs.any (fun e => e.2.phn == phn) || s.adm.ops.any (fun e => match e.2.kind with | .stripe r => r.phn == phn | _ => false)

/-- A migration commits once nothing is programmed in its source any more and the map journal has room (R130, R142); one whose destination is
not to be used is discarded. -/
def execMigrationCommit (m : Nat) (s : State) : Res :=
  nextState (match tget s.hanks.migs m with
    | some g =>
      if g.state = .copied ∧ s.journalFull = false ∧ s.hankBusy g.src = false then
        if g.bad then s.migDiscard m g else (s.migCommit m g).retryStuck
      else s
    | none => s)

/-- The free hanks at a position. -/
def State.freeAt (s : State) (pos : Nat) : List Nat := keepFrom (fun k => s.isFree (pos * 2 ^ 19 + k)) (2 ^ 19) 0

/-- Migrations at a position that is set to degraded: a copy into it is discarded, once the map journal has room (R130), and a hank that moves out
of it is retired (R147). -/
def State.evacMigs (s : State) (pos : Nat) : State :=
  s.hanks.migs.foldl (fun s e =>
    let g := e.2
    if onPos g.dst pos && (g.state == .copying || g.state == .verifying || g.state == .copied) then
      if s.journalFull then { s with hanks := { s.hanks with migs := tput s.hanks.migs e.1 { g with bad := true } } } else s.migDiscard e.1 g
    else if onPos g.src pos && g.kind != .retire then { s with hanks := { s.hanks with migs := tput s.hanks.migs e.1 { g with kind := .evac } } }
    else s) s

/-- A position is set to degraded: its free hanks leave the pool, and its bound hanks are retired one after another (R147). -/
def State.evacuate (s : State) (pos : Nat) : State :=
  if s.hanks.evac.contains pos then s
  else
    let s0 := s.evacMigs pos
    let mine := s0.freeAt pos
    let free := mine.foldl (fun t k => dput shippedFree t (pos * 2 ^ 19 + k) false) s0.hanks.free
    let s1 : State := { s0 with hanks := { s0.hanks with free := free, evac := s0.hanks.evac ++ [pos] } }
    ((s1.fsetBit Reg.TLC_MIG_STAT Fld.TLC_MIG_STAT_EVAC pos true).freeStat (s0.freeCount - mine.length)).evacNext

/-- MIG_RELEASED: the source is blanked and freed, or marked retired (R142, R145). -/
def State.migRelease (s : State) (m : Nat) (g : Mig) : State :=
  let s1 := (s.charge 17 17408).releaseHank g.src (g.kind == .retire || g.kind == .evac)
  let s2 := { s1 with hanks := { s1.hanks with migs := tdel s1.hanks.migs m } }
  s2.setReg Reg.TLC_MIG_DONE (s2.reg Reg.TLC_MIG_DONE + 1)

def execMigrationRelease (m : Nat) (s : State) : Res :=
  nextState (match tget s.hanks.migs m with
    | some g => if g.state = .committed then (s.migRelease m g).retireNext.evacNext else s
    | none => s)

/-! ### Zeroing and discards (R152–R156) -/

/-- Zero every patch of a hank that still waits. -/
def State.zeroHank (s : State) (lhn : Nat) : State :=
  let done := dget (fun _ => []) s.hanks.zeroed lhn
  ((List.range 256).filter fun k => !(done.contains k)).foldl (fun s k => s.zeroPatch (lhn * 256 + k) (s.clk.now + 3900000)) s

/-- The operations that hold new lines of a hank and have not formed their programs, so that no counter has moved for them. -/
def State.gatheringOps (s : State) (lhn : Nat) : List Nat :=
  tkeys s.adm.ops fun o => match o.kind with | .stripe r => !r.started && r.lines.any fun x => lhnOf x.line == lhn | _ => false

/-- Drop a hank's pool lines and its cached lines (R180 and Discard), with the write-backs and merge buffer entries that have not formed their
programs; the writes that wait for those complete. What programs have been formed for is encrypted under the counters as they were, so that it
no longer counts once the patches are zeroed (R127). -/
def State.dropLines (s : State) (lhn : Nat) : State :=
  let ops := s.gatheringOps lhn
  let lines := (s.tlc.pool.filter fun q => lhnOf q.1 == lhn).map Prod.fst
  let mine := s.tlc.mb.filter fun e => (e.2.lines.any fun l => lhnOf l.2.line == lhn) && (match e.2.op with | none => true | some id => ops.contains id)
  let s1 := lines.foldl (fun s l => ((s.replayWrote l).poolDrop l).lineDurable l) (s.dropOps ops)
  (mine.foldl (fun s e => s.entryGone e.1 e.2) s1).cacheDropHank lhn

/-- Begin work on a hank: its patches wait to be zeroed from here on. -/
def State.beginWork (s : State) (lhn : Nat) (w : HankWork) : State :=
  { s with hanks := { s.hanks with work := tput s.hanks.work lhn w, zeroed := tput s.hanks.zeroed lhn [] } }

/-- End work on a hank. -/
def State.endWork (s : State) (lhn : Nat) : State :=
  { s with hanks := { s.hanks with work := tdel s.hanks.work lhn, zeroed := tdel s.hanks.zeroed lhn } }

/-- Begin zeroing a hank under a key (R153, R254): its dirty and cached lines are dropped, and it is ZEROING. -/
def State.zeroBegin (s : State) (lhn key : Nat) (cmd : Option Nat) : State :=
  let s1 := s.dropLines lhn
  (s1.setEntry false lhn { s1.hostEntry lhn with state := 3, key := key, hint := false }).beginWork lhn (.zero cmd)

/-- Begin a secure discard of a hank (R154): its dirty and cached lines are dropped, and it is SECURING. -/
def State.secureBegin (s : State) (lhn : Nat) (cmd : Option Nat) : State :=
  let s1 := s.dropLines lhn
  (s1.setEntry false lhn { s1.hostEntry lhn with state := 4, hint := false }).beginWork lhn (.secure cmd)

/-- The overwriting of a hank with blank pages (R154): lines written since the discard began stand, and parity follows them. -/
def State.overwriteHank (s : State) (lhn : Nat) : State :=
  let phn := (s.hostEntry lhn).phn
  let lineAt := fun (k : Nat) => lhn * 16384 + k / 136 * 128 + k % 136
  let stale := fun (k : Nat) => k / 17408 == phn && decide (k % 17408 % 136 < 128) && s.lineZero (lineAt (k % 17408))
  let s1 : State := { s with med := { s.med with lines := s.med.lines.filter fun e => !(stale e.1), corrupt := s.med.corrupt.filter fun k => !(stale k) } }
  (List.range 128).foldl (fun s st => s.fixParity phn st) s1

/-! ### Operations of a neighbour on an area (R334) -/

/-- Queue a packet for the transmitter of a link. -/
def State.txPut (s : State) (k : Nat) (b : PktBody) (deadline : Nat) : State :=
  let l := s.link k
  s.setLink k { l with tx := l.tx ++ [{ body := b, deadline := deadline }] }

/-- Answer an operation of the sender. -/
def State.plyRespond (s : State) (k op region status : Nat) (args : List Nat) : State :=
  s.txPut k (.resyncReq op region 0 true status args none) (s.bgDeadline 4)

/-- A Set LD Allocations whose last removed hank has been zeroed is answered (R156). -/
def State.fmAnswered (s : State) (lhn : Nat) : State :=
  if s.cxl.fmWait.contains lhn then
    let left := s.cxl.fmWait.filter (· != lhn)
    let s1 : State := { s with cxl := { s.cxl with fmWait := left } }
    if left.isEmpty then s1.out (.fm 0 []) else s1
  else s

/-- A hank has been zeroed or overwritten: an ERASE of a neighbour whose last hank this was is answered. The holder's side of an
operation stands in `ops` under its number plus 16, with the hanks still to be done. -/
def State.hankAnswered (s : State) (lhn : Nat) : State :=
  ([0, 1] : List Nat).foldl (init := s.fmAnswered lhn) fun s k =>
    let l := s.link k
    let upd := l.ops.map fun o => if o.op = 22 then { o with args := o.args.filter (· != lhn) } else o
    let done := upd.filter fun o => o.op == 22 && o.args.isEmpty
    let s1 := s.setLink k { l with ops := upd.filter fun o => !(o.op == 22 && o.args.isEmpty) }
    done.foldl (fun s o => s.plyRespond k 6 o.region stOK []) s1

/-- The party that zeroing and overwriting a hank is charged to: the LD that holds it. -/
def State.partyOf (s : State) (lhn : Nat) : Nat := match s.ldOf (lhn * 16384) with | some (n, _) => n | none => 17

/-- Background zeroing of a hint-discarded hank completes (R152). -/
def execHintZero (lhn : Nat) (s : State) : Res :=
  nextState (match tget s.hanks.work lhn with
    | some .hint =>
      if s.journalFull || s.adm.held.getD (s.partyOf lhn) false then s
      else
        let s1 := ((s.zeroHank lhn).charge (s.partyOf lhn) 256).endWork lhn
        s1.setEntry false lhn { s1.hostEntry lhn with hint := false }
    | _ => s)

end Sys2Proof.Machine
end

