-- ==== Sys2Proof/Machine/Medium.lean ====
section
/-! DEFINITION. Drift, refresh, dies and channel engines (chapter 3): the commands of the medium beside its accesses. -/

namespace Sys2Proof.Machine

/-! ### Medium time and labels (R102–R107, R113) -/

def State.setMedTime (s : State) (t : Nat) : State :=
  (s.fset Reg.MCH_EPOCH Fld.MCH_EPOCH_EPOCH (t / 64)).fset Reg.MCH_EPOCH Fld.MCH_EPOCH_STEP (t % 64)

/-- Whether page `n` of the medium, counted die by die over the 272 active positions, has nothing listed and lies in no hank blanked on its
own, and so carries the label `blankAll`. -/
def State.pageUnlisted (s : State) (n : Nat) : Bool :=
  let (phn, st, d) := pageAt (n / 2 ^ 29) (n / 2 ^ 26 % 8) (n % 2 ^ 26)
  s.canSense phn st d && (tget s.med.blankWep phn).isNone && (tget s.med.lines (medKey phn st d 0)).isNone

/-- Whether a hank has a page with nothing listed. -/
def State.hankUnlisted (s : State) (phn : Nat) : Bool :=
  (List.range 128).any fun st => (List.range 17).any fun d => s.canSense phn st d && (tget s.med.lines (medKey phn st d 0)).isNone

/-- Whether a page carries a label: one that is written, one under program since its first stitch, or a blank one (R104). -/
def State.labelUsed (s : State) (w : Nat) : Bool :=
  s.med.lines.any (fun e => e.2.wep == w) || s.med.progs.any (fun p => p.2.start.isSome && p.2.lines.any fun l => l.2.wep == w) ||
    s.med.blankWep.any (fun e => e.2 == w && s.hankUnlisted e.1) ||
    (w == s.med.blankAll && (firstFrom s.pageUnlisted (272 * 2 ^ 26) 0).isSome)

/-- Allocate the next label, unless a page still carries it, which sets LABEL_HOLD (R103, R104, R113). Answers whether it did. -/
def State.newLabel (s : State) : Bool × State :=
  let w := (s.label + 1) % 64
  if s.labelUsed w then (false, s.fset Reg.MCH_DCLK_STAT Fld.MCH_DCLK_STAT_LABEL_HOLD 1)
  else
    let t := s.medTime
    let s1 : State := { s with med := { s.med with labels := tput s.med.labels w (t / 64, t % 64) } }
    (true, (s1.fset Reg.MCH_EPOCH Fld.MCH_EPOCH_LABEL w).fset Reg.MCH_DCLK_STAT Fld.MCH_DCLK_STAT_LABEL_HOLD 0)

/-- Whether a die responds: its channel engine runs, and it is not failed. -/
def State.dieResponds (s : State) (ch die : Nat) : Bool :=
  decide (ch < 34) && decide (die < 9) && s.fget (Reg.MCH_STATE ch) Fld.MCH_STATE_ENGINE == 1 &&
    !(s.fbit (Reg.MCH_STATE ch) Fld.MCH_STATE_DIE_FAILED die)

/-- Every die by channel and number. -/
def allDies : List (Nat × Nat) := (List.range 306).map fun k => (k / 9, k % 9)

/-- The swatch page of every die that responds, the spare included, falls due to be programmed (R107). -/
def State.swatchProgram (s : State) : State :=
  State.swatchPump { s with med := { s.med with swatchDue := allDies.filter fun x => s.dieResponds x.1 x.2 } }

/-- Whether a refit may take the place of a die's model: no age's threshold moves by more than one code (R106). -/
def refitOk (base nu base' nu' : Nat) : Bool :=
  (List.range 641).all fun l => decide (thrAt base nu l ≤ thrAt base' nu' l + 1) && decide (thrAt base' nu' l ≤ thrAt base nu l + 1)

/-- A least-squares fit of valley codes in 1/16 code (`y`) against driftLog of the pages' ages (`x`): BASE and NU (R106, R109). DESIGN CHOICE
(log 86): the spec states no rounding; both are rounded down and kept within 0 to 255. -/
def fitOf (pts : List (Nat × Nat)) : Nat × Nat :=
  let n : Int := pts.length
  let sx : Int := ((pts.map Prod.fst).sum : Nat)
  let sy : Int := ((pts.map Prod.snd).sum : Nat)
  let sxx : Int := ((pts.map fun p => p.1 * p.1).sum : Nat)
  let sxy : Int := ((pts.map fun p => p.1 * p.2).sum : Nat)
  let den := n * sxx - sx * sx
  let num := n * sxy - sx * sy
  if den = 0 then (min 255 (sy / (16 * n)).toNat, 0)
  else (min 255 ((sy * den - num * sx) / (16 * n * den)).toNat, min 255 (16 * num / den).toNat)

/-- The RMS residual of a model over measured codes, in 1/16 code. -/
def fitErr (base nu : Nat) (pts : List (Nat × Nat)) : Nat :=
  let sq := fun (p : Nat × Nat) => let e : Int := (p.2 : Int) - (16 * base + nu * p.1 / 16 : Nat); (e * e).toNat
  Nat.sqrt ((pts.map sq).sum / pts.length)

/-- A model moved `k` sixteenths of the way to another. -/
def partWay (a b k : Nat) : Nat := ((a : Int) + ((b : Int) - a) * k / 16).toNat

/-- The refit of a model (R106): towards the least-squares fit, as far as no age's threshold moves by more than one code. DESIGN CHOICE (log 86):
the spec states no weights; the model takes the largest number of sixteenths of the way that keeps the bound. -/
def refitTo (base nu : Nat) (pts : List (Nat × Nat)) : Nat × Nat :=
  let (b, v) := fitOf pts
  match (List.range 17).reverse.find? fun k => refitOk base nu (partWay base b k) (partWay nu v k) with
  | some k => (partWay base b k, partWay nu v k)
  | none => (base, nu)

/-- The points that the valley codes of a die's swatch pages give, of the pages whose line 0 checks: the logarithm of the page's age at medium time
`t`, and the code. -/
def State.fitPoints (s : State) (ch die t : Nat) (codes : List (Nat × Nat)) : List (Nat × Nat) :=
  codes.filterMap fun c => match dget swatchReset s.med.swatch (64 * (9 * ch + die) + c.1 % 64) with
    | some p => if p.checks ∧ p.epoch * 64 + p.step ≤ t then some (driftLog (t - (p.epoch * 64 + p.step)), c.2) else none
    | none => none

/-- The refits of a drift step (R106): each die that responds is refitted to the valley codes of its swatch pages, whose senses count on its
channel. -/
def State.refit (s : State) (codes : List (Nat × Nat × List (Nat × Nat))) : State :=
  (allDies.filter fun x => s.dieResponds x.1 x.2).foldl (fun s x =>
    let s1 := s.count 0x0020 x.1 64 6 18 none
    let r := Reg.MCH_DRIFT x.1 x.2
    match codes.find? fun f => f.1 == x.1 && f.2.1 == x.2 with
    | some f =>
      let pts := s.fitPoints x.1 x.2 s.medTime f.2.2
      if pts.isEmpty then s1
      else
        let (b, v) := refitTo (s.fget r Fld.MCH_DRIFT_BASE) (s.fget r Fld.MCH_DRIFT_NU) pts
        ((s1.fset r Fld.MCH_DRIFT_BASE b).fset r Fld.MCH_DRIFT_NU v).fsetSat r Fld.MCH_DRIFT_FITERR (fitErr b v pts)
    | none => s1) s

/-- A drift step of medium time passes (R102, R106): refits come in as measured, medium time and the verify-retry windows are saved (R92), an
epoch boundary allocates a label and programs the swatch pages, and a held label is tried again (R113; DESIGN CHOICE, log 87: the spec names no
moment for it). `codes`: channel, die, and the valley code in 1/16 code of each of its swatch pages. -/
def execDriftStep (codes : List (Nat × Nat × List (Nat × Nat))) (s : State) : Res :=
  nextState (if s.ready rDRIFT then
    let t := s.medTime + 1
    let s1 := (s.setMedTime t).refit codes
    let s2 : State := { s1 with med := { s1.med with hankRescue := [], timeSaved := t, windowSaved := s1.med.window } }
    if t % 64 = 0 then (s2.newLabel).2.swatchProgram
    else if s2.fget Reg.MCH_DCLK_STAT Fld.MCH_DCLK_STAT_LABEL_HOLD = 1 then (s2.newLabel).2
    else s2
  else s)

/-! ### The drift clock (R108–R112, R115) -/

/-- floor (2^(l/16)), bit by bit. -/
def root16 (l : Nat) : Nat :=
  (List.range 42).foldl (fun x i => let y := x + 2 ^ (41 - i); if y ^ 16 ≤ 2 ^ l then y else x) 0

/-- The gap one die measures (R109): `v` is its valley code in 1/16 code, `t` its swatch page's time, `down` E_down. None when its
model has no slope. DESIGN CHOICE (log 69): the spec gives no bound on `l`; it is capped at 640, so that a die's drift age ends at 2^40 − 1. -/
def State.dieGap (s : State) (ch d v t down : Nat) : Option Nat :=
  let base := s.fget (Reg.MCH_DRIFT ch d) Fld.MCH_DRIFT_BASE * 16
  let nu := s.fget (Reg.MCH_DRIFT ch d) Fld.MCH_DRIFT_NU
  if nu = 0 then none
  else
    let l := min 640 ((v - base) * 16 / nu)
    some ((root16 l - 1) - (down - t))

/-- Insert a number into a rising list. -/
def insertNat (x : Nat) : List Nat → List Nat
  | [] => [x]
  | y :: l => if x ≤ y then x :: y :: l else y :: insertNat x l

def sortNat (l : List Nat) : List Nat := l.foldl (fun a x => insertNat x a) []

/-- The median of a rising list; of an even number, the mean of the middle two, rounded down (log 18). -/
def median (l : List Nat) : Nat :=
  if l.length % 2 = 1 then l.getD (l.length / 2) 0 else (l.getD (l.length / 2 - 1) 0 + l.getD (l.length / 2) 0) / 2

/-- The cross-check of the drift clock with the host's gap (R111): the wall time of the stored record against the offset set since. -/
def State.hostCheck (s : State) : State :=
  match s.med.wallDown with
  | none => s
  | some w0 =>
    if s.med.gapDone || !s.clk.timeSet || !(s.ready rDRIFT) then s
    else
      let ns := s.clk.firstOffset + 10 * (s.clk.castAt : Int) - w0
      let neg := decide (ns < 0)
      let host := min (2 ^ 32 - 1) (ns.toNat / 16384000000000)
      let drift := s.fget Reg.MCH_DCLK Fld.MCH_DCLK_GAP_DRIFT
      let gap : Int := ns / 16384000000000
      let hi := max gap drift
      let lo := min gap drift
      let conflict := decide ((s.fget Reg.MCH_DCLK_STAT Fld.MCH_DCLK_STAT_TOL : Int) * lo < hi) && decide (64 < hi - lo)
      let st := Reg.MCH_DCLK_STAT
      let s1 := ((s.fset Reg.MCH_DCLK Fld.MCH_DCLK_GAP_HOST host).fset st Fld.MCH_DCLK_STAT_HOSTCHK 1)
      let s2 := (s1.fset st Fld.MCH_DCLK_STAT_CONFLICT (if conflict then 1 else 0)).fset st Fld.MCH_DCLK_STAT_NEGATIVE (if neg then 1 else 0)
      State.eventSev { s2 with med := { s2.med with gapDone := true } } evDRIFT (if conflict || neg then 1 else 0) 0 0xFFFF 0 [drift, host]

/-- The newest swatch page of a die whose line 0 checks and that is not later than a time: its own time (R109). -/
def State.swatchAt (s : State) (ch die down : Nat) : Option Nat :=
  let ts := (List.range 64).filterMap fun k => match dget swatchReset s.med.swatch (64 * (9 * ch + die) + k) with
    | some p => if p.checks ∧ p.epoch * 64 + p.step ≤ down then some (p.epoch * 64 + p.step) else none
    | none => none
  ts.foldl (fun a t => some (max t (a.getD 0))) none

/-- The newest swatch page's EPOCH over all dies (R110). -/
def State.swatchEpoch (s : State) : Nat := s.med.swatch.foldl (fun a e => match e.2 with | some p => if p.checks then max a p.epoch else a | none => a) 0

/-- The gaps that the dies measure, in rising order (R109): of each die that responds, the valley code of its newest swatch page not later than
E_down. -/
def State.dieGaps (s : State) (valleys : List (Nat × Nat × Nat)) (down : Nat) : List Nat :=
  sortNat (allDies.filterMap fun x =>
    if !(s.dieResponds x.1 x.2) then none
    else match valleys.find? fun v => v.1 == x.1 && v.2.1 == x.2, s.swatchAt x.1 x.2 down with
      | some v, some t => s.dieGap x.1 x.2 v.2.2 t down
      | _, _ => none)

/-- Start the catch-up sweep over every page of the 272 active dies (R115). -/
def State.catchUp (s : State) : State :=
  let s1 : State := { s with med := { s.med with sweepPages := 272 * 2 ^ 26 } }
  ((s1.fset Reg.MCH_DCLK_STAT Fld.MCH_DCLK_STAT_CATCHUP 1).fset Reg.MCH_REFRESH Fld.MCH_REFRESH_SWEEPING 1).fset
    Reg.MCH_REFRESH Fld.MCH_REFRESH_SWEEP_LEFT (272 * 1024)

/-- The drift clock measures the gap, sets medium time, which does not move backwards, and DRIFT (R102, R109, R110). `valleys`: channel, die,
and the valley code of its swatch page in 1/16 code. -/
def execDriftClock (valleys : List (Nat × Nat × Nat)) (s : State) : Res :=
  nextState (if s.ready rMEDIA ∧ s.ready rDRIFT = false ∧ s.plat.coldHold = false then
    let (norec, down) := match s.med.eDown with
      | some (e, st) => (false, e * 64 + st)
      | none => (true, s.swatchEpoch * 64 + 63)
    let gaps := s.dieGaps valleys down
    let gap := median gaps
    let q1 := gaps.getD (gaps.length / 4) 0
    let q3 := gaps.getD (gaps.length * 3 / 4) 0
    let low := decide (2 * q1 < q3)
    let st := Reg.MCH_DCLK_STAT
    let now := max (down + gap) s.med.timeSaved
    let s0 : State := { s with med := { s.med with timeSaved := now } }
    let s1 := ((s0.setMedTime now).fset Reg.MCH_DCLK Fld.MCH_DCLK_GAP_DRIFT (min gap (2 ^ 32 - 1))).fset
      st Fld.MCH_DCLK_STAT_DIES gaps.length
    let s2 := ((s1.fset st Fld.MCH_DCLK_STAT_SHORT (if gap < 1 then 1 else 0)).fset st Fld.MCH_DCLK_STAT_NOREC (if norec then 1 else 0)).fset
      st Fld.MCH_DCLK_STAT_LOWCONF (if low then 1 else 0)
    let s3 := if gap < 64 then (s2.fset st Fld.MCH_DCLK_STAT_NEWLABEL 0).fset st Fld.MCH_DCLK_STAT_CATCHUP 0
      else
        let (made, x) := s2.newLabel
        ((if made then x.swatchProgram else x).fset st Fld.MCH_DCLK_STAT_NEWLABEL (if made then 1 else 0)).catchUp
    let s4 := if norec || low then s3.event evDRIFT 0 0xFFFF 0 [gap] else s3
    (s4.setReady rDRIFT true).hostCheck.partitionFree
  else s)

/-! ### Refresh (R113–R115) -/

/-- Where the catch-up sweep stands: the page it refreshes next (R115). -/
def State.sweepAt (s : State) : Option (Nat × Nat × Nat) :=
  if s.fget Reg.MCH_REFRESH Fld.MCH_REFRESH_SWEEPING = 1 then
    let n := 272 * 2 ^ 26 - s.med.sweepPages
    some (pageAt (n / 2 ^ 29) (n / 2 ^ 26 % 8) (n % 2 ^ 26))
  else none

/-- Whether a visit refreshes a page: it is queued, the catch-up sweep has come to it, or it is old enough (R101, R113, R115). -/
def State.refreshDue (s : State) (phn st d : Nat) : Bool :=
  s.refreshQueued phn st d || s.sweepAt == some (phn, st, d) ||
    decide ((s.fget Reg.MCH_REFRESH Fld.MCH_REFRESH_REFRESH_AGE - 16) * 64 ≤ s.medTime - s.labelTime (s.medGet phn st d 0).wep)

/-- The catch-up sweep goes past the page it has come to. -/
def State.sweepStep (s : State) (phn st d : Nat) : State :=
  if s.sweepAt = some (phn, st, d) then
    let n := s.med.sweepPages - 1
    let s1 : State := { s with med := { s.med with sweepPages := n } }
    let s2 := s1.fset Reg.MCH_REFRESH Fld.MCH_REFRESH_SWEEP_LEFT ((n + 65535) / 65536)
    if n = 0 then s2.fset Reg.MCH_REFRESH Fld.MCH_REFRESH_SWEEPING 0 else s2
  else s

/-- The deadline of a page's refresh: that of its queueing, else of now (R53, R101). -/
def State.refreshBy (s : State) (phn st d : Nat) : Nat :=
  match s.med.refreshQ.find? fun q => q.1 == phn && q.2.1 == st && q.2.2.1 == d with
  | some q => q.2.2.2
  | none => s.bgDeadline 2

/-- Rewrite a page in place (R114): its lines are read, then the page is staged and programmed. -/
def State.refreshPage (s : State) (phn st d : Nat) : State :=
  let due := s.refreshBy phn st d
  let s0 : State := { s with med := { s.med with refreshQ := s.med.refreshQ.filter fun q => !(q.1 == phn && q.2.1 == st && q.2.2.1 == d) } }
  (s0.walkStart .refresh phn st (s.hostAt phn) [d] (2 ^ d) due 6).charge 18 16

/-- A sweep's visit to a page (R113 to R115): it is refreshed when it is due, its stripe is free and there is room for its reads. A page whose
position is lost is passed by, one whose engine is off or restarting is waited for, and none is visited once bind-off has begun (R212). -/
def execRefreshVisit (phn stripe page : Nat) (s : State) : Res :=
  nextState (if s.power = .on ∧ s.ready rDRIFT ∧ phn < 2 ^ 23 ∧ stripe < 128 ∧ page ≤ 16 then
    if s.canSense phn stripe page then
      if s.refreshDue phn stripe page = true ∧ s.stripeBusy phn stripe = false ∧ s.walkRoom phn stripe [page] = true then
        (s.sweepStep phn stripe page).refreshPage phn stripe page
      else s
    else if s.posGone phn stripe page then s.sweepStep phn stripe page
    else s
  else s)

/-! ### Dies and channel engines (R117–R121) -/

/-- Set an engine's state; RDY_CHAN follows (R229). -/
def State.setEngine (s : State) (ch v : Nat) : State :=
  (s.fset (Reg.MCH_STATE ch) Fld.MCH_STATE_ENGINE v).fsetBit Reg.RDY_CHAN Fld.RDY_CHAN_CHAN ch (v == 1)

/-- Whether a read's sense has been issued, or its line stands latched: what it waits for is lost with its die (R118). -/
def ReadOp.sensed (r : ReadOp) : Bool := r.busy || r.stage == .valley || r.stage == .latched

/-- One read of a page that can no longer be sensed: a line of a rebuild has failed there, or waits for the engine that restarts; any other read is
rebuilt from its stripe (R118, R121). With `late`, one whose sense had been issued is an interruption, as after a failed valley sense
(R99, R118). -/
def State.redirect (s : State) (id : Nat) (late : Bool) : State :=
  match s.readOp id with
  | some (o, r) =>
    match r.purpose with
    | .part p =>
      if s.posGone r.phn r.s r.d then (s.freeOp id).partDone p r.d none
      else s.setRead id o { r with stage := .queued, busy := false }
    | _ =>
      let hit := late && r.sensed
      let s1 := if hit then (s.noteRescue o r).openFault (100000 + id) else s
      let s2 := (s1.count 0x0024 (chanOf r.phn r.s r.d) 1 o.cls o.master (lhnFor r)).setRead id o
        { r with onset := if hit then some s.clk.now else r.onset }
      s2.rebuildStart id
  | none => s

/-- The reads that meet a test stop waiting for their page. -/
def State.redirectReads (s : State) (p : ReadOp → Bool) (late : Bool) : State :=
  (s.adm.ops.filter fun e => match e.2.kind with | .read r => p r && (r.atPart || r.stage == .latched) | _ => false).foldl
    (fun s e => s.redirect e.1 late) s

/-- Programs that meet a test start again from their first stitch, their lines moved to the page buffer again (R118, R121). -/
def State.restartProgs (s : State) (p : Program → Bool) (die : Option Nat) : State :=
  let restart := fun (e : Nat × Program) =>
    if p e.2 then
      (e.1, { e.2 with die := die.getD e.2.die, toMove := 8, stitches := 0, deferrals := 0, start := none, running := false })
    else e
  { s with med := { s.med with progs := s.med.progs.map restart } }

/-- Drop the swatch programs that meet a test: their die is lost. -/
def State.dropSwatch (s : State) (p : Program → Bool) : State :=
  { s with med := { s.med with progs := s.med.progs.filter fun e => !(p e.2 && (match e.2.kind with | .swatch _ _ => true | _ => false)) } }

/-- Programs that meet a test are covered by their parity alone (R120): they end without a stitch. -/
def State.skipProgs (s : State) (p : Program → Bool) : State :=
  let s0 := s.dropSwatch p
  (tkeys s0.med.progs p).foldl (fun s id => match tget s.med.progs id with
    | some q => s.progEnds id { q with stitches := 0 } true
    | none => s) s0

/-- The active index that a physical die serves, if any. -/
def State.indexOf (s : State) (ch die : Nat) : Option Nat := (List.range 8).find? fun a => s.dieOf ch a == die

/-- The position runs degraded (R120, R147). DESIGN CHOICE (log 70): REB_ADIE is one field and the spec does not say which position it names when a
second one of the channel runs degraded; the model names the newest, but the one that is rebuilt while a rebuild goes on (`beside`). -/
def State.degrade (s : State) (ch adie die : Nat) (beside : Bool) : State :=
  let s0 := s.fset (Reg.MCH_STATE ch) Fld.MCH_STATE_DEGRADED 1
  let s1 := if beside then s0
    else ((s0.fset (Reg.MCH_DIESUB ch) Fld.MCH_DIESUB_REB_VALID 1).fset (Reg.MCH_DIESUB ch) Fld.MCH_DIESUB_REB_ADIE adie).fset
      (Reg.MCH_STATE ch) Fld.MCH_STATE_REBUILD 0
  let s2 := s1.event evSPARE 4 0xFFFF ch [die, adie]
  (s2.skipProgs fun p => p.ch == ch && p.die == die).evacuate (8 * (ch / 17) + adie)

/-- The spare die of a channel: neither failed nor in MCH_DIESUB (die 8 as shipped, R117; another after R391). -/
def State.spareDie (s : State) (ch : Nat) : Option Nat :=
  ([8, 0, 1, 2, 3, 4, 5, 6, 7] : List Nat).find? fun d => !(s.fbit (Reg.MCH_STATE ch) Fld.MCH_STATE_DIE_FAILED d) && (s.indexOf ch d).isNone

/-- A die is declared failed (R117–R120). -/
def State.dieFails (s : State) (ch die : Nat) : State :=
  if ch < 34 ∧ die < 9 ∧ s.fbit (Reg.MCH_STATE ch) Fld.MCH_STATE_DIE_FAILED die = false ∧ s.fget (Reg.MCH_STATE ch) Fld.MCH_STATE_ENGINE ≠ 0 then
    let rebuilding := s.fget (Reg.MCH_STATE ch) Fld.MCH_STATE_REBUILD == 1
    let target := s.fget (Reg.MCH_DIESUB ch) Fld.MCH_DIESUB_REB_ADIE
    let onto := s.fget (Reg.MCH_REBUILD ch) Fld.MCH_REBUILD_TARGET
    let idx := match s.indexOf ch die with | some a => some a | none => if rebuilding && die == onto then some target else none
    let s1 := (s.fsetBit (Reg.MCH_STATE ch) Fld.MCH_STATE_DIE_FAILED die true).event evSPARE 4 0xFFFF ch [die]
    match idx with
    | none => s1
    | some a =>
      let s2 := (s1.dropSwatch fun p => p.ch == ch && p.die == die).redirectReads
        (fun r => chanOf r.phn r.s r.d == ch && phnAdie r.phn == a && die != onto) true
      match (if rebuilding then none else s1.spareDie ch) with
      | some sp =>
        let s3 := s2.restartProgs (fun p => p.ch == ch && p.die == die) (some sp)
        let s4 := ((s3.fset (Reg.MCH_STATE ch) Fld.MCH_STATE_REBUILD 1).fset (Reg.MCH_DIESUB ch) Fld.MCH_DIESUB_REB_VALID 1).fset
          (Reg.MCH_DIESUB ch) Fld.MCH_DIESUB_REB_ADIE a
        ((s4.fset (Reg.MCH_REBUILD ch) Fld.MCH_REBUILD_SOURCE die).fset (Reg.MCH_REBUILD ch) Fld.MCH_REBUILD_TARGET sp).fset
          (Reg.MCH_REBUILD ch) Fld.MCH_REBUILD_DONE 0
      | none => s2.degrade ch a die (rebuilding && a != target)
  else s

def execDieFailure (ch die : Nat) (s : State) : Res := nextState (s.dieFails ch die).partitionFree

/-- A die on which 8 stripe rebuilds or 8 program failures fall within 1 s is declared failed (R117). -/
def State.dieWatch (s : State) (ch die : Nat) : State :=
  let many := fun (t : Tbl (List Nat)) => decide (8 ≤ ((dget (fun _ => []) t (9 * ch + die)).filter fun x => decide (s.clk.now ≤ x + 100000000)).length)
  if many s.med.rescues || many s.med.fails then s.dieFails ch die else s

/-- The lowest active index of a channel whose die is failed. -/
def State.lostIndex (s : State) (ch : Nat) : Option Nat :=
  (List.range 8).find? fun a => s.fbit (Reg.MCH_STATE ch) Fld.MCH_STATE_DIE_FAILED (s.dieOf ch a)

/-- The rebuild onto the spare die completes, every page being done: MCH_DIESUB changes (R119), and names a position that runs degraded, if there is
one (log 70). -/
def execDieRebuildDone (ch : Nat) (s : State) : Res :=
  nextState (if ch < 34 ∧ s.fget (Reg.MCH_STATE ch) Fld.MCH_STATE_REBUILD = 1 ∧ s.ready rDRIFT ∧
      s.fget (Reg.MCH_REBUILD ch) Fld.MCH_REBUILD_DONE = 2 ^ 26 then
    let a := s.fget (Reg.MCH_DIESUB ch) Fld.MCH_DIESUB_REB_ADIE
    let m := s.fget (Reg.MCH_DIESUB ch) Fld.MCH_DIESUB_MAP
    let old := m / 16 ^ a % 16
    let s0 := s.fset (Reg.MCH_DIESUB ch) Fld.MCH_DIESUB_MAP (m - old * 16 ^ a + s.fget (Reg.MCH_REBUILD ch) Fld.MCH_REBUILD_TARGET * 16 ^ a)
    let s1 := match s0.lostIndex ch with
      | some b => s0.fset (Reg.MCH_DIESUB ch) Fld.MCH_DIESUB_REB_ADIE b
      | none => s0.fset (Reg.MCH_DIESUB ch) Fld.MCH_DIESUB_REB_VALID 0
    s1.fset (Reg.MCH_STATE ch) Fld.MCH_STATE_REBUILD 0
  else s)

/-- An engine is set to failed: its nine positions run as in R120, and a FAULT event is raised (R121). -/
def State.channelFails (s : State) (ch : Nat) : State :=
  let s0 := (s.setEngine ch 3).fset (Reg.MCH_STATE ch) Fld.MCH_STATE_REBUILD 0
  let s1 := (s0.fset (Reg.MCH_STATE ch) Fld.MCH_STATE_DEGRADED 1).event evFAULT 4 0xFFFF ch [3]
  let s2 := s1.skipProgs fun p => p.ch == ch
  (List.range 8).foldl (fun s a => s.evacuate (8 * (ch / 17) + a)) s2

/-- Whether a channel's engine was restarted in the last second (R121). -/
def State.restartedLately (s : State) (ch : Nat) : Bool :=
  match tget s.med.restartAt ch with | some t => decide (s.clk.now ≤ t + 100000000) | none => false

/-- A stalled engine's watchdog expires (R121): restarted, or failed when it is the second within 1 s. -/
def State.watchdog (s : State) (ch : Nat) : State :=
  if ch < 34 ∧ s.fget (Reg.MCH_STATE ch) Fld.MCH_STATE_ENGINE = 1 then
    let s0 := (s.setEngine ch 2).fadd (Reg.MCH_STATE ch) Fld.MCH_STATE_RESTARTS 1
    let s1 := s0.redirectReads (fun r => chanOf r.phn r.s r.d == ch) false
    let second := s.restartedLately ch
    let s2 : State := { s1 with med := { s1.med with restartAt := tput s1.med.restartAt ch s.clk.now } }
    if second then s2.channelFails ch
    else (s2.restartProgs (fun p => p.ch == ch) none).openFault (400000 + ch)
  else s

def execChannelWatchdog (ch : Nat) (s : State) : Res := nextState (s.watchdog ch).partitionFree

/-- A restarted engine runs again (R121). -/
def execEngineRestartDone (ch : Nat) (s : State) : Res :=
  nextState (if ch < 34 ∧ s.fget (Reg.MCH_STATE ch) Fld.MCH_STATE_ENGINE = 2 then
    (((s.setEngine ch 1).closeFault (400000 + ch)).injectDone (400000 + ch)).partitionFree.retryStuck else s)

/-- A write to MCH_ROWPLAN: READ_SLOTS 6 to 9 set the plan from the next row boundary, other values are ignored (R94). -/
def State.rowplan (s : State) (ch : Nat) (val : W64) : State :=
  let v := getF val Fld.MCH_ROWPLAN_READ_SLOTS
  if ch < 34 ∧ 6 ≤ v ∧ v ≤ 9 then
    State.fset { s with med := { s.med with plan := tput s.med.plan ch v } } (Reg.MCH_ROWPLAN ch) Fld.MCH_ROWPLAN_READ_SLOTS v
  else s

def execRowplanWrite (ch : Nat) (val : W64) (s : State) : Res := nextState (s.rowplan ch val)

end Sys2Proof.Machine
end

