-- ==== Sys2Proof/Machine/Access.lean ====
section
/-! DEFINITION. The ends of a valley sense and of a stitch (chapter 3), after which a die may be declared failed (R117). -/

namespace Sys2Proof.Machine

/-- A read has failed its valley sense (R99): it is an interruption from here on, counted as a rebuild of its channel, die and hank, and its stripe
is read; a line of a rebuild has failed there (R100), and a suspect stripe rebuilds nothing (R137). -/
def State.valleyFails (s : State) (id : Nat) (o : Op) (r : ReadOp) : State :=
  match r.purpose with
  | .part p => (s.freeOp id).partDone p r.d none
  | _ =>
    if s.isSuspect r.phn r.s then s.readUnreadable id o { r with busy := false, bad := [] }
    else
      let s1 := (s.noteRescue o r).openFault (100000 + id)
      State.rebuildStart ((s1.count 0x0024 (chanOf r.phn r.s r.d) 1 o.cls o.master (lhnFor r)).setRead id o
        { r with busy := false, onset := some s.clk.now }) id

def execValleySenseComplete (op : Nat) (x : Sense) (s : State) : Res :=
  nextState (match s.readOp op with
    | some (o, r) =>
      if r.stage = .valley ∧ r.busy = true then
        let ch := chanOf r.phn r.s r.d
        let s1 := (((s.addCnt (Reg.MCH_CNT_SOFT ch)).count 0x0020 ch 1 o.cls o.master (lhnFor r)).count 0x0021 ch 1 o.cls o.master (lhnFor r))
        match s.decodeOf r x with
        | some (v, n) => (s1.decoded op o r v n true).partitionFree
        | none => ((s1.valleyFails op o r).partitionFree.dieWatch ch (s.readDie r)).retryStuck
      else s
    | none => s)

/-- A stitch's pulse and verify phases end (R87, R88, R90). -/
def execStitchEnd (prog : Nat) (verified : Bool) (s : State) : Res :=
  nextState (match tget s.med.progs prog with
    | some p =>
      if p.running = true then ((s.stitchEnds prog p verified).partitionFree.dieWatch p.ch p.die).retryStuck else s
    | none => s)

end Sys2Proof.Machine
end

