-- ==== Sys2Proof/Machine/Records.lean ====
section
/-! DEFINITION. The words of the Stash and its dual-copy records (chapter 14, R410 to R419, R469): SECDED and spare rows, the two slots, the
choice of a copy, and the record of the RWS fields. -/

namespace Sys2Proof.Machine

/-! ### Words (R410, R411) -/

/-- Wrong bits in the 72 of a stored word. -/
def State.stashWrong (s : State) (w : Nat) : List Nat := bitsSet (dget (fun _ => 0) s.plat.stashErrs w)

/-- A hard fault takes a spare row while there is one: its words are copied, the single errors corrected (R411). -/
def State.stashSpare (s : State) (w : Nat) : State :=
  let left := s.fget Reg.SRB_STASH Fld.SRB_STASH_SPARE_ROWS
  if left = 0 then s
  else
    let mine := fun (k : Nat) => Config.stashRow k == Config.stashRow w
    State.fset { s with plat := { s.plat with
      stashErrs := s.plat.stashErrs.filter fun e => !(mine e.1) || decide (2 ≤ (bitsSet e.2).length)
      stashHard := s.plat.stashHard.filter fun k => !(mine k)
      stashRows := s.plat.stashRows ++ [Config.stashRow w] } } Reg.SRB_STASH Fld.SRB_STASH_SPARE_ROWS (left - 1)

/-- A word is read (R411): a single wrong bit is corrected and the word rewritten, a word that errs again is hard, and an uncorrectable word
raises a FAULT event with its offset. -/
def State.stashWord (s : State) (w : Nat) : State :=
  match s.stashWrong w with
  | [] => s
  | [_] =>
    let s1 := s.fadd Reg.SRB_STASH Fld.SRB_STASH_CE 1
    if s.plat.stashHard.contains w then s1.stashSpare w
    else { s1 with plat := { s1.plat with stashErrs := tdel s1.plat.stashErrs w } }
  | _ => (s.fadd Reg.SRB_STASH Fld.SRB_STASH_UE 1).event evFAULT 4 0xFFFF (8 * w) []

/-- Whether a word lies in `n` bytes from an offset. -/
def inBytes (x n w : Nat) : Bool := decide (x / 8 ≤ w) && decide (8 * w < x + n)

/-- `n` bytes of the Stash from an offset are read. -/
def State.stashCheck (s : State) (x n : Nat) : State :=
  (s.plat.stashErrs.filter fun e => inBytes x n e.1).foldl (fun s e => s.stashWord e.1) s

/-- They are written: their words are right again, but for worn cells. -/
def State.stashWritten (s : State) (x n : Nat) : State :=
  { s with plat := { s.plat with stashErrs := s.plat.stashErrs.filter fun e => !(inBytes x n e.1) || s.plat.stashHard.contains e.1 } }

/-! ### Fields by access type (Table 0-6) and the RWS_IMAGE payload (R419, Table 14-3a) -/

/-- The bits of a register's fields that meet a test. -/
def accMask (off : Nat) (p : Access → Bool) : W64 :=
  match specOf off with
  | some r => r.fields.foldl (fun m x => if p x.acc then m ||| maskF x.field else m) 0
  | none => 0

/-- The registers of RWS_IMAGE, in order. -/
def rwsRegs : List Nat :=
  [Reg.MCH_DCLK_STAT, Reg.MCH_REFRESH, Reg.GAU_TEST_CTL, Reg.SEL_CTL, Reg.SEL_ARCHIVED, Reg.PLK_PIN 0, Reg.PLK_PIN 1, Reg.PLK_CTL, Reg.PLK_UADDR,
   Reg.THM_AUTO_RESUME] ++ (List.range 58).map Reg.THM_SENSOR ++ [Reg.PWR_LIMIT, Reg.HST_CTL]

/-- The RWS bits of a register. -/
def rwsMask (off : Nat) : W64 := accMask off fun a => a == .rws

/-- A payload of RWS_IMAGE: the RWS fields of given registers, the other bits zero. -/
def rwsPayload (get : Nat → W64) : List Byte :=
  rwsRegs.flatMap (fun off => le 8 (get off &&& rwsMask off).toNat) ++ List.replicate 464 0

/-- The words of a RWS_IMAGE payload beside their registers. -/
def imageWords (bytes : List Byte) : List (Nat × W64) :=
  (rwsRegs.zip (List.range 70)).map fun x => (x.1, BitVec.ofNat 64 (ofBytes ((bytes.drop (8 * x.2)).take 8)))

/-! ### Records (R414 to R417, Tables 14-2, 14-3) -/

/-- The records: directory entry, ID, payload length. -/
def recordTable : List (Nat × Nat × Nat) :=
  [(1, 1, 8), (2, 2, 1024), (3, 3, 32), (4, 4, 8), (5, 5, 512), (6, 6, 4096), (7, 7, 512), (8, 8, 96), (9, 9, 1024), (10, 10, 256), (11, 11, 16)] ++
    (List.range 8).map fun n => (48 + n, 0x100 + n, 256)

/-- Default payload of a record (Table 14-3); the payloads of the module's own records stand in the fields of State they describe. -/
def recDefault (id : Nat) : List Byte :=
  if id = 1 then 1 :: List.replicate 7 0
  else if id = 2 then rwsPayload regReset
  else if 0x100 ≤ id ∧ id < 0x108 then List.replicate 256 0
  else []

/-- A record that has never been written: its default in both slots. -/
def recInit (id : Nat) : StashRec :=
  let slot : StashSlot := { bytes := recDefault id, seq := 0, crcOk := true }
  { a := slot, b := slot, ratSeq := 0, ratBytes := recDefault id, contest := false }

/-- A record as the Stash holds it. -/
def State.recOf (s : State) (id : Nat) : StashRec := (tget s.plat.recs id).getD (recInit id)

/-- The payload of a record, and its sequence number. -/
def State.recBytes (s : State) (id : Nat) : List Byte := (s.recOf id).a.bytes
def State.recSeq (s : State) (id : Nat) : Nat := (s.recOf id).a.seq

/-- Where slot `k` of a record lies, and its length: ID, LEN, SEQ, payload, CRC-32C and zeros (R414). -/
def slotAt (i k : Nat) : Nat := Config.recordOffset i k % 2 ^ 21
def slotLen (len : Nat) : Nat := len + 16

/-- Whether slot `k` of a record checks: its CRC is valid, and no word of it is uncorrectable (R411). -/
def State.slotOk (s : State) (i k len : Nat) (x : StashSlot) : Bool :=
  x.crcOk && !(s.plat.stashErrs.any fun e => inBytes (slotAt i k) (slotLen len) e.1 && decide (2 ≤ (bitsSet e.2).length))

/-- The first four bytes of a payload's SHA-384 (R414). -/
def hash4 (b : List Byte) : List Byte := (be 48 (Config.sha384 b).toNat).take 4

/-- The copy that Table 14-2 takes, and whether the record is contested; none when neither slot checks. -/
def StashRec.taken (r : StashRec) (okA okB : Bool) : Option (StashSlot × Bool) :=
  if okA && okB then
    if r.a.seq < r.b.seq then some (r.b, false)
    else if r.b.seq < r.a.seq ∨ r.a.bytes = r.b.bytes then some (r.a, false)
    else if hash4 r.a.bytes = hash4 r.ratBytes then some (r.a, false)
    else if hash4 r.b.bytes = hash4 r.ratBytes then some (r.b, false)
    else some (r.a, true)
  else if okA then some (r.a, false)
  else if okB then some (r.b, false)
  else none

/-- Write both slots of a record, the ratchet first (R415). -/
def State.recPut (s : State) (i id len : Nat) (r : StashRec) : State :=
  let s1 : State := { s with plat := { s.plat with recs := tput s.plat.recs id r } }
  ((s1.stashWritten (16 * i) 16).stashWritten (slotAt i 0) (slotLen len)).stashWritten (slotAt i 1) (slotLen len)

/-- Read a record (R416): its directory entry and both slots are checked, and the copy taken is written to both. With neither, its default
applies and a FAULT event names the ID; a new contest raises its event (R417). -/
def State.recSelect (s : State) (i id len : Nat) : State :=
  let r := s.recOf id
  let pick := r.taken (s.slotOk i 0 len r.a) (s.slotOk i 1 len r.b)
  let s1 := ((s.stashCheck (16 * i) 16).stashCheck (slotAt i 0) (slotLen len)).stashCheck (slotAt i 1) (slotLen len)
  match pick with
  | none => State.event { s1 with plat := { s1.plat with recs := tput s1.plat.recs id { recInit id with contest := r.contest } } } evFAULT 4 0xFFFF id []
  | some (x, contested) =>
    let s2 := if (tget s.plat.recs id).isNone then s1 else s1.recPut i id len { r with a := x, b := x, contest := r.contest || contested }
    if contested && !r.contest then s2.event evCONTEST 4 0xFFFF id [] else s2

/-- SRB_STASH.CONTEST and CID follow the contest flags (R417). -/
def State.contestStat (s : State) : State :=
  match s.plat.recs.find? fun e => e.2.contest with
  | some (id, _) => (s.fset Reg.SRB_STASH Fld.SRB_STASH_CONTEST 1).fset Reg.SRB_STASH Fld.SRB_STASH_CID id
  | none => (s.fset Reg.SRB_STASH Fld.SRB_STASH_CONTEST 0).fset Reg.SRB_STASH Fld.SRB_STASH_CID 0

/-- Store a record under its next SEQ, with or without ending a contest (R415, R417). -/
def State.recStore (s : State) (id : Nat) (bytes : List Byte) (contest : Bool) : State :=
  let seq := (s.recSeq id + 1) % 2 ^ 32
  let slot : StashSlot := { bytes := bytes, seq := seq, crcOk := true }
  match recordTable.find? fun r => r.2.1 == id with
  | some (i, _, len) => s.recPut i id len { a := slot, b := slot, ratSeq := seq, ratBytes := bytes, contest := contest }
  | none => s

/-! ### The RWS fields and the lane plan (R10, R18, R417, R419, R469) -/

/-- Whether the RWL fields are locked (R18): CONFIG_LOCK is 1, and was so as the tick began, since a field written in the cycle of the lock applies
first (Table 7-12; log 60). -/
def State.rwlLocked (s : State) : Bool :=
  s.fget Reg.RDY_CTL Fld.RDY_CTL_CONFIG_LOCK == 1 && getF (dget regReset s.clk.regs0 Reg.RDY_CTL) Fld.RDY_CTL_CONFIG_LOCK == 1

/-- Whether the RWS_IMAGE record is contested: writes of RWS fields are then ignored (R417). -/
def State.rwsHeld (s : State) : Bool := (s.recOf 2).contest

/-- An RWS field was written: its record takes the fields as they stand, under a new SEQ (R415, R444). -/
def State.rwsSave (s : State) : State := s.recStore 2 (rwsPayload s.reg) s.rwsHeld

/-- Sensors of a zone. -/
def zoneSensors (z : Nat) : List Nat := (List.range 58).filter fun k => zoneOf k == z

/-- A write of EXCL (R429): 1 is ignored unless the sensor is broken and another of its zone is active. -/
def State.exclOk (s : State) (k v : Nat) : Bool :=
  v == 0 || (s.fget (Reg.THM_SENSOR k) Fld.THM_SENSOR_BROKEN == 1 &&
    (zoneSensors (zoneOf k)).any fun j => j != k && s.fget (Reg.THM_SENSOR j) Fld.THM_SENSOR_ACTIVE == 1)

/-- Whether a register takes every RWS field of a value. -/
def State.rwsOk (s : State) (off : Nat) (w : W64) : Bool :=
  if off = Reg.MCH_DCLK_STAT then decide (2 ≤ getF w Fld.MCH_DCLK_STAT_TOL)
  else if off = Reg.MCH_REFRESH then decide (24 ≤ getF w Fld.MCH_REFRESH_REFRESH_AGE) && decide (getF w Fld.MCH_REFRESH_REFRESH_AGE ≤ 32)
  else if off = Reg.GAU_TEST_CTL then
    let days := getF w Fld.GAU_TEST_CTL_SPARE_DAYS
    let per := getF w Fld.GAU_TEST_CTL_PERIOD
    decide (7 ≤ days) && decide (days ≤ 90) && decide (1 ≤ per) && decide (per ≤ 600)
  else if off = Reg.SEL_ARCHIVED then decide ((s.reg Reg.SEL_ARCHIVED).toNat ≤ w.toNat) && decide (w.toNat ≤ (s.reg (Reg.SEL_RATCHET 0)).toNat)
  else if off = Reg.PWR_LIMIT then getF w Fld.PWR_LIMIT_SEL != 3
  else
    match (List.range 58).find? fun k => off == Reg.THM_SENSOR k with
    | some k => s.exclOk k (getF w Fld.THM_SENSOR_EXCL)
    | none => true

/-- Whether RWS_IMAGE may take a payload: every field one that its register takes, and zeros from byte 560. -/
def State.imageOk (s : State) (bytes : List Byte) : Bool :=
  ((imageWords bytes).all fun x => s.rwsOk x.1 x.2) && (bytes.drop 560).all fun b => b == 0

/-- Set the RWS fields of the registers of a payload. -/
def State.rwsSet (s : State) (bytes : List Byte) : State :=
  (imageWords bytes).foldl (fun s x => s.setReg x.1 ((s.reg x.1 &&& ~~~(rwsMask x.1)) ||| (x.2 &&& rwsMask x.1))) s

/-- The payload of LANE_PLAN that STASH_WRITE takes (R418). -/
def lanePlanOk (b : List Byte) : Bool := decide (ofBytes b < 2)

/-- The lane plan of the LANE_PLAN record: 1 is plan B (R10, R469). -/
def State.lanePlanRec (s : State) : Nat := if lanePlanOk (s.recBytes 1) && ofBytes (s.recBytes 1) == 0 then 0 else 1

/-- At cast-on the records are read, and RWS_IMAGE applies as a whole or not at all (R416, R417, R469). -/
def State.recsLoad (s : State) : State :=
  let s1 := (recordTable.foldl (fun s r => s.recSelect r.1 r.2.1 r.2.2) s).contestStat
  let img := s1.recBytes 2
  let s2 := if s1.imageOk img then s1.rwsSet img else (s1.rwsSet (recDefault 2)).event evFAULT 4 0xFFFF 2 []
  if lanePlanOk (s2.recBytes 1) then s2 else s2.event evFAULT 4 0xFFFF 1 []

end Sys2Proof.Machine
end

