-- ==== Sys2Proof/Machine/WorkMem.lean ====
section
/-! DEFINITION. Working memory, the line cache's maintenance and the region attributes (chapter 5). -/

namespace Sys2Proof.Machine

/-! ### The scrubber (R175) -/

/-- The scrubber reads the next line, with the errors that its devices show (R175); held, its class issues no work (R64). -/
def execScrubLine (errs : List WordErr) (s : State) : Res :=
  nextState (if s.fget Reg.WME_SCRUB_CTL Fld.WME_SCRUB_CTL_EN = 1 ∧ s.adm.held.getD 16 false = false ∧ s.ready rWMEM ∧ s.fget Reg.PWR_REQ Fld.PWR_REQ_D11_OFF = 0 then
    let w := s.fget Reg.WME_SCRUB_CTL Fld.WME_SCRUB_CTL_CURSOR
    let s1 := ((s.checkLine w errs).charge 16 1).wmAccess 1 7 18 none
    let s2 := s1.fset Reg.WME_SCRUB_CTL Fld.WME_SCRUB_CTL_CURSOR ((w + 1) % 2 ^ 22)
    if w + 1 = 2 ^ 22 then s2.fadd Reg.WME_SCRUB_CTL Fld.WME_SCRUB_CTL_PASSES 1 else s2
  else s)

/-- The spare's rebuild completes: the new MAP is applied (R169). -/
def execQdrRebuildDone (s : State) : Res :=
  nextState (if s.fget Reg.WME_STATE Fld.WME_STATE_REBUILD = 1 then
    let src := s.fget Reg.WME_REBUILD Fld.WME_REBUILD_SOURCE
    let dst := s.fget Reg.WME_REBUILD Fld.WME_REBUILD_TARGET
    let map := (List.range 9).foldl (fun a k => a + (if s.slotDev k = src then dst else s.slotDev k) * 16 ^ k) 0
    let s1 := (s.fset Reg.WME_STATE Fld.WME_STATE_MAP map).fset Reg.WME_STATE Fld.WME_STATE_REBUILD 0
    (s1.fset Reg.WME_REBUILD Fld.WME_REBUILD_DONE (2 ^ 22)).freeRemaps src
  else s)

/-- A narrow-write entry drains into its line (R172); the line write may take an armed flip (R174). -/
def execNarrowWriteDrain (wma : Nat) (s : State) : Res := nextState (s.drainLine wma)

/-- Writing 1 to VALID frees a log entry (R173). -/
def State.ceLogFree (s : State) (n : Nat) (val : W64) : State :=
  let fresh := s.setNow (Reg.WME_CE_LOG n) Fld.WME_CE_LOG_VALID
  if n < 16 ∧ getF val Fld.WME_CE_LOG_VALID = 1 then (s.fset (Reg.WME_CE_LOG n) Fld.WME_CE_LOG_VALID fresh).logStat else s

def execWmeCeLogFree (n : Nat) (val : W64) (s : State) : Res := nextState (s.ceLogFree n val)

/-- A write of WME_CE_LOG_STAT: CLEAR frees every entry and clears OVERRUN; 1 to OVERRUN clears it (R173, R16). -/
def State.ceLogClear (s : State) (val : W64) : State :=
  let s1 := if getF val Fld.WME_CE_LOG_STAT_CLEAR = 1 then s.fset Reg.WME_CE_LOG_STAT Fld.WME_CE_LOG_STAT_OVERRUN 0
    else if getF val Fld.WME_CE_LOG_STAT_OVERRUN = 1 then
      s.fset Reg.WME_CE_LOG_STAT Fld.WME_CE_LOG_STAT_OVERRUN (s.setNow Reg.WME_CE_LOG_STAT Fld.WME_CE_LOG_STAT_OVERRUN)
    else s
  if getF val Fld.WME_CE_LOG_STAT_CLEAR = 1 then
    ((List.range 16).foldl (fun s n => s.fset (Reg.WME_CE_LOG n) Fld.WME_CE_LOG_VALID 0) s1).logStat
  else s1

def execWmeCeLogClear (val : W64) (s : State) : Res := nextState (s.ceLogClear val)

/-- A write of WME_FLIP_CTL: ignored while ARMED is 1 (R174), but that a 1 to ARMED outlives a flip of the same tick (R17). -/
def State.flipCtl (s : State) (val : W64) : State :=
  let s1 : State := { s with clk := { s.clk with armAgain := s.clk.armAgain || getF val Fld.WME_FLIP_CTL_ARMED == 1 } }
  if s.fget Reg.WME_FLIP_CTL Fld.WME_FLIP_CTL_ARMED = 1 then s1 else s1.setReg Reg.WME_FLIP_CTL (val &&& 0xC000FF0F003FFFFF)

def execFlipArm (val : W64) (s : State) : Res := nextState (s.flipCtl val)

/-! ### The line cache's maintenance and attributes (R181–R183) -/

/-- A full invalidation ends (R181); it runs on CCLK, from lock on (R38). -/
def execFullInvalidationDone (s : State) : Res :=
  nextState (if s.tlc.inval && s.clk.pll then
    let s1 : State := { s with tlc := { s.tlc with inval := false } }
    let s2 := s1.setCache []
    match s2.tlc.maint with
    | some m => if m.inval then s2.maintEnd { m with op := 1 } else s2
    | none => s2
  else s)

/-- A write of TLC_MAINT with an OP (R182): ignored while BUSY or with SCOPE 3. -/
def State.maintWrite (s : State) (op : Nat) (val : W64) : State :=
  let scope := getF val Fld.TLC_MAINT_SCOPE
  if s.tlc.maint.isSome ∨ scope = 3 then s
  else
    let s1 := s.setReg Reg.TLC_MAINT (setF (val &&& 0x0FFFFE33) Fld.TLC_MAINT_OP op)
    if op = 0 then s1
    else s1.maintStart { op := op, scope := scope, a := getF val Fld.TLC_MAINT_SET, b := getF val Fld.TLC_MAINT_WAY, cmd := none, left := [], inval := false }

def execTlcMaintClean (val : W64) (s : State) : Res := nextState (s.maintWrite 1 val)
def execTlcMaintInvalidate (val : W64) (s : State) : Res := nextState (s.maintWrite 2 val)
def execTlcMaintCleanInvalidate (val : W64) (s : State) : Res := nextState (s.maintWrite 3 val)

/-- A write of TLC_ATTR[n]: checked as a whole, and read-only under CONFIG_LOCK (R183, Table 5-6, R18). -/
def State.attrWrite (s : State) (n : Nat) (val : W64) : State :=
  let bad := getF val Fld.TLC_ATTR_VALID = 1 ∧ (getF val Fld.TLC_ATTR_LIMIT < getF val Fld.TLC_ATTR_BASE ∨
    hostHanks ≤ getF val Fld.TLC_ATTR_LIMIT ∨ 2 ≤ getF val Fld.TLC_ATTR_WPOL ∨ getF val Fld.TLC_ATTR_ALLOC = 3)
  if 64 ≤ n ∨ s.rwlLocked = true ∨ bad then s else (s.keepAttr (Reg.TLC_ATTR n)).setReg (Reg.TLC_ATTR n) (val &&& 0xFFFFFFFFFFFE003B)

def execTlcAttrWrite (n : Nat) (val : W64) (s : State) : Res := nextState (s.attrWrite n val)

end Sys2Proof.Machine
end

