-- ==== Sys2Proof/Machine/Health.lean ====
section
/-! DEFINITION. Life used, health status and the records of their changes (R159, R203, R357, R358, R362). -/

namespace Sys2Proof.Machine

/-- Mean page programs per page, from the wear ledger: units of 2^20 programs over 8,388,608 hanks of 2,176 pages (R138, R159). -/
def State.meanPrograms (s : State) : Nat :=
  ((s.hanks.wear.filter fun e => e.2 != 0xFFFF).map fun e => e.2).sum * 2 ^ 20 / (2176 * 2 ^ 23)

/-- Life used, in %: medium wear, spare used, powered time of 25 years, and RES_LIFE (R159, R203). -/
def State.lifeUsed (s : State) : Nat :=
  let wear := min 100 (100 * s.meanPrograms / 20000000)
  let spare := s.fget Reg.TLC_FREE Fld.TLC_FREE_SPARE_USED
  let time := min 100 (100 * s.hanks.poweredTicks / 78894000000000000)
  max (max wear spare) (max time (s.fget Reg.GAU_STAT Fld.GAU_STAT_RES_LIFE))

/-- A 16-bit two's complement number. -/
def int16 (n : Nat) : Int := if n < 32768 then n else (n : Int) - 65536

/-- Device temperature in °C (R357). -/
def State.deviceTemp (s : State) : Int := int16 (s.fget Reg.THM_MAX Fld.THM_MAX_TEMP)

/-- Rises of the corrected counts since cast-on (Table 11-6). -/
def State.corrVolatile (s : State) : Nat := min (2 ^ 32 - 1) ((s.reg Reg.WME_CE_COUNT).toNat - s.cxl.wmBase)
def State.corrSum (s : State) : Nat := ((List.range 34).map fun c => (s.reg (Reg.MCH_CNT_CORR c)).toNat).sum
def State.corrPersistent (s : State) : Nat := min (2 ^ 32 - 1) (s.corrSum - s.cxl.corrBase)

/-- Health Status (Table 11-6). -/
def State.healthStatus (s : State) : Nat :=
  let w75 := s.fget Reg.TLC_FREE Fld.TLC_FREE_W75 == 1 || s.fget Reg.GAU_STAT Fld.GAU_STAT_W75 == 1 ||
    (List.range 34).any (fun c => s.fget (Reg.MCH_STATE c) Fld.MCH_STATE_DEGRADED == 1) ||
    s.fget Reg.WME_STATE Fld.WME_STATE_DEGRADED == 1 || s.fget Reg.RDY_STATUS Fld.RDY_STATUS_FAIL != 0
  let perf := decide (s.fget Reg.ADM_THROTTLE Fld.ADM_THROTTLE_SCALE < 100)
  let repl := s.fget Reg.TLC_FREE Fld.TLC_FREE_LIFE_CRIT == 1 || s.fget Reg.GAU_STAT Fld.GAU_STAT_RES_LIFE == 100 ||
    decide (s.fget Reg.GAU_STAT Fld.GAU_STAT_PHASES < 3)
  (if w75 then 1 else 0) + (if perf then 2 else 0) + (if repl then 4 else 0)

/-- Media Status (Table 11-6). -/
def State.mediaStatus (s : State) : Nat :=
  if s.failedBit rKEYS || s.failedBit rMAP then 3
  else if !(s.ready rSKEINS) || s.cxl.sanitizing != 0 then 1 else 0

/-- Additional Status: life used, device temperature, and the corrected counts over their thresholds. -/
def State.addLife (s : State) : Nat :=
  if s.fget Reg.TLC_FREE Fld.TLC_FREE_LIFE_CRIT = 1 ∨ s.fget Reg.GAU_STAT Fld.GAU_STAT_RES_LIFE = 100 then 2 else if 75 ≤ s.lifeUsed then 1 else 0
def State.addTemp (s : State) : Nat := min 2 (s.fget Reg.ADM_THROTTLE Fld.ADM_THROTTLE_THERM_LVL)
def State.addVol (s : State) : Nat := if s.cxl.alerts.getD 3 0 < s.corrVolatile then 1 else 0
def State.addPer (s : State) : Nat := if s.cxl.alerts.getD 4 0 < s.corrPersistent then 1 else 0

/-- Which values stand beyond their alert thresholds, of those enabled (R358): life, over- and under-temperature, both counts. -/
def State.crossed (s : State) : List Nat :=
  let on := fun (k : Nat) (b : Bool) => if s.cxl.alertOn.testBit k && b then 1 else 0
  [on 0 (decide (s.cxl.alerts.getD 0 0 ≤ s.lifeUsed)), on 1 (decide (int16 (s.cxl.alerts.getD 1 0) ≤ s.deviceTemp)),
   on 2 (decide (s.deviceTemp ≤ int16 (s.cxl.alerts.getD 2 0))), on 3 (decide (s.cxl.alerts.getD 3 0 ≤ s.corrVolatile)),
   on 4 (decide (s.cxl.alerts.getD 4 0 ≤ s.corrPersistent))]

/-- What the records of R362 watch: three Health Status bits, Media Status, four Additional Status fields, and the crossings. -/
def State.watched (s : State) : List Nat :=
  let h := s.healthStatus
  [h % 2, h / 2 % 2, h / 4 % 2, s.mediaStatus, s.addLife, s.addTemp, s.addVol, s.addPer] ++ s.crossed

/-- The health payload as numbers (R357). -/
def State.healthPayload (s : State) : List Nat :=
  [s.healthStatus, s.mediaStatus, s.addLife + 4 * s.addTemp + 16 * s.addVol + 32 * s.addPer, s.lifeUsed,
   (s.deviceTemp % 65536).toNat, s.fget Reg.GAU_BINDOFF_CNT Fld.GAU_BINDOFF_CNT_CUT, s.corrVolatile, s.corrPersistent]

/-- Place a Memory Module Event Record for each watched value that changed since the last look (R358, R362): warning, or
informational for a return to 0 of an Additional Status field. -/
def State.healthCheck (s : State) : State :=
  let now := s.watched
  let old := if s.cxl.health.isEmpty then now else s.cxl.health
  let s1 : State := { s with cxl := { s.cxl with health := now } }
  (List.range now.length).foldl (fun s k =>
    let v := now.getD k 0
    if v = old.getD k 0 then s
    else s.eventSev evMODULE (if 4 ≤ k ∧ k < 8 ∧ v = 0 then 0 else 1) 0 0xFFFF 0 (k :: s.healthPayload)) s1

end Sys2Proof.Machine
end

