-- ==== Sys2Proof/Machine/Gauge.lean ====
section
/-! DEFINITION. The reserve and the gauge (chapter 6, R194 to R203): usable energy, the pool's cap, bank tests and failures. -/

namespace Sys2Proof.Machine

/-! ### Capacitance and usable energy (R196, R470) -/

/-- Factor of bank `b` at a temperature in °C: linear between the factory's points, every 10 °C from −40 °C (R470), in 1/65,536. -/
def factorOf (b : Nat) (t : Int) : Nat :=
  if t ≤ -40 then Config.bankFactor b 0
  else if 90 ≤ t then Config.bankFactor b 13
  else
    let k := ((t + 40) / 10).toNat
    let r := ((t + 40) % 10).toNat
    (Config.bankFactor b k * (10 - r) + Config.bankFactor b (k + 1) * r) / 10

def State.bank (s : State) (b : Nat) : Bank := dget (fun _ => Bank.init) s.energy.banks b
def State.setBank (s : State) (b : Nat) (x : Bank) : State := { s with energy := { s.energy with banks := tput s.energy.banks b x } }
def State.bankState (s : State) (b : Nat) : Nat := s.fget (Reg.GAU_BANK b) Fld.GAU_BANK_STATE
def State.setBankState (s : State) (b v : Nat) : State := s.fset (Reg.GAU_BANK b) Fld.GAU_BANK_STATE v

/-- Capacitance of a bank at the present temperature, in 0.1 µF (R470). DESIGN CHOICE (log 92): the spec gives no rounding, and the quotient is
rounded down. -/
def State.bankCap (s : State) (b : Nat) : Nat :=
  let x := s.bank b
  let f0 := factorOf b x.tTest
  if f0 = 0 then x.cTest else x.cTest * factorOf b s.energy.capTemp / f0

/-- Whether a bank counts in E_usable: ACTIVE, or an active bank under test. -/
def State.bankActive (s : State) (b : Nat) : Bool :=
  s.bankState b == 0 || (s.bankState b == 2 && !s.energy.testSpare)

/-- Banks that are spares: isolated, or under a spare's test. -/
def State.spareBanks (s : State) : List Nat := (List.range 12).filter fun b => s.bankState b == 1 || (s.bankState b == 2 && s.energy.testSpare)

def State.activeBanks (s : State) : List Nat := (List.range 12).filter fun b => s.bankActive b

/-- Σ over banks of the products of the others' ESR, and the product of all: 1/r_par = Q/P with ESR in mΩ. -/
def parP : List Nat → Nat
  | [] => 1
  | e :: l => e * parP l
def parQ : List Nat → Nat
  | [] => 0
  | e :: l => parP l + e * parQ l

/-- E_usable in µJ (R196), exactly: `v` gives each bank's voltage in mV. Of fewer than ten active banks the one that holds most is
left out. V_end is A/B mV. -/
def State.energyAt (s : State) (v : Nat → Nat) : Nat :=
  let act := s.activeBanks
  let esrs := act.map fun b => max 1 (s.fget (Reg.GAU_BANK b) Fld.GAU_BANK_ESR)
  let q := parQ esrs
  let a := 90000 * q + 81 * parP esrs
  let d := 10 * q
  let each := act.map fun b => s.bankCap b * ((v b) ^ 2 * d ^ 2 - a ^ 2)
  let sum := if act.length < 10 then each.sum - each.foldl max 0 else each.sum
  sum / (d ^ 2 * 20000000)

/-- Voltage at which a bank counts: its own while under test, or when a bind-off abandoned its test (R196, Table 6-20). -/
def State.bankVolt (s : State) (b : Nat) : Nat := if s.bankState b = 2 ∨ s.energy.apart = some b then (s.bank b).own else s.energy.vbus

/-- Largest verify-retry index over the active dies (R199). -/
def State.idxMax (s : State) : Nat :=
  (List.range 34).foldl (fun a ch => (List.range 8).foldl (fun a i =>
    max a (s.fget (Reg.MCH_RETRY_IDX ch (s.dieOf ch i)) Fld.MCH_RETRY_IDX_IDX)) a) 0

/-- GAU_CAP_LINES without its minimum, for an energy in µJ (R198). -/
def capOf (e line : Nat) : Nat :=
  let num := e * 16 - 24 * 60000
  if e * 16 ≤ 24 * 60000 then 0 else num * 1000000 / (24 * line)

/-! ### The recompute (R195, R198–R203) -/

/-- Set a mark of GAU_STAT once RES_LIFE reaches its threshold, with a GAUGE event (R203). -/
def State.lifeMark (s : State) (life th : Nat) (f : Field) : State :=
  if th ≤ life ∧ s.fget Reg.GAU_STAT f = 0 then (s.fset Reg.GAU_STAT f 1).event evGAUGE 0 0xFFFF 0 [th, life] else s

/-- The banks' own registers at a recompute. -/
def State.bankRegs (s : State) : State :=
  (List.range 12).foldl (fun s b =>
    let r := Reg.GAU_BANK b
    let c := s.bankCap b
    ((s.fset r Fld.GAU_BANK_CAP c).fset r Fld.GAU_BANK_PCT (min 255 (c / 10))).fset r Fld.GAU_BANK_AGE
      (min 4095 ((s.clk.now - (s.bank b).testedAt) / 100000000))) s

/-- Compute the usable energy and set GAU_CAP_LINES from it. DESIGN CHOICE (log 92): the spec gives no rounding of R_PAR, V_END and PCT, which are
rounded down, nor does it say whether a bank under test counts in E_FULL at its own voltage: it counts there at 33.0 V, as every bank does. -/
def State.recompute' (s : State) : State :=
  let s := s.bankRegs
  let e := s.energyAt s.bankVolt
  let full := s.energyAt fun _ => 33000
  let act := s.activeBanks
  let esrs := act.map fun b => max 1 (s.fget (Reg.GAU_BANK b) Fld.GAU_BANK_ESR)
  let line := max 54000 (8000 + 20000 * s.idxMax / 256)
  let un := if s.energy.phases ≤ 2 then 0 else capOf e line
  let cap := min 2097152 un
  let r := Reg.GAU_BUS
  let s1 := ((((s.fset r Fld.GAU_BUS_C_TOT ((act.map fun b => s.bankCap b).sum)).fset r Fld.GAU_BUS_R_PAR
    (if parQ esrs = 0 then 0 else 100 * parP esrs / parQ esrs)).fset r Fld.GAU_BUS_V_END
    (if parQ esrs = 0 then 0 else (90000 * parQ esrs + 81 * parP esrs) / (10 * parQ esrs))).fset r Fld.GAU_BUS_V_BUS s.energy.vbus)
  let s2 := ((s1.fset Reg.GAU_E_USABLE Fld.GAU_E_USABLE_E_USABLE e).fset Reg.GAU_E_USABLE Fld.GAU_E_USABLE_E_FULL full).fset
    Reg.GAU_PARAM Fld.GAU_PARAM_E_LINE line
  let s3 := (s2.fset Reg.GAU_CAP_LINES Fld.GAU_CAP_LINES_CAP cap).fsetSat Reg.GAU_CAP_LINES Fld.GAU_CAP_LINES_UNCAPPED un
  let s4 := s3.fset Reg.TLC_WT_STAT Fld.TLC_WT_STAT_NOFREE (if cap < 1024 then 1 else 0)
  let life := min 100 (100 * (500000 - full) / 409917)
  let g := Reg.GAU_STAT
  let s5 := ((s4.fset g Fld.GAU_STAT_RES_LIFE life).fset g Fld.GAU_STAT_N_ACTIVE act.length).fset g Fld.GAU_STAT_SPARES s.spareBanks.length
  let s6 := ((s5.lifeMark life 50 Fld.GAU_STAT_W50).lifeMark life 75 Fld.GAU_STAT_W75).lifeMark life 90 Fld.GAU_STAT_W90
  if capOf full line < 2097152 ∧ s6.fget g Fld.GAU_STAT_BELOW_RATED = 0 then
    (s6.fset g Fld.GAU_STAT_BELOW_RATED 1).eventSev evGAUGE 0 0 0xFFFF 0 [capOf full line]
  else s6

/-- Discharger phases found at a recompute: a first failure warns, a second sets the cap to 0 (R195). -/
def State.setPhases (s : State) (n : Nat) : State :=
  let old := s.energy.phases
  let s1 := State.fset { s with energy := { s.energy with phases := n } } Reg.GAU_STAT Fld.GAU_STAT_PHASES n
  if n < old then s1.eventSev evGAUGE (if n ≤ 2 then 2 else 1) 0 0xFFFF 0 [n] else s1

/-- The voltage of an active bank under test as the gauge finds it: at most 3 V below the 33.0 V it starts from (Table 6-2), and otherwise open,
a free value (log 76). -/
def State.testVolt (s : State) : State :=
  match s.energy.test with
  | some (b, _) =>
    if s.energy.testSpare then s
    else let (v, s1) := s.draw 12; s1.setBank b { s1.bank b with own := 33000 - v.toNat % 3001 }
  | none => s

/-- The 1 ms recompute, or one within 10 µs of a failure (R196, R198, R200): the bus voltage, the temperature of the capacitor zone and
the working phases are as measured. The first from measured values makes GAUGE ready (Table 7-1). -/
def execGaugeRecompute (vbusMv capTempC phases : Nat) (s : State) : Res :=
  nextState (if s.power = .none ∨ s.power = .aux then s
  else
    let s1 : State := { s with energy := { s.energy with vbus := vbusMv, capTemp := int16 (capTempC % 65536) } }
    let s2 := (s1.setPhases (min 4 phases)).testVolt.recompute'
    (if s.power = .on then s2.setReady rGAUGE true else s2).healthCheck)

/-- The reserve bus first reaches 33.0 V: STATE becomes 1 (R195). -/
def execReserveCharged (s : State) : Res :=
  nextState (if s.power = .on ∧ s.fget Reg.GAU_STAT Fld.GAU_STAT_STATE = 0 then
    State.recompute' (State.fset { s with energy := { s.energy with vbus := max 33000 s.energy.vbus, charged := true } } Reg.GAU_STAT Fld.GAU_STAT_STATE 1)
  else s)

/-! ### Bank tests and failures (R197, R201, R202) -/

/-- Isolate a bank for its test (Table 6-2). -/
def State.testStart (s : State) (b : Nat) (cmd : Option Nat) : State :=
  let spare := s.bankState b == 1
  let s1 : State := { s with energy := { s.energy with test := some (b, cmd), testSpare := spare, lastTest := if spare then s.energy.lastTest else some b } }
  let s2 := (s1.setBank b { s1.bank b with own := 33000 }).setBankState b 2
  s2.fset Reg.GAU_TEST_CTL Fld.GAU_TEST_CTL_BANK b

/-- Whether a test can start: the reserve is charged and no test runs. -/
def State.canTest (s : State) : Bool :=
  s.power == .on && s.energy.test.isNone && s.fget Reg.GAU_STAT Fld.GAU_STAT_STATE == 1

/-- The next active bank in turn after the last tested, B0 being the first (R197). -/
def State.nextBank (s : State) : Option Nat :=
  let first := match s.energy.lastTest with | some b => b + 1 | none => 0
  ((List.range 12).map fun k => (first + k) % 12).find? fun b => s.bankState b == 0

def execBankTest (s : State) : Res :=
  nextState (if s.canTest then (match s.nextBank with | some b => s.testStart b none | none => s) else s)

/-- A spare begins to be charged to the bus (R202). -/
def State.chargeSpare (s : State) (b : Nat) : State :=
  let s1 := s.setBankState b 3
  s1.fset Reg.GAU_STAT Fld.GAU_STAT_SPARES s1.spareBanks.length

/-- A faded or failed bank leaves service: the gauge recomputes, a GAUGE event is raised, and the spare with the lowest number is
charged (R202); while the one spare left is under test, it is charged when its test ends. -/
def State.replaceBank (s : State) (b : Nat) : State :=
  let s1 := s.recompute'.event evGAUGE 4 0xFFFF b [s.bankState b]
  match (List.range 12).find? fun k => s1.bankState k == 1 with
  | some k => s1.chargeSpare k
  | none => if s1.spareBanks = [] then s1 else { s1 with energy := { s1.energy with wantSpare := s1.energy.wantSpare + 1 } }

/-- A spare's test has left it a spare: it is charged when a bank has been lost meanwhile (R202). -/
def State.spareReady (s : State) (b : Nat) : State :=
  if s.energy.wantSpare = 0 then s else State.chargeSpare { s with energy := { s.energy with wantSpare := s.energy.wantSpare - 1 } } b

/-- A bank fails or has faded: a spare is only reported; an active one is replaced, the bank being a spare already charged or not (R202). No
spare being left, none is waited for. -/
def State.bankLost (s : State) (b : Nat) (spare : Bool) : State :=
  let s1 := if spare then s.recompute'.event evGAUGE 4 0xFFFF b [s.bankState b] else s.replaceBank b
  if s1.spareBanks = [] then { s1 with energy := { s1.energy with wantSpare := 0 } } else s1

/-- Record the measurements of a test (Table 6-2, step 6), and whether the bank has faded (Table 6-4). -/
def State.testRecord (s : State) (b esr cap : Nat) (spare : Bool) : State :=
  let s1 := (s.setBank b { cTest := cap, tTest := s.energy.capTemp, own := if spare then 0 else s.energy.vbus, testedAt := s.clk.now }).fsetSat
    (Reg.GAU_BANK b) Fld.GAU_BANK_ESR esr
  if cap < 600 ∨ 250 < esr then (s1.setBankState b 4).bankLost b spare
  else if spare then ((s1.setBankState b 1).recompute').spareReady b
  else (s1.setBankState b 0).recompute'

/-- The banks of a SELF_TEST of kind 5 still to be tested: the first that is ACTIVE starts when no test runs; the others are passed over. -/
def State.selfTestNext (s : State) : State :=
  (List.range 12).foldl (fun s b =>
    match tfind s.cmds fun _ c => c.running && c.work.contains (wOther (805000 + b)) with
    | some (id, _) =>
      if s.energy.test.isSome then s
      else if s.bankState b = 0 ∧ s.canTest = true then s.testStart b (some id)
      else s.workDone fun w => w == wOther (805000 + b)
    | none => s) s

/-- The command that a test served: a GAUGE_TEST completes with GAU_BANK; a SELF_TEST counts the bank and goes on with the next. -/
def State.testServed (s : State) (b : Nat) (cmd : Option Nat) (complete : Bool) : State :=
  let s1 := match cmd with
    | some id =>
      (match tget s.cmds id with
      | some c =>
        if c.pkt.opcode = 0x0A02 then s.finish id (if complete then stOK else stABORTED) (s.reg (Reg.GAU_BANK b)).toNat 0 []
        else s.itemDone (wOther (805000 + b)) (b + 1) (complete && decide (s.bankState b < 2))
      | none => s)
    | none => s
  s1.selfTestNext

/-- A test ends: its measurements in mΩ and 0.1 µF, or it could not complete, which fails the bank (R197, Table 6-4). A GAUGE_TEST it
served completes with GAU_BANK. -/
def State.bankTestEnds (s : State) (complete : Bool) (esr cap : Nat) : State :=
  match s.energy.test with
  | none => s
  | some (b, cmd) =>
    let spare := s.energy.testSpare
    let s1 : State := { s with energy := { s.energy with test := none, testSpare := false } }
    let s2 := if complete then s1.testRecord b esr cap spare else (s1.setBankState b 5).bankLost b spare
    s2.healthCheck.testServed b cmd complete

def execBankTestDone (complete : Bool) (esr cap : Nat) (s : State) : Res := nextState (s.bankTestEnds complete esr cap)

/-- A write of GAU_TEST_CTL: its RWS fields, FBANK, and with FORCE a test of FBANK at once unless one runs (Table 6-16). -/
def State.gauTest (s : State) (val : W64) : State :=
  let r := Reg.GAU_TEST_CTL
  let days := getF val Fld.GAU_TEST_CTL_SPARE_DAYS
  let per := getF val Fld.GAU_TEST_CTL_PERIOD
  let fb := getF val Fld.GAU_TEST_CTL_FBANK
  let held := s.rwsHeld
  let s1 := if 7 ≤ days ∧ days ≤ 90 ∧ held = false then s.fset r Fld.GAU_TEST_CTL_SPARE_DAYS days else s
  let s2 := if 1 ≤ per ∧ per ≤ 600 ∧ held = false then s1.fset r Fld.GAU_TEST_CTL_PERIOD per else s1
  let s3 := (if held then s2 else s2.rwsSave).fset r Fld.GAU_TEST_CTL_FBANK fb
  if getF val Fld.GAU_TEST_CTL_FORCE = 1 ∧ fb < 12 ∧ s3.canTest = true ∧ s3.bankState fb < 2 then s3.testStart fb none else s3

def execGauTestForce (val : W64) (s : State) : Res := nextState (s.gauTest val)

/-- A bank fails: its switch opens (R202). A test of it ends without completing. -/
def State.bankFails (s : State) (bank : Nat) : State :=
  if bank < 12 ∧ s.bankState bank < 4 ∧ s.power ≠ .none then
    let spare := s.spareBanks.contains bank
    let (mine, cmd) := match s.energy.test with | some (b, c) => (b == bank, c) | none => (false, none)
    let s1 : State := if mine then { s with energy := { s.energy with test := none, testSpare := false } } else s
    let s3 := ((s1.setBankState bank 5).bankLost bank spare).healthCheck
    if mine then s3.testServed bank cmd false else s3
  else s

def execBankFailure (bank : Nat) (s : State) : Res := nextState (s.bankFails bank)

/-- A charging spare is within 0.5 V of the bus: connected and ACTIVE, at the bus voltage (R202). -/
def execSpareBankConnect (bank : Nat) (s : State) : Res :=
  nextState (if bank < 12 ∧ s.bankState bank = 3 then ((s.setBankState bank 0).setBank bank { s.bank bank with own := s.energy.vbus }).recompute' else s)

/-- The test of a spare bank every SPARE_DAYS days (R197). The row's first run on a spare starts it, so that it reads TESTING; its next, or
BANK_TEST_DONE, ends it with its measurements. -/
def execSpareBankTest (bank : Nat) (complete : Bool) (esr cap : Nat) (s : State) : Res :=
  if bank < 12 ∧ s.bankState bank = 1 ∧ s.canTest = true then nextState (s.testStart bank none)
  else if s.energy.test = some (bank, none) ∧ s.energy.testSpare = true then nextState (s.bankTestEnds complete esr cap)
  else nextState s

end Sys2Proof.Machine
end

