-- ==== Sys2Proof/Machine/Power.lean ====
section
/-! DEFINITION. What power loss takes from the module, and the start of a cold or warm cast-on (chapter 7, R227, R228, Table 7-3). -/

namespace Sys2Proof.Machine

/-! ### Histogram flush (R403, R405) -/

/-- The counts on chip go to the Stash; HST_SEQ rises by 2 for the change. -/
def State.histFlush (s : State) : State :=
  if s.hist.dirty then
    let add := fun (t : Tbl Nat) (e : Nat × Nat) => dput (fun _ => 0) t e.1 (dget (fun _ => 0) t e.1 + e.2)
    let h : Hist := { s.hist with flushed := s.hist.bins.foldl add s.hist.flushed, bins := [], flushes := s.hist.flushes + 1, dirty := false }
    State.setReg { s with hist := h } Reg.HST_SEQ (s.reg Reg.HST_SEQ + 2)
  else s

/-! ### Registers that a cast-on keeps -/

/-- A register's word at a cast-on: fields kept in the Stash stay, the others take their reset values. -/
def keepWord (off : Nat) (w : W64) : W64 :=
  match specOf off with
  | none => 0
  | some r => r.fields.foldl (fun a f => if f.kept then setF a f.field (getF w f.field) else a) (regReset off)

/-- All registers at a cast-on. -/
def keepRegs (t : Tbl W64) : Tbl W64 := t.foldl (fun a e => dput regReset a e.1 (keepWord e.1 e.2)) []

/-- Registers of a block back at their reset values. -/
def State.resetBlock (s : State) (p : Nat → Bool) : State :=
  { s with regs := s.regs.filter fun e => !(p e.1) }

/-! ### Temperature margins that a cast-on looks at (R431) -/

/-- Whether sensor `k` is active and not broken: a working sensor of its zone. -/
def State.sensorWorks (s : State) (k : Nat) : Bool :=
  s.fget (Reg.THM_SENSOR k) Fld.THM_SENSOR_ACTIVE == 1 && s.fget (Reg.THM_SENSOR k) Fld.THM_SENSOR_BROKEN == 0

/-- Reading of sensor `k` in °C. -/
def State.sensorTemp (s : State) (k : Nat) : Int := int16 (s.fget (Reg.THM_SENSOR k) Fld.THM_SENSOR_TEMP)

/-- Whether some working sensor stands above its critical threshold less the margin. -/
def State.hotSensor (s : State) : Bool :=
  (List.range 58).any fun k => s.sensorWorks k &&
    decide ((s.fget (Reg.THM_ZONE (zoneOf k)) Fld.THM_ZONE_CRIT : Int) - 15 < s.sensorTemp k)

/-! ### What is lost -/

/-- A link as it starts after its lanes were off: what the Stash keeps (areas held for the neighbour, its seals, pending operations). -/
def Link.restart (l : Link) : Link :=
  { Link.init with holders := l.holders, senders := l.senders, seals := l.seals.filter (·.whole),
                   ops := (l.ops.filter fun o => decide (5 ≤ o.op ∧ o.op ≤ 8)).map fun o => { o with sent := false, cmd := none } }

/-- Regions at power-down (R325): MIRRORED, or SYNCING under spill replay, start DEGRADED; under a full resync, BROKEN. -/
def State.regionsDown (s : State) : State :=
  (List.range 2).foldl (fun s k => (List.range 16).foldl (fun s r =>
    let st := s.fget (Reg.PLK_REGION k r) Fld.PLK_REGION_STATE
    let full := match (s.link k).sync with | some y => y.region == r && y.full | none => false
    if st = 2 then s.setRegion k r 3
    else if st = 1 then s.setRegion k r (if full then 4 else 3)
    else s) s) s

/-- The Stash's copies come back: the verify-retry index of each die (R92), and the progress of each die rebuild, saved every 65,536 pages
(R119). -/
def State.stashBack (s : State) : State :=
  let dies := ((s.med.window.map Prod.fst) ++ s.med.windowSaved.map Prod.fst).eraseDups
  let s1 := dies.foldl (fun s k =>
    match dget (fun _ => []) s.med.windowSaved k with
    | [] => s.setReg (Reg.MCH_RETRY_IDX (k / 9) (k % 9)) (regReset (Reg.MCH_RETRY_IDX (k / 9) (k % 9)))
    | w => s.retryIdx (k / 9) (k % 9) w)
    { s with med := { s.med with window := s.med.windowSaved } }
  ((List.range 34).filter fun c => s.fget (Reg.MCH_STATE c) Fld.MCH_STATE_REBUILD == 1).foldl (fun s c =>
    s.fset (Reg.MCH_REBUILD c) Fld.MCH_REBUILD_DONE (s.fget (Reg.MCH_REBUILD c) Fld.MCH_REBUILD_DONE / 65536 * 65536)) s1

/-- Work on a hank whose command is lost: the module finishes it (R153, R154). -/
def HankWork.alone : HankWork → HankWork
  | .hint => .hint
  | .zero _ => .zero none
  | .secure _ => .secure none

/-- The volatile contents of the controller and of working memory go (R165, R441): pool, merge buffer, caches, tables, queues. The
medium, the Stash with its journals and records, and the flash stay. -/
def State.loseWork (s : State) : State :=
  let s := s.stashBack
  { s with
    adm := { Adm.init with critical := s.adm.critical }
    hanks := { s.hanks with ckptRun := none, restore := [], mapsReady := false, fillRebuild := false, retireQ := []
                            work := s.hanks.work.map fun e => (e.1, e.2.alone) }
    med := { s.med with progs := [], rescues := [], fails := [], starts := [], restartAt := [], refreshQ := [], staged := [], plan := [],
                        gapDone := false, hankRescue := [] }
    crypto := { s.crypto with cache := [], retiring := s.crypto.retiring.map fun e => (e.1, none) }
    tlc := Tlc.init
    wm := { Wm.init with hard := s.wm.hard }
    rings := Rings.init
    cmds := []
    energy := { s.energy with test := none, testSpare := false, prepareCmd := none, gpf := false, dump := [] }
    cast := { l3 := false, failed := [], replayLeft := [], ctrLeft := [], held := false }
    seals := { s.seals with verify := [], version := false, caps := false, algs := false, dhe := false, sessions := [] } }

/-- The sector of a flash word: 256 × bank + sector. -/
def sectorOf (w : Nat) : Nat := w / 2 ^ 19 * 256 % 512 + w % 2 ^ 19 / 2048

/-- A word of the flash, numbered 2^19 × bank + word (R420). -/
def State.flashWordAt (s : State) (w : Nat) : W64 :=
  match tget s.plat.flash w with
  | some v => v
  | none =>
    match tget s.plat.flashLost (sectorOf w) with
    | some n => Config.freeValue 64 (n + w % 2048)
    | none => if s.plat.flashErased.contains (sectorOf w) then BitVec.allOnes 64 else Config.shippedFlash w

/-- The contents of some flash sectors are open: an erase of them failed or was cut. -/
def State.sectorsOpen (s : State) (ks : List Nat) : State :=
  ks.foldl (fun s k =>
    { s with
      freeCtr := s.freeCtr + 2048
      plat := { s.plat with
        flash := s.plat.flash.filter fun e => sectorOf e.1 != k
        flashPgm := s.plat.flashPgm.filter fun e => sectorOf e.1 != k
        flashErased := s.plat.flashErased.filter (· != k)
        flashLost := tput s.plat.flashLost k s.freeCtr } }) s

/-- The sectors that an erase takes: one, or all 256 of a bank (Table 14-10). -/
def eraseSectors (op w : Nat) : List Nat := if op = 4 then (List.range 256).map (w / 2 ^ 19 * 256 + ·) else [sectorOf w]

/-- Power goes while a flash operation runs: the spec states no contents for what it was changing. -/
def State.flashCut (s : State) : State :=
  match s.plat.flashOp with
  | none => s
  | some (op, w) =>
    if op = 2 then
      let (v, s1) := s.draw 64
      { s1 with plat := { s1.plat with flash := tput s1.plat.flash w v, flashOp := none } }
    else State.sectorsOpen { s with plat := { s.plat with flashOp := none } } (eraseSectors op w)

/-- The lines of a page whose program was cut off: each reads old, new, or as poison, which the spec leaves open: a free value (R223). -/
def State.cutProgram (s : State) (p : Program) : State :=
  if p.start.isNone then s
  else p.lines.foldl (fun s l =>
    let (v, s1) := s.draw 2
    if v.toNat = 0 then s1
    else if v.toNat = 1 then s1.medPut p.phn p.s p.d l.1 l.2
    else s1.medPut p.phn p.s p.d l.1 { s1.medGet p.phn p.s p.d l.1 with poison := true }) s

/-- Everything volatile goes when main power goes, and the page programs under way are cut off. -/
def State.lose (s : State) : State :=
  let s := s.med.progs.foldl (fun s e => s.cutProgram e.2) s.flashCut
  let s0 := (s.fset (Reg.PLK_LINK 0) Fld.PLK_LINK_STATE 0).fset (Reg.PLK_LINK 1) Fld.PLK_LINK_STATE 0
  let s1 := s0.regionsDown.loseWork
  { s1 with
    crypto := { s1.crypto with store := [], ideMem := [], ideIo := [], ideMemSecure := false, ideIoSecure := false, ideMemFailed := false }
    linkA := s1.linkA.restart
    linkB := s1.linkB.restart
    chain := Chain.init
    cxl := { s1.cxl with decoders := [], hdmErr := [], linkUp := false, cxlOn := false, lanes := 0, rate := 0, memActive := false, mboxBusy := [], bgOp := 0,
                         bgDone := 0, policy := [0, 0, 0, 0], scan := none, scanMb := none, fwStage := none,
                         locked := s1.cxl.userPass.isSome, frozen := false, userTries := 0, masterTries := 0, fmWait := [], health := [] }
    hist := { s1.hist with prev := List.replicate 8 false, bytes := List.replicate 6 0, bytes0 := List.replicate 6 0, winAt := none, winLive := false, bins := [] }
    plat := { s1.plat with unlockStep := 0, flashOp := none, cores := s1.plat.cores.map (fun c => if c = 3 then 0 else c), coldHold := false, takeover := false, sramRow := List.replicate 8 0,
                           warmWait := false } }

/-- The basic status block (Table 11-10): FLAGS bit 7 is main power off. -/
def State.statusBlock (s : State) : List Byte :=
  let bit := fun (n : Nat) (b : Bool) => if b then 2 ^ n else 0
  let lvl := s.fget Reg.ADM_THROTTLE Fld.ADM_THROTTLE_THERM_LVL
  let flags := bit 0 (s.ready rSKEINS) + bit 1 (s.ready rMBOX) + bit 2 (s.power == .bindoff || s.power == .bound) +
    bit 3 (s.fget Reg.TLC_FREE Fld.TLC_FREE_LIFE_CRIT == 1) + bit 4 (s.fget Reg.RDY_STATUS Fld.RDY_STATUS_FAIL != 0) +
    bit 5 (decide (1 ≤ lvl)) + bit 6 (decide (2 ≤ lvl)) + bit 7 (s.power == .none || s.power == .aux || s.power == .waitP12v)
  let u := s.reg Reg.PLK_UADDR
  bytesOf [1, flags] ++ le 2 (s.fget Reg.THM_MAX Fld.THM_MAX_TEMP) ++
    bytesOf [s.lifeUsed, s.fget Reg.GAU_STAT Fld.GAU_STAT_RES_LIFE, s.fget Reg.TLC_FREE Fld.TLC_FREE_SPARE_USED,
      s.fget Reg.GAU_STAT Fld.GAU_STAT_STATE] ++
    le 4 (s.fget Reg.GAU_CAP_LINES Fld.GAU_CAP_LINES_CAP) ++ le 4 (s.fget Reg.GAU_E_USABLE Fld.GAU_E_USABLE_E_USABLE) ++
    le 4 (s.fget Reg.RDY_STATUS Fld.RDY_STATUS_READY) ++ le 4 (s.fget Reg.RDY_STATUS Fld.RDY_STATUS_FAIL) ++
    le 2 (getF u Fld.PLK_UADDR_ADDR + 32768 * getF u Fld.PLK_UADDR_VALID) ++
    bytesOf [s.fget Reg.RDY_CASTON Fld.RDY_CASTON_PLAN, 0] ++ le 4 (s.fget Reg.GAU_BINDOFF_CNT Fld.GAU_BINDOFF_CNT_CUT)

/-- Main power ends: only D0 stays, from aux or from P12V, or nothing does (R207, R433). Of RDY_STATUS, AO and STASH stay 1. -/
def State.powerDown (s : State) (p : Power) : State :=
  let s1 := s.lose
  (({ s1 with power := p, cxl := { s1.cxl with basic := s.statusBlock } }).fset Reg.RDY_STATUS Fld.RDY_STATUS_READY 3).setReg Reg.RDY_SKEIN 0 |>.setReg Reg.RDY_CHAN 0

/-! ### Capacity and shares at a cast-on (R69, R350) -/

/-- Hanks that LD 0 of an SLD holds (R350). -/
def State.sldHanks (s : State) : Nat :=
  let n := s.fget Reg.PLK_PLYRES Fld.PLK_PLYRES_COUNT
  if n = 0 then hostHanks else s.fget Reg.PLK_PLYRES Fld.PLK_PLYRES_BASE / 256 * 256

/-- Shares of the LDs and of class 4, and the token rate, for a lane plan (R69, Tables 2-8, 2-14). -/
def State.planShares (s : State) (plan : Nat) : State :=
  let l := if plan = 1 then 2848 else 3360
  let holding := (List.range 16).filter fun n => (s.cxl.lds.getD n ⟨0, 0⟩).count != 0
  let each := if s.cxl.mld then l / max 1 holding.length else l
  let s1 := (List.range 16).foldl (fun s n => s.fset (Reg.ADM_RESV n) Fld.ADM_RESV_SHARE
    (if s.cxl.mld then (if holding.contains n then each else 0) else if n = 0 then each else 0)) s
  (s1.fset (Reg.ADM_RESV_INT 4) Fld.ADM_RESV_INT_SHARE (if plan = 1 then 512 else 0)).fset Reg.ADM_CTL Fld.ADM_CTL_TOKENS
    (if plan = 1 then 150 else 300)

/-! ### The start of a cast-on -/

/-- The Helra lanes of a link power up (R307, Table 7-1): it trains, or it is OFF when PLK_CTL disables it. -/
def State.linkStart (s : State) (k : Nat) : State :=
  s.fset (Reg.PLK_LINK k) Fld.PLK_LINK_STATE (if s.fbit Reg.PLK_CTL { lo := 0, hi := 1 } k then 1 else 5)

/-- A component that INJECT_FAULT failed is checked (R391): whether it passes is not determined, so it is drawn; one that passes becomes
the spare of its kind. A die whose position is still being rebuilt stays in the list. -/
def State.checkInjected (s : State) : State :=
  s.plat.injected.foldl (fun s x =>
    let (kind, a, b) := x
    if kind = 1 ∧ (s.indexOf a b).isSome then { s with plat := { s.plat with injected := s.plat.injected ++ [x] } }
    else
      let (v, s1) := s.draw 1
      if v = 0 then s1
      else if kind = 1 then s1.fsetBit (Reg.MCH_STATE a) Fld.MCH_STATE_DIE_FAILED b false
      else if kind = 3 then s1.fsetBit Reg.WME_STATE Fld.WME_STATE_FAILED a false
      else if kind = 4 then s1.fset Reg.KEY_STAT (engineField a) 0
      else if kind = 5 then { s1 with plat := { s1.plat with cores := lset s1.plat.cores a 1 } }
      else s1.fset (Reg.GAU_BANK a) Fld.GAU_BANK_STATE 1) { s with plat := { s.plat with injected := [] } }

/-- A QDR rebuild that power loss interrupted is over: the spare serves the slot (R169), and the failed device's remap entries are free (R167). -/
def State.takeSpareDev (s : State) : State :=
  match (List.range 9).find? fun k => s.devFailed (s.slotDev k), s.spareDev with
  | some k, some d =>
    let m := s.fget Reg.WME_STATE Fld.WME_STATE_MAP
    (s.fset Reg.WME_STATE Fld.WME_STATE_MAP (m - s.slotDev k * 16 ^ k + d * 16 ^ k)).freeRemaps (s.slotDev k)
  | _, _ => s

/-- The hashes of the pool directory are keyed anew (R185), and TLC_LFSR is seeded from the random source (R178); its STATE is not 0. -/
def State.dirKeyed (s : State) : State :=
  let (k, s1) := s.random
  let (l, s2) := s1.random
  State.fset { s2 with tlc := { s2.tlc with dirKey := k } } Reg.TLC_LFSR Fld.TLC_LFSR_STATE (l % (2 ^ 32 - 1) + 1)

/-- 12 V good: a cold cast-on starts (R227, R228, first row of Table 7-1). -/
def State.coldCastOn (s : State) : State :=
  let s1 := s.lose
  let count := (s.fget Reg.RDY_CASTON Fld.RDY_CASTON_COLD + 1) % 2 ^ 32
  let s2 : State := { s1 with
    regs := keepRegs s1.regs
    power := .on
    hist := { s1.hist with winLive := true, genAt := none }
    clk := { s1.clk with now := 0, p12v := true, pll := false, offset := 0, nextOffset := none, timeSet := false, wallSet := false, castAt := 0
                         regs0 := keepRegs s1.regs }
    adm := { s1.adm with critical := false }
    cxl := { s1.cxl with lds := if s1.cxl.mld then s1.cxl.lds else ⟨0, s1.sldHanks⟩ :: List.replicate 15 ⟨0, 0⟩
                         corrBase := s.corrSum, wmBase := (s.reg Reg.WME_CE_COUNT).toNat }
    energy := { s1.energy with vbus := 0, trig := 0, drained := false, low := false, phases := 4, charged := false, apart := none, p12vFell := false
                               banks := s1.energy.banks.map fun e => (e.1, { e.2 with testedAt := 0 }) }
    plat := { s1.plat with coldHold := s.energy.rcd.aTrig == 4 && s.hotSensor, overCnt := List.replicate 5 [0, 0, 0], fallCnt := List.replicate 5 [0, 0, 0], belowCnt := 0,
                           thermCrit := none } }
  let s2 := s2.recsLoad
  let plan := s2.lanePlanRec
  let s3 := (s2.fset Reg.RDY_CASTON Fld.RDY_CASTON_COLD count).fset Reg.RDY_CASTON Fld.RDY_CASTON_PLAN plan
  let s4 := (s3.fset Reg.RDY_CASTON Fld.RDY_CASTON_PLAN_PEND 0).fset Reg.RDY_CASTON Fld.RDY_CASTON_KIND 0
  let s4 := (List.range 2).foldl (fun t n => if s.engineState n = 2 then t.fset Reg.KEY_STAT (engineField n) 2 else t) s4
  let s4 := s4.takeSpareDev.checkInjected.dirKeyed
  let s5 := if plan = 1 then (s4.linkStart 0).linkStart 1 else s4
  s5.planShares plan

/-- Bits of RDY_STATUS.READY that a warm cast-on keeps: AO, STASH, FW, GAUGE, KEYS, HLA, HLB, CHAIN. -/
def warmKept (n : Nat) : Bool := [rAO, rSTASH, rFW, rGAUGE, rKEYS, rHLA, rHLB, rCHAIN].contains n

/-- Whether an offset's register returns to its reset value at a warm cast-on: the rings, the data path, the medium's engines and
working memory (log 35). ADM_LATE and the interruption counts stay. -/
def warmReset (off : Nat) : Bool :=
  decide (0x10000 ≤ off ∧ off < 0x20000) || decide (0x20000 ≤ off ∧ off < 0x50000 ∧
    ¬ (off = Reg.ADM_LATE ∨ off = Reg.ADM_INTR_LATE ∨ off = Reg.ADM_INTR_MAX)) ||
    decide (0xB0140 ≤ off ∧ off < 0xB0180) || decide (off = Reg.KEY_CC_STAT ∨ off = Reg.KEY_CC_HIT ∨ off = Reg.KEY_CC_MISS) || decide (0xD0000 ≤ off ∧ off < 0xE0000)

/-- A warm cast-on starts at the step that zeroes working memory (R227). Device time, the PLL, the lane plan, the firmware, the keys and
the Helra links stay; the spill of each link comes back from the image (R31). DESIGN CHOICE (log 71): the wall time offset stays with device
time (R42). -/
def State.warmCastOn (s : State) : State :=
  let s1 := ((s.loseWork).setSpill 0 []).setSpill 1 []
  let plan := s.fget Reg.RDY_CASTON Fld.RDY_CASTON_PLAN
  let regs := s1.regs.foldl (fun a e => dput regReset a e.1 (if warmReset e.1 then keepWord e.1 e.2 else e.2)) []
  let ready := (List.range 17).foldl (fun a n => if warmKept n && s.ready n then a + 2 ^ n else a) 0
  let s2 : State := { s1 with
    regs := regs, power := .on
    clk := { s1.clk with timeSet := false, castAt := s1.clk.now, regs0 := regs }
    adm := { s1.adm with critical := false }
    energy := { s1.energy with trig := 0, drained := false, low := false }
    cxl := { s1.cxl with decoders := [], hdmErr := [], memActive := false, mboxBusy := [], bgOp := 0, bgDone := 0 } }
  let s3 := (s2.fset Reg.RDY_STATUS Fld.RDY_STATUS_READY ready).setReg Reg.RDY_SKEIN 0 |>.setReg Reg.RDY_CHAN 0
  let s4 := (s3.fset Reg.RDY_CASTON Fld.RDY_CASTON_KIND 1).setReg Reg.RDY_REPLAY 0
  let s5 := (s4.setReg Reg.RDY_CTL 0).fset Reg.GAU_STAT Fld.GAU_STAT_STATE (if s.energy.charged then 1 else 0)
  let s6 := (s5.fset Reg.GAU_STAT Fld.GAU_STAT_TRIG 0).fset Reg.THM_AUTO_RESUME Fld.THM_AUTO_RESUME_PENDING 0
  ((s6.planShares plan).takeSpareDev).dirKeyed.recompute'

end Sys2Proof.Machine
end

