-- ==== Sys2Proof/Machine/Energy.lean ====
section
/-! DEFINITION. Bind-off (chapter 6, R204 to R226): its triggers, the phases of Table 6-6, the image in the selvedge, and what follows. -/

namespace Sys2Proof.Machine

/-- The bind-off record is written: both copies of it in the Stash, one after the other, before the step that follows begins (R213). -/
def State.setRcd (s : State) (r : BindRec) : State := { s with energy := { s.energy with rcd := r, rcdB := r } }

/-- The selvedge half in use by the bind-off record, and its replacement. -/
def State.half (s : State) (b : Bool) : Selvedge := if b then s.energy.halfB else s.energy.halfA
def State.setHalf (s : State) (b : Bool) (h : Selvedge) : State :=
  if b then { s with energy := { s.energy with halfB := h } } else { s with energy := { s.energy with halfA := h } }

/-! ### The selvedge (R214 to R217) -/

/-- Hank, stripe and offset in the stripe of the byte at offset `x` of a half (R214). -/
def halfHank (x : Nat) : Nat := x / 8192 % 256
def halfStripe (x : Nat) : Nat := x / 2097152
def halfByte (x : Nat) : Nat := x % 8192

/-- The entry of the anchor table for hank `k` of a half, and the physical hank that holds it (R214, Table 4-3). -/
def halfAnchor (b : Bool) (k : Nat) : Nat := (if b then 256 else 0) + k
def State.halfPhn (s : State) (b : Bool) (k : Nat) : Nat := dget shippedAnchor s.hanks.anchor (halfAnchor b k)

/-- Offset of entry `i` of the index, and of item `i` of a section (Table 6-7; sections by SRC). -/
def indexOffset (i : Nat) : Nat := 0x100000 + 8 * i
def sectionBase (src : Nat) : Nat := if src = 3 then 0x1400000 else if src = 2 then 0x1C00000 else if src = 1 then 0x2400000 else 0x2800000
def itemOffset (src i : Nat) : Nat := sectionBase src + 64 * i

/-- First offsets of the stripes that an image writes: the header twice, OPEN and COMPLETE, and those that hold index entries or items (R215). -/
def imageStripes (r : BindRec) : List Nat :=
  let span := fun (base bytes : Nat) => (List.range ((bytes + 8191) / 8192)).map fun i => base + 8192 * i
  [0, 0] ++ span 0x100000 (8 * (r.nCtr + r.nMb + r.nSpill + r.nPool)) ++ span (sectionBase 3) (64 * r.nCtr) ++
    span (sectionBase 2) (64 * r.nSpill) ++ span (sectionBase 1) (64 * r.nMb) ++ span (sectionBase 0) (64 * r.nPool)

/-- The programs of an image count in the wear ledger: a full stripe is 16 data pages and its parity (R128, R212). -/
def State.imageWear (s : State) (r : BindRec) : State :=
  (imageStripes r).foldl (fun s x => s.ledgerAdd (s.halfPhn r.half (halfHank x)) 17) s

/-! ### Triggers (R204 to R207) -/

/-- A bank test under way is abandoned: the bank reconnects with its measurements unchanged, an active one at its own voltage. A GAUGE_TEST or
SELF_TEST completes ABORTED when the rings can still write it (Table 6-20). -/
def State.abandonTest (s : State) (ringsUp : Bool) : State :=
  let tests := tkeys s.cmds fun c => c.running && c.pkt.opcode == 0x0D02 && c.pkt.arg0 == 5
  let s := if ringsUp then tests.foldl (fun s id => match tget s.cmds id with | some c => s.finish id stABORTED c.done c.extra [] | none => s) s else s
  match s.energy.test with
  | none => s
  | some (b, cmd) =>
    let st := if s.energy.testSpare then 1 else 0
    let s1 : State := { s with energy := { s.energy with test := none, testSpare := false, apart := if s.energy.testSpare then none else some b } }
    let s2 := s1.setBankState b st
    match cmd with
    | some id => if ringsUp then s2.finish id stABORTED (s2.reg (Reg.GAU_BANK b)).toNat 0 [] else s2
    | none => s2

/-- A bind-off starts (R204, R213): STATE and TRIG; an image entry with the next SEQ and the other half when the newest image has been
replayed, else only the attempt entry with NO_IMAGE. -/
def State.bindoffStart (s : State) (trig : Nat) : State :=
  let s0 := s.abandonTest (trig == 3 || (trig == 4 && s.clk.p12v))
  let img := s.replayDone && s.clk.pll
  let r := s.energy.rcd
  let r1 : BindRec := { r with aTrig := trig, aTick := s.clk.now, aPhase := 0, noImage := !img }
  let r2 : BindRec := if img then
      { r1 with seq := r.seq + 1, half := !r.half, trig := trig, tick := s.clk.now, phase := 0, cut := false, counted := false, nCtr := 0,
                nMb := 0, nSpill := 0, nPool := 0, watermark := 0, medium := none, wall := none }
    else r1
  let s1 : State := State.setRcd { s0 with power := .bindoff
                                           energy := { s0.energy with trig := trig, drained := false, low := false, p12vFell := false } } r2
  (s1.fset Reg.GAU_STAT Fld.GAU_STAT_STATE 2).fset Reg.GAU_STAT Fld.GAU_STAT_TRIG trig

/-- Where main power goes when it is off: D0 runs from aux or from P12V. -/
def State.offPower (s : State) : Power := if s.clk.aux || s.clk.p12v then .aux else .none

/-- Whether the reserve bus is above its end voltage, so that the discharger carries the module (R194). -/
def State.reserveCarries (s : State) : Bool := decide (s.fget Reg.GAU_BUS Fld.GAU_BUS_V_END < s.energy.vbus)

/-- The reserve is to carry a bind-off from its trigger on. DEDUCED (log 93): a bus that is not above its end voltage carries nothing (R194), so that
the power is gone before a record is written (R224), and the shutdown record is of no use (R110). -/
def State.bindoffFrom (s : State) (trig : Nat) : State :=
  if s.reserveCarries then s.bindoffStart trig
  else State.powerDown { s with energy := { s.energy with noRec := true }, med := { s.med with eDown := none, wallDown := none } } s.offPower

/-- P12V meets the POWER condition (R204, Table 6-20). -/
def execPowerFail (s : State) : Res :=
  let s1 : State := { s with clk := { s.clk with p12v := false } }
  nextState (match s.power with
    | .on => s1.bindoffFrom 1
    | .bindoff =>
      let s1 : State := { s1 with energy := { s1.energy with p12vFell := true } }
      -- THERMAL and POWER in the same tick: recorded as POWER
      if s.energy.trig = 4 ∧ s.energy.rcd.aTick = s.clk.now ∧ s.energy.drained = false then
        let r := s.energy.rcd
        let r1 := { r with aTrig := 1, trig := if r.noImage then r.trig else 1 }
        State.fset (State.setRcd { s1 with energy := { s1.energy with trig := 1 } } r1) Reg.GAU_STAT Fld.GAU_STAT_TRIG 1
      else s1
    | .bound => s1.powerDown s1.offPower
    | .aux => { s1 with power := s1.offPower }
    | .waitP12v => s1
    | .none => s1)

/-- A dip that starts nothing is counted (R205). -/
def execBrownOut (s : State) : Res :=
  nextState (if s.clk.p12v then s.setReg Reg.GAU_BROWNOUT (s.reg Reg.GAU_BROWNOUT + 1) else s)

/-- PWRDIS asserts (R207): bind-off from the reserve, or off at once when already BOUND. -/
def execPwrdisAssert (s : State) : Res :=
  let s1 : State := { s with energy := { s.energy with pwrdis := true } }
  nextState (match s.power with
    | .on => s1.bindoffFrom 2
    | .bound => s1.powerDown s1.offPower
    | _ => s1)

/-- PWRDIS is released; with 12 V good a module that is off runs cast-on (R207). -/
def execPwrdisRelease (s : State) : Res :=
  let s1 : State := { s with energy := { s.energy with pwrdis := false } }
  nextState (if s.energy.pwrdis = true ∧ s.power = .aux ∧ s.clk.p12v = true then s1.coldCastOn else s1)

/-- The thermal shutdown record (R430). -/
def State.thermalRecord (s : State) : State :=
  match s.plat.thermCrit with
  | none => s
  | some (zone, sensor, temp) =>
    let r := Reg.THM_SHUTDOWN
    let s1 := (s.fadd r Fld.THM_SHUTDOWN_COUNT 1).fset r Fld.THM_SHUTDOWN_ZONE zone
    let s2 := (s1.fset r Fld.THM_SHUTDOWN_SENSOR sensor).fset r Fld.THM_SHUTDOWN_TEMP (temp % 65536).toNat
    { s2 with plat := { s2.plat with thermRec := some (s.clk.now, s.wallOf s.clk.now) } }

/-- At critical, once every accepted request has completed, the shutdown record is written and bind-off starts (R76, R430). In the tick of the POWER
trigger one bind-off runs, recorded as POWER, and the thermal record is kept too (Table 6-20). -/
def execThermalBindoff (s : State) : Res :=
  nextState (if s.adm.critical = true ∧ s.adm.dl = [] then
    if s.power = .on then (s.thermalRecord).bindoffStart 4
    else if s.power = .bindoff ∧ s.energy.trig = 1 ∧ s.energy.rcd.aTick = s.clk.now then s.thermalRecord
    else s
  else s)

/-! ### The freeze (R209 to R211) -/

/-- A full line of a request is placed in the pool at once, one-ply: a line of a two-ply region that is not BROKEN enters the spill queue too
(R24, R330). -/
def State.flushLine (s : State) (seq : Nat) (e : DlEntry) (data : Line) : State :=
  let lhn := lhnOf e.line
  let (_, s1) := ((s.zeroFirst e.line).unpoison e.ld e.dpa).placeLine { e.put seq 0 0 (s.keyFor e) true data with cover := true }
  let s2 := match s.regionOf lhn with
    | some (k, _, st) => if st ≤ 3 then s1.spillPut k { line := e.line, key := s.keyFor e, data := data, poison := false } else s1
    | none => s1
  (s2.setRouted seq).complete seq none false

/-- Complete a request that waits for its skein or in translation: a write is placed in the pool under the credit set aside for it, a read ends
with poison (R240; also at the freeze). -/
def State.flushWaiting (s : State) (seq : Nat) : State :=
  match tget s.adm.dl seq with
  | none => s
  | some e =>
    match e.kind with
    | .read => s.complete seq (some 0) true
    | _ =>
      match s.fateUnder e.line (s.keyFor e) with
      | .apply =>
        if e.kind = .part && !e.merged then
          let (old, bad) := s.readNow e.line
          if bad then ((s.salvage e 4).setRouted seq).complete seq none false else s.flushLine seq e (mergeBytes old e.data e.mask)
        else s.flushLine seq e e.data
      | f => ((s.notApplied f e.ld e.dpa e.line).setRouted seq).complete seq none false

/-- Requests that wait for a skein. -/
def State.waitingSeqs (s : State) : List Nat := tkeys s.adm.dl fun e => e.deadline.isNone

/-- Whether a stripe operation has a program under way or done, so that it runs to its end; one whose patch overflowed does too, since its
other lines stand in no pool line but only staged (R135, R262). -/
def State.stripeBegun (s : State) (id : Nat) (r : StripeOp) : Bool :=
  let mine := s.med.progs.filter fun p => p.2.op == some id
  mine.any (fun p => p.2.start.isSome || decide (p.2.stitches ≠ 0)) || decide (mine.length < r.left.length) ||
    !r.failed.isEmpty || r.reparity ||
    (r.kind != .refresh && mine.any fun p => (tget s.med.staged (medKey p.2.phn p.2.s p.2.d 0)).isSome)

/-- Cancel a stripe operation that has not begun; a refresh leaves nothing staged. -/
def State.cancelStripe (s : State) (id : Nat) (r : StripeOp) : State :=
  let progs := s.med.progs.filter fun p => p.2.op != some id
  let pool := s.tlc.pool.map fun q => if q.2.op = some id then (q.1, { q.2 with op := none }) else q
  let mb := s.tlc.mb.map fun e => if e.2.op = some id then (e.1, { e.2 with op := none, state := MbState.merged }) else e
  let mine := s.med.progs.filter fun p => p.2.op == some id
  let s0 := if r.kind = .refresh then mine.foldl (fun s p => s.unstage p.2.phn p.2.s p.2.d) s else s
  let s1 : State := { s0 with med := { s0.med with progs := progs }, tlc := { s0.tlc with pool := pool, mb := mb }, adm := { s0.adm with ops := tdel s0.adm.ops id } }
  let keep := (tget s.hanks.suspect (stripeKey r.phn r.s)).isSome || r.left.isEmpty
  let mine := (if keep then [] else [r.phn]) ++ (match r.kind with
    | .copy m => (match tget s.hanks.migs m with | some g => if r.left.isEmpty then [] else [g.dst] | none => [])
    | _ => [])
  mine.foldl (fun s p => { s with hanks := { s.hanks with rmw := tdel s.hanks.rmw (stripeKey p r.s) } }) s1

/-- Cancel every write-back, write-through and refresh that has not begun (R210), the medium reads that are left, since no line is sensed after
the freeze (R212), and the page programs of the copier, the swatch pages and the die rebuilds that have not begun. -/
def State.cancelIdle (s : State) : State :=
  let s1 := s.adm.ops.foldl (fun s e => match e.2.kind with
    | .stripe r => if s.stripeBegun e.1 r then s else s.cancelStripe e.1 r
    | .read _ => s.freeOp e.1) s
  { s1 with
    tlc := { s1.tlc with mshr := [] }
    med := { s1.med with progs := s1.med.progs.filter fun p => p.2.op.isSome || p.2.start.isSome } }

/-- The lines of two-ply writes whose MIRROR_ACK has not arrived (R211). -/
def State.unackedLines (s : State) : List Nat :=
  (s.adm.dl.filter fun e => e.2.mirror.isSome).map (fun e => e.2.line) ++
    s.cmds.flatMap fun e => (e.2.work.filter fun w => decide (2 ^ 40 ≤ w ∧ w < 2 ^ 41)).map (· - 2 ^ 40)

/-- First system map entry of a level in a copy (R263), and the ADDR of a counter item (Table 6-8). -/
def levelBase (lvl : Nat) : Nat := if lvl = 0 then 0 else if lvl = 1 then 98304 else if lvl = 2 then 99840 else 99864
def counterAddr (key : Nat) : Nat := levelBase (key / 2 ^ 32) * 16384 + key % 2 ^ 32

/-- Level and index of a counter item's ADDR. -/
def counterKey (addr : Nat) : Nat :=
  let e := addr / 16384
  let lvl := if e < 98304 then 0 else if e < 99840 then 1 else if e < 99864 then 2 else 3
  nodeKey lvl (addr - levelBase lvl * 16384)

/-- The CHK of an index entry over its bits 55:0 and SEQ[31:0] (R467, Table 6-8). -/
def Item.goodChk (i : Item) (seq : Nat) : Nat :=
  let low := (if i.ply then 2 ^ 52 else 0) + (if i.poison then 2 ^ 51 else 0) + i.src % 4 * 2 ^ 49 + i.key % 2 ^ 12 * 2 ^ 37 + i.addr % 2 ^ 37
  crc8 (leBytes 7 low ++ leBytes 4 (seq % 2 ^ 32))

/-- The slot an item's line is encrypted under: its own, or slot 0 for a counter item (R217). -/
def itemSlot (src key : Nat) : Nat := if src = 3 then 0 else key

/-- Item `n` of an image as it leaves the controller: its index entry with its CHK, and its line encrypted and tagged with SEQ and its index number as
the input (R217, Table 8-1). -/
def State.itemOf (s : State) (seq n : Nat) (d : DumpItem) : Item :=
  let line := sealedLine (s.keyMat (itemSlot d.src d.key)) seq 0 n 8 (if d.src = 3 then d.blk.bits else d.data) d.poison 0
  let i : Item := { src := d.src, key := d.key, addr := d.addr, poison := d.poison, ply := d.ply, chk := 0, stored := line }
  { i with chk := i.goodChk seq }

/-- Whether the line of item `n` of an image passes its tag, and its contents (R217). -/
def State.itemTagOk (s : State) (seq n : Nat) (i : Item) : Bool :=
  i.stored.tag == lineTag (s.keyMat (itemSlot i.src i.key)) seq 0 n 8 i.stored.ct
def State.itemData (s : State) (seq n : Nat) (i : Item) : Line := lineCipher (s.keyMat (itemSlot i.src i.key)) seq 0 n 8 i.stored.ct

/-- The merge buffer, spill and pool lines of an image, in this order (R210, R215). -/
def State.lineItems (s : State) (ply : List Nat) : List DumpItem :=
  let line := fun (src key addr : Nat) (poison ply : Bool) (data : Line) =>
    ({ src := src, key := key, addr := addr, poison := poison, ply := ply, data := data, blk := { z := false, lost := false, maj := 0, min := [] } } : DumpItem)
  (s.tlc.mb.flatMap fun e => e.2.lines.map fun l => line 1 l.2.key l.2.line l.2.poison false l.2.data) ++
    ((s.linkA.spill ++ s.linkB.spill).map fun l => line 2 l.key l.line l.poison false l.data) ++
    s.tlc.pool.map fun q => line 0 q.2.key q.1 q.2.poison (ply.contains q.1) q.2.data

/-- The dirty blocks and nodes of levels L0 to L2 as items (R210). -/
def State.counterItems (s : State) : List DumpItem :=
  (s.dirtyNodes.filter fun e => decide (e.1 / 2 ^ 32 ≤ 2)).map fun e =>
    { src := 3, key := 0, addr := counterAddr e.1, poison := false, ply := false, data := 0, blk := e.2.blk }

/-- The header of a half for a record and a state (R215). -/
def BindRec.header (r : BindRec) (complete : Bool) (h : Selvedge) : Selvedge :=
  let counts := (r.nCtr, r.nMb, r.nSpill, r.nPool)
  { h with seq := r.seq, complete := complete, trig := r.trig, counts := counts
           crc := Config.crc32c (headerBytes r.seq complete r.trig counts), blanked := false }

/-- Whether a half's header checks and carries a record's SEQ (R234). -/
def Selvedge.matches (h : Selvedge) (r : BindRec) : Bool :=
  h.seq == r.seq && !h.blanked && h.crc == Config.crc32c (headerBytes h.seq h.complete h.trig h.counts)

/-- Whether what was accepted has completed or been placed: no read is under way, and no write waits for room or for its old line. -/
def State.canFreeze (s : State) : Bool :=
  s.tlc.waits.isEmpty && s.adm.dl.all fun e => e.2.deadline.isNone || (e.2.kind != .read && e.2.routed && !e.2.stuck)

/-- Lines of ring and poison commands that wait for MIRROR_ACK complete one-ply (R24, R211). -/
def State.plyWaitsEnd (s : State) : State :=
  s.workDone fun w => decide (2 ^ 40 ≤ w ∧ w < 2 ^ 41)

/-- The freeze (R209 to R212): requests that wait for skeins are placed, what has not started is cancelled, the dump sets are fixed, and
under POWER and PWRDIS the host lanes and the Helra lanes go off. -/
def State.freeze (s : State) : State :=
  let s0 := s.waitingSeqs.foldl (fun s q => s.flushWaiting q) s
  let s1 := s0.cancelIdle
  let s2 : State := { s1 with energy := { s1.energy with dump := s1.lineItems s1.unackedLines } }
  let off := s.energy.trig == 1 || s.energy.trig == 2
  let left := s2.adm.dl.map Prod.fst
  let s3 := if off then
      let t := s2.regionsDown
      { t with adm := { t.adm with dl := [] }, cxl := { t.cxl with linkUp := false } }
    else (left.foldl (fun s q => s.complete q none false) s2).plyWaitsEnd
  let s4 := if off then
      ([0, 1] : List Nat).foldl (fun s k => (s.fset (Reg.PLK_LINK k) Fld.PLK_LINK_STATE 0).setReady (rHLA + k) false) s3
    else s3
  -- counting stops at the freeze (R396)
  State.fset { s4 with energy := { s4.energy with drained := true } } Reg.PMC_GCTL Fld.PMC_GCTL_GEN 0

def execBindoffFreeze (s : State) : Res :=
  nextState (if s.power = .bindoff ∧ s.energy.drained = false ∧ s.energy.low = false ∧ s.energy.rcd.noImage = false ∧ s.canFreeze = true then s.freeze
  else s)

/-! ### The phases of the dump (R209, R213) -/

/-- Write a phase to both entries of the record. -/
def State.setPhase (s : State) (p : Nat) : State := s.setRcd { s.energy.rcd with phase := p, aPhase := p }

/-- Whether the bind-off stands at a phase of an image being written. -/
def State.atPhase (s : State) (p : Nat) : Bool :=
  s.power == .bindoff && s.energy.drained && !s.energy.low && !s.energy.rcd.noImage && s.energy.rcd.phase == p

/-- The operations whose programs have all verified end, so that their RMW journal entries clear (R135). -/
def State.endVerified (s : State) : State :=
  s.adm.ops.foldl (fun s e => match e.2.kind with
    | .stripe r => if r.kind = .writeBack ∧ r.started = true ∧ r.left = [] then s.writeBackEnds e.1 r else s
    | _ => s) s

/-- Every stitch and program in flight has ended: the dirty counters are fixed, the dump plan starts, the header is written OPEN (R209, R212), and the
items leave the controller in index order. -/
def execBindoffFrozen (s : State) : Res :=
  nextState (if s.atPhase 0 = true ∧ s.med.progs = [] then
    let s := s.endVerified
    let items := s.counterItems ++ s.energy.dump
    let n := fun (k : Nat) => (items.filter fun i => i.src == k).length
    let r : BindRec := { s.energy.rcd with phase := 1, aPhase := 1, nCtr := n 3, nMb := n 1, nSpill := n 2, nPool := n 0 }
    let s1 := s.setHalf r.half (r.header false { s.half r.half with items := items.zipIdx.map fun x => s.itemOf r.seq x.2 x.1 })
    let s2 := (List.range 34).foldl (fun s c => s.fset (Reg.MCH_ROWPLAN c) Fld.MCH_ROWPLAN_READ_MASK 0) s1
    State.setRcd { s2 with energy := { s2.energy with dump := [] } } r
  else s)

/-- Every index page has verified (R209). -/
def execBindoffIndexed (s : State) : Res := nextState (if s.atPhase 1 then s.setPhase 2 else s)

/-- The counter, merge buffer and spill sections have verified (R209). -/
def execBindoffSections (s : State) : Res :=
  nextState (if s.atPhase 2 then
    let s1 := s.setPhase 3
    s1.setRcd { s1.energy.rcd with watermark := s1.energy.rcd.nCtr + s1.energy.rcd.nMb + s1.energy.rcd.nSpill }
  else s)

/-- Index entries of the image. -/
def BindRec.total (r : BindRec) : Nat := r.nCtr + r.nMb + r.nSpill + r.nPool

/-- GAU_BINDOFF_LAST and GAU_SEQ take the bind-off (Tables 6-17, 6-18). -/
def State.lastBindoff (s : State) (outcome vres : Nat) : State :=
  let r := s.energy.rcd
  let g := Reg.GAU_BINDOFF_LAST
  let s1 := (s.fsetSat g Fld.GAU_BINDOFF_LAST_DUR ((s.clk.now - r.tick) / 100)).fsetSat g Fld.GAU_BINDOFF_LAST_VRES vres
  let s2 := (s1.fset g Fld.GAU_BINDOFF_LAST_HALF (if r.half then 1 else 0)).fset g Fld.GAU_BINDOFF_LAST_OUTCOME outcome
  let s3 := (s2.fset g Fld.GAU_BINDOFF_LAST_TRIG r.trig).fset g Fld.GAU_BINDOFF_LAST_ITEMS r.total
  s3.setReg Reg.GAU_SEQ (BitVec.ofNat 64 r.seq)

/-- The end of the sequence (last row of Table 6-6, R206, R207, R219): BOUND, unless P12V failed meanwhile; waiting for P12V to be stable, or off. A
PREPARE_POWER_LOSS completes. -/
def State.bindoffEnds (s : State) : State :=
  let trig := s.energy.trig
  let s1 := match s.energy.prepareCmd with
    | some id => State.finish { s with energy := { s.energy with prepareCmd := none } } id stOK (s.reg Reg.GAU_SEQ).toNat
        (if s.energy.rcd.noImage then 0 else s.energy.rcd.total) []
    | none => s
  if s.clk.p12v && !s.energy.pwrdis && !s.energy.p12vFell && (trig == 3 || trig == 4) then
    let s2 := ({ s1 with power := .bound, energy := { s1.energy with drained := true } }).fset Reg.GAU_STAT Fld.GAU_STAT_STATE 3
    if trig = 4 then s2.fset Reg.THM_AUTO_RESUME Fld.THM_AUTO_RESUME_PENDING 1 else s2
  else if s.clk.p12v && !s.energy.pwrdis then s1.powerDown .waitP12v
  else s1.powerDown s1.offPower

/-- Medium time and the programs of the retry windows go to the Stash (R92, R102). -/
def State.mediumSaved (s : State) : State :=
  if s.ready rDRIFT then { s with med := { s.med with timeSaved := s.medTime, windowSaved := s.med.window } } else s

/-- Phase COMPLETE (R209, R213): the header is COMPLETE, medium time, wall time and the verify-retry indexes are saved, and the sequence ends. A bind-off without an
image has only this end, once the programs in flight have ended, and keeps what bind-off saves of the medium (R92, R102, R218). -/
def execBindoffComplete (s : State) : Res :=
  nextState (if s.power = .bindoff ∧ s.energy.rcd.noImage = true then
    if s.med.progs.all fun e => e.2.start.isNone then s.mediumSaved.bindoffEnds else s
  else if s.atPhase 3 then
    let t := s.medTime
    let r := s.energy.rcd
    let wall : Option Int := if s.clk.wallSet then some (s.wallOf s.clk.now) else none
    let r1 : BindRec := { r with phase := 4, aPhase := 4, watermark := r.total, medium := some (t / 64, t % 64), wall := wall }
    let s1 := (s.setHalf r.half (r1.header true (s.half r.half))).imageWear r1
    let s2 := (s1.setRcd r1).histFlush
    let s3 : State := { s2.mediumSaved with med := { s2.mediumSaved.med with eDown := some (t / 64, t % 64), wallDown := wall } }
    let s4 := (s3.fadd Reg.GAU_BINDOFF_CNT Fld.GAU_BINDOFF_CNT_CLEAN 1).lastBindoff 1 (s.energy.vbus / 200)
    s4.bindoffEnds
  else s)

/-! ### The reserve runs out (R220) -/

/-- The reserve falls to 9.5 V before COMPLETE (R220), when it carries the module: P12V has failed, or PWRDIS keeps the module from drawing on it.
`watermark`: index entries below which all has verified. Once all have, phase COMPLETE is marked CUT: only what is saved at COMPLETE is
missing (Table 6-9, log 93). The supply ends with it. DESIGN CHOICE (log 92): VRES reads 47, 9.4 V: 9.5 V stands between two of its steps. -/
def execReserveLow (watermark : Nat) (s : State) : Res :=
  nextState (if s.power = .bindoff ∧ (s.clk.p12v = false ∨ s.energy.trig = 2) then
    let r := s.energy.rcd
    if r.noImage then s.powerDown s.offPower
    else
      let wm := if r.phase = 0 then 0 else max r.watermark (min watermark r.total)
      let all := r.phase == 3 && wm == r.total
      let s1 := s.setRcd { r with cut := true, watermark := wm, phase := if all then 4 else r.phase, aPhase := if all then 4 else r.aPhase }
      let s2 := s1.fset Reg.GAU_STAT Fld.GAU_STAT_STATE 4
      let s3 := s2.lastBindoff (if r.phase = 0 then 5 else if r.phase = 1 then 4 else if r.phase = 2 then 3 else 2) 47
      let s4 : State := { s3 with med := { s3.med with eDown := none, wallDown := none } }
      State.powerDown { s4 with energy := { s4.energy with low := true } } s4.offPower
  else s)

/-! ### Power returns, zones, GPF (R208, R219, R221) -/

/-- P12V is good again during a bind-off, or while the module waits after one (R219). -/
def execP12vReturn (s : State) : Res :=
  nextState (match s.power with
    | .bindoff => { s with clk := { s.clk with p12v := true } }
    | .waitP12v => { s with clk := { s.clk with p12v := true } }
    | _ => s)

/-- P12V has been good for 10 ms without a break, PWRDIS not asserted (R219). -/
def execP12vStable (s : State) : Res :=
  nextState (if s.power = .waitP12v ∧ s.clk.p12v = true ∧ s.energy.pwrdis = false then s.coldCastOn else s)

/-- A zone has held no dirty line for 1 s: its bit is cleared (R221). -/
def execDirtyZoneClear (zone : Nat) (s : State) : Res :=
  nextState (if s.tlc.pool.any fun q => lhnOf q.1 / 96 == zone then s
  else { s with energy := { s.energy with zoneMap := s.energy.zoneMap.filter (· != zone) } })

/-- The answer to a GPF phase, with the GPF Phase 2 Duration of 10 µs and the GPF Phase 2 Power, the PWR_LIMIT in force (R208). -/
def State.gpfOut (s : State) (phase : Nat) : State := s.out (.gpf phase 10 (s.fget Reg.PWR_LIMIT Fld.PWR_LIMIT_WATTS))

/-- GPF Phase 1 is answered at once (R208). -/
def execGpfPhase1 (s : State) : Res := nextState (if s.cxl.linkUp then s.gpfOut 1 else s)

/-- Whether every accepted write has reached the pool, the merge buffer or its completion. -/
def State.writesLanded (s : State) : Bool := s.tlc.waits.isEmpty && s.adm.dl.all fun e => e.2.kind == .read || (e.2.routed && !e.2.stuck)

/-- GPF Phase 2 is reported done once every accepted write has landed (R208). -/
def execGpfPhase2 (s : State) : Res :=
  nextState (if s.cxl.linkUp then
    if s.writesLanded then State.gpfOut { s with energy := { s.energy with gpf := false } } 2
    else { s with energy := { s.energy with gpf := true } }
  else s)

end Sys2Proof.Machine
end

