-- ==== Sys2Proof/Machine/CastOn.lean ====
section
/-! DEFINITION. Cast-on, readiness and resets (chapter 7; the SEAL step stands with the seals). -/

namespace Sys2Proof.Machine

/-! ### Supplies (R227, R466) -/

/-- Main power is off: D0 runs from what is left, or from nothing. -/
def State.toOff (s : State) : State :=
  (({ s with power := s.offPower }).fset Reg.RDY_STATUS Fld.RDY_STATUS_READY (if s.offPower = Power.none then 0 else 3))

/-- 12 V good: a cold cast-on, unless PWRDIS is asserted (R227, Table 16-11). A module that waits after a bind-off starts by R219. -/
def execColdCastOn (s : State) : Res :=
  nextState (if s.power = .aux ∨ s.power = .none then
    if s.energy.pwrdis then State.toOff { s with clk := { s.clk with p12v := true } }
    else s.coldCastOn
  else s)

/-- P3V3_AUX is lost: D0 moves to P12V, or has no supply (Table 16-11). -/
def execAuxLoss (s : State) : Res :=
  let s1 : State := { s with clk := { s.clk with aux := false } }
  nextState (if s.power = .aux ∨ s.power = .none then s1.toOff else s1)

/-- P3V3_AUX is present: D0 is powered from it (R227). -/
def execP3v3AuxReturn (s : State) : Res :=
  let s1 : State := { s with clk := { s.clk with aux := true } }
  nextState (if s.power = .aux ∨ s.power = .none then s1.toOff else s1)

/-- The PLL locks (R39): SCLK and TCLK switch over. -/
def execPllLock (s : State) : Res :=
  nextState (if s.power = .on then { s with clk := { s.clk with pll := true } } else s)

/-! ### Firmware, keys, working memory, channels (Table 7-1) -/

/-- A flash bank becomes the running one, and RDY_IDENT shows its image's version (R366, Table 7-11). -/
def State.useBank (s : State) (bank : Nat) : State :=
  (s.fset Reg.EFC_STAT Fld.EFC_STAT_ACTIVE bank).fset Reg.RDY_IDENT Fld.RDY_IDENT_FWMAJ
    (Config.imageMajor fun k => s.flashWordAt (bank * 2 ^ 19 + k % 2 ^ 19))

/-- Run the image of a flash bank. -/
def State.runFw (s : State) (bank : Nat) : State := (s.useBank bank).setReady rFW true

/-- A warm restart of the firmware into a bank (R238, R366): RINGS and MBOX clear until they are up again, and the mailbox that asked for it
is answered. -/
def State.fwRestart (s : State) (bank : Nat) : State :=
  let carried := fun (mb : Mailbox) => s.cmds.any fun e => e.2.carrier == (if mb.secondary then .secondary mb.ld else .primary mb.ld)
  let s1 := (s.cxl.mboxBusy.filter fun mb => !(carried mb)).foldl (fun s mb => s.out (.mailbox mb 0 [] [])) s
  let s2 : State := { s1 with plat := { s1.plat with warmWait := false }, cxl := { s1.cxl with mboxBusy := s1.cxl.mboxBusy.filter carried } }
  ((s2.useBank bank).setReady rMBOX false).setReady rRINGS false

/-- Restart, or wait until the replay is DONE (Table 7-12). -/
def State.askRestart (s : State) (bank : Nat) (mb : Mailbox) : State :=
  let s1 : State := { s with cxl := { s.cxl with mboxBusy := s.cxl.mboxBusy ++ [mb] }, plat := { s.plat with warmWait := true, fwNext := bank } }
  if s.replayDone then s1.fwRestart bank else s1

/-- The boot ROM checks the image in NEXT and then the other (R366, R426). With fewer than two working cores it stays (R447). -/
def execFwVerified (nextOk otherOk : Bool) (s : State) : Res :=
  nextState (if s.power = .on ∧ s.ready rFW = false ∧ s.failedBit rFW = false then
    let n := s.fget Reg.EFC_STAT Fld.EFC_STAT_NEXT
    if (s.plat.cores.filter (· != 2)).length < 2 then s.setFail rFW
    else if nextOk then s.runFw n
    else if otherOk then (s.runFw (1 - n)).event evFAULT 4 0xFFFF n [1 - n]
    else s.setFail rFW
  else s)

/-- Whether the record of a slot checks: its CRC is that of its bytes, and no word of it is uncorrectable (R259, R411). -/
def State.slotChecks (s : State) (n : Nat) : Bool :=
  (s.slot n).crc == Config.crc32c ((s.slot n).bytes n) &&
    !(s.plat.stashErrs.any fun e => inBytes (0x20000 + 64 * n) 64 e.1 && decide (2 ≤ (bitsSet e.2).length))

/-- Finish or undo the slot changes that power loss interrupted (R259): a slot that was RETIRING takes step 5 of R256, with its KEY event. -/
def State.fixSlots (s : State) : State :=
  s.crypto.slots.foldl (fun s e =>
    if e.2.state = 4 then s.setSlot e.1 { e.2 with state := 0, wkey := 0 }
    else if e.2.state = 2 then (s.keyGone e.1).keyEvent e.1
    else if e.2.state = 1 ∧ s.slotChecks e.1 = false then (s.setSlot e.1 { e.2 with state := 3 }).eventSev evKEY 2 4 0xFFFF e.1 [3]
    else s) s

/-- The on-chip key store: the keys of the LOADED slots unwrapped, with their hash keys (R251). -/
def State.unwrapKeys (s : State) : State :=
  let loaded := (0 :: s.crypto.slots.map Prod.fst).filter fun n => (s.slot n).state == 1
  let unwrap := fun (t : Tbl KeyMat) (n : Nat) => match keyUnwrap Config.kek (s.slot n).wkey with
    | some k => tput t n (KeyMat.of k)
    | none => t
  { s with crypto := { s.crypto with store := loaded.foldl unwrap [] } }

/-- The crypto engines that have not failed are ready. -/
def State.enginesUp (s : State) : State :=
  (List.range 2).foldl (fun s n => if s.engineState n = 0 then s.fset Reg.KEY_STAT (engineField n) 1 else s) s

/-- The slots are unwrapped and L4 and L5 verified under the root (R251, R259, R266, R273). -/
def execKeysReady (rootOk keysOk : Bool) (s : State) : Res :=
  nextState (if s.power = .on ∧ s.clk.pll = true ∧ s.ready rKEYS = false ∧ s.failedBit rKEYS = false then
    if rootOk && keysOk && (s.engineState 0 != 2 || s.engineState 1 != 2) then
      let s1 := s.fixSlots.unwrapKeys.enginesUp
      (State.slotTotals { s1 with crypto := { s1.crypto with retiring := [] } }).setReady rKEYS true
    else s.setFail rKEYS
  else s)

/-- Working memory is zeroed (R165). -/
def execWmemReady (s : State) : Res := nextState (if s.power = .on ∧ s.clk.pll = true then s.setReady rWMEM true else s)

/-- A position whose die had failed: its rebuild onto the spare die resumes, or it goes on degraded (R119, R120). DESIGN CHOICE (log 70): where two
positions of the channel have failed, the spec does not say which REB_ADIE names after a cast-on; it names that of the lowest active index. -/
def State.resumeRebuild (s : State) (ch : Nat) : State :=
  match (List.range 8).find? fun a => s.fbit (Reg.MCH_STATE ch) Fld.MCH_STATE_DIE_FAILED (s.dieOf ch a) with
  | none => s
  | some a =>
    let s1 := (s.fset (Reg.MCH_DIESUB ch) Fld.MCH_DIESUB_REB_VALID 1).fset (Reg.MCH_DIESUB ch) Fld.MCH_DIESUB_REB_ADIE a
    if s.fget (Reg.MCH_STATE ch) Fld.MCH_STATE_DEGRADED = 1 then s1 else s1.fset (Reg.MCH_STATE ch) Fld.MCH_STATE_REBUILD 1

/-- A channel engine trains and finds its dies, or is failed; MEDIA_ALL sets with the last of the 34 (R229, Table 7-12). -/
def execChannelEngineReady (ch : Nat) (ok : Bool) (s : State) : Res :=
  nextState (if s.power = .on ∧ s.clk.pll = true ∧ ch < 34 ∧ s.fget (Reg.MCH_STATE ch) Fld.MCH_STATE_ENGINE = 0 then
    let s1 := if ok then (s.setEngine ch 1).resumeRebuild ch else s.channelFails ch
    if (List.range 34).all fun c => s1.fget (Reg.MCH_STATE c) Fld.MCH_STATE_ENGINE != 0 then s1.setReady rMEDIA true else s1
  else s)

/-- The mailboxes come up: with the firmware, or with the boot ROM when no image verified (R228, R426). -/
def execMboxReady (s : State) : Res :=
  nextState (if s.power = .on ∧ (s.ready rFW = true ∨ s.failedBit rFW = true)  then
    (s.setReady rMBOX true).healthCheck
  else s)

/-- The ring engine accepts doorbells (R228). -/
def execRingsReady (s : State) : Res :=
  nextState (if s.power = .on ∧ s.ready rFW = true ∧ s.plat.coldHold = false  then s.setReady rRINGS true else s)

/-- An L3 node both of whose image copies fail is recreated, with every node under it (R271). -/
def State.recreateL3 (s : State) (idx : Nat) : State :=
  let maj := s.fget Reg.KEY_MAXMAJ Fld.KEY_MAXMAJ_MAXMAJ + 1
  let node : CBlock := { z := false, lost := false, maj := maj, min := [] }
  let lay := fun (lvl n : Nat) (b : CBlock) (t : Tbl CBlock) =>
    (List.range n).foldl (fun t i => tput t (nodeKey lvl (idx * n + i)) b) t
  let t1 := lay 0 262144 { node with lost := true } (lay 1 4096 node (lay 2 64 node (tput s.crypto.nodes (nodeKey 3 idx) node)))
  let s1 : State := { s with crypto := { s.crypto with nodes := t1 } }
  let s2 := (s1.noteMaj maj).raiseParent 3 idx s.clk.now
  ((s2.setReg Reg.KEY_LOST (s2.reg Reg.KEY_LOST + 266305)).areaLost (idx * 1024) (idx * 1024 + 1023)).eventSev evTREE 2 2 0xFFFF (idx * 1024) [3, idx, idx * 1024 + 1023]

/-- The L3 image is read, verified under L4 and pinned (R266). `lost`: nodes that fail in both copies. -/
def execL3LoadDone (lost : List Nat) (s : State) : Res :=
  nextState (if s.power = .on ∧ s.ready rDRIFT = true ∧ s.ready rKEYS = true ∧ s.cast.l3 = false ∧ s.plat.coldHold = false then
    let s1 := lost.foldl (fun s i => s.recreateL3 i) s
    { s1 with cast := { s1.cast with l3 := true } }
  else s)

/-! ### Maps and replay (R144, R222 to R224, R233, R234) -/

/-- Whether an image can be used: it is complete, its lines read well, and its digest is the recorded one (R132). -/
def usable (i : Image) (ok : Bool) : Bool := i.done && ok && i.digest == imageDigest i.host i.sys

/-- The image that the maps are restored from: the newer of those that can be used (R130, R132). -/
def Hanks.usableImage (h : Hanks) (okA okB : Bool) : Option Image :=
  match usable h.imgA okA, usable h.imgB okB with
  | true, true => some (if jFrom h.imgA.seq h.imgB.seq then h.imgB else h.imgA)
  | true, false => some h.imgA
  | false, true => some h.imgB
  | false, false => none

/-- The two maps from an image and the journal records from its sequence number on (R130, R132). -/
def State.restoreMaps (s : State) (i : Image) : State :=
  let keep := s.hanks.journal.filter fun r => jFrom i.seq r.seq
  let h1 := (keep.filter fun r => !r.sys).foldl (fun t r => dput shippedHost t r.idx r.entry) i.host
  let y1 := (keep.filter fun r => r.sys).foldl (fun t r => dput shippedSys t r.idx r.entry) i.sys
  { s with hanks := { s.hanks with host := h1, sys := y1 } }

/-- Every migration of the journal is completed or undone: a copy whose digest is the recorded one is committed (R144, Table 4-5). -/
def State.fixMigs (s : State) : State :=
  s.hanks.migs.foldl (fun s e =>
    let g := e.2
    match g.state with
    | .copying => s.migDiscard e.1 g
    | .verifying => s.migDiscard e.1 g
    | .copied =>
      if s.hankDigest g.dst = g.digest then
        let s1 := s.migCommit e.1 g
        s1.migRelease e.1 { g with state := .committed }
      else s.migDiscard e.1 g
    | .committed => s.migRelease e.1 g
    | .released => s) s

/-- Whether a physical hank is free by the maps, the anchor table and the wear ledger, and on no position that has left the pool (R147, R233). -/
def State.freeNow (s : State) (phn : Nat) : Bool :=
  s.boundTo phn == .free && dget (fun _ => 0) s.hanks.wear phn != 0xFFFF && !(s.posOut phn)

/-- The free bitmap is rebuilt (R233): it differs from the shipped one where a binding, the anchor table or the ledger does. -/
def State.freeRebuild (s : State) : State :=
  let hosts := s.hanks.host.flatMap fun e => [e.2.phn, shippedPhn e.1]
  let syss := s.hanks.sys.flatMap fun e => [e.2.phn, shippedSysPhn e.1]
  let anchors := s.hanks.anchor.flatMap fun e => [e.2, shippedAnchor e.1]
  let cands := hosts ++ syss ++ anchors ++ s.hanks.wear.map Prod.fst ++ s.hanks.free.map Prod.fst
  let free := cands.foldl (fun t p => dput shippedFree t p (s.freeNow p)) []
  let given := (free.filter fun e => e.2).length
  State.freeStat { s with hanks := { s.hanks with free := free } } (1896736 + given - (free.length - given))

/-- Every stripe with an RMW journal entry is suspect and is recomputed (R134, R235). -/
def State.startSuspects (s : State) : State :=
  let s0 : State := { s with hanks := { s.hanks with suspect := [] } }
  (s.hanks.rmw.foldl (fun (s : State) e => s.suspectStripe (e.1 / 128) (e.1 % 128) 0 s.clk.now) s0).recomputePump

/-- How an item of the image is to be handled: restored, failed its check, or without a name. -/
inductive ItemFate where
  | good | bad | unnamed
  deriving DecidableEq, Repr

/-- The fate of item `i` by the phase reached, whether its index entry names it, and whether its line passes (R222, Table 6-9). What lies below the
watermark is restored as verified. At phase FROZEN an item without a good index entry has no name. -/
def BindRec.fate (r : BindRec) (i : Nat) (named passes : Bool) : ItemFate :=
  if r.phase = 0 then .unnamed
  else if (named && passes) || ((r.phase != 4 || r.cut) && decide (i < r.watermark)) then .good
  else if r.phase = 1 ∧ named = false then .unnamed
  else .bad

/-- The fate of an item of the image (R217, R222, R467): its index entry names it when it is readable and its CHK fits; its line passes when it decodes
and its tag fits. `failed`: the items that are found unreadable, with whether their index entry is. -/
def State.itemFate (s : State) (failed : List (Nat × Bool)) (x : Item × Nat) : ItemFate :=
  let r := s.energy.rcd
  r.fate x.2 (x.1.chk == x.1.goodChk r.seq && !failed.contains (x.2, true)) (s.itemTagOk r.seq x.2 x.1 && !failed.any fun f => f.1 == x.2)

/-- Place one item of the image, item `n` (R234, R259). Its line is placed for the module itself (party 18). -/
def State.placeItem (s : State) (i : Item) (n : Nat) (bad : Bool) : State :=
  let data := s.itemData s.energy.rcd.seq n i
  if i.src = 3 then
    let k := counterKey i.addr
    if bad then (s.recreate (k / 2 ^ 32) (k % 2 ^ 32) (s.clk.now + 3900000))
    else
      let s1 := (s.dirtyNode (k / 2 ^ 32) (k % 2 ^ 32) (s.clk.now + 3900000) (CBlock.ofBits data))
      { s1 with cast := { s1.cast with ctrLeft := s1.cast.ctrLeft ++ [k] } }
  else if !(s.keyLive i.key) then s
  else if i.src = 2 then
    match s.regionOf (lhnOf i.addr) with
    | some (k, r, _) =>
      if bad then (s.setRegion k r 4).event evPLY 4 0xFFFF r [k, 4]
      else s.spillPut k { line := i.addr, key := i.key, data := data, poison := i.poison }
    | none => s
  else
    let s := if bad then s.areaLost (lhnOf i.addr) (lhnOf i.addr) else s
    let p := newPool data i.key (i.poison || bad) .image s.clk.now 18
    let s1 := match s.poolInsert i.addr p true with | some t => t | none => s
    let s2 : State := { s1 with cast := { s1.cast with replayLeft := s1.cast.replayLeft ++ [i.addr] } }
    if i.ply then
      match s2.regionOf (lhnOf i.addr) with
      | some (k, _, _) => s2.spillPut k { line := i.addr, key := i.key, data := data, poison := i.poison || bad }
      | none => s2
    else s2

/-- The items of the image with their index numbers: those of the record's half, when its header checks and carries the record's SEQ (R234). -/
def State.imageItems (s : State) : List (Item × Nat) :=
  let r := s.energy.rcd
  if (s.half r.half).matches r then (s.half r.half).items.zipIdx else []

/-- Place the items of the image by their fates. -/
def State.placeItems (s : State) (failed : List (Nat × Bool)) : State :=
  s.imageItems.foldl (fun t x =>
    match s.itemFate failed x with
    | .good => t.placeItem x.1 x.2 false
    | .bad => t.placeItem x.1 x.2 true
    | .unnamed => t) s

/-- The zones of R221, one record for each, with the SEQ of the bind-off (R224). -/
def State.reportZones (s : State) : State :=
  s.energy.zoneMap.foldl (fun t z => t.eventSev evBINDOFF 2 4 0xFFFF z [96 * z, s.energy.rcd.seq]) s

/-- A loss of power that was not clean is counted, and the history is marked incomplete (R224, R403). -/
def State.countCut (s : State) : State :=
  (s.fset Reg.HST_STAT Fld.HST_STAT_INCOMPLETE 1).fadd Reg.GAU_BINDOFF_CNT Fld.GAU_BINDOFF_CNT_CUT 1

/-- Count and report a bind-off not recorded COMPLETE, once, or a loss of power that left no record (R224). Pool and merge buffer lines that fail are
poisoned; a counter or spill item that fails is reported by its own event. -/
def State.reportCut (s : State) (failed : List (Nat × Bool)) : State :=
  let r := s.energy.rcd
  if s.energy.noRec then
    let s1 := State.countCut { s with energy := { s.energy with noRec := false } }
    ((s1.fset Reg.GAU_BINDOFF_LAST Fld.GAU_BINDOFF_LAST_OUTCOME 6).eventSev evBINDOFF 2 0 0xFFFF 0 [5, 0, 0, 0, 0]).reportZones
  else if (r.phase = 4 ∧ r.cut = false) ∨ r.counted = true then s
  else
    let count := fun (p : Item × Nat → Bool) => (s.imageItems.filter p).length
    let lost := if r.phase = 0 then 0 else count fun x => s.itemFate failed x == .unnamed && x.1.src != 3
    let bad := count fun x => s.itemFate failed x == .bad && decide (x.1.src < 2)
    let s1 := (s.setRcd { r with counted := true }).countCut
    let s2 := s1.eventSev evBINDOFF 2 0 0xFFFF 0 [r.phase, r.nCtr + r.nSpill * 2 ^ 18 + r.nMb * 2 ^ 36, r.nPool, bad, lost]
    if r.phase = 0 ∨ lost ≠ 0 then s2.reportZones else s2

/-- The items are placed (R234): RDY_REPLAY reads 2, with the lines to write back. -/
def State.replayPlaces (s : State) : State :=
  let s1 := s.placeItems s.cast.failed
  (s1.fset Reg.RDY_REPLAY Fld.RDY_REPLAY_STATE 2).fset Reg.RDY_REPLAY Fld.RDY_REPLAY_LEFT s1.cast.replayLeft.length

/-- The replay reaches DONE (R234). -/
def State.replayEnds (s : State) : State :=
  let s1 := (s.fset Reg.RDY_REPLAY Fld.RDY_REPLAY_STATE 3).fset Reg.RDY_REPLAY Fld.RDY_REPLAY_LEFT 0
  if s.plat.warmWait then s1.fwRestart s.plat.fwNext else s1

/-- PLY sets once MAP is 1 and every region is SYNCING or MIRRORED (R325), in lane plan B only (R11). -/
def State.plyCheck (s : State) : State :=
  if s.planB && s.ready rMAP && (List.range 2).all (fun k => (List.range 16).all fun r =>
      decide (s.fget (Reg.PLK_REGION k r) Fld.PLK_REGION_STATE ≤ 2)) then s.setReady rPLY true else s

/-- Whether every counter and image line has been written back and has verified (R234). -/
def State.replayIdle (s : State) : Bool := s.cast.replayLeft.isEmpty && s.cast.ctrLeft.isEmpty

/-- The replay goes on (R234, Table 7-11): once the index is read its items are placed, and it is DONE when every counter and image line has been
written back and has verified, at once when there is none. The half stays unblanked until SKEINS_ALL. -/
def execReplayDone (s : State) : Res :=
  nextState (if s.power ≠ .on then s
  else if s.fget Reg.RDY_REPLAY Fld.RDY_REPLAY_STATE = 1 then (if s.replayPlaces.replayIdle then s.replayPlaces.replayEnds else s.replayPlaces)
  else if s.fget Reg.RDY_REPLAY Fld.RDY_REPLAY_STATE = 2 ∧ s.replayIdle = true then s.replayEnds
  else s)

/-! ### Skeins (R235, R237) -/

/-- Whether a physical hank holds a logical hank of skein `k` or of one before it. -/
def State.skeinHolds (s : State) (k phn : Nat) : Bool :=
  match s.boundTo phn with
  | .host l => decide (skeinOf l ≤ k)
  | _ => false

/-- Whether skein `k` may become ready: its suspect stripes are recomputed, and those of the skeins before it, since the module recomputes in skein
order; and no hank of it is being zeroed for a removal of capacity. -/
def State.skeinClear (s : State) (k : Nat) : Bool :=
  (s.hanks.suspect.all fun e => !(s.skeinHolds k (e.1 / 128))) &&
    (s.hanks.work.all fun e => skeinOf e.1 != k || e.2 == .hint || (s.ldOf (e.1 * 16384)).isSome)

/-- Both halves are blanked after SKEINS_ALL (R154). -/
def State.blankHalves (s : State) : State :=
  { s with energy := { s.energy with halfA := { s.energy.halfA with blanked := true }, halfB := { s.energy.halfB with blanked := true } } }

/-- Skein `k` is ready: the requests that wait for it take their deadlines; with the last, SKEINS_ALL and Memory_Active set (R52, R235, R237). -/
def execSkeinReady (k : Nat) (s : State) : Res :=
  nextState (if s.power = .on ∧ k < 64 ∧ s.replayDone = true ∧ s.skeinReady k = false ∧ s.failedBit rMAP = false ∧ s.failedBit rKEYS = false ∧
      s.skeinClear k = true ∧ s.cxl.sanitizing = 0 then
    let s1 := (s.fsetBit Reg.RDY_SKEIN Fld.RDY_SKEIN_SKEIN k true).wakeSkein k
    if s1.reg Reg.RDY_SKEIN = BitVec.allOnes 64 then
      let s2 := (s1.setReady rSKEINS true).blankHalves
      State.healthCheck { s2 with cxl := { s2.cxl with memActive := true } }
    else s1
  else s)

/-! ### Resets (R238 to R240) -/

/-- A command whose completion is not written runs to the end of its step: one over a range of hanks ends with the hank in progress (R239). -/
def Cmd.windUp (c : Cmd) : Cmd := { c with stopping := true, endWith := if c.work.contains wRange then some stABORTED else c.endWith }

/-- Commands of the paths that a reset stops: one that has changed something persistent runs on without a completion; the others, and those
that stand between two hanks, are dropped (R239). -/
def State.loseCmds (s : State) (p : Carrier → Bool) : State :=
  let ends := fun (c : Cmd) => !c.started || atGap c
  let cmds := (s.cmds.filter fun e => !(p e.2.carrier) || !(ends e.2)).map fun e => if p e.2.carrier then (e.1, e.2.windUp) else e
  let gone := (s.cmds.filter fun e => p e.2.carrier && ends e.2).reverse
  gone.foldl (fun s e => s.unwrite (carrierNo e.2.carrier) e.2 stABORTED e.2.done) { s with cmds := cmds }

def isRing : Carrier → Bool
  | .ring _ => true
  | _ => false

/-- The command rings lose their state: the CRG block returns to its reset values but for LDMASK and TEST_EN (R239). -/
def State.loseRings (s : State) : State :=
  let keep := (List.range 8).map fun n => s.reg (Reg.CRG_CTL n)
  let s1 := s.resetBlock fun o => decide (0x10000 ≤ o ∧ o < 0x20000)
  let s2 := (List.range 8).foldl (fun s n =>
    let w := keep.getD n 0
    (s.fset (Reg.CRG_CTL n) Fld.CRG_CTL_LDMASK (getF w Fld.CRG_CTL_LDMASK)).fset (Reg.CRG_CTL n) Fld.CRG_CTL_TEST_EN
      (getF w Fld.CRG_CTL_TEST_EN)) s1
  let s3 := s2.loseCmds isRing
  { s3 with rings := { Rings.init with unwritten := s3.rings.unwritten } }

/-- PERST# asserts (R238, R278): the host link goes idle, ring state and the IDE keys are lost; service in the module continues. -/
def execPerstAssert (s : State) : Res :=
  let s1 := s.loseRings
  nextState { s1 with
    cxl := { s1.cxl with perst := true, linkUp := false, cxlOn := false, decoders := [], hdmErr := [] }
    crypto := { s1.crypto with ideMem := [], ideIo := [], ideMemSecure := false, ideIoSecure := false, ideMemFailed := false } }

/-- PERST# is released: training of the host link begins (R238). -/
def execPerstRelease (s : State) : Res := nextState { s with cxl := { s.cxl with perst := false } }

/-- Complete an accepted request before a reset (R240). -/
def State.settleReq (s : State) (seq : Nat) : State :=
  match tget s.adm.dl seq with
  | none => s
  | some e =>
    if e.deadline.isNone then s.flushWaiting seq
    else
      match e.kind with
      | .read => let s := s.hitRead e.line; let (d, p) := s.readNow e.line; s.complete seq (some d) p
      | _ => if e.routed then s.complete seq none false else s.flushWaiting seq

/-- A CXL Reset (R240): every accepted request completes, then the line cache is invalidated and the rings, the HDM decoders and the
mailboxes are reset. In BOUND it runs a warm cast-on; held after a THERMAL bind-off, it lets the cast-on go on (R206, R431). -/
def execCxlReset (s : State) : Res :=
  nextState (if s.power = .bound then
    State.warmCastOn s.loseRings
  else if s.power = .on then
    let s1 := (s.adm.dl.map Prod.fst).foldl (fun s q => s.settleReq q) s
    let s2 := (s1.setCache []).invalStart.loseRings.loseCmds fun c => !(isRing c) && c != .mctp
    { s2 with cxl := { s2.cxl with decoders := [], hdmErr := [], mboxBusy := [] }, plat := { s2.plat with coldHold := false } }
  else s)

/-- A Function Level Reset (R239): the rings stop and lose their state. -/
def execFlr (s : State) : Res := nextState s.loseRings

/-- Writing 1 to CONFIG_LOCK locks the RWL fields until a cast-on (R18). -/
def execConfigLock (val : W64) (s : State) : Res :=
  nextState (if getF val Fld.RDY_CTL_CONFIG_LOCK = 1 then s.fset Reg.RDY_CTL Fld.RDY_CTL_CONFIG_LOCK 1 else s)

/-! ### The host link (R344, R346, R348) -/

/-- The host link ends training (R346, Table 11-2): CXL at x4, x8 or x16 and 16 or 32 GT/s, x16 in lane plan A only; below a switch that
negotiates MLD it runs as an MLD. Otherwise a PCI Express link. -/
def execHostLinkTrained (lanes rate : Nat) (mldBelowSwitch : Bool) (s : State) : Res :=
  nextState (if s.cxl.perst = false ∧ (s.power = .on ∨ s.power = .bound) ∧ s.clk.pll = true ∧ (s.cxl.common = false ∨ s.cxl.refclk = true) then
    let plan := s.fget Reg.RDY_CASTON Fld.RDY_CASTON_PLAN
    let width := min lanes (if plan = 1 then 8 else 16)
    let ok := (width == 4 || width == 8 || width == 16) && (rate == 16 || rate == 32)
    let mld := ok && mldBelowSwitch
    let s1 : State := { s with
      cxl := { s.cxl with linkUp := true, cxlOn := ok, lanes := width, rate := rate, mld := mld
                          lds := if mld || !s.cxl.mld then s.cxl.lds else ⟨0, s.sldHanks⟩ :: List.replicate 15 ⟨0, 0⟩ } }
    if mld ≠ s.cxl.mld ∧ s.cxl.qosSet = false then s1.planShares plan else s1
  else s)

/-- REFCLK stops in common-clock mode: the host link goes down; accepted requests complete in the module (R348). -/
def execRefclkStop (s : State) : Res :=
  nextState { s with cxl := { s.cxl with refclk := false, common := true, linkUp := false } }

/-- REFCLK returns in common-clock mode: the host link retrains (R348). -/
def execRefclkReturn (s : State) : Res :=
  nextState (if s.cxl.common ∧ s.cxl.perst = false ∧ s.cxl.lanes ≠ 0 ∧ (s.power = .on ∨ s.power = .bound) then
    { s with cxl := { s.cxl with refclk := true, linkUp := true } }
  else { s with cxl := { s.cxl with refclk := true } })

end Sys2Proof.Machine
end

