-- ==== Sys2Proof/Machine/Ply.lean ====
section
/-! DEFINITION. What a Helra link does between packets (chapter 10): leaving and reaching UP, operations on replicas, resync, the
pump that queues what may be sent, and the checks every received packet passes. -/

namespace Sys2Proof.Machine

/-! ### Links -/

def State.updLink (s : State) (k : Nat) (f : Link → Link) : State := s.setLink k (f (s.link k))
def State.linkState (s : State) (k : Nat) : Nat := s.fget (Reg.PLK_LINK k) Fld.PLK_LINK_STATE
def State.setLinkState (s : State) (k v : Nat) : State := s.fset (Reg.PLK_LINK k) Fld.PLK_LINK_STATE v

/-- Whether PLK_CTL lets a link train, and PWR_REQ does not hold its domain off (R434). -/
def State.linkEn (s : State) (k : Nat) : Bool := s.fbit Reg.PLK_CTL ⟨1, 0⟩ k && !(s.fbit Reg.PWR_REQ ⟨1, 0⟩ k)

/-- Bytes of a packet with `len` bytes of DATA in the window of its link (R310, Table 13-3): header, DATA, TAG while UP, CRC. -/
def State.linkBytes (s : State) (k len : Nat) : State := s.bytes (1 + k) (20 + len + if s.linkUp k then 16 else 0)

/-- Regions and areas of a link. -/
def State.region (s : State) (k r : Nat) : Nat × Nat × Nat :=
  (s.fget (Reg.PLK_REGION k r) Fld.PLK_REGION_STATE, s.fget (Reg.PLK_REGION k r) Fld.PLK_REGION_BASE,
    s.fget (Reg.PLK_REGION k r) Fld.PLK_REGION_COUNT)
def State.area (s : State) (k a : Nat) : Nat × Nat × Nat :=
  (s.fget (Reg.PLK_AREA k a) Fld.PLK_AREA_STATE, s.fget (Reg.PLK_AREA k a) Fld.PLK_AREA_BASE,
    s.fget (Reg.PLK_AREA k a) Fld.PLK_AREA_COUNT)

/-- SERIAL of the authenticated neighbour. -/
def State.peerSerial (s : State) (k : Nat) : Nat := (s.reg (Reg.PLK_PEER k)).toNat

/-- The area that the present neighbour's region has here. -/
def State.areaOf (s : State) (k region : Nat) : Option Nat :=
  (List.range 16).find? fun a => (s.area k a).1 != 0 && tget (s.link k).senders a == some (s.peerSerial k * 16 + region)

/-- Open a fault whose onset lies in the past: an interruption that is open joins it and begins at the earlier onset (R80). -/
def State.openFaultAt (s : State) (f onset : Nat) : State :=
  let s1 := s.openFault f
  { s1 with adm := { s1.adm with onset := if s.adm.faults.isEmpty then onset else min onset s.adm.onset } }

/-! ### What a command waits for on a link -/

/-- Take one item off a command's work; a status other than OK stays with it. -/
def State.cmdUnwait (s : State) (id w status : Nat) : State :=
  match tget s.cmds id with
  | none => s
  | some c =>
    let c1 := { c with work := c.work.erase w, status := if status = stOK then c.status else status }
    if c1.work.isEmpty then s.finish id c1.status c1.done c1.extra c1.output else s.setCmd id c1

/-- The work item of operation `op` on a region, and of the region's reaching MIRRORED. -/
def opItem (op region : Nat) : Nat := op * 16 + region
def syncItem (region : Nat) : Nat := 256 + region

/-! ### The pump: operations and resync (R331, R333, R335, R473) -/

/-- Whether an operation waiting on a region may be sent: QUERY, OPEN, BEGIN and END at once; ERASE once no QUERY or OPEN is out; SEAL,
RELEASE and CLOSE once the region is MIRRORED, or gone. -/
def opReady (l : Link) (st : Nat) (o : PlyOp) : Bool :=
  if o.op ≤ 4 then true
  else if o.op = 6 then !(l.ops.any fun x => x.region == o.region && (x.op == 1 || x.op == 2))
  else st == 2 || (o.op != 7 && st == 0)

/-- The deadline of an operation on a replica: that of the command it serves (R382) or of the resync that it begins or ends (R318), else its
creation plus the WINDOW of class 1 (R53). -/
def State.opDue (s : State) (k : Nat) (o : PlyOp) : Nat :=
  let l := s.link k
  let cmd := match o.cmd, l.setPly with
    | some id, _ => some id
    | none, some (id, r, _, _) => if o.op = 1 ∧ r = o.region then some id else none
    | none, none => none
  match cmd.bind (tget s.cmds), l.sync with
  | some c, _ => c.expiry.getD (s.bgDeadline 1)
  | none, some y => if o.op = 3 ∨ o.op = 4 then y.due else s.bgDeadline 1
  | none, none => s.bgDeadline 1

/-- Queue the packets of the operations of one kind that may go. -/
def State.sendOps (s : State) (k : Nat) (kinds : List Nat) : State :=
  let l := s.link k
  let go := l.ops.map fun o =>
    if kinds.contains o.op && !o.sent && opReady l (s.region k o.region).1 o then (true, { o with sent := true }) else (false, o)
  let s1 := s.setLink k { l with ops := go.map Prod.snd }
  (go.filter (·.1)).foldl (fun s x =>
    let o := x.2
    let s2 := s.txPut k (.resyncReq o.op o.region 0 false 0 o.args o.rcd) (s.opDue k o)
    if o.op = 7 ∨ o.op = 8 then s2.txPut k (.resyncReq o.op o.region 1 false 0 o.args o.rcd) (s.opDue k o) else s2) s1

/-- Everything that may be sent, each group in order of origin (R331). -/
def State.plyPump (s : State) (k : Nat) : State :=
  if s.linkUp k then (((s.sendOps k [1, 2, 3, 4, 6]).sendOps k [7]).sendOps k [8]).sendOps k [5] else s

/-- Put an operation on a replica in hand. -/
def State.queueOp (s : State) (k : Nat) (o : PlyOp) : State :=
  (s.updLink k fun l => { l with ops := l.ops ++ [o] }).plyPump k

def plyOp (op region : Nat) (args : List Nat) : PlyOp := { op := op, region := region, args := args, rcd := none, sent := false, cmd := none }

/-- PLK_SYNC follows the resync. -/
def State.syncStat (s : State) (k : Nat) : State :=
  let o := Reg.PLK_SYNC k
  match (s.link k).sync with
  | some y =>
    if y.step = 0 then s.setReg o 0
    else
      let n := (y.left.map Prod.snd).foldl (· + ·) 0
      (((s.fset o Fld.PLK_SYNC_ACTIVE 1).fset o Fld.PLK_SYNC_FULL (if y.full then 1 else 0)).fset o Fld.PLK_SYNC_REGION y.region).fset o
        Fld.PLK_SYNC_LEFT (if y.full then (n + 16383) / 16384 else n)
  | none => s.setReg o 0

def State.setSync (s : State) (k : Nat) (y : Option Sync) : State := State.syncStat (s.updLink k fun l => { l with sync := y }) k

/-- Lines of a region in the spill queue. -/
def State.spillOf (s : State) (k r : Nat) : List SpillLine :=
  let (_, base, count) := s.region k r
  (s.link k).spill.filter fun x => decide (base ≤ lhnOf x.line ∧ lhnOf x.line < base + count)

/-- A SET_PLY whose region is recorded completes when its region becomes SYNCING (R322). -/
def State.setPlyDone (s : State) (k r status : Nat) : State :=
  match (s.link k).setPly with
  | some (cmd, r', _, _) =>
    if r' = r then State.finish (s.updLink k fun l => { l with setPly := none }) cmd status r 0 [] else s
  | none => s

/-- The deadline of a resync: that of the RESYNC_PLY that waits for it (R382), else its creation plus the WINDOW of class 1 (R53). -/
def State.syncDue (s : State) (k r : Nat) : Nat :=
  match tfind s.cmds fun _ c => c.work.contains (wPly k (syncItem r)) with
  | some (_, c) => c.expiry.getD (s.bgDeadline 1)
  | none => s.bgDeadline 1

/-- The next resync: a region waits for admission; once no RwD credit that WT covered is left it is SYNCING, and BEGIN (a full resync) or
its spilled lines follow (R331, R473); with every line sent, END. -/
def State.syncPump (s : State) (k : Nat) : State :=
  if !(s.linkUp k) then s
  else
    let l := s.link k
    match l.sync with
    | none =>
      match l.wantSync with
      | [] => s
      | w :: rest =>
        State.setSync (s.updLink k fun l => { l with wantSync := rest }) k
          (some { region := w % 16, full := decide (16 ≤ w), step := 0, left := [], due := s.syncDue k (w % 16) })
    | some y =>
      if y.step = 0 then
        if s.uncovered = 0 then
          let (_, base, count) := s.region k y.region
          let left := if y.full then [(base * 16384, count * 16384)] else (s.spillOf k y.region).map fun x => (x.line, 1)
          let s1 := (s.setRegion k y.region 1).setSync k (some { y with step := 2, left := left })
          let s2 := if y.full then s1.queueOp k (plyOp 3 y.region []) else s1
          State.plyCheck (s2.setPlyDone k y.region stOK)
        else s
      else if y.step = 2 ∧ y.left = [] then (s.setSync k (some { y with step := 3 })).queueOp k (plyOp 4 y.region [])
      else s

/-! ### Leaving UP (R309, R329, R335) -/

/-- A region breaks or degrades: a PLY event (warning) names it. -/
def State.plyEvent (s : State) (k r st : Nat) : State := (s.setRegion k r st).event evPLY 4 0xFFFF r [k, st]

/-- The regions of a link that leaves UP (R329). -/
def State.regionsBreak (s : State) (k : Nat) : State :=
  let full := match (s.link k).sync with | some y => if y.full then some y.region else none | none => none
  (List.range 16).foldl (fun s r =>
    let st := (s.region k r).1
    if st = 2 then s.plyEvent k r 3
    else if st = 1 then s.plyEvent k r (if full = some r then 4 else 3)
    else s) s

/-- The lines whose MIRROR_ACK has not come, oldest first: request, region, hank offset, line in hank, data. -/
def Link.waitingAck (l : Link) : List MirrorLine :=
  let sent := l.unacked.flatMap fun u => match u.2 with
    | .mirrorWrite r h n ds qs => (ds.zip qs).zipIdx.map fun x =>
        ({ seq := x.1.2, region := r, hoff := h, line := n + x.2, data := x.1.1, deadline := 0, ld := 16 } : MirrorLine)
    | _ => []
  sent ++ l.mirrorOut ++ l.mirrorWait

/-- Logical line of a mirrored line. -/
def State.mirrorLineNo (s : State) (k : Nat) (m : MirrorLine) : Nat := ((s.region k m.region).2.1 + m.hoff) * 16384 + m.line

/-- A write's MIRROR_ACK has come, or will not come: the request or the command goes on. -/
def State.mirrorDone (s : State) (m : MirrorLine) (line : Nat) : State :=
  if m.seq < 2 ^ 32 then s.complete m.seq none false
  else s.cmdUnwait (m.seq - 2 ^ 32) (wMirror line) stOK

/-- A write that waits for MIRROR_ACK completes one-ply; its line is copied to the spill queue of a DEGRADED region (R24, R329). -/
def State.onePly (s : State) (k : Nat) (m : MirrorLine) : State :=
  let line := s.mirrorLineNo k m
  let key := (s.hostEntry (lhnOf line)).key
  let s1 := if (s.region k m.region).1 = 3 then s.spillPut k { line := line, key := key, data := m.data, poison := false } else s
  s1.mirrorDone m line

/-- Operations that wait for an answer: their commands complete PLY_DEGRADED, and an ERASE leaves its region BROKEN (R335, R336). -/
def State.opsBreak (s : State) (k : Nat) : State :=
  (s.link k).ops.foldl (fun s o =>
    match o.cmd with
    | none => s
    | some id =>
      let s1 := if o.op = 6 ∧ (s.region k o.region).1 ≠ 4 then s.plyEvent k o.region 4 else s
      s1.cmdUnwait id (wPly k (opItem o.op o.region)) stPLY_DEGRADED) s

/-- What a link keeps when its session ends. -/
def Link.ended (l : Link) : Link := { l.restart with spill := l.spill }

/-- An UP link breaks (R329): its delay is an interruption from the onset of the fault. -/
def State.plyBreak (s : State) (k onset : Nat) : State :=
  let f := 600000 + k
  let s1 := (s.openFaultAt f onset).regionsBreak k
  let s2 := (s1.link k).waitingAck.foldl (fun s m => s.onePly k m) s1
  let s3 := s2.opsBreak k
  let s4 := match (s3.link k).setPly with
    | some (cmd, r, _, _) => s3.finish cmd (if (s3.region k r).1 = 0 then stPLY_DEGRADED else stOK) r 0 []
    | none => s3
  let s5 := (List.range 16).foldl (fun s r =>
    (tkeys s.cmds fun c => c.work.contains (wPly k (syncItem r))).foldl (fun s id => s.cmdUnwait id (wPly k (syncItem r)) stPLY_DEGRADED) s) s4
  (s5.setReg (Reg.PLK_SYNC k) 0).closeFault f

/-- A link leaves UP, HELLO or AUTH for a cause (R309): the cause is recorded, a CHAIN event raised, and the link trains again. -/
def State.linkLeaves (s : State) (k cause : Nat) : State :=
  let st := s.linkState k
  if st < 2 ∨ 4 < st then s
  else
    let s1 := (s.fset (Reg.PLK_LINK k) Fld.PLK_LINK_CAUSE cause).setLinkState k (if s.linkEn k then 0 else 5)
    let s2 := s1.event evCHAIN 4 0xFFFF k [cause]
    let s3 := if st = 4 then
        State.plyBreak ((s2.fadd (Reg.PLK_LINK k) Fld.PLK_LINK_DOWNS 1).setReady (rHLA + k) false) k (s.link k).lastRx
      else s2
    let late := if st = 4 then (s.link k).unacked else []
    s3.updLink k fun l => { l.ended with late := late, lateAt := s.clk.now }

/-! ### Reaching UP (R315, R321, R331, R339) -/

/-- A CLAIM of the module's own, sent on every UP link (R337, R339). -/
def State.claimSend (s : State) (addr : Nat) (held : Bool) (round : Nat) : State :=
  let c : ClaimMsg := { addr := addr, held := held, ttl := 16383, round := round, serial := Config.serial }
  let s1 : State := { s with chain := { s.chain with
    seenClaims := ((addr, Config.serial % 2 ^ 64, round, held) :: s.chain.seenClaims).take 4096 } }
  ([0, 1] : List Nat).foldl (fun s k => if s.linkUp k then s.txPut k (.claim c) (s.clk.now + 100) else s) s1

def State.round (s : State) : Nat := s.fget Reg.PLK_CHAIN Fld.PLK_CHAIN_ROUND
def State.uaddrValid (s : State) : Bool := s.fget Reg.PLK_UADDR Fld.PLK_UADDR_VALID == 1
def State.uaddr (s : State) : Nat := s.fget Reg.PLK_UADDR Fld.PLK_UADDR_ADDR

/-- Claim a candidate in the present round (R339). -/
def State.claimStart (s : State) (cand : Nat) : State :=
  State.claimSend { s with chain := { s.chain with cand := some cand, claimRound := s.round, beaten := false } } cand false s.round

/-- What the chain does when a link comes UP: the first claim, or the present one told to the new neighbour (R339, R341). -/
def State.chainUp (s : State) : State :=
  let s1 : State := { s with chain := { s.chain with firstUp := true } }
  if s.uaddrValid then s1.claimSend s.uaddr true s.round
  else
    match s.chain.cand with
    | some c => s1.claimSend c false s.chain.claimRound
    | none => if s.failedBit rCHAIN then s1 else s1.claimStart (s.fget Reg.PLK_UADDR Fld.PLK_UADDR_PREF)

/-- For each region that is not MIRRORED: QUERY the same holder, or OPEN an area on a new one (Table 10-11). -/
def State.resyncAsk (s : State) (k : Nat) : State :=
  (List.range 16).foldl (fun s r =>
    let (st, _, count) := s.region k r
    if st = 3 ∨ st = 4 then
      match tget (s.link k).holders r with
      | some h => if h.serial = s.peerSerial k then s.queueOp k (plyOp 2 r []) else s.queueOp k (plyOp 1 r [count])
      | none => s.queueOp k (plyOp 1 r [count])
    else s) s

/-- A link is UP (R321): each end holds the full credits of every class for the other (Table 10-4). -/
def State.linkComesUp (s : State) (k : Nat) : State :=
  let full := [512, 64, 32]
  let s1 := s.setLinkState k 4
  let s2 := s1.updLink k fun l => { l with
    got := full, used := [0, 0, 0], given := full, rxUsed := [0, 0, 0], uctr := 0, rxUctr := 0,
    ackDue := true, creditDue := false, lastRx := s.clk.now, lastCredit := s.clk.now, backoff := 0 }
  let peer := match (s.link k).peer with | some d => d.serial | none => 0
  let s3 := (s2.setReg (Reg.PLK_PEER k) (BitVec.ofNat 64 peer)).setReady (rHLA + k) true
  ((s3.chainUp).resyncAsk k).plyPump k

/-! ### Credits given (R315, R316) -/

/-- Give back what has been acted on: MIRROR and RESYNC credits only as far as pool credits can be set aside, and none while the directory's
overflow area is full (R186, R316). -/
def State.topUp (s : State) (k : Nat) : State :=
  if !(s.linkUp k) then s
  else
    let l := s.link k
    let g := fun i => l.given.getD i 0
    let u := fun i => l.rxUsed.getD i 0
    let free := if s.dirOverflow < 64 then s.poolFree else 0
    let open' := s.power == .on
    let m := if open' then min (512 - (g 0 - u 0)) free else 0
    let r := if !open' then 0 else min (64 - (g 1 - u 1)) ((free - m) / 3)
    let c := 32 - (g 2 - u 2)
    if m = 0 ∧ r = 0 ∧ c = 0 then s
    else s.setLink k { l with given := [g 0 + m, g 1 + r, g 2 + c], creditDue := true }

/-! ### Receiving (R310 to R315) -/

/-- Whether sequence number `a` is at or behind `b`, modulo 4,096. -/
def seqLe (a b : Nat) : Bool := decide ((b + 4096 - a) % 4096 < 2048)

/-- An acknowledgement takes packets out of the replay buffer; a replay in progress goes on from the oldest left. -/
def Link.acked (l : Link) (a : Nat) : Link :=
  let rest := l.replay.filter fun p => !(seqLe p.1 a)
  let goOn := match l.replaying with
    | some f => if rest.any fun p => p.1 == f then some f else if seqLe f a then rest.head?.map Prod.fst else none
    | none => none
  { l with replay := rest, replaying := goOn, replays := l.replays.filter fun q => rest.any fun p => p.1 == q }

/-- What became of a received packet: it is accepted, or the state after its refusal. -/
inductive Rx where
  | go (s : State)
  | stop (s : State)

/-- The checks of a sequenced packet in their order: link state, sequence, tag, protocol (R309, R311, R313). `cost`: credits of its class
that it uses. -/
def State.rx (s : State) (k : Nat) (hdr : PktHdr) (states : List Nat) (cls : Nat) (okay : Bool) (cost : Nat) : Rx :=
  if !(states.contains (s.linkState k)) then .stop s
  else
    let s := (s.updLink k fun l => { l with lastRx := s.clk.now }).linkBytes k hdr.len
    let l := s.link k
    if hdr.seq ≠ l.rxSeq then
      if (hdr.seq + 4096 - l.rxSeq) % 4096 ≤ 2048 then .stop (s.setLink k { l with nakDue := some l.rxSeq }) else .stop s
    else if !hdr.tagOk then .stop ((s.fadd (Reg.PLK_ERR k) Fld.PLK_ERR_TAG 1).linkLeaves k 4)
    else if hdr.cls ≠ cls ∨ okay = false ∨ (cls < 3 ∧ l.given.getD cls 0 < l.rxUsed.getD cls 0 + cost) then .stop (s.linkLeaves k 5)
    else
      let l1 := if hdr.ackv then l.acked hdr.ackseq else l
      .go (s.setLink k { l1 with rxSeq := (l.rxSeq + 1) % 4096, ackDue := true, rxUsed := if cls < 3 then lset l.rxUsed cls (l.rxUsed.getD cls 0 + cost) else l.rxUsed })

/-- The checks of a CREDIT or a NAK (R312): the counter is the smallest value above the last accepted with these low bits. -/
def State.rxFree (s : State) (k : Nat) (hdr : PktHdr) (states : List Nat) : Rx :=
  if !(states.contains (s.linkState k)) then .stop s
  else
    let s := (s.updLink k fun l => { l with lastRx := s.clk.now }).linkBytes k hdr.len
    let up := s.linkUp k
    if up && !hdr.tagOk then .stop ((s.fadd (Reg.PLK_ERR k) Fld.PLK_ERR_TAG 1).linkLeaves k 4)
    else if hdr.cls ≠ 3 then .stop (s.linkLeaves k 5)
    else
      let l := s.link k
      let l1 := if hdr.ackv then l.acked hdr.ackseq else l
      let n := l.rxUctr / 2 ^ 20 * 2 ^ 20 + hdr.uctr % 2 ^ 20
      .go (s.setLink k { l1 with rxUctr := if up then (if n < l.rxUctr then n + 2 ^ 20 else n) + 1 else l.rxUctr })

/-- Run what an accepted packet does. -/
def Rx.run (r : Rx) (f : State → State) : Res :=
  match r with
  | .go s => nextState (f s)
  | .stop s => nextState s

/-! ### Replay (R314, R57) -/

/-- Start a replay from the oldest unacknowledged packet; a packet that would be replayed a second time fails the link instead. -/
def State.startReplay (s : State) (k : Nat) : State :=
  let l := s.link k
  match l.replay with
  | [] => s
  | (q, _, _) :: _ =>
    if l.replay.any fun p => l.replays.contains p.1 then s.linkLeaves k 3
    else s.setLink k { l with replaying := some q, replays := l.replay.map Prod.fst }

/-! ### ERASE on the replica (R335) -/

/-- The ERASE of the replica of a hank that has not been answered, by its link. -/
def State.eraseOf (s : State) (lhn : Nat) : Option Nat :=
  match s.regionOf lhn with
  | none => none
  | some (k, r, _) =>
    let hoff := lhn - (s.region k r).2.1
    if (s.link k).ops.any fun o => o.op == 6 && o.region == r && o.args.take 2 == [hoff, 1] then some k else none

/-- The ERASE that an operation on a hank of a region calls for. `cmd`: the command that waits for its answer. Answers whether the link was
down, so that the command is to complete PLY_DEGRADED, and the work to wait for. -/
def State.plyErase (s : State) (lhn kind : Nat) (cmd : Option Nat) : Bool × List Nat × State :=
  match s.regionOf lhn with
  | none => (false, [], s)
  | some (k, r, st) =>
    let hoff := lhn - (s.region k r).2.1
    if s.linkUp k then
      (false, (match cmd with | some _ => [wPly k (opItem 6 r)] | none => []),
        s.queueOp k { plyOp 6 r [hoff, 1, kind] with cmd := cmd })
    else
      let s1 := s.updLink k fun l => { l with ops := l.ops ++ [plyOp 6 r [hoff, 1, kind]] }
      (true, [], if st = 4 then s1 else s1.plyEvent k r 4)

end Sys2Proof.Machine
end

