-- ==== Sys2Proof/Machine/Restore.lean ====
section
/-! DEFINITION. The restore of the maps at cast-on, and the work on hanks that goes on after it (R152 to R154, R233, R234). -/

namespace Sys2Proof.Machine

/-- A SECURING hank that the maps still show: steps 2 to 6 of its discard are carried out again, its neighbour being asked once more, as soon as
the link is UP (R154). -/
def State.secureAgain (s : State) (lhn : Nat) : State :=
  let s1 := if (tget s.hanks.work lhn).isSome then s else s.beginWork lhn (.secure none)
  match s1.regionOf lhn, s1.eraseOf lhn with
  | some (k, r, _), none => s1.queueOp k (plyOp 6 r [lhn - (s1.region k r).2.1, 1, 1])
  | _, _ => s1

/-- Work on hanks that the maps still show: hints, ZEROING and SECURING (R152 to R154), and hanks that left LD 0 (R350). -/
def State.resumeWork (s : State) : State :=
  let s1 := s.hanks.host.foldl (fun s e =>
    if e.2.state = 4 then s.secureAgain e.1
    else if (tget s.hanks.work e.1).isSome then s
    else if e.2.state = 3 then s.beginWork e.1 (.zero none)
    else if e.2.hint then s.beginWork e.1 .hint
    else s) s
  if s.cxl.mld then s1
  else
    let n := s1.sldHanks
    ((List.range (hostHanks - n)).map (n + ·)).foldl (fun s l =>
      let e := s.hostEntry l
      if e.state = 1 ∧ e.ply ≠ 3 ∧ e.isSealed = false then
        ((s.setEntry false l { e with state := 3, key := 0, hint := false }).beginWork l (.zero none)).slotLeft e.key
      else s) s1

/-- The maps are restored, migrations resolved and the free bitmap rebuilt: MAP sets and the replay reads the image (R233, R234). `imageOk`: whether
the lines of image A and of image B read well; with no image that can be used MAP fails (R132, R232). `failed`: items of the image, by index
number, that are found unreadable, with whether their index entry is. -/
def execMapRestoreDone (imageOk : Bool × Bool) (failed : List (Nat × Bool)) (s : State) : Res :=
  nextState (if s.power = .on ∧ s.ready rWMEM = true ∧ s.ready rKEYS = true ∧ s.cast.l3 = true ∧ s.ready rMAP = false ∧ s.failedBit rMAP = false ∧
      s.plat.coldHold = false then
    match s.hanks.usableImage imageOk.1 imageOk.2 with
    | none => s.setFail rMAP
    | some i =>
      let s1 := (s.restoreMaps i).fixMigs.freeRebuild.resumeWork
      let s2 := (State.startSuspects { s1 with hanks := { s1.hanks with mapsReady := true } }).evacNext
      let s3 := (s2.setReady rMAP true).reportCut failed
      (State.fset { s3 with cast := { s3.cast with failed := failed } } Reg.RDY_REPLAY Fld.RDY_REPLAY_STATE 1).plyCheck
  else s)

end Sys2Proof.Machine
end

