-- ==== Sys2Proof/Machine/Helra.lean ====
section
/-! DEFINITION. The Helra links (chapter 10): training, authentication, the transmitter, and every packet of the mirror, resync and ply
control. -/

namespace Sys2Proof.Machine

/-! ### Training and leaving (R307, R309) -/

/-- The HELLO of this module (Table 10-6). -/
def State.hello (s : State) (k : Nat) (nonce : BitVec 256) : HelloData :=
  { version := 1, product := 0x0E6A, link := k, uaddrValid := s.uaddrValid, uaddr := if s.uaddrValid then s.uaddr else 0,
    serial := Config.serial % 2 ^ 64, nonce := nonce }

/-- Training ends: four lanes at 32 GT/s, and a HELLO is sent; or the link is DOWN and waits 1 ms, doubled up to 1 s (R307, R319). -/
def execLinkTrained (k : Nat) (ok : Bool) (s : State) : Res :=
  nextState (if k < 2 ∧ s.linkState k = 1 ∧ s.clk.pll = true then
    if ok then
      let (nonce, s1) := s.draw 256
      let s2 := (s1.setLinkState k 2).updLink k fun l => { l with lastRx := s.clk.now }
      s2.txPut k (.hello (s2.hello k nonce)) s.clk.now
    else
      let s1 := (s.setLinkState k 0).fadd (Reg.PLK_LINK k) Fld.PLK_LINK_TRAIN_FAIL 1
      s1.updLink k fun l => { l with backoff := if l.backoff = 0 then 1 else min 1000 (2 * l.backoff), downAt := s.clk.now }
  else s)

/-- The wait after a failed training ends, and training starts again; after a departure there is none to wait (R307, R309). -/
def execLinkTrainRetry (k : Nat) (s : State) : Res :=
  nextState (if k < 2 ∧ s.linkState k = 0 ∧ s.planB = true ∧ s.linkEn k = true ∧ s.power ≠ .aux ∧ s.power ≠ .none ∧
      (s.link k).downAt + 100000 * (s.link k).backoff ≤ s.clk.now then s.setLinkState k 1
  else s)

/-- A link leaves UP, HELLO or AUTH for a cause of R309. -/
def execLinkDown (k cause : Nat) (s : State) : Res :=
  nextState (if k < 2 ∧ 1 ≤ cause ∧ cause ≤ 7 then s.linkLeaves k cause else s)

/-- No packet other than IDLE for 1,000 ticks. -/
def execLinkIdleTimeout (k : Nat) (s : State) : Res :=
  nextState (if k < 2 ∧ (s.link k).lastRx + 1000 ≤ s.clk.now then s.linkLeaves k 2 else s)

/-- 200 ticks since the last CREDIT of an UP link (R309). -/
def execCreditTimer (k : Nat) (s : State) : Res :=
  nextState (if k < 2 ∧ s.linkUp k = true ∧ (s.link k).lastCredit + 200 ≤ s.clk.now then s.updLink k fun l => { l with creditDue := true } else s)

/-- The oldest unacknowledged packet is 26 ticks past its last beat (R314). -/
def execReplayTimer (k : Nat) (s : State) : Res :=
  nextState (if k < 2 ∧ (s.link k).replaying = none then
    match (s.link k).replay with
    | (_, _, t) :: _ => if t + 26 ≤ s.clk.now then s.startReplay k else s
    | [] => s
  else s)

/-! ### The transmitter (R313 to R318, R327, R332) -/

/-- Parts of an AUTH of KIND 0: the ephemeral key and entries 2 and 3, 240 bytes a part (R320). -/
def authParts : Nat := (96 + Config.certLen 2 + Config.certLen 3 + 239) / 240

/-- Bytes of DATA of a packet (Table 10-3). -/
def PktBody.len : PktBody → Nat
  | .hello _ => 64
  | .auth p _ kind => if kind = 1 then 48 else if p + 1 = authParts then 96 + Config.certLen 2 + Config.certLen 3 - 240 * p else 240
  | .mirrorWrite _ _ _ ls _ => 64 * ls.length
  | .resyncReq _ _ _ _ _ args rcd => if rcd.isSome then 128 else 4 * args.length
  | .resyncData _ _ _ _ ls => 64 * ls.length
  | .chain m => m.data.length
  | .claim _ => 8
  | _ => 0

/-- Put a packet on the lanes. -/
def State.lanes (s : State) (k : Nat) (b : PktBody) (seq ack : Nat) : State := (s.out (.helra k b seq ack)).linkBytes k b.len

/-- The acknowledgement that every packet carries. -/
def Link.ackNow (l : Link) : Nat := (l.rxSeq + 4095) % 4096

/-- Send a sequenced packet: it takes the next SEQ and stays in the replay buffer. -/
def State.emit (s : State) (k : Nat) (b : PktBody) (deadline : Nat) : State :=
  let l := s.link k
  let s1 := s.lanes k b l.txSeq l.ackNow
  s1.setLink k { l with replay := l.replay ++ [(l.txSeq, ({ body := b, deadline := deadline } : TxPkt), s.clk.now)], txSeq := (l.txSeq + 1) % 4096, ackDue := false }

/-- The MIRROR_WRITE that the head of the mirror-out queue gives: up to three consecutive lines of one hank, as they stand (R327). -/
def mirrorRun : List MirrorLine → List MirrorLine
  | [] => []
  | m :: rest =>
    let next := fun (n : Nat) (x : MirrorLine) => x.region == m.region && x.hoff == m.hoff && x.line == m.line + n
    match rest with
    | a :: b :: _ => if next 1 a then (if next 2 b then [m, a, b] else [m, a]) else [m]
    | [a] => if next 1 a then [m, a] else [m]
    | [] => [m]

/-- Credit class of a packet (Table 10-3). -/
def PktBody.cls : PktBody → Nat
  | .mirrorWrite .. => 0
  | .resyncReq .. => 1
  | .resyncData .. => 1
  | .chain _ => 2
  | .claim _ => 2
  | _ => 3

/-- Credits left in a class. -/
def Link.left (l : Link) (c : Nat) : Nat := if c = 3 then 1 else l.got.getD c 0 - l.used.getD c 0
def Link.use (l : Link) (c n : Nat) : Link := if c = 3 then l else { l with used := lset l.used c (l.used.getD c 0 + n) }

/-- The packets that may go, of the four kinds that the transmitter chooses from. -/
inductive Choice where
  | queued (i : Nat)
  | mirror (n : Nat)
  | resync
  deriving DecidableEq, Repr

/-- Whether resync data waits because its class is held; that of a RESYNC_PLY with a TIMEOUT has its deadline from the command (R64, R332, R382). -/
def State.resyncHeld (s : State) (y : Sync) : Bool :=
  s.adm.held.getD 17 false && !(s.cmds.any fun e => e.2.running && e.2.expiry == some y.due)

/-- Every packet that could be sent now, with its deadline (rule 5 of R318). Resync data waits for the operations before it. -/
def State.choices (s : State) (k : Nat) : List (Nat × Choice) :=
  let l := s.link k
  let q := (l.tx.zipIdx.filter fun x => decide (0 < l.left x.1.body.cls)).map fun x => (x.1.deadline, Choice.queued x.2)
  let run := mirrorRun l.mirrorOut
  let n := min run.length (l.left 0)
  let m := if n = 0 then [] else [((run.map (·.deadline)).foldl min (run.head?.map (·.deadline) |>.getD 0), Choice.mirror n)]
  let waits := l.tx.any fun x => match x.body with | .resyncReq .. => true | _ => false
  let r := match l.sync with
    | some y => if y.step = 2 ∧ y.left ≠ [] ∧ 0 < l.left 1 ∧ waits = false ∧ s.resyncHeld y = false then [(y.due, Choice.resync)] else []
    | none => []
  m ++ q ++ r

/-- A mirrored line counts for the LD and class of its request (HL_TX, R397). -/
def State.countTx (s : State) (k : Nat) (m : MirrorLine) : State :=
  let (cls, ld) :=
    if m.seq < 2 ^ 32 then (match tget s.adm.dl m.seq with | some e => (if e.kind = .part then 2 else 1, e.ld) | none => (1, 18))
    else (match tget s.cmds (m.seq - 2 ^ 32) with | some c => (1, c.pkt.ld) | none => (1, 18))
  s.count 0x0040 k 1 cls ld (some (lhnOf (s.mirrorLineNo k m)))

/-- Send a MIRROR_WRITE of `n` lines: their mirror-out credits go to lines that wait (R28, R47). -/
def State.sendMirror (s : State) (k n : Nat) : State :=
  let l := s.link k
  let run := l.mirrorOut.take n
  match run with
  | [] => s
  | m :: _ =>
    let b := PktBody.mirrorWrite m.region m.hoff m.line (run.map (·.data)) (run.map (·.seq))
    let d := (run.map (·.deadline)).foldl min m.deadline
    let s1 := s.setLink k ({ l with mirrorOut := l.mirrorOut.drop n, unacked := l.unacked ++ [(l.txSeq, b)] }.use 0 n)
    run.foldl (fun s m => s.countTx k m) ((s1.emit k b d).mirrorFill k)

/-- Send a RESYNC_DATA of the next lines: up to three of one hank in a full resync, one in a spill replay, read as a read would return
them (R332, R333). -/
def State.sendResync (s : State) (k : Nat) : State :=
  match (s.link k).sync with
  | some y =>
    match y.left with
    | (a, n) :: rest =>
      let m := min (min 3 n) (16384 - a % 16384)
      let base := (s.region k y.region).2.1
      let s := (List.range m).foldl (fun s i => s.hitRead (a + i)) s
      let xs := (List.range m).map fun i => s.readNow (a + i)
      let mask := (xs.zipIdx.map fun x => if x.1.2 then 2 ^ x.2 else 0).foldl (· + ·) 0
      let b := PktBody.resyncData y.region (lhnOf a - base) (a % 16384) mask (xs.map (·.1))
      let s1 := s.updLink k fun l => l.use 1 1
      let left := if n = m then rest else (a + m, n - m) :: rest
      ((((s1.emit k b y.due).count 0x0040 k m 5 18 (some (lhnOf a))).charge 17 m).setSync k (some { y with left := left })).syncPump k
    | [] => s
  | none => s

/-- Send a packet that waits in the queue; a confirmation that has been sent may bring the link UP (R321). -/
def State.sendQueued (s : State) (k i : Nat) : State :=
  let l := s.link k
  match l.tx[i]? with
  | none => s
  | some p =>
    let s1 := s.setLink k ({ l with tx := l.tx.eraseIdx i }.use p.body.cls 1)
    let s2 := s1.emit k p.body p.deadline
    match p.body with
    | .auth _ _ 1 =>
      let s3 := s2.updLink k fun l => { l with confirmSent := true }
      if l.confirmOk then s3.linkComesUp k else s3
    | _ => s2

/-- Send a MIRROR_ACK that waits. -/
def Link.ackIdx (l : Link) : Option Nat := l.tx.findIdx? fun p => match p.body with | .mirrorAck _ => true | _ => false

/-- The transmitter sends its next packet, or an IDLE (R318). -/
def State.transmit (s : State) (k : Nat) : State :=
  let l := s.link k
  let up := s.linkUp k
  let room := decide (l.replay.length < 1024)
  match l.nakDue with
  | some e => State.updLink (s.lanes k (.nak e) 0 l.ackNow) k fun l => { l with nakDue := none, ackDue := false, uctr := if up then l.uctr + 1 else l.uctr }
  | none =>
    match l.replaying with
    | some q =>
      match l.replay.find? fun p => p.1 == q with
      | some (_, p, _) =>
        let next := (l.replay.dropWhile fun p => p.1 != q).tail.head?.map Prod.fst
        let s1 := s.lanes k p.body q l.ackNow
        let s2 := s1.setLink k { l with replaying := next, replay := l.replay.map fun x => if x.1 = q then (x.1, x.2.1, s.clk.now) else x }
        s2.setReg (Reg.PLK_REPLAY k) (s2.reg (Reg.PLK_REPLAY k) + 1)
      | none => s.updLink k fun l => { l with replaying := none }
    | none =>
      match if room then l.ackIdx else none with
      | some i => s.sendQueued k i
      | none =>
        if up && (l.creditDue || l.ackDue) then
          let g := fun (i w : Nat) (c : Nat) => (l.given.getD i 0 - c) % 2 ^ w
          State.updLink (s.lanes k (.credit (g 0 16 512) (g 1 8 64) (g 2 8 32)) 0 l.ackNow) k fun l =>
            { l with creditDue := false, ackDue := false, uctr := l.uctr + 1, lastCredit := s.clk.now }
        else
          match if room then leastBy (fun a b => decide (a.1 < b.1)) (s.choices k) else none with
          | some (_, .queued i) => s.sendQueued k i
          | some (_, .mirror n) => s.sendMirror k n
          | some (_, .resync) => s.sendResync k
          | none => s.out (.idle k)

def execPacketTransmit (k : Nat) (s : State) : Res :=
  nextState (if k < 2 ∧ 2 ≤ s.linkState k ∧ s.linkState k ≤ 4 then ((s.topUp k).syncPump k).transmit k else s)

/-! ### CRC, CREDIT, NAK (R311, R313, R315) -/

/-- A packet fails its CRC: it is discarded, and a NAK sent. -/
def execPacketCrcFailure (k : Nat) (s : State) : Res :=
  nextState (if k < 2 ∧ 2 ≤ s.linkState k ∧ s.linkState k ≤ 4 then
    (s.fadd (Reg.PLK_ERR k) Fld.PLK_ERR_CRC 1).updLink k fun l => { l with nakDue := some l.rxSeq }
  else s)

/-- A cumulative count of `w` bits brings a credit count forward (R315). -/
def creditTo (got init w field : Nat) : Nat := got + (field + 2 ^ w - (got - init) % 2 ^ w) % 2 ^ w

def execHelraCredit (k : Nat) (hdr : PktHdr) (mirror resync chain : Nat) (s : State) : Res :=
  if 2 ≤ k then nextState s
  else (s.rxFree k hdr [4]).run fun s => State.mirrorFill (s.updLink k fun l =>
    { l with got := [creditTo (l.got.getD 0 0) 512 16 (mirror % 65536), creditTo (l.got.getD 1 0) 64 8 (resync % 256),
                     creditTo (l.got.getD 2 0) 32 8 (chain % 256)] }) k

/-- A NAK starts a replay, unless one is running whose first packet is not before its EXPSEQ (Table 10-23). -/
def execHelraNak (k : Nat) (hdr : PktHdr) (expseq : Nat) (s : State) : Res :=
  if 2 ≤ k then nextState s
  else (s.rxFree k hdr [2, 3, 4]).run fun s =>
    match (s.link k).replaying with
    | some f => if seqLe expseq f then s else s.startReplay k
    | none => s.startReplay k

/-! ### Meeting a neighbour (R319 to R321) -/

/-- A HELLO is checked and the roles are set (R319); one while UP or in AUTH is a protocol error (R309). -/
def execHello (k : Nat) (hdr : PktHdr) (d : HelloData) (s : State) : Res :=
  if 2 ≤ k then nextState s
  else if s.linkState k = 4 ∨ s.linkState k = 3 then
    (s.rx k { hdr with tagOk := true } [3, 4] 3 false 0).run id
  else (s.rx k { hdr with tagOk := true } [2] 3 true 0).run fun s =>
    if d.version ≠ 1 ∨ d.product ≠ 0x0E6A ∨ d.serial = Config.serial % 2 ^ 64 then s.linkLeaves k 5
    else
      let s1 := (s.setLinkState k 3).updLink k fun l => { l with peer := some d }
      (List.range authParts).foldl (fun s i => s.txPut k (.auth i (i + 1 == authParts) 0) s.clk.now) s1

/-- Authentication fails (R320): the link leaves with cause 6, and a FAULT event names it. -/
def State.authFails (s : State) (k : Nat) : State := (s.linkLeaves k 6).event evFAULT 4 0xFFFF k [6]

/-- An AUTH part (R320, R321): KIND 0 ends with the checks of the certificates, KIND 1 with the confirmation. -/
def execAuth (k : Nat) (hdr : PktHdr) (a : AuthPart) (s : State) : Res :=
  if 2 ≤ k then nextState s
  else if s.linkState k = 4 then (s.rx k { hdr with tagOk := true } [4] 3 false 0).run id
  else (s.rx k { hdr with tagOk := true } [3] 3 (decide (a.kind ≤ 1) && a.part == (s.link k).authIn.length && (a.kind == 0 || (s.link k).authOk)) 0).run fun s =>
    let l := s.link k
    if !a.last then s.setLink k { l with authIn := l.authIn ++ [a] }
    else if a.kind = 0 then
      let peer := match l.peer with | some d => d.serial | none => 0
      let pin := (s.reg (Reg.PLK_PIN k)).toNat
      if a.checksOk && a.certSerial == peer && (pin == 0 || pin == peer) && !l.authOk then
        (s.setLink k { l with authIn := [], authOk := true, peerKey := a.peerKey }).txPut k (.auth 0 true 1) s.clk.now
      else s.authFails k
    else if a.checksOk then
      let s1 := s.setLink k { l with authIn := [], confirmOk := true }
      if l.confirmSent then s1.linkComesUp k else s1
    else s.authFails k

/-! ### The sender: MIRROR_ACK and answers (R327, R331, R335, R336) -/

/-- A MIRROR_ACK that comes in the tick in which its link left UP stands (R81): its lines are two-ply, and none is kept in the spill queue. -/
def State.lateAck (s : State) (k aseq : Nat) : State :=
  let l := s.link k
  let done := ({ l with unacked := l.late.filter fun u => seqLe u.1 (aseq % 4096), mirrorOut := [], mirrorWait := [] }.waitingAck).map fun m =>
    (s.mirrorLineNo k m, m.data)
  (s.setSpill k (l.spill.filter fun x => !(done.contains (x.line, x.data)))).updLink k fun l =>
    { l with late := l.late.filter fun u => !(seqLe u.1 (aseq % 4096)) }

/-- A MIRROR_ACK completes the writes of every MIRROR_WRITE at or before its ASEQ. -/
def execMirrorAck (k : Nat) (hdr : PktHdr) (aseq : Nat) (s : State) : Res :=
  if 2 ≤ k then nextState s
  else if s.linkState k ≠ 4 ∧ (s.link k).lateAt = s.clk.now ∧ (s.link k).late ≠ [] ∧ hdr.tagOk = true ∧ hdr.cls = 3 then nextState (s.lateAck k aseq)
  else (s.rx k hdr [4] 3 true 0).run fun s =>
    let l := s.link k
    let done := l.unacked.filter fun u => seqLe u.1 (aseq % 4096)
    let s1 := s.setLink k { l with unacked := l.unacked.filter fun u => !(seqLe u.1 (aseq % 4096)) }
    State.retryStuck (({ l with unacked := done, mirrorOut := [], mirrorWait := [] }.waitingAck).foldl (fun s m => s.mirrorDone m (s.mirrorLineNo k m)) s1)

/-- A resync ends: MIRRORED when END was answered OK, and the region's spill lines leave the queue (R331). -/
def State.syncEnds (s : State) (k r : Nat) (ok : Bool) : State :=
  let inRegion := (s.spillOf k r).map (·.line)
  let s1 := if ok then
      let s2 := s.setSpill k ((s.link k).spill.filter fun x => !(inRegion.contains x.line))
      (s2.setRegion k r 2).eventSev evPLY 0 4 0xFFFF r [k, 2]
    else s.plyEvent k r 4
  let s3 := s1.setSync k none
  let s4 := (tkeys s3.cmds fun c => c.work.contains (wPly k (syncItem r))).foldl (fun s id =>
    s.cmdUnwait id (wPly k (syncItem r)) (if ok then stOK else stPLY_DEGRADED)) s3
  ((s4.plyCheck).plyPump k).syncPump k

/-- Record a region as two-ply once its area is open (step 2 of R322): PLY is journalled for each hank. It is BROKEN until admission lets it
be SYNCING. -/
def State.regionOpen (s : State) (k r base count area : Nat) : State :=
  let s1 := (List.range count).foldl (fun s i => s.setEntry false (base + i) { s.hostEntry (base + i) with ply := k + 1 }) s
  let s2 := ((s1.fset (Reg.PLK_REGION k r) Fld.PLK_REGION_BASE base).fset (Reg.PLK_REGION k r) Fld.PLK_REGION_COUNT count).setRegion k r 4
  s2.updLink k fun l => { l with holders := tput l.holders r { serial := (s.reg (Reg.PLK_PEER k)).toNat, base := area }, wantSync := l.wantSync ++ [16 + r] }

/-- The answer of a holder to one of this module's operations (R331, R334 to R336). -/
def execResyncReqResponse (k : Nat) (hdr : PktHdr) (op region status data : Nat) (s : State) : Res :=
  if 2 ≤ k then nextState s
  else (s.rx k hdr [4] 1 (decide (region < 16) && decide (1 ≤ op ∧ op ≤ 8)) 1).run fun s =>
    let l := s.link k
    match l.ops.findIdx? fun o => o.op == op && o.region == region && o.sent with
    | none => s.topUp k
    | some i =>
      let o := l.ops.getD i (plyOp op region [])
      let s1 := s.setLink k { l with ops := l.ops.eraseIdx i }
      let okay := status == stOK
      let (st, _, count) := s1.region k region
      let want := fun (s : State) (full : Bool) => s.updLink k fun l => { l with wantSync := l.wantSync ++ [if full then 16 + region else region] }
      let s2 :=
        if op = 1 then
          match l.setPly with
          | some (cmd, r, base, n) =>
            if r = region ∧ st = 0 then
              if okay then (match tget s1.cmds cmd with | some c => s1.setCmd cmd { c with started := true } | none => s1).regionOpen k r base n data
              else State.finish (s1.updLink k fun l => { l with setPly := none }) cmd status 0 0 []
            else s1
          | none =>
            if st = 0 then (if okay then s1.queueOp k (plyOp 5 region []) else s1)
            else if okay then
              want (s1.updLink k fun l => { l with holders := tput l.holders region { serial := s.peerSerial k, base := data } }) true
            else s1
        else if op = 2 then
          if !okay then s1.queueOp k (plyOp 1 region [count])
          else want s1 (!(data == 2 && st == 3))
        else if op = 3 then (if okay then s1 else s1.syncEnds k region false)
        else if op = 4 then s1.syncEnds k region okay
        else
          match o.cmd with
          | some id => s1.cmdUnwait id (wPly k (opItem op region)) (if okay then stOK else stPLY_DEGRADED)
          | none => s1
      ((s2.topUp k).plyPump k).syncPump k

/-! ### The holder: lines (R316, R324, R328) -/

/-- Whether a hank of an area is protected by a neighbour's seal (R336). -/
def State.areaSealed (s : State) (k region hoff count : Nat) : Bool :=
  (s.link k).seals.any fun x => x.whole && x.region == region && decide (x.hoff < hoff + count ∧ hoff < x.hoff + x.count)

/-- Place received lines in the pool in order, as internal class 4 (R328). -/
def State.placeMirrored (s : State) (k : Nat) (first mask : Nat) (lines : List Line) : State :=
  let s1 := lines.zipIdx.foldl (fun s x =>
    let line := first + x.2
    ((s.zeroFirst line).placeLine
      { line := line, data := x.1, poison := mask.testBit x.2, master := 16 + k, cover := true, seq := none, accept := s.clk.now, due := 0
        wpol := 0, key := s.keyOf line, keep := true }).2) s
  (s1.charge 20 lines.length).count 0x0041 k lines.length 1 (16 + k) (some (lhnOf first))

/-- Whether a lines packet fits an area of this link. -/
def State.linesOk (s : State) (k : Nat) (hdr : PktHdr) (p : LinesPkt) : Bool :=
  decide (1 ≤ p.lines.length ∧ p.lines.length ≤ 3) && hdr.len == 64 * p.lines.length && decide (p.line + p.lines.length ≤ 16384) &&
    (match s.areaOf k p.region with | some a => decide (p.hoff < (s.area k a).2.2) | none => false)

def execMirrorWrite (k : Nat) (hdr : PktHdr) (p : LinesPkt) (s : State) : Res :=
  if 2 ≤ k then nextState s
  else (s.rx k hdr [4] 0 (s.linesOk k hdr p && p.pmask == 0) p.lines.length).run fun s =>
    match (if s.energy.drained then none else s.areaOf k p.region) with
    | none => s
    | some a =>
      let s1 := s.placeMirrored k (((s.area k a).2.1 + p.hoff) * 16384 + p.line) 0 p.lines
      (s1.txPut k (.mirrorAck hdr.seq) (s.clk.now + 30)).topUp k

def execResyncData (k : Nat) (hdr : PktHdr) (p : LinesPkt) (s : State) : Res :=
  if 2 ≤ k then nextState s
  else (s.rx k hdr [4] 1 (s.linesOk k hdr p) 1).run fun s =>
    match (if s.energy.drained then none else s.areaOf k p.region) with
    | none => s
    | some a =>
      let s1 := if s.areaSealed k p.region p.hoff 1 then s
        else s.placeMirrored k (((s.area k a).2.1 + p.hoff) * 16384 + p.line) p.pmask p.lines
      s1.topUp k

/-! ### The holder: operations (R323, R324, R334, R336) -/

/-- Free an area: its hanks are zeroed and return to the reserve UNASSIGNED (R324). -/
def State.freeArea (s : State) (k a : Nat) : State :=
  let (_, base, count) := s.area k a
  let s1 := (List.range count).foldl (fun s i =>
    let s1 := s.zeroBegin (base + i) 0 none
    s1.setEntry false (base + i) { s1.hostEntry (base + i) with ply := 0 }) s
  (s1.setReg (Reg.PLK_AREA k a) 0).updLink k fun l => { l with senders := tdel l.senders a }

/-- Whether hanks may be taken for an area: in the reserve, held by no LD, UNASSIGNED and in no area. -/
def State.hankFree (s : State) (lhn : Nat) : Bool :=
  decide (lhn < hostHanks) && (s.ldOf (lhn * 16384)).isNone && (s.hostEntry lhn).state == 0 && (s.hostEntry lhn).ply == 0

/-- The lowest run of `count` free hanks in the reserve (R323). -/
def State.freeRun (s : State) (count : Nat) : Option Nat :=
  let b := s.fget Reg.PLK_PLYRES Fld.PLK_PLYRES_BASE
  let c := s.fget Reg.PLK_PLYRES Fld.PLK_PLYRES_COUNT
  if c < count then none
  else ((List.range (c - count + 1)).map (b + ·)).find? fun i => (List.range count).all fun j => s.hankFree (i + j)

/-- Open an area: each hank is journalled with PLY 3, KEYIDX 0 and ZEROING (R323). -/
def State.openArea (s : State) (k a region base count : Nat) : State :=
  let s1 := (List.range count).foldl (fun s i =>
    let s1 := s.zeroBegin (base + i) 0 none
    s1.setEntry false (base + i) { s1.hostEntry (base + i) with ply := 3 }) s
  let o := Reg.PLK_AREA k a
  let s2 := (((s1.setReg o 0).fset o Fld.PLK_AREA_STATE 1).fset o Fld.PLK_AREA_BASE base).fset o Fld.PLK_AREA_COUNT count
  s2.updLink k fun l => { l with senders := tput l.senders a (s.peerSerial k * 16 + region) }

def execPlyOpen (k : Nat) (hdr : PktHdr) (region count : Nat) (s : State) : Res :=
  if 2 ≤ k ∨ s.journalFull = true then nextState s
  else (s.rx k hdr [4] 1 (decide (region < 16)) 1).run fun s =>
    let seals := match s.areaOf k region with | some a => s.fget (Reg.PLK_AREA k a) Fld.PLK_AREA_SEALS | none => 0
    if count = 0 then (s.plyRespond k 1 region stBAD_PARAM []).topUp k
    else if seals ≠ 0 then (s.plyRespond k 1 region stSEALED []).topUp k
    else
      let s1 := match s.areaOf k region with | some a => s.freeArea k a | none => s
      match (List.range 16).find? (fun a => (s1.area k a).1 == 0), s1.freeRun count with
      | some a, some b => ((s1.openArea k a region b count).plyRespond k 1 region stOK [b]).topUp k
      | _, _ => (s1.plyRespond k 1 region stNO_SPARE []).topUp k

/-- An operation on the area of a region: without one it is answered BAD_PARAM. -/
def State.onArea (s : State) (k op region : Nat) (f : Nat → State → State) : State :=
  match s.areaOf k region with
  | some a => (f a s).topUp k
  | none => (s.plyRespond k op region stBAD_PARAM []).topUp k

def execPlyQuery (k : Nat) (hdr : PktHdr) (region : Nat) (s : State) : Res :=
  if 2 ≤ k then nextState s
  else (s.rx k hdr [4] 1 (decide (region < 16)) 1).run fun s =>
    s.onArea k 2 region fun a s => s.plyRespond k 2 region stOK [(s.area k a).1]

def execPlyBegin (k : Nat) (hdr : PktHdr) (region : Nat) (s : State) : Res :=
  if 2 ≤ k then nextState s
  else (s.rx k hdr [4] 1 (decide (region < 16)) 1).run fun s =>
    s.onArea k 3 region fun a s => (s.fset (Reg.PLK_AREA k a) Fld.PLK_AREA_STATE 1).plyRespond k 3 region stOK []

/-- END: every earlier RESYNC_DATA has committed, since each is placed as it arrives. -/
def execPlyEnd (k : Nat) (hdr : PktHdr) (region : Nat) (s : State) : Res :=
  if 2 ≤ k then nextState s
  else (s.rx k hdr [4] 1 (decide (region < 16)) 1).run fun s =>
    s.onArea k 4 region fun a s => (s.fset (Reg.PLK_AREA k a) Fld.PLK_AREA_STATE 2).plyRespond k 4 region stOK []

def execPlyClose (k : Nat) (hdr : PktHdr) (region : Nat) (s : State) : Res :=
  if 2 ≤ k ∨ s.journalFull = true then nextState s
  else (s.rx k hdr [4] 1 (decide (region < 16)) 1).run fun s =>
    s.onArea k 5 region fun a s =>
      if s.fget (Reg.PLK_AREA k a) Fld.PLK_AREA_SEALS ≠ 0 then s.plyRespond k 5 region stSEALED []
      else (s.freeArea k a).plyRespond k 5 region stOK []

/-- ERASE: the hanks are zeroed (R153) or overwritten (steps 1 to 5 of R154), and the answer follows the last. -/
def execPlyErase (k : Nat) (hdr : PktHdr) (region hoff count kind : Nat) (s : State) : Res :=
  if 2 ≤ k ∨ s.journalFull = true then nextState s
  else (s.rx k hdr [4] 1 (decide (region < 16)) 1).run fun s =>
    s.onArea k 6 region fun a s =>
      let (_, base, n) := s.area k a
      if n < hoff + count ∨ count = 0 ∨ 1 < kind then s.plyRespond k 6 region stBAD_PARAM []
      else if s.areaSealed k region hoff count then s.plyRespond k 6 region stSEALED []
      else
        let hanks := (List.range count).map fun i => base + hoff + i
        let s1 := hanks.foldl (fun s l => if kind = 0 then s.zeroBegin l 0 none else s.secureBegin l none) s
        s1.updLink k fun l => { l with ops := l.ops ++ [{ plyOp 22 region hanks with sent := true }] }

/-- SEAL (R336): with both parts here, the record is checked, stored, and its hanks protected. -/
def execPlySeal (k : Nat) (hdr : PktHdr) (region part : Nat) (rec : LedgerRec) (hoff count : Nat) (s : State) : Res :=
  if 2 ≤ k then nextState s
  else (s.rx k hdr [4] 1 (decide (region < 16) && decide (part ≤ 1)) 1).run fun s =>
    s.onArea k 7 region fun a s =>
      let l := s.link k
      let half : HeldSeal := { region := region, rcd := rec, hoff := hoff, count := count, whole := false }
      if part = 0 then s.setLink k { l with seals := (l.seals.filter (·.whole)) ++ [half] }
      else
        let first := l.seals.any fun x => !x.whole && x.region == region && x.rcd == rec
        let whole := l.seals.filter (·.whole)
        let good := first && rec.serial == s.peerSerial k &&
          Config.ecdsaVerify l.peerKey (sealMessage rec) rec.sig
        if !good then (s.setLink k { l with seals := whole }).plyRespond k 7 region stAUTH_FAIL []
        else if whole.any fun x => x.region == region && x.rcd == rec then (s.setLink k { l with seals := whole }).plyRespond k 7 region stOK []
        else if 64 ≤ whole.length then (s.setLink k { l with seals := whole }).plyRespond k 7 region stNO_SPARE []
        else
          let s1 := s.setLink k { l with seals := whole ++ [{ half with whole := true }] }
          (s1.fadd (Reg.PLK_AREA k a) Fld.PLK_AREA_SEALS 1).plyRespond k 7 region stOK []

/-- RELEASE lifts the protection of the seal that the record releases: the one whose SEQ its REF names (R301). -/
def execPlyRelease (k : Nat) (hdr : PktHdr) (region part : Nat) (rec : LedgerRec) (s : State) : Res :=
  if 2 ≤ k then nextState s
  else (s.rx k hdr [4] 1 (decide (region < 16) && decide (part ≤ 1)) 1).run fun s =>
    s.onArea k 8 region fun a s =>
      if part = 0 then s
      else
        let l := s.link k
        let mine := fun (x : HeldSeal) => x.whole && x.region == region && x.rcd.seq == rec.ref
        let n := (l.seals.filter mine).length
        let s1 := s.setLink k { l with seals := l.seals.filter fun x => !(mine x) }
        let o := Reg.PLK_AREA k a
        (s1.fset o Fld.PLK_AREA_SEALS (s.fget o Fld.PLK_AREA_SEALS - n)).plyRespond k 8 region stOK []

/-! ### Register writes and time-outs (R309, R323, R326) -/

/-- PLY sets though a region's link has not come UP within 100 ms of the lanes powering up (R326). -/
def execPlyReadyTimeout (s : State) : Res :=
  nextState (if s.power = .on ∧ s.planB = true ∧ s.ready rMAP = true then s.setReady rPLY true else s)

/-- The links follow what allows them to run: one that may not leaves with cause 7 and is OFF, one that may again trains. -/
def State.linksFollow (s : State) : State :=
  ([0, 1] : List Nat).foldl (fun s k =>
    let st := s.linkState k
    if !(s.linkEn k) then (if 2 ≤ st ∧ st ≤ 4 then s.linkLeaves k 7 else s.setLinkState k 5)
    else if st = 5 ∧ s.planB = true then s.setLinkState k 1
    else s) s

/-- PLK_CTL: a link that is disabled leaves UP with cause 7 and is OFF; one that is enabled trains (R309, Table 10-21). -/
def State.plkCtl (s : State) (val : W64) : State :=
  if s.rwsHeld then s
  else ((s.fset Reg.PLK_CTL Fld.PLK_CTL_EN_A (getF val Fld.PLK_CTL_EN_A)).fset Reg.PLK_CTL Fld.PLK_CTL_EN_B (getF val Fld.PLK_CTL_EN_B)).rwsSave.linksFollow

def execPlkCtlWrite (val : W64) (s : State) : Res := nextState (s.plkCtl val)

/-- PLK_PLYRES (R323): ignored while an area is open, past the last hank, or over the capacity of the LDs once it takes effect. A write that
is taken is saved in the PLY_REGIONS record. -/
def State.plkPlyres (s : State) (val : W64) : State :=
  let base := getF val Fld.PLK_PLYRES_BASE
  let count := getF val Fld.PLK_PLYRES_COUNT
  let areas := (List.range 2).any fun k => (List.range 16).any fun a => (s.area k a).1 != 0
  let held := if s.cxl.mld then s.cxl.lds else [⟨0, if count = 0 then hostHanks else base / 256 * 256⟩]
  let clash := decide (count ≠ 0) && held.any fun c => decide (c.base < base + count ∧ base < c.base + c.count)
  if s.rwlLocked ∨ areas ∨ hostHanks < base + count ∨ clash then s
  else (s.fset Reg.PLK_PLYRES Fld.PLK_PLYRES_BASE base).fset Reg.PLK_PLYRES Fld.PLK_PLYRES_COUNT count

def execPlkPlyresWrite (val : W64) (s : State) : Res := nextState (s.plkPlyres val)

end Sys2Proof.Machine
end

