-- ==== Sys2Proof/Machine/Chain.lean ====
section
/-! DEFINITION. The chain (chapter 10, R337 to R341): messages, walks, the inbox, and unit addresses. -/

namespace Sys2Proof.Machine

/-! ### Sending and answering -/

/-- Remember a message as handled (R337). -/
def State.seeMsg (s : State) (src mid : Nat) : State :=
  { s with chain := { s.chain with seen := ((src, mid) :: s.chain.seen).take 4096 } }

/-- Retransmit a message on a link, when it is UP. -/
def State.passOn (s : State) (k : Nat) (m : ChainMsg) : State :=
  if s.linkUp k then s.txPut k (.chain { m with ttl := m.ttl - 1 }) (s.clk.now + 100) else s

/-- Send a message of this module on every UP link with TTL 16,383. Answers its MID. DESIGN CHOICE (log 92): the spec does not say what SRC, and UADDR
of a STATUS_REPLY, hold while the module holds no address (VALID 0); they hold PLK_UADDR.ADDR as it stands. -/
def State.chainOut (s : State) (mclass : Nat) (bcast : Bool) (dest : Nat) (data : List Byte) : Nat × State :=
  let mid := s.chain.mid
  let m : ChainMsg := { mid := mid, mclass := mclass, bcast := bcast, isLocal := false, ttl := 16383, src := s.uaddr, dest := dest, data := data }
  let s1 := State.seeMsg { s with chain := { s.chain with mid := (mid + 1) % 4096 } } s.uaddr mid
  (mid, ([0, 1] : List Nat).foldl (fun s k => if s.linkUp k then s.txPut k (.chain m) (s.clk.now + 100) else s) s1)

/-- Whether a region is DEGRADED or BROKEN. -/
def State.plyBroken (s : State) : Bool := (List.range 2).any fun k => (List.range 16).any fun r => decide (3 ≤ (s.region k r).1)

/-- The STATUS_REPLY of this module for a request received with `ttl` (Table 10-14). -/
def State.statusData (s : State) (ttl : Nat) : List Byte :=
  let flags := (if s.linkUp 0 then 1 else 0) + (if s.linkUp 1 then 2 else 0) + 4 * s.fget Reg.TLC_FREE Fld.TLC_FREE_LIFE_CRIT +
    (if s.plyBroken then 8 else 0)
  le 2 s.uaddr ++ le 2 (16384 - ttl) ++ le 4 0 ++ le 8 Config.serial ++ le 8 (s.reg Reg.RDY_STATUS).toNat ++ le 1 s.lifeUsed ++
    le 1 (s.fget Reg.ADM_THROTTLE Fld.ADM_THROTTLE_THERM_LVL) ++ le 1 (s.fget Reg.TLC_FREE Fld.TLC_FREE_SPARE_USED) ++ le 1 flags ++
    le 8 (s.peerSerial 0) ++ le 8 (s.peerSerial 1) ++ le 8 s.clk.now ++ le 12 0

/-- A STATUS_REPLY for this module: every walk keeps it, and a status request to its sender completes (R390). -/
def State.storeReply (s : State) (src : Nat) (data : List Byte) : State :=
  s.chain.walks.foldl (fun s e =>
    let w := e.2
    if w.kind = 1 then { s with chain := { s.chain with walks := tput s.chain.walks e.1 { w with replies := tput w.replies src data } } }
    else if w.kind = 2 ∧ w.dest = src then
      let asked := match tget s.cmds w.cmd with | some c => c.pkt.buflen != 0 | none => false
      s.finish w.cmd stOK (s.reg Reg.PLK_CHAIN).toNat (if asked then 1 else 0) (if asked then data else [])
    else s) s

/-- A RELAY_ACK for this module completes the relay to its sender (Table 12-6). -/
def State.storeAck (s : State) (src code : Nat) : State :=
  s.chain.walks.foldl (fun s e =>
    if e.2.kind = 4 ∧ e.2.dest = src then
      State.finish { s with chain := { s.chain with walks := tdel s.chain.walks e.1 } } e.2.cmd (if code = 0 then stOK else stBUSY) code 0 []
    else s) s

/-- Answer a WALK or STATUS_REQ to its originator (R338). -/
def State.answerStatus (s : State) (src ttl : Nat) : State :=
  if src = s.uaddr ∧ s.uaddrValid = true then s.storeReply s.uaddr (s.statusData ttl) else (s.chainOut 3 false src (s.statusData ttl)).2

/-- A RELAY reaches its destination (R338): the inbox takes it while it has room, and the sender is told. -/
def State.relayIn (s : State) (m : ChainMsg) : State :=
  let n := s.chain.inbox.length
  let (code, s1) : Nat × State :=
    if n < 64 then
      (0, (State.fset { s with chain := { s.chain with inbox := s.chain.inbox ++ [(s.clk.now, m)] } } Reg.PLK_CHAIN Fld.PLK_CHAIN_INBOX (n + 1)).event
        evCHAIN 4 0xFFFF m.src [n + 1])
    else (1, s)
  if m.src = s.uaddr ∧ s.uaddrValid = true then s1.storeAck m.src code else (s1.chainOut 5 false m.src (le 4 code)).2

/-! ### Receiving (R337, R338) -/

/-- Whether a message is delivered here, and whether it is for this module alone. -/
def State.forMe (s : State) (m : ChainMsg) : Bool := m.isLocal || m.bcast || (s.uaddrValid && m.dest == s.uaddr)
def State.onlyMe (s : State) (m : ChainMsg) : Bool := !m.bcast && s.uaddrValid && m.dest == s.uaddr

/-- A CHAIN_MSG arrives: seen, it is discarded; otherwise the hardware relays it under R337 and its class delivers it. A WALK is passed on
by the management core after its answer, with the other conditions of R337. -/
def State.chainRx (s : State) (k : Nat) (hdr : PktHdr) (m : ChainMsg) (deliver : State → State) : Res :=
  if 2 ≤ k then nextState s
  else (s.rx k hdr [4] 2 (decide (m.data.length ≤ 240 ∧ m.mid < 4096 ∧ m.src < 16384 ∧ m.dest < 16384 ∧ m.ttl < 16384)) 1).run fun s =>
    if s.chain.seen.contains (m.src, m.mid) then s.topUp k
    else
      let s1 := s.seeMsg m.src m.mid
      let goes := decide (0 < m.ttl) && !m.isLocal && !(s.onlyMe m)
      let s2 := if goes ∧ m.mclass ≠ 1 then s1.passOn (1 - k) m else s1
      let s3 := if s.forMe m then deliver s2 else s2
      let s4 := if goes ∧ m.mclass = 1 then s3.passOn (1 - k) m else s3
      s4.topUp k

def execWalk (k : Nat) (hdr : PktHdr) (m : ChainMsg) (s : State) : Res :=
  if m.mclass ≠ 1 then nextState s else s.chainRx k hdr m fun s => s.answerStatus m.src m.ttl

def execStatusReq (k : Nat) (hdr : PktHdr) (m : ChainMsg) (s : State) : Res :=
  if m.mclass ≠ 2 then nextState s else s.chainRx k hdr m fun s => s.answerStatus m.src m.ttl

def execStatusReply (k : Nat) (hdr : PktHdr) (m : ChainMsg) (s : State) : Res :=
  if m.mclass ≠ 3 then nextState s else s.chainRx k hdr m fun s => s.storeReply m.src m.data

def execRelay (k : Nat) (hdr : PktHdr) (m : ChainMsg) (s : State) : Res :=
  if m.mclass ≠ 4 then nextState s else s.chainRx k hdr m fun s => s.relayIn m

def execRelayAck (k : Nat) (hdr : PktHdr) (m : ChainMsg) (s : State) : Res :=
  if m.mclass ≠ 5 then nextState s else s.chainRx k hdr m fun s => s.storeAck m.src (ofBytes (m.data.take 4))

/-- An MCLASS outside Table 10-13 is relayed, and discarded at its destination. -/
def execChainMsg (k : Nat) (hdr : PktHdr) (m : ChainMsg) (s : State) : Res :=
  if 1 ≤ m.mclass ∧ m.mclass ≤ 5 then nextState s else s.chainRx k hdr m id

/-! ### Unit addresses (R339 to R341) -/

/-- The lowest address above a lost one, modulo 16,384, that has not been heard held or claimed by a winner. -/
def nextAddr (taken : List Nat) (lost : Nat) : Option Nat :=
  (firstFrom (fun i => !(taken.contains (i % 16384))) 16384 (lost + 1)).map (· % 16384)

/-- Claim the next candidate after a lost address; with every address held the module takes none (R341). -/
def State.claimNext (s : State) (lost : Nat) : State :=
  match nextAddr s.chain.taken lost with
  | some a => s.claimStart a
  | none => State.setFail { s with chain := { s.chain with cand := none } } rCHAIN

/-- An address goes to another module. -/
def State.addrTaken (s : State) (a : Nat) : State :=
  if s.chain.taken.contains a then s else { s with chain := { s.chain with taken := a :: s.chain.taken } }

/-- Whether a round is later than another, modulo 2^32 (R339). -/
def roundLater (a b : Nat) : Bool := a != b && decide ((a + 2 ^ 32 - b) % 2 ^ 32 < 2 ^ 31)

/-- Whether another's claim beats this module's claim of KIND 0 made in round `mine` (Table 10-15). -/
def beatsClaim (c : ClaimMsg) (mine : Nat) : Bool :=
  c.held || roundLater mine c.round || (c.round == mine && decide (c.serial < Config.serial % 2 ^ 64))

/-- This module loses an address that it holds: CHAIN clears, a CHAIN event (warning) is raised, and it claims anew (R340). -/
def State.addrLost (s : State) (a : Nat) : State :=
  let s1 := ((s.addrTaken a).fset Reg.PLK_UADDR Fld.PLK_UADDR_VALID 0).setReady rCHAIN false
  ((s1.fadd Reg.PLK_CHAIN Fld.PLK_CHAIN_LOST 1).eventSev evCHAIN 1 4 0xFFFF a []).claimNext a

/-- A claim that has not been seen is compared with the module's own (R340). -/
def State.claimHeard (s : State) (c : ClaimMsg) : State :=
  let s0 := if c.held then s.addrTaken c.addr else s
  let s1 := if roundLater c.round s.round then s0.fset Reg.PLK_CHAIN Fld.PLK_CHAIN_ROUND c.round else s0
  if c.serial = Config.serial % 2 ^ 64 then s1
  else if s.uaddrValid ∧ s.uaddr = c.addr then
    if c.held ∧ c.serial < Config.serial % 2 ^ 64 then s1.addrLost c.addr
    else s1.claimSend c.addr true s1.round
  else if s.chain.cand = some c.addr then
    if beatsClaim c s.chain.claimRound ∧ s.chain.beaten = false then
      State.fadd { (s1.addrTaken c.addr) with chain := { (s1.addrTaken c.addr).chain with beaten := true } } Reg.PLK_CHAIN Fld.PLK_CHAIN_LOST 1
    else s1
  else s1

/-- A CLAIM arrives: not seen, it is relayed and compared (R337, R340). -/
def execClaim (k : Nat) (hdr : PktHdr) (c : ClaimMsg) (s : State) : Res :=
  if 2 ≤ k then nextState s
  else (s.rx k hdr [4] 2 (decide (c.addr < 16384 ∧ c.ttl < 16384)) 1).run fun s =>
    let id4 := (c.addr, c.serial, c.round, c.held)
    if s.chain.seenClaims.contains id4 then s.topUp k
    else
      let s1 : State := { s with chain := { s.chain with seenClaims := (id4 :: s.chain.seenClaims).take 4096 } }
      let s2 := if 0 < c.ttl ∧ s1.linkUp (1 - k) = true then s1.txPut (1 - k) (.claim { c with ttl := c.ttl - 1 }) (s.clk.now + 100) else s1
      (s2.claimHeard c).topUp k

/-- Take an address: VALID and CHAIN set, and PREF takes it (R339). -/
def State.takeAddr (s : State) (a : Nat) : State :=
  let s1 : State := { s with chain := { s.chain with cand := none, beaten := false } }
  (((s1.fset Reg.PLK_UADDR Fld.PLK_UADDR_ADDR a).fset Reg.PLK_UADDR Fld.PLK_UADDR_VALID 1).fset Reg.PLK_UADDR Fld.PLK_UADDR_PREF a).rwsSave.setReady rCHAIN true

/-- A round of 100 µs ends: an unbeaten candidate takes its address, a beaten one goes on to the next (R339, R340). -/
def execClaimRoundEnd (s : State) : Res :=
  nextState (if s.chain.firstUp then
    let s1 := s.fset Reg.PLK_CHAIN Fld.PLK_CHAIN_ROUND ((s.round + 1) % 2 ^ 32)
    match s.chain.cand with
    | some a => if s.chain.beaten then s1.claimNext a else s1.takeAddr a
    | none => s1
  else s)

/-- No link has come UP within 100 ms of the lanes powering up: the module takes PREF at once (R341). -/
def execChainLinkTimeout (s : State) : Res :=
  nextState (if s.power = .on ∧ s.planB = true ∧ s.chain.firstUp = false ∧ s.uaddrValid = false ∧ s.linkUp 0 = false ∧ s.linkUp 1 = false then
    s.takeAddr (s.fget Reg.PLK_UADDR Fld.PLK_UADDR_PREF)
  else s)

end Sys2Proof.Machine
end

