-- ==== Sys2Proof/Machine/Keys.lean ====
section
/-! DEFINITION. Engine checks, the retirement of keys, CXL IDE (chapter 8), and the SPDM responder (chapter 9). -/

namespace Sys2Proof.Machine

/-! ### Engines and slots (R255 to R259) -/

/-- The known-answer check of an engine: a failure declares it failed; an engine that was off and passes is ready. SELF_TEST kind 1 counts it. -/
def execKnownAnswerCheck (engine : Nat) (pass : Bool) (s : State) : Res :=
  nextState (if s.power = .on ∧ engine < 2 then
    let s1 := if pass then (if s.engineState engine = 0 then s.fset Reg.KEY_STAT (engineField engine) 1 else s) else s.engineFail engine
    s1.itemDone (wOther (801000 + engine)) (engine + 1) pass
  else s)

/-- Whether a line written under a slot still waits to reach the medium (step 2 of R256). -/
def State.keyDirty (s : State) (n : Nat) : Bool :=
  s.tlc.pool.any (fun e => e.2.key == n) || s.tlc.mb.any fun e => e.2.lines.any fun l => l.2.key == n

/-- Step 5 of R256: the key is cleared, the slot is RETIRED, or EMPTY when no hank refers to it. -/
def State.keyCleared (s : State) (n : Nat) : State :=
  let s1 := s.keyGone n
  (State.slotTotals { s1 with crypto := { s1.crypto with retiring := tdel s1.crypto.retiring n } }).keyEvent n

/-- Two-ply hanks bound to a slot. -/
def State.plyHanks (s : State) (n : Nat) : List Nat :=
  (s.boundHanks n).filter fun l => (s.hostEntry l).ply == 1 || (s.hostEntry l).ply == 2

/-- Steps 3 and 4 of R256: cached lines of the bound hanks go, and the neighbours are asked to erase their replicas. Answers whether a
link was down, and the answers to wait for. -/
def State.keyErase (s : State) (n : Nat) (cmd : Option Nat) : Bool × List Nat × State :=
  let s1 := (s.boundHanks n).foldl (fun s l => s.cacheDropHank l) s
  (s1.plyHanks n).foldl (fun (acc : Bool × List Nat × State) l =>
    let (d, w, s) := acc.2.2.plyErase l 1 cmd
    (acc.1 || d, acc.2.1 ++ w, s)) (false, [], s1)

/-- The lines held under a retiring index have verified in the medium: steps 3 to 6 of R256. A command waits for the neighbours between
steps 4 and 5 (`bad` = 1 once they have been asked). -/
def execKeyRetireFlushed (slot : Nat) (s : State) : Res :=
  nextState (if (s.slot slot).state = 2 ∧ s.keyDirty slot = false ∧ s.power = .on ∧ s.ready rKEYS = true then
    match dget (fun _ => none) s.crypto.retiring slot with
    | none => ((s.keyErase slot none).2.2).keyCleared slot
    | some id =>
      match tget s.cmds id with
      | none => ((s.keyErase slot none).2.2).keyCleared slot
      | some c =>
        if c.bad = 0 then
          let (down, w, s1) := s.keyErase slot (some id)
          let c1 : Cmd := { c with bad := 1, work := c.work ++ w, status := if down then stPLY_DEGRADED else c.status }
          if w = [] then ((s1.setCmd id c1).keyCleared slot).cmdUnwait id (wKey slot) stOK else s1.setCmd id c1
        else if c.work = [wKey slot] then (s.keyCleared slot).cmdUnwait id (wKey slot) stOK
        else s
  else s)

/-! ### CXL IDE (R276 to R278) -/

/-- A MAC fails: the stream leaves the secure state. On CXL.cachemem no credit is issued until it is keyed again, and the reads accepted
return poison (R277). -/
def execIdeMacFailure (mem : Bool) (s : State) : Res :=
  nextState (if mem then
    if s.crypto.ideMemSecure then
      let s1 : State := { s with crypto := { s.crypto with ideMem := [], ideMemSecure := false, ideMemFailed := true } }
      (tkeys s1.adm.dl fun e => e.kind == .read).foldl (fun s q => s.complete q (some 0) true) s1
    else s
  else if s.crypto.ideIoSecure then { s with crypto := { s.crypto with ideIo := [], ideIoSecure := false } }
  else s)

/-- Whether both directions of a stream have a key in one of their two sets. -/
def ideKeyed (t : Tbl (BitVec 256)) : Bool :=
  (List.range 2).any fun n => (tget t n).isSome && (tget t (2 + n)).isSome

/-- A key of a stream is programmed in an established secure session (R276): two key sets in each direction. -/
def execIdeKeyProg (session : Nat) (mem rx : Bool) (keySet : Nat) (key : BitVec 256) (s : State) : Res :=
  nextState (match tget s.seals.sessions session with
    | some x =>
      if x.established ∧ keySet < 2 then
        let n := (if rx then 2 else 0) + keySet
        if mem then
          let t := tput s.crypto.ideMem n key
          { s with crypto := { s.crypto with ideMem := t, ideMemSecure := ideKeyed t, ideMemFailed := s.crypto.ideMemFailed && !(ideKeyed t) } }
        else
          let t := tput s.crypto.ideIo n key
          { s with crypto := { s.crypto with ideIo := t, ideIoSecure := ideKeyed t } }
      else s
    | none => s)

/-! ### Certificates and measurements (R282 to R284) -/

def certBytes (e : Nat) : List Byte := (List.range (Config.certLen e)).map (Config.certByte e)

/-- Entries 0 to 2 back to back. -/
def certChain : List Byte := certBytes 0 ++ certBytes 1 ++ certBytes 2

/-- The SPDM form of the chain of slot 0: length, root hash, certificates (SPDM 1.2). -/
def spdmChain : List Byte := le 2 (52 + certChain.length) ++ le 2 0 ++ be 48 (Config.sha384 (certBytes 0)).toNat ++ certChain

/-- Every RWL and RWS field of the registers, in register order, with its register's offset (index 4 of Table 9-2). -/
def State.configFields (s : State) : List (Nat × W64) :=
  (List.range 16).flatMap fun b => (blockOf (0x10000 * b)).flatMap fun r =>
    let mask := (r.fields.filter fun f => f.acc == .rwl || f.acc == .rws).foldl (fun m f => m ||| maskF f.field) 0
    if mask = 0 then []
    else (List.range r.n1).flatMap fun i => (List.range r.n2).map fun j =>
      let off := r.base + r.s1 * i + r.s2 * j
      (off, s.reg off &&& mask)

/-- Firmware version (RDY_IDENT bits 31:16). -/
def State.fwVersion (s : State) : Nat := (s.reg Reg.RDY_IDENT).toNat / 65536 % 65536

/-- The public key of the owner as QX‖QY. -/
def ownerBytes (k : BitVec 384 × BitVec 384) : List Byte := be 48 k.1.toNat ++ be 48 k.2.toNat

/-- A measurement (Table 9-2). -/
def State.measure (s : State) (index : Nat) : List Byte :=
  if index = 3 then le 2 s.fwVersion ++ Config.buildString.take 16
  else if index = 4 then
    be 48 (Config.configMeasurement ((0, BitVec.ofNat 64 s.lanePlanRec) :: (1, s.reg Reg.RDY_CTL) :: s.configFields)).toNat
  else if index = 5 then
    (match s.seals.owner with | some k => be 48 (Config.sha384 (ownerBytes k)).toNat | none => le 48 0)
  else if index = 6 then
    let head := (s.reg Reg.SEL_HEAD).toNat
    let h := match tget s.seals.ledger head with | some r => (recordHash r).toNat | none => 0
    be 48 (Config.sha384 (le 8 head ++ be 48 h)).toNat
  else be 48 (Config.measurement index s.fwVersion).toNat

/-! ### SPDM requests (R284; response codes of SPDM 1.2, log 40) -/

/-- Answer, or refuse, an SPDM request. Requests are served once the firmware runs its mailboxes. -/
def State.spdm (s : State) (code : Nat) (payload : List Nat) (bytes : List Byte) : State := s.out (.spdm code payload bytes)
def State.spdmError (s : State) (e : Nat) : State := s.spdm 0x7F [e] []
def State.spdmUp (s : State) : Bool := s.power == .on && s.ready rMBOX

def State.setSpdm (s : State) (f : Seals → Seals) : State := { s with seals := f s.seals }

def execSpdmGetVersion (s : State) : Res :=
  nextState (if s.spdmUp then
    (s.setSpdm fun x => { x with version := true, caps := false, algs := false, dhe := false }).spdm 0x04 [0x12] []
  else s)

def execSpdmGetCapabilities (s : State) : Res :=
  nextState (if !s.spdmUp then s
    else if !s.seals.version then s.spdmError 4
    else (s.setSpdm fun x => { x with caps := true }).spdm 0x61 [] [])

/-- Only ECDSA P-384, SHA-384, secp384r1 and AES-256-GCM are offered. -/
def execSpdmNegotiateAlgorithms (asym hash dhe aead : Nat) (s : State) : Res :=
  nextState (if !s.spdmUp then s
    else if !s.seals.caps then s.spdmError 4
    else if !(asym.testBit 7 && hash.testBit 1) then s.spdmError 1
    else
      let d := dhe.testBit 4 && aead.testBit 1
      (s.setSpdm fun x => { x with algs := true, dhe := d }).spdm 0x63 [0x80, 0x02, if dhe.testBit 4 then 0x10 else 0, if aead.testBit 1 then 0x02 else 0] [])

def execSpdmGetDigests (s : State) : Res :=
  nextState (if !s.spdmUp then s
    else if !s.seals.algs then s.spdmError 4
    else s.spdm 0x01 [1] (be 48 (Config.sha384 spdmChain).toNat))

/-- A part of the chain of slot 0, the one slot provisioned (R282). -/
def execSpdmGetCertificate (slot offset length : Nat) (s : State) : Res :=
  nextState (if !s.spdmUp then s
    else if !s.seals.algs then s.spdmError 4
    else if slot ≠ 0 ∨ spdmChain.length ≤ offset then s.spdmError 1
    else
      let part := (spdmChain.drop offset).take length
      s.spdm 0x02 [0, part.length, spdmChain.length - offset - part.length] part)

/-- A CHALLENGE is answered from SEAL onward, signed with the identity key. -/
def execSpdmChallenge (slot : Nat) (nonce : BitVec 256) (s : State) : Res :=
  nextState (if !s.spdmUp then s
    else if !s.seals.algs then s.spdmError 4
    else if slot ≠ 0 then s.spdmError 1
    else if !(s.ready rSEAL) then s.spdmError 3
    else
      let (mine, s1) := s.draw 256
      let body := be 48 (Config.sha384 spdmChain).toNat ++ le 32 mine.toNat
      s1.spdm 0x03 [0] (body ++ be 96 (Config.ecdsaSign (le 32 nonce.toNat ++ body)).toNat))

/-- Measurements, one by index or all, from SEAL onward. -/
def execSpdmGetMeasurements (session : Session) (index : Nat) (signed : Bool) (nonce : BitVec 256) (s : State) : Res :=
  nextState (if !s.spdmUp then s
    else if !s.seals.algs then s.spdmError 4
    else if session.isSome && (session.bind fun n => tget s.seals.sessions n).isNone then s.spdmError 4
    else if !(s.ready rSEAL) then s.spdmError 3
    else if index = 0 then s.spdm 0x60 [6] []
    else if 6 < index ∧ index ≠ 0xFF then s.spdmError 1
    else
      let body := if index = 0xFF then ((List.range 6).map (· + 1)).flatMap fun i => s.measure i else s.measure index
      if signed then
        let (mine, s1) := s.draw 256
        s1.spdm 0x60 [index] (body ++ le 32 mine.toNat ++ be 96 (Config.ecdsaSign (le 32 nonce.toNat ++ le 32 mine.toNat ++ body)).toNat)
      else s.spdm 0x60 [index] body)

/-- A key exchange opens one of at most two sessions, from KEYS onward (Table 7-2). -/
def execSpdmKeyExchange (q : BitVec 384 × BitVec 384) (s : State) : Res :=
  nextState (if !s.spdmUp then s
    else if !(s.seals.algs && s.seals.dhe) then s.spdmError 4
    else if !(s.ready rKEYS) then s.spdmError 3
    else if !(Config.onCurve q.1 q.2) then s.spdmError 1
    else if 2 ≤ s.seals.sessions.length then s.spdmError 0x0A
    else
      let n := s.seals.nextSession
      (s.setSpdm fun x => { x with
        sessions := tput x.sessions n { established := false, updates := 0 }, nextSession := n + 1 }).spdm 0x64 [n] [])

/-- Work on a session that exists; otherwise the request is invalid. -/
def State.onSession (s : State) (n : Nat) (f : SpdmSession → State) : State :=
  if !s.spdmUp then s else match tget s.seals.sessions n with | some x => f x | none => s.spdmError 1

def execSpdmFinish (session : Nat) (hmacOk : Bool) (s : State) : Res :=
  nextState (s.onSession session fun x =>
    if x.established then s.spdmError 4
    else if hmacOk then
      (s.setSpdm fun y => { y with sessions := tput y.sessions session { x with established := true } }).spdm 0x65 [] []
    else (s.setSpdm fun y => { y with sessions := tdel y.sessions session }).spdmError 6)

def execSpdmHeartbeat (session : Nat) (s : State) : Res :=
  nextState (s.onSession session fun x =>
    if x.established then
      s.spdm 0x68 [] []
    else s.spdmError 4)

def execSpdmKeyUpdate (session : Nat) (s : State) : Res :=
  nextState (s.onSession session fun x =>
    if x.established then
      (s.setSpdm fun y => { y with sessions := tput y.sessions session { x with updates := x.updates + 1 } }).spdm 0x69 [] []
    else s.spdmError 4)

def execSpdmEndSession (session : Nat) (s : State) : Res :=
  nextState (s.onSession session fun x =>
    if x.established then (s.setSpdm fun y => { y with sessions := tdel y.sessions session }).spdm 0x6C [] []
    else s.spdmError 4)

end Sys2Proof.Machine
end

