-- ==== Sys2Proof/Machine/Seal.lean ====
section
/-! DEFINITION. Ratchets, seals and the ledger (chapter 9): what a seal, a token and a release are made of, and the ends of hashing. -/

namespace Sys2Proof.Machine

/-! ### Ratchets (R285) -/

def State.ratchet (s : State) (n : Nat) : Nat := (s.reg (Reg.SEL_RATCHET n)).toNat

/-- Write a ratchet; ratchet 0 is also SEL_HEAD. -/
def State.setRatchet (s : State) (n v : Nat) : State :=
  let s1 := s.setReg (Reg.SEL_RATCHET n) (BitVec.ofNat 64 v)
  if n = 0 then s1.setReg Reg.SEL_HEAD (BitVec.ofNat 64 v) else s1

/-! ### Registers -/

/-- Hanks sealed in the map. -/
def State.sealedHanks (s : State) : List Nat := (s.hanks.host.filter fun e => e.2.isSealed).map Prod.fst

/-- Newest SEQ of the ledger. -/
def State.ledgerHead (s : State) : Nat := (s.seals.ledger.map Prod.fst).foldl max 0

/-- Whether a resumed seal holds the SEQ after the head (R294). -/
def State.seqHeld (s : State) : Bool := s.ledgerHead + 1 == s.ratchet 0

/-- Whether HOLD keeps the ledger from taking a record (R297). -/
def State.holdBlocks (s : State) : Bool :=
  s.fget Reg.SEL_CTL Fld.SEL_CTL_HOLD == 1 && decide ((s.reg Reg.SEL_ARCHIVED).toNat + 61440 < s.ratchet 0 + 1)

/-- Whether the ledger can take a record (R294, R297, R298). -/
def State.ledgerFree (s : State) : Bool := !s.holdBlocks && !s.seqHeld

/-- A command finds the ledger blocked by HOLD: HOLD_BLOCK is set until SEL_ARCHIVED is raised (R297). -/
def State.ledgerBusy (s : State) : State := if s.holdBlocks then s.fset Reg.SEL_STAT Fld.SEL_STAT_HOLD_BLOCK 1 else s

/-- SEL_STAT and SEL_PROGRESS follow the seals. -/
def State.selStat (s : State) : State :=
  let o := Reg.SEL_STAT
  let s1 := ((s.fset o Fld.SEL_STAT_OWNER (if s.seals.owner.isSome then 1 else 0)).fset o Fld.SEL_STAT_ACTIVE s.seals.jobs.length).fset o
    Fld.SEL_STAT_LIVE s.seals.live.length
  let s2 := s1.fset o Fld.SEL_STAT_HANKS s.sealedHanks.length
  match s.seals.jobs with
  | [] => s2.setReg Reg.SEL_PROGRESS 0
  | (_, j) :: _ => ((s2.setReg Reg.SEL_PROGRESS 0).fset Reg.SEL_PROGRESS Fld.SEL_PROGRESS_TOTAL j.count).fset Reg.SEL_PROGRESS
      Fld.SEL_PROGRESS_RESUMED (j.flags / 8 % 2)

/-! ### The ledger (R295, R296) -/

/-- Append a record: ratchet 0 advances, unless a resumed seal holds its SEQ; the record is chained and signed. -/
def State.append (s : State) (r : LedgerRec) : LedgerRec × State :=
  let seq := if s.seqHeld then s.ratchet 0 else s.ratchet 0 + 1
  let prev := match tget s.seals.ledger (seq - 1) with | some p => recordHash p | none => 0
  let wall := s.clk.wallSet
  let r1 : LedgerRec := { r with seq := seq, prevHash := prev, devtime := s.clk.now,
                                 walltime := if wall then (s.wallOf s.clk.now).toNat else 0,
                                 flags := r.flags % 16 + (if wall then 16 else 0), serial := Config.serial % 2 ^ 64, sig := 0 }
  let r2 := { r1 with sig := Config.ecdsaSign (sealMessage r1) }
  let s1 : State := { s with seals := { s.seals with ledger := tput (tdel s.seals.ledger (seq - 61440)) seq r2 } }
  let s2 := s1.setRatchet 0 seq
  (r2, s2.setReg Reg.SEL_OLDEST (BitVec.ofNat 64 (if seq ≤ 61440 then 1 else seq - 61440 + 1)))

/-- A record with nothing in it. -/
def blankRec (kind : Nat) : LedgerRec :=
  { kind := kind, ld := 0, keyidx := 0, flags := 0, seq := 0, first := 0, count := 0, devtime := 0, walltime := 0, serial := 0,
    label := 0, ref := 0, extentHash := 0, prevHash := 0, sig := 0 }

/-! ### Extents (R292) -/

/-- The lines of an extent. -/
def extentLines (first count : Nat) : List Nat := (List.range (count * 16384)).map (first * 16384 + ·)

/-- The lines of an extent are read, those that working memory holds being checked there (R163). -/
def State.extentRead (s : State) (first count : Nat) : State :=
  if s.wm.errs.isEmpty then s else (extentLines first count).foldl (fun s l => s.hitRead l) s

/-- The first line of an extent that reads as poison. -/
def State.poisonIn (s : State) (first count : Nat) : Option Nat := (extentLines first count).find? fun l => (s.readNow l).2

/-- The hash of an extent; a poison line counts as 64 bytes of 0xFF (R300). -/
def State.extentHash (s : State) (first count : Nat) : BitVec 384 :=
  Config.sha384 ((extentLines first count).flatMap fun l =>
    let (d, p) := s.readNow l
    if p then List.replicate 64 0xFF else lineBytes d)

/-- Set or clear SEALED on the hanks of an extent through the map journal, their cached lines going first (R180). -/
def State.markSealed (s : State) (first count : Nat) (v : Bool) : State :=
  (List.range count).foldl (fun s i =>
    (s.cacheDropHank (first + i)).setEntry false (first + i) { s.hostEntry (first + i) with isSealed := v }) s

/-- The two-ply regions (link, region) that an extent touches. -/
def State.plyParts (s : State) (first count : Nat) : List (Nat × Nat) :=
  ((List.range count).filterMap fun i => (s.regionOf (first + i)).map fun x => (x.1, x.2.1)).eraseDups

/-- FLAGS bits 2:0 of a seal: the extent holds two-ply hanks, and over which link. DESIGN CHOICE (log 89): where they lie on both links the spec does
not say what bits 2:1 hold; the model names the link of the first region only. -/
def State.plyFlags (s : State) (first count : Nat) : Nat :=
  match s.plyParts first count with | [] => 0 | (k, _) :: _ => 1 + 2 * (k + 1)

/-- Send a record to the neighbours that keep replicas of an extent (R304). `cmd` waits for each answer; answers whether some link was
down or region degraded, and the work to wait for. -/
def State.tellPly (s : State) (op : Nat) (r : LedgerRec) (first count : Nat) (cmd : Option Nat) : Bool × List Nat × State :=
  (s.plyParts first count).foldl (fun (acc : Bool × List Nat × State) x =>
    let s := acc.2.2
    let (st, base, n) := s.region x.1 x.2
    let lo := max base first
    let hi := min (base + n) (first + count)
    let up := s.linkUp x.1 && decide (st = 1 ∨ st = 2)
    let o : PlyOp := { plyOp op x.2 [lo - base, hi - lo] with rcd := some r, cmd := if up then cmd else none }
    (acc.1 || !up, acc.2.1 ++ (if up && cmd.isSome then [wPly x.1 (opItem op x.2)] else []), s.queueOp x.1 o)) (false, [], s)

/-- A command ends with a record's SEQ, after the neighbours where there are any. -/
def State.endWithRecord (s : State) (op : Nat) (r : LedgerRec) (first count id : Nat) (output : List Byte) : State :=
  match tget s.cmds id with
  | none => (s.tellPly op r first count none).2.2
  | some c =>
    let (down, w, s1) := s.tellPly op r first count (some id)
    let st := if down then stPLY_DEGRADED else stOK
    if w = [] then s1.finish id st r.seq 0 output
    else s1.setCmd id { c with work := w, status := st, done := r.seq, output := output }

/-! ### The ends of hashing (R291, R293, R300) -/

def State.dropJob (s : State) (n : Nat) : State := { s with seals := { s.seals with jobs := tdel s.seals.jobs n } }

/-- Whether the hashing of an extent waits because class 6 is held (R64); with a TIMEOUT its operations have their deadlines from the command
(R291, R382). -/
def State.hashHeld (s : State) (j : SealJob) : Bool := s.adm.held.getD 22 false && !j.timed

/-- Whether a seal's hashing may end: the ledger can take its record, as far as it is not a resumed seal's own SEQ that it waits for (R294). DESIGN
CHOICE (log 88): the spec does not say what becomes of a seal past its checks when HOLD comes to block the ledger; it waits at step 4 until the
ledger is free. -/
def State.sealMay (s : State) (j : SealJob) : Bool :=
  s.ready rSEAL && !s.holdBlocks && !(s.seqHeld && j.flags / 8 % 2 != 1) && !(s.hashHeld j)

/-- Whether the seal engine serves other hashing before a job's: an earlier deadline, then the lower LD, then the earlier command (R71, R72). -/
def State.hashFirst (s : State) (j : SealJob) : Bool :=
  let before := fun (x : SealJob) => edfBefore x.due 2 x.ld x.cmd j.due 2 j.ld j.cmd
  (s.seals.jobs.any fun e => before e.2 && s.sealMay e.2) || s.seals.verify.any fun e => before e.2 && !(s.hashHeld e.2)

/-- The extent of a seal is hashed: steps 4 to 6 of R291, or the course of R293 when a line reads as poison, once the map journal has room (R130). A
resumed seal completes no command; others wait while it holds the ledger. Each line is an operation of class 6 (Table 2-7). DESIGN CHOICE (log 88):
a seal that is past its checks when a HOLD comes to block the ledger waits at step 4 until the ledger is free. -/
def execSealHashDone (sealId : Nat) (s : State) : Res :=
  nextState (match tget s.seals.jobs sealId with
    | none => s
    | some j =>
      let resumed := j.flags / 8 % 2 == 1
      let base := (s.cxl.lds.getD j.ld ⟨0, 0⟩).base
      if !(s.sealMay j) || s.hashFirst j then s
      else
        let s0 := s
        let s := (s.extentRead j.first j.count).charge 22 (j.count * 16384)
        match s.poisonIn j.first j.count with
        | some l =>
          if s.journalFull then s0 else
          let s1 := ((s.markSealed j.first j.count false).dropJob sealId).selStat
          if resumed then s1 else s1.finish j.cmd stPOISONED (64 * (l - base * 16384)) 0 []
        | none =>
          let h := s.extentHash j.first j.count
          let (r, s1) := s.append { blankRec 1 with
            ld := j.ld, keyidx := j.key, flags := s.plyFlags j.first j.count + (if resumed then 8 else 0), first := j.first - base
            count := j.count, label := j.label, extentHash := h }
          let live : LiveSeal := { seq := r.seq, ld := j.ld, first := j.first, count := j.count, rcd := r }
          let s2 : State := { s1 with seals := { s1.seals with live := tput s1.seals.live r.seq live } }
          let s3 := ((s2.dropJob sealId).selStat).eventSev evSEAL (if resumed then 1 else 0) 2 j.ld j.first [r.seq]
          if resumed then (s3.tellPly 7 r j.first j.count none).2.2
          else
            let out := match tget s3.cmds j.cmd with | some c => if 256 ≤ c.pkt.buflen then recordBytes r else [] | none => []
            s3.endWithRecord 7 r j.first j.count j.cmd out)

/-- The extent of a VERIFY_EXTENT is hashed again; RANGE when its seal is no longer in force (R300, Table 9-11). -/
def execVerifyHashDone (cmd : Nat) (s : State) : Res :=
  nextState (match tget s.seals.verify cmd with
    | none => s
    | some j =>
      if s.hashHeld j || s.hashFirst j then s else
      let s := (s.extentRead j.first j.count).charge 22 (j.count * 16384)
      let s1 : State := { s with seals := { s.seals with verify := tdel s.seals.verify cmd } }
      match tget s.seals.live j.ref with
      | none => s1.finish cmd stRANGE 0 0 []
      | some v =>
        let h := s.extentHash v.first v.count
        let bad := ((extentLines v.first v.count).filter fun l => (s.readNow l).2).length
        let out := match tget s.cmds cmd with | some c => if 48 ≤ c.pkt.buflen then be 48 h.toNat else [] | none => []
        if h = v.rcd.extentHash then s1.finish cmd stOK 1 bad out
        else (s1.event evSEAL 2 v.ld v.first [v.seq]).finish cmd stOK 0 bad out)

/-! ### Cast-on (R294, R298) -/

/-- The ledger is checked (R298): a copy that fails is rewritten from the other; a hank sealed in the map or in the live table is sealed,
and a SEAL event (failure) names a difference. Seals in progress go on as resumed. -/
def execSealLedgerCheck (aOk bOk : Bool) (s : State) : Res :=
  nextState (if s.power = .on ∧ s.ready rMAP = true ∧ s.ready rKEYS = true ∧ s.plat.coldHold = false ∧ s.ready rSEAL = false ∧ s.failedBit rSEAL = false then
    let head := s.ledgerHead
    let fits := head == s.ratchet 0 || (head + 1 == s.ratchet 0 && !s.seals.jobs.isEmpty)
    if !(aOk || bOk) || !fits then s.setFail rSEAL
    else
      let jobs := s.seals.jobs.map fun e => (e.1, { e.2 with flags := e.2.flags % 8 + 8, due := s.bgDeadline 6, timed := false })
      let s1 : State := { s with seals := { s.seals with jobs := jobs } }
      let extents := s1.seals.live.map (fun e => (e.2.first, e.2.count)) ++ jobs.map fun e => (e.2.first, e.2.count)
      let inExtent := fun (l : Nat) => extents.any fun x => decide (x.1 ≤ l ∧ l < x.1 + x.2)
      let missing := extents.flatMap fun x => ((List.range x.2).map (x.1 + ·)).filter fun l => !(s1.hostEntry l).isSealed
      let stray := s1.sealedHanks.filter fun l => !(inExtent l)
      let s2 := missing.foldl (fun s l => (s.setEntry false l { s.hostEntry l with isSealed := true }).eventSev evSEAL 2 2 0xFFFF l [0]) s1
      let s3 := stray.foldl (fun s l => s.eventSev evSEAL 2 2 0xFFFF l [1]) s2
      s3.selStat.setReady rSEAL true
  else s)

/-- SEL_ARCHIVED: a value below its own or above SEL_HEAD is ignored; a higher one may free the ledger (R297, Table 9-9). -/
def State.selArchived (s : State) (val : W64) : State :=
  if val.toNat < (s.reg Reg.SEL_ARCHIVED).toNat ∨ s.ratchet 0 < val.toNat ∨ s.rwsHeld = true then s
  else
    let s1 := (s.setReg Reg.SEL_ARCHIVED val).rwsSave
    if s1.holdBlocks then s1 else s1.fset Reg.SEL_STAT Fld.SEL_STAT_HOLD_BLOCK 0

def execSelArchivedWrite (val : W64) (s : State) : Res := nextState (s.selArchived val)

end Sys2Proof.Machine
end

