-- ==== Sys2Proof/Machine/Mbox.lean ====
section
/-! DEFINITION. What every mailbox command goes through (R230, R354, R392), and the return codes of CXL 2.0 (log 41). -/

namespace Sys2Proof.Machine

/-! ### Return codes (CXL 2.0, log 41) -/

def rcSuccess : Nat := 0x0
def rcBackground : Nat := 0x1
def rcInvalidInput : Nat := 0x2
def rcUnsupported : Nat := 0x3
def rcRetry : Nat := 0x5
def rcBusy : Nat := 0x6
def rcFwTransfer : Nat := 0x8
def rcFwOrder : Nat := 0x9
def rcFwAuth : Nat := 0xA
def rcFwSlot : Nat := 0xB
def rcHandle : Nat := 0xE
def rcPhysAddr : Nat := 0xF
def rcInjectLimit : Nat := 0x10
def rcSecurity : Nat := 0x13
def rcPassphrase : Nat := 0x14
def rcPayloadLen : Nat := 0x16

/-- Whether the mailboxes and the rings answer: in service, in BOUND, and while a bind-off runs from P12V (R206, Table 6-20). -/
def State.ctlUp (s : State) : Bool :=
  s.power == .on || s.power == .bound || (s.power == .bindoff && (s.energy.trig == 3 || (s.energy.trig == 4 && s.clk.p12v)))

/-- Whether a mailbox receives commands: MBOX is 1, its function exists (LD 0 alone as an SLD, R392), and no command occupies it. -/
def State.mbUp (s : State) (mb : Mailbox) : Bool :=
  s.ctlUp && s.ready rMBOX && (if s.cxl.mld then decide (mb.ld < 16) else mb.ld == 0) && !(s.cxl.mboxBusy.contains mb)

/-- Answer a mailbox command. -/
def State.mbAnswer (s : State) (mb : Mailbox) (code : Nat) (payload : List Nat) (bytes : List Byte) : State :=
  s.out (.mailbox mb code payload bytes)

/-- A background operation runs (R354). -/
def State.bgRuns (s : State) : Bool := s.cxl.sanitizing != 0 || s.cxl.scan.isSome

/-- Carry out a mailbox command. `rom`: the boot ROM serves it too (R426). `isReady`: the functions it needs are ready (R230). -/
def State.mbCmd (s : State) (mb : Mailbox) (rom isReady : Bool) (f : State → State) : Res :=
  if !(s.mbUp mb) then nextState s
  else if (!rom && !(s.ready rFW)) || !isReady then nextState (s.mbAnswer mb rcRetry [] [])
  else nextState (f s)

/-- A command that is answered at once. -/
def State.mbDone (s : State) (mb : Mailbox) (rom isReady : Bool) (f : State → Nat × List Nat × List Byte × State) : Res :=
  s.mbCmd mb rom isReady fun s => let (code, payload, bytes, s1) := f s; s1.mbAnswer mb code payload bytes

/-- The capacity of an LD in hanks, and its DPA range. -/
def State.ldHanks (s : State) (ld : Nat) : Nat := (s.cxl.lds.getD ld ⟨0, 0⟩).count
def State.dpaRange (s : State) (ld dpa len : Nat) : Bool := decide (dpa % 64 = 0 ∧ len % 64 = 0 ∧ dpa + len ≤ s.ldHanks ld * 2 ^ 20)

/-- A length given in bytes of 64: the lines of a range. -/
def State.rangeLines (s : State) (ld dpa n : Nat) : List Nat := (List.range n).map (s.lineOfDpa ld dpa + ·)

/-- The mean occupancy of the rows of the last 1 ms (R77, R349). -/
def State.meanOcc (s : State) : Nat := s.adm.occs.sum / max 1 s.adm.occs.length

/-! ### QoS (R349, R350) -/

/-- QoS Control: telemetry control, moderate and severe percentages, sample interval. -/
def State.qosControl (s : State) : List Nat :=
  [s.cxl.qosTelemetry, s.fget Reg.ADM_DEVLOAD Fld.ADM_DEVLOAD_MOD_LO, s.fget Reg.ADM_DEVLOAD Fld.ADM_DEVLOAD_SEV_LO, s.cxl.qosInterval]

/-- Set QoS Control under the ordering check of Table 2-15. -/
def State.setQos (s : State) (telemetry modPct sevPct interval : Nat) : Nat × State :=
  if s.fget Reg.ADM_DEVLOAD Fld.ADM_DEVLOAD_OPT_LO < modPct ∧ modPct < sevPct ∧ sevPct ≤ 100 then
    (rcSuccess, State.fset (State.fset { s with cxl := { s.cxl with qosTelemetry := telemetry, qosInterval := interval } }
      Reg.ADM_DEVLOAD Fld.ADM_DEVLOAD_MOD_LO modPct) Reg.ADM_DEVLOAD Fld.ADM_DEVLOAD_SEV_LO sevPct)
  else (rcInvalidInput, s)

/-- Whether the SLD QoS commands apply: they are for an SLD only (Table 11-5). -/
def State.sldQos (s : State) (f : State → Nat × List Nat × List Byte × State) : State → Nat × List Nat × List Byte × State :=
  fun t => if s.cxl.mld then (rcUnsupported, [], [], t) else f t

def execGetSldQosControl (mb : Mailbox) (s : State) : Res :=
  s.mbDone mb false true (s.sldQos fun s => (rcSuccess, s.qosControl, [], s))

def execSetSldQosControl (mb : Mailbox) (telemetry modPct sevPct interval : Nat) (s : State) : Res :=
  s.mbDone mb false true (s.sldQos fun s =>
    let (code, s1) := s.setQos telemetry modPct sevPct interval
    (code, if code = rcSuccess then s1.qosControl else [], [], s1))

def execGetSldQosStatus (mb : Mailbox) (s : State) : Res :=
  s.mbDone mb false true (s.sldQos fun s => (rcSuccess, [s.meanOcc], [], s))

end Sys2Proof.Machine
end

