-- ==== Sys2Proof/Machine/Fm.lean ====
section
/-! DEFINITION. The FM API (R349, R70), HDM decoders (R351) and DOE (R353). -/

namespace Sys2Proof.Machine

/-! ### The FM API -/

/-- A message of the FM API: it needs running firmware (R372), and an MLD (R349). -/
def State.fmCmd (s : State) (f : State → Nat × List Nat × State) : Res :=
  if s.power ≠ .on ∨ s.ready rFW = false then nextState s
  else if s.cxl.mld = false then nextState (s.out (.fm rcUnsupported []))
  else let (code, payload, s1) := f s; nextState (s1.out (.fm code payload))

/-- Identify: vendor and device ID, and the serial number. -/
def execFmIdentify (s : State) : Res := s.fmCmd fun s => (rcSuccess, [Config.vendorId, 0x0E6A, (s.reg Reg.RDY_SERIAL).toNat], s)

/-- Background Operation Status: running, the opcode and return code of the newest operation, and, while one runs, its percentage, which
the spec does not determine. -/
def execBackgroundOperationStatus (s : State) : Res :=
  s.fmCmd fun s =>
    if s.bgRuns then let (p, s1) := s.draw 7; (rcSuccess, [1, p.toNat, s.cxl.bgOp, 0], s1)
    else (rcSuccess, [0, 0, s.cxl.bgOp, s.cxl.bgDone], s)

/-- Get LD Info: bytes of the module, 16 LDs, and both telemetry capabilities (R349, R356). -/
def execGetLdInfo (s : State) : Res := s.fmCmd fun s => (rcSuccess, [hostHanks * 2 ^ 20, 16, 3], s)

/-- LD Range 1 Allocation Multipliers, in units of 256 MiB. -/
def State.allocsFrom (s : State) (start count : Nat) : List Nat := ((s.cxl.lds.drop start).take count).map fun c => c.count / 256

def execGetLdAllocations (start count : Nat) (s : State) : Res :=
  s.fmCmd fun s =>
    if 16 ≤ start then (rcInvalidInput, [], s)
    else let l := s.allocsFrom start count; (rcSuccess, [16, 0, start, l.length] ++ l, s)

/-- Whether hanks `a` to `a + n − 1` may go to an LD: none held by an LD of `lds`, none of PLK_PLYRES, none still in use (R156, R323). -/
def State.runFree (s : State) (lds : List LdCap) (a n : Nat) : Bool :=
  let b := s.fget Reg.PLK_PLYRES Fld.PLK_PLYRES_BASE
  let c := s.fget Reg.PLK_PLYRES Fld.PLK_PLYRES_COUNT
  decide (a + n ≤ hostHanks) && (c == 0 || decide (a + n ≤ b) || decide (b + c ≤ a)) &&
    lds.all (fun d => d.count == 0 || decide (a + n ≤ d.base) || decide (d.base + d.count ≤ a)) &&
    (List.range n).all fun i => (s.hostEntry (a + i)).state == 0 && (s.hostEntry (a + i)).ply == 0

/-- Whether a hank is sealed or under a seal in progress (R303). -/
def State.sealedOrBusy (s : State) (lhn : Nat) : Bool :=
  (s.hostEntry lhn).isSealed || s.seals.jobs.any fun e => decide (e.2.first ≤ lhn ∧ lhn < e.2.first + e.2.count)

/-- One LD's new allocation over the capacities reached so far: none where a rule of R349 refuses it. Hanks that the request frees are not
free for the same request. -/
def State.allocLd (s : State) (lds : List LdCap) (n want : Nat) : Option (List LdCap) :=
  let c := lds.getD n ⟨0, 0⟩
  let others := s.cxl.lds ++ lset lds n ⟨0, 0⟩
  if want = c.count then some lds
  else if want < c.count then
    if (List.range (c.count - want)).any fun i => s.sealedOrBusy (c.base + want + i) then none
    else some (lset lds n ⟨c.base, want⟩)
  else if c.count = 0 then
    match ((List.range (hostHanks / 256)).map (256 * ·)).find? fun a => s.runFree others a want with
    | some a => some (lset lds n ⟨a, want⟩)
    | none => none
  else if s.runFree (others.map fun d => if d.base = c.base then ⟨0, 0⟩ else d) (c.base + c.count) (want - c.count) then
    some (lset lds n ⟨c.base, want⟩)
  else none

/-- Every LD of a request. -/
def State.allocAll (s : State) (start : Nat) (allocs : List (Nat × Nat)) : Option (List LdCap) :=
  allocs.zipIdx.foldl (fun (acc : Option (List LdCap)) x => acc.bind fun lds => s.allocLd lds (start + x.2) (x.1.1 * 256)) (some s.cxl.lds)

/-- The hanks of capacities `old` that capacities `new` do not hold. -/
def removedHanks (old new : List LdCap) : List Nat :=
  (old.zip new).flatMap fun x => (List.range (x.1.count - x.2.count)).map (x.1.base + x.2.count + ·)

/-- The hanks that new capacities add become MAPPED. -/
def State.addHanks (s : State) (old new : List LdCap) : State :=
  (old.zip new).foldl (fun s x =>
    (List.range (x.2.count - x.1.count)).foldl (fun s i =>
      let l := x.2.base + x.1.count + i
      s.setEntry false l { s.hostEntry l with state := 1 }) s) s

/-- Set LD Allocations (R349, R156): while the map journal is full it is to be retried (R130); a refused request changes no LD; capacity removed is zeroed and set UNASSIGNED before the answer. -/
def execSetLdAllocations (start granularity : Nat) (allocs : List (Nat × Nat)) (s : State) : Res :=
  if s.power ≠ .on ∨ s.ready rFW = false then nextState s
  else
    let answer := fun (s : State) (code : Nat) (p : List Nat) => (nextState (s.out (.fm code p)) : Res)
    if s.cxl.mld = false then answer s rcUnsupported []
    else if s.hanks.mapsReady = false ∨ s.journalFull = true then answer s rcRetry []
    else if s.cxl.fmWait ≠ [] then answer s rcBusy []
    else if granularity ≠ 0 ∨ 16 < start + allocs.length ∨ allocs.any (fun a => a.2 ≠ 0) = true then answer s rcInvalidInput []
    else
      match s.allocAll start allocs with
      | none => answer s rcInvalidInput []
      | some lds =>
        let gone := removedHanks s.cxl.lds lds
        let s1 : State := { (s.addHanks s.cxl.lds lds) with cxl := { s.cxl with lds := lds, fmWait := gone } }
        if gone = [] then answer s1 rcSuccess (s1.allocsFrom start allocs.length)
        else nextState (gone.foldl (fun s l => (s.zeroBegin l 0 none).slotLeft (s.hostEntry l).key) s1)

def execGetQosControl (s : State) : Res := s.fmCmd fun s => (rcSuccess, s.qosControl, s)

def execSetQosControl (telemetry modPct sevPct interval : Nat) (s : State) : Res :=
  s.fmCmd fun s =>
    let (code, s1) := s.setQos telemetry modPct sevPct interval
    (code, if code = rcSuccess then s1.qosControl else [], s1)

def execGetQosStatus (s : State) : Res := s.fmCmd fun s => (rcSuccess, [s.meanOcc], s)

/-! ### Shares and limits (R70) -/

/-- L: the share of the LDs in the lane plan in force (R69). -/
def State.ldShare (s : State) : Nat := if s.planB then 2848 else 3360

/-- Write one field of the reservations of consecutive LDs, each checked under R68; when one is refused, none applies. -/
def State.setResvs (s : State) (f : Field) (start : Nat) (vals : List Nat) : Bool × State :=
  let (ok, s1) := vals.zipIdx.foldl (fun (acc : Bool × State) x =>
    let n := start + x.2
    let (ok, s') := acc.2.writeResv 2 n (setF 0 f (2 ^ 64 - 1)) (setF 0 f x.1)
    (acc.1 && ok, s')) (true, s)
  if ok then (true, { s1 with cxl := { s1.cxl with qosSet := true } }) else (false, s.raise Reg.ADM_STATUS Fld.ADM_STATUS_RESV_REFUSED)

def State.bwFrom (s : State) (start count : Nat) : List Nat :=
  ((List.range 16).drop start |>.take count).map fun n => s.fget (Reg.ADM_RESV n) Fld.ADM_RESV_SHARE * 256 / s.ldShare
def State.limitFrom (s : State) (start count : Nat) : List Nat :=
  ((List.range 16).drop start |>.take count).map fun n => s.fget (Reg.ADM_RESV n) Fld.ADM_RESV_LIMIT / 16

def execGetQosAllocatedBw (start count : Nat) (s : State) : Res :=
  s.fmCmd fun s => if 16 ≤ start then (rcInvalidInput, [], s) else (rcSuccess, [(s.bwFrom start count).length, start] ++ s.bwFrom start count, s)

def execSetQosAllocatedBw (start : Nat) (fractions : List Nat) (s : State) : Res :=
  s.fmCmd fun s =>
    if 16 < start + fractions.length ∨ fractions.any (fun f => decide (255 < f)) = true then (rcInvalidInput, [], s)
    else
      let (ok, s1) := s.setResvs Fld.ADM_RESV_SHARE start (fractions.map fun f => f * s.ldShare / 256)
      if ok then (rcSuccess, [fractions.length, start] ++ s1.bwFrom start fractions.length, s1) else (rcInvalidInput, [], s1)

def execGetQosBwLimit (start count : Nat) (s : State) : Res :=
  s.fmCmd fun s => if 16 ≤ start then (rcInvalidInput, [], s) else (rcSuccess, [(s.limitFrom start count).length, start] ++ s.limitFrom start count, s)

def execSetQosBwLimit (start : Nat) (fractions : List Nat) (s : State) : Res :=
  s.fmCmd fun s =>
    if 16 < start + fractions.length ∨ fractions.any (fun f => decide (255 < f)) = true then (rcInvalidInput, [], s)
    else
      let (ok, s1) := s.setResvs Fld.ADM_RESV_LIMIT start (fractions.map (16 * ·))
      if ok then (rcSuccess, [fractions.length, start] ++ s1.limitFrom start fractions.length, s1) else (rcInvalidInput, [], s1)

/-! ### HDM decoders (R351) -/

/-- The DPA at which decoder `m` of an LD would start, less its skip: the end of decoder m − 1. -/
def State.hdmStart (s : State) (ld m : Nat) : Nat :=
  if m = 0 then 0 else match tget s.cxl.decoders (4 * ld + m - 1) with | some h => h.dpa + h.size / h.ways | none => 0

/-- Whether a commit passes every check of R351; base addresses rise from decoder to decoder (CXL 2.0). -/
def State.hdmOk (s : State) (ld m base size ways gran skip : Nat) : Bool :=
  let unit := 2 ^ 28 * ways
  [1, 2, 4, 8].contains ways && [256, 512, 1024, 2048, 4096, 8192, 16384].contains gran && size != 0 &&
    base % unit == 0 && size % unit == 0 && skip % 2 ^ 28 == 0 &&
    (m == 0 || (match tget s.cxl.decoders (4 * ld + m - 1) with | some h => decide (h.base + h.size ≤ base) | none => false)) &&
    (List.range (3 - m)).all (fun i => (tget s.cxl.decoders (4 * ld + m + 1 + i)).isNone) &&
    decide (s.hdmStart ld m + skip + size / ways ≤ s.ldHanks ld * 2 ^ 20)

/-- HDM_DECODER_COMMIT: a locked decoder does not change; a commit that fails leaves the decoder uncommitted with Error Not Committed. -/
def execHdmDecoderCommit (ld m base size ways gran skip position : Nat) (lockOnCommit poisonOnErr : Bool) (s : State) : Res :=
  let k := 4 * ld + m
  nextState (if s.power ≠ .on ∨ 16 ≤ ld ∨ 4 ≤ m then s
  else if (match tget s.cxl.decoders k with | some h => h.locked | none => false) then s
  else if s.hdmOk ld m base size ways gran skip then
    let h : Hdm := { base := base, size := size, ways := ways, gran := gran, pos := position, dpa := s.hdmStart ld m + skip
                     locked := lockOnCommit, poisonErr := poisonOnErr }
    { s with cxl := { s.cxl with decoders := tput s.cxl.decoders k h, hdmErr := s.cxl.hdmErr.filter (· != k) } }
  else { s with cxl := { s.cxl with decoders := tdel s.cxl.decoders k, hdmErr := k :: s.cxl.hdmErr.filter (· != k) } })

/-! ### DOE and CDAT (R353) -/

/-- DOE answers while the firmware runs its mailboxes. -/
def State.doeUp (s : State) : Bool := s.power == .on && s.ready rMBOX && s.ready rFW

/-- DOE Discovery: vendor, protocol and next index of an entry (PCI-SIG 0x0001: discovery, CMA/SPDM, secured CMA/SPDM; CXL 0x1E98: Table
Access); past the last, vendor 0xFFFF. -/
def execDoeDiscovery (index : Nat) (s : State) : Res :=
  let list : List (List Nat) := [[0x0001, 0, 1], [0x0001, 1, 2], [0x0001, 2, 3], [0x1E98, 2, 0]]
  nextState (if s.doeUp then s.out (.doe (list.getD index [0xFFFF, 0, 0])) else s)

/-- The LDs that the CDAT describes. -/
def State.cdatLds (s : State) : List Nat := if s.cxl.mld then List.range 16 else [0]

/-- The CDAT's structures: DSMAS (type 0) of each LD, non-volatile with its capacity, then DSLBIS (type 1) of each with the values of
Table 11-4: read and write latency in ns, read and write bandwidth in MB/s. -/
def State.cdat (s : State) : List (List Nat) :=
  let bw := if s.planB then [24000, 20000] else [48000, 40000]
  s.cdatLds.map (fun n => [0, n, 4, 0, s.ldHanks n * 2 ^ 20]) ++
    s.cdatLds.flatMap fun n => [[1, n, 1, 2400], [1, n, 2, 450], [1, n, 4, bw.getD 0 0], [1, n, 5, bw.getD 1 0]]

/-- Table Access: entry 0 is the header with the table's length, entry `n` the n-th structure; the next handle, 0xFFFF after the last.
A handle past the last is answered by an error. -/
def execTableAccess (entry : Nat) (s : State) : Res :=
  let t := s.cdat
  let next := if entry < t.length then entry + 1 else 0xFFFF
  nextState (if s.doeUp then
    (if entry = 0 then s.out (.doe [next, 16 + 24 * t.length, 1])
     else match t[entry - 1]? with | some e => s.out (.doe (next :: e)) | none => s.out (.doe []))
  else s)

end Sys2Proof.Machine
end

