-- ==== Sys2Proof/Machine/Mail.lean ====
section
/-! DEFINITION. Mailbox commands (R354 to R368, R475): events, firmware, time, logs, identity, labels, health, poison and scans. -/

namespace Sys2Proof.Machine

/-! ### Event records as bytes (R360, R362, Tables 8-8 and 11-8; standard records as in CXL 2.0, log 41) -/

def uuidVendor : Nat := 0x7c1e4b205a3d4f6e9b18e6a0c0de0a11
def uuidMedia : Nat := 0xfbcd0a77c260417f85a9088b1621eba6
def uuidModule : Nat := 0xfe927475dd594339a58679bab113b774
def uuidCel : Nat := 0x0da9c0b5bf414b788f7996b1623b3f17
def uuidHealth : Nat := 0x5e0c7a1392b44c6f8d21e6a0c0de0b22

/-- Bytes padded with zeros, or cut, to a length. -/
def padTo (n : Nat) (b : List Byte) : List Byte := (b ++ List.replicate n 0).take n

/-- The 18 bytes of the health payload (Table 11-6). -/
def healthBytes (p : List Nat) : List Byte :=
  let g := fun (i : Nat) => p.getD i 0
  le 1 (g 0) ++ le 1 (g 1) ++ le 1 (g 2) ++ le 1 (g 3) ++ le 2 (g 4) ++ le 4 (g 5) ++ le 4 (g 6) ++ le 4 (g 7)

/-- Device Event Type of a watched value: 0 health status, 1 media status, 2 life used, 3 temperature change. -/
def moduleType (k : Nat) : Nat :=
  if k = 3 then 1 else if k = 4 ∨ k = 8 then 2 else if k = 5 ∨ k = 9 ∨ k = 10 then 3 else 0

/-- The 80 bytes of data of a record. -/
def Event.data (e : Event) : List Byte :=
  let a := fun (i : Nat) => e.args.getD i 0
  if e.cls = evSALVAGE then
    if a 0 = 1 then padTo 80 (le 1 e.cls ++ le 1 1 ++ le 2 (a 1) ++ le 2 (a 2) ++ le 2 (a 3) ++ le 8 (a 4) ++ le 8 (a 5) ++ le 8 (a 6))
    else padTo 80 (le 1 e.cls ++ le 1 2 ++ le 14 0 ++ le 64 (a 1))
  else if e.cls = evMEDIA then
    padTo 80 (le 8 (e.addr / 64 * 64) ++ le 1 1 ++ le 1 0 ++ le 1 (a 0) ++ le 2 7 ++ le 1 (a 1) ++ le 1 (a 2) ++ le 3 (a 3))
  else if e.cls = evMODULE then padTo 80 (le 1 (moduleType (a 0)) ++ healthBytes e.args.tail)
  else
    le 1 e.cls ++ le 1 1 ++ le 1 e.sev ++ le 1 e.akind ++ le 2 e.ld ++ le 2 0 ++ le 8 e.addr ++ le 4 e.rep ++ le 4 0 ++ le 8 e.first ++
      le 8 e.last ++ le 8 (a 0) ++ le 8 (a 1) ++ le 8 (a 2) ++ le 8 (a 3) ++ le 8 (a 4)

/-- A whole record of 128 bytes: identifier, length, severity, handle, related handle, timestamp, data. -/
def Event.bytes (e : Event) : List Byte :=
  be 16 (if e.cls = evMEDIA then uuidMedia else if e.cls = evMODULE then uuidModule else uuidVendor) ++ le 1 128 ++ le 3 e.sev ++
    le 2 e.handle ++ le 2 e.pair ++ le 8 e.wall.toNat ++ le 16 0 ++ e.data

/-! ### Events (R359) -/

/-- Get Event Records: overflow, its count and timestamps, the number of records, and the records, oldest first. -/
def execGetEventRecords (mb : Mailbox) (log : Nat) (s : State) : Res :=
  s.mbDone mb false true fun s =>
    match s.logs[log]? with
    | none => (rcInvalidInput, [], [], s)
    | some l => (rcSuccess, [if l.ovf = 0 then 0 else 1, l.ovf, l.ovfFirst.toNat, l.ovfLast.toNat, l.recs.length], l.recs.flatMap Event.bytes, s)

/-- Clear Event Records: every record, or the handles it names; a log left empty clears its overflow indication (R36). A handle that the log
does not hold clears nothing. -/
def execClearEventRecords (mb : Mailbox) (log : Nat) (all : Bool) (handles : List Nat) (s : State) : Res :=
  s.mbDone mb false true fun s =>
    match s.logs[log]? with
    | none => (rcInvalidInput, [], [], s)
    | some l =>
      if !all && handles.any (fun h => !(l.recs.any fun e => e.handle == h)) then (rcHandle, [], [], s)
      else
        let recs := if all then [] else l.recs.filter fun e => !(handles.contains e.handle)
        let l1 : Log := if recs.isEmpty then { l with recs := [], ovf := 0, ovfFirst := 0, ovfLast := 0 } else { l with recs := recs }
        (rcSuccess, [], [], { s with logs := lset s.logs log l1 })

def execGetEventInterruptPolicy (mb : Mailbox) (s : State) : Res := s.mbDone mb false true fun s => (rcSuccess, s.cxl.policy, [], s)

/-- Set Event Interrupt Policy: no interrupt (0) or MSI/MSI-X (1) for each log; a firmware interrupt is not supported (R355). -/
def execSetEventInterruptPolicy (mb : Mailbox) (info warn fail fatal : Nat) (s : State) : Res :=
  s.mbDone mb false true fun s =>
    let p := [info, warn, fail, fatal]
    if p.any fun v => decide (1 < v % 4) then (rcInvalidInput, [], [], s)
    else (rcSuccess, [], [], { s with cxl := { s.cxl with policy := p } })

/-! ### Firmware (R366, R426) -/

/-- The two slots are the two flash banks: slot 1 is bank 0. -/
def State.activeBank (s : State) : Nat := s.fget Reg.EFC_STAT Fld.EFC_STAT_ACTIVE

/-- Get FW Info: slots, the active slot, the slot of the next cold cast-on, online activation, and the running version. -/
def execGetFwInfo (mb : Mailbox) (s : State) : Res :=
  s.mbDone mb true true fun s => (rcSuccess, [2, s.activeBank + 1, s.fget Reg.EFC_STAT Fld.EFC_STAT_NEXT + 1, 1, s.fwVersion], [], s)

/-- Erase a flash bank: every word reads all ones, with no program since (R420, R422). -/
def State.flashEraseBank (s : State) (bank : Nat) : State :=
  { s with plat := { s.plat with
      flash := s.plat.flash.filter fun e => e.1 / 2 ^ 19 != bank
      flashPgm := s.plat.flashPgm.filter fun e => e.1 / 2 ^ 19 != bank
      flashErased := (s.plat.flashErased.filter fun k => k / 256 != bank) ++ (List.range 256).map (256 * bank + ·) } }

/-- Whether a bank holds an image that Activate FW can name. -/
def State.setSlotEmpty (s : State) (bank : Nat) (v : Bool) : State := { s with plat := { s.plat with slotEmpty := lset s.plat.slotEmpty bank v } }

/-- Program the bytes of a part of an image into a bank. -/
def State.flashPut (s : State) (bank offset : Nat) (data : List Byte) : State :=
  let words := (List.range ((data.length + 7) / 8)).map fun i => (bank * 2 ^ 19 + offset / 8 + i, BitVec.ofNat 64 (ofBytes (padTo 8 (data.drop (8 * i)))))
  { s with plat := { s.plat with
      flash := words.foldl (fun t w => tput t w.1 w.2) s.plat.flash
      flashPgm := words.foldl (fun t w => tput t w.1 1) s.plat.flashPgm } }

/-- The image of a transfer is whole: it stands when its signature and its product code verify (R366). -/
def State.fwEnd (s : State) (bank : Nat) (ok : Bool) : Nat × List Nat × List Byte × State :=
  let s1 := State.setSlotEmpty { s with cxl := { s.cxl with fwStage := none } } bank (!ok)
  (if ok then rcSuccess else rcFwAuth, [], [], s1)

/-- Transfer FW: 0 whole image, 1 initiate, 2 continue, 3 end, 4 abort. Parts go to the bank that is not running, in order, aligned to
128 B. -/
def execTransferFw (mb : Mailbox) (action slot offset : Nat) (data : List Byte) (sigOk productOk : Bool) (s : State) : Res :=
  s.mbDone mb true true fun s =>
    let bank := 1 - s.activeBank
    let fits := offset % 128 == 0 && decide (offset + data.length ≤ 2 ^ 22)
    if 4 < action then (rcInvalidInput, [], [], s)
    else if action ≤ 1 then
      if s.cxl.fwStage.isSome then (rcFwTransfer, [], [], s)
      else if s.plat.flashOp.isSome then (rcBusy, [], [], s)
      else if slot ≠ bank + 1 then (rcFwSlot, [], [], s)
      else if !fits || offset != 0 then (rcInvalidInput, [], [], s)
      else
        let s1 := ((s.flashEraseBank bank).setSlotEmpty bank true).flashPut bank 0 data
        if action = 0 then s1.fwEnd bank (sigOk && productOk)
        else (rcSuccess, [], [], { s1 with cxl := { s1.cxl with fwStage := some (bank, data.length) } })
    else
      match s.cxl.fwStage with
      | none => (rcFwOrder, [], [], s)
      | some (b, next) =>
        if action = 4 then (rcSuccess, [], [], { s with cxl := { s.cxl with fwStage := none } })
        else if slot ≠ b + 1 then (rcFwSlot, [], [], s)
        else if !fits then (rcInvalidInput, [], [], s)
        else if offset ≠ next then (rcFwOrder, [], [], s)
        else
          let s1 := s.flashPut b offset data
          if action = 3 then s1.fwEnd b (sigOk && productOk)
          else (rcSuccess, [], [], { s1 with cxl := { s1.cxl with fwStage := some (b, next + data.length) } })

/-- Activate FW: online, a warm restart into the slot once the replay is DONE; otherwise at the next cold cast-on. Under the boot ROM,
activating online lets the cast-on go on from the FW step (R426). -/
def execActivateFw (mb : Mailbox) (online : Bool) (slot : Nat) (s : State) : Res :=
  s.mbCmd mb true true fun s =>
    let bank := slot - 1
    if slot = 0 ∨ 2 < slot ∨ s.plat.slotEmpty.getD bank true = true then s.mbAnswer mb rcFwSlot [] []
    else
      let s1 := s.fset Reg.EFC_STAT Fld.EFC_STAT_NEXT bank
      if !online then s1.mbAnswer mb rcSuccess [] []
      else if s.ready rFW then s1.askRestart bank mb
      else (s1.fsetBit Reg.RDY_STATUS Fld.RDY_STATUS_FAIL rFW false).mbAnswer mb rcSuccess [] []

/-- ETHORN_WARM_RESTART: the running firmware restarts (R238). -/
def execEthornWarmRestart (mb : Mailbox) (s : State) : Res := s.mbCmd mb false true fun s => s.askRestart s.activeBank mb

/-! ### Time (R42, R111) -/

/-- Get Timestamp: wall time in ns (R42). -/
def execGetTimestamp (mb : Mailbox) (s : State) : Res :=
  s.mbDone mb false true fun s => (rcSuccess, [(s.wallOf s.clk.now).toNat], [], s)

/-- Set Timestamp: the offset applies from the next tick, and the first one after cast-on runs the cross-check of R111. -/
def execSetTimestamp (mb : Mailbox) (ns : Nat) (s : State) : Res :=
  s.mbDone mb false true fun s =>
    let off : Int := (ns : Int) - (s.clk.now : Int) * 10
    let s1 : State := { s with clk := { s.clk with
      nextOffset := some off, timeSet := true, wallSet := true, firstOffset := if s.clk.timeSet then s.clk.firstOffset else off } }
    (rcSuccess, [], [], s1.hostCheck)

/-! ### Logs (R475) -/

/-- The Command Effects Log: opcode and effects (bit 0 configuration change after cold reset, 1 immediate configuration, 2 data, 3 policy,
4 log, 5 security state change, 6 background operation). -/
def commandEffects : List (Nat × Nat) :=
  [(0x0100, 0), (0x0101, 16), (0x0102, 0), (0x0103, 2), (0x0200, 0), (0x0201, 0), (0x0202, 3), (0x0300, 0), (0x0301, 8), (0x0400, 0),
   (0x0401, 0), (0x4000, 0), (0x4100, 0), (0x4102, 0), (0x4103, 2), (0x4200, 0), (0x4201, 0), (0x4202, 8), (0x4203, 0), (0x4204, 8)] ++
  [(0x4300, 0), (0x4301, 4), (0x4302, 4), (0x4303, 0), (0x4304, 64), (0x4305, 0), (0x4400, 100), (0x4401, 100), (0x4500, 0), (0x4501, 32),
   (0x4502, 32), (0x4503, 32), (0x4504, 32), (0x4505, 100), (0x4700, 0), (0x4701, 8), (0x4702, 0), (0xC000, 62), (0xC001, 2)]

def celBytes : List Byte := commandEffects.flatMap fun e => le 2 e.1 ++ le 2 e.2

/-- Mean page programs per page on the active dies of a channel, from the wear ledger of its group (R138, Table 4-6). -/
def State.chanWear (s : State) (ch : Nat) : Nat :=
  ((s.hanks.wear.filter fun e => e.2 != 0xFFFF && phnGrp e.1 == ch / 17).map fun e => e.2).sum * 2 ^ 20 / (2176 * 2 ^ 22)

/-- The per-channel health record (Table 4-6). -/
def State.healthRecord (s : State) (ch : Nat) : List Byte :=
  let st := s.reg (Reg.MCH_STATE ch)
  let retired := dget (fun _ => 0) s.hanks.retireAttr ch
  let spare := if getF st Fld.MCH_STATE_DEGRADED = 1 then 2 else if getF st Fld.MCH_STATE_DIE_FAILED = 0 then 0 else 1
  let idx := ((List.range 8).map fun a => s.fget (Reg.MCH_RETRY_IDX ch (s.dieOf ch a)) Fld.MCH_RETRY_IDX_IDX).foldl max 0
  le 1 ch ++ le 1 (getF st Fld.MCH_STATE_ENGINE) ++ le 1 spare ++ le 1 (if spare = 2 then 0 else 100 - min 100 (100 * retired / 55756)) ++
    le 2 (getF st Fld.MCH_STATE_DIE_FAILED) ++ le 2 idx ++ le 4 retired ++ le 4 (dget (fun _ => 0) s.hanks.dropAttr ch) ++
    le 8 (s.reg (Reg.MCH_CNT_CORR ch)).toNat ++ le 8 (s.reg (Reg.MCH_CNT_SOFT ch)).toNat ++ le 8 (s.reg (Reg.MCH_CNT_RESCUE ch)).toNat ++
    le 8 (s.reg (Reg.MCH_CNT_PGMFAIL ch)).toNat ++ le 8 (s.chanWear ch) ++ le 8 0

/-- Get Supported Logs: the two logs with their sizes. -/
def execGetSupportedLogs (mb : Mailbox) (s : State) : Res :=
  s.mbDone mb false true fun s => (rcSuccess, [uuidCel, celBytes.length, uuidHealth, 2176], [], s)

/-- Get Log: a part of one of the two. -/
def execGetLog (mb : Mailbox) (uuid offset length : Nat) (s : State) : Res :=
  s.mbDone mb false true fun s =>
    let part := fun (b : List Byte) => if offset + length ≤ b.length then (rcSuccess, [], (b.drop offset).take length, s) else (rcInvalidInput, [], [], s)
    if uuid = uuidCel then part celBytes
    else if uuid = uuidHealth then part ((List.range 34).flatMap s.healthRecord)
    else (rcInvalidInput, [], [], s)

/-! ### Identity, partitions, labels, health (R355 to R358) -/

def State.lsaSize (s : State) : Nat := if s.cxl.mld then 2 ^ 14 else 2 ^ 18

/-- Identify Memory Device: firmware version, total, persistent-only and volatile-only capacity and partition alignment in units of 256 MiB,
the four log sizes, LSA size, poison list maximum, inject limit, Injects Persistent Poison, both QoS telemetry capabilities. -/
def execIdentifyMemoryDevice (mb : Mailbox) (s : State) : Res :=
  s.mbDone mb true true fun s =>
    let cap := s.ldHanks mb.ld / 256
    (rcSuccess, [s.fwVersion, cap, cap, 0, 0, 512, 512, 512, 512, s.lsaSize, 1024, 256, 1, 3], [], s)

/-- Get Partition Info: active volatile and persistent, next volatile and persistent; no capacity can be partitioned. -/
def execGetPartitionInfo (mb : Mailbox) (s : State) : Res :=
  s.mbDone mb false true fun s => (rcSuccess, [0, s.ldHanks mb.ld / 256, 0, 0], [], s)

def execSetPartitionInfo (mb : Mailbox) (s : State) : Res := s.mbDone mb false true fun s => (rcUnsupported, [], [], s)

/-- Where an LD's label storage begins within the area. -/
def State.lsaBase (s : State) (mb : Mailbox) : Nat := if s.cxl.mld then mb.ld * 2 ^ 14 else 0

def execGetLsa (mb : Mailbox) (offset length : Nat) (s : State) : Res :=
  s.mbDone mb false true fun s =>
    if s.lsaSize < offset + length then (rcInvalidInput, [], [], s)
    else (rcSuccess, [], (List.range length).map fun i => dget (fun _ => 0) s.cxl.lsa (s.lsaBase mb + offset + i), s)

def execSetLsa (mb : Mailbox) (offset : Nat) (data : List Byte) (s : State) : Res :=
  s.mbDone mb false true fun s =>
    if s.lsaSize < offset + data.length then (rcInvalidInput, [], [], s)
    else
      let t := data.zipIdx.foldl (fun t x => dput (fun _ => (0 : Byte)) t (s.lsaBase mb + offset + x.2) x.1) s.cxl.lsa
      (rcSuccess, [], [], { s with cxl := { s.cxl with lsa := t } })

def execGetHealthInfo (mb : Mailbox) (s : State) : Res :=
  s.mbDone mb true true fun s => (rcSuccess, s.healthPayload, healthBytes s.healthPayload, s)

/-- Get Alert Configuration: the enabled alerts and the five thresholds (life used, over- and under-temperature, volatile and persistent
corrected errors). -/
def execGetAlertConfiguration (mb : Mailbox) (s : State) : Res := s.mbDone mb false true fun s => (rcSuccess, s.cxl.alertOn :: s.cxl.alerts, [], s)

/-- Set Alert Configuration: of the alerts that `valid` names, the thresholds and the enables of `enable`. A change of a threshold is no
crossing. -/
def execSetAlertConfiguration (mb : Mailbox) (valid enable life overT underT volErr persErr : Nat) (s : State) : Res :=
  s.mbDone mb false true fun s =>
    let new := [life, overT % 65536, underT % 65536, volErr % 65536, persErr % 65536]
    let pick := fun (i : Nat) => if valid.testBit i then new.getD i 0 else s.cxl.alerts.getD i 0
    let on := (List.range 5).foldl (fun a i => a + if (if valid.testBit i then enable.testBit i else s.cxl.alertOn.testBit i) then 2 ^ i else 0) 0
    if valid.testBit 0 && decide (100 < life) then (rcInvalidInput, [], [], s)
    else
      let s1 : State := { s with cxl := { s.cxl with alerts := (List.range 5).map pick, alertOn := on } }
      (rcSuccess, [], [], { s1 with cxl := { s1.cxl with health := s1.watched } })

def execGetShutdownState (mb : Mailbox) (s : State) : Res :=
  s.mbDone mb false true fun s => (rcSuccess, [dget (fun _ => 0) s.cxl.shutdown mb.ld], [], s)

def execSetShutdownState (mb : Mailbox) (val : Nat) (s : State) : Res :=
  s.mbDone mb false true fun s => (rcSuccess, [], [], { s with cxl := { s.cxl with shutdown := dput (fun _ => 0) s.cxl.shutdown mb.ld (val % 2) } })

/-! ### Poison (R363, R364) -/

/-- The part of a poison record within a DPA range of an LD. -/
def cutPoison (ld dpa n : Nat) (r : PoisonRec) : List PoisonRec :=
  let a := max r.dpa dpa
  let b := min (r.dpa + 64 * r.lines) (dpa + 64 * n)
  if r.ld = ld ∧ a < b then [{ r with dpa := a, lines := (b - a) / 64 }] else []

/-- Get Poison List: overflow with its timestamp, the number of records, and each as address, lines and source (0 internal, 1 injected). -/
def execGetPoisonList (mb : Mailbox) (dpa len : Nat) (s : State) : Res :=
  s.mbDone mb false true fun s =>
    if !(s.dpaRange mb.ld dpa (64 * len)) then (rcPhysAddr, [], [], s)
    else
      let l := s.cxl.poison.flatMap (cutPoison mb.ld dpa len)
      (rcSuccess, [if s.cxl.poisonOvf then 1 else 0, if s.cxl.poisonOvf then s.cxl.poisonOvfTime.toNat else 0, l.length] ++
        l.flatMap (fun r => [r.dpa, r.lines, if r.injected then 1 else 0]), [], s)

/-- Whether a line of an LD can be written by a poison command: the replay is done and its skein ready (R364). -/
def State.poisonReady (s : State) (ld dpa : Nat) : Bool := s.replayDone && s.skeinReady (skeinOf (s.lhnOfDpa ld dpa))

/-- The line that a poison command writes, on this module alone (R364): the mailbox is answered once the line is in the pool or its programs have
verified, and is busy until then. -/
def State.placeAlone (s : State) (mb : Mailbox) (line : Nat) (data : Line) (poison : Bool) : State :=
  let id := s.nextCmd
  let (work, s1) := s.writeWait (s.waitLine line data poison mb.ld id true)
  if work.isEmpty then s1.mbAnswer mb rcSuccess [] []
  else
    let pkt : Packet := { opcode := 65536, flags := 0, tag := 0, ld := mb.ld, keyidx := 0, timeout := 0, arg0 := 0, arg1 := 0, arg2 := 0, arg3 := 0
                          bufptr := 0, buflen := 0, check := 0 }
    let c : Cmd := { carrier := if mb.secondary then .secondary mb.ld else .primary mb.ld, pkt := pkt, sgl := [], accept := s.clk.now, expiry := none
                     input := [], running := true, started := false, stopping := false, work := work, done := 0, bad := 0, extra := 0
                     status := stOK, lines := [], output := [], endWith := none, host := .ok }
    { s1 with nextCmd := id + 1, cmds := tput s1.cmds id c, cxl := { s1.cxl with mboxBusy := s1.cxl.mboxBusy ++ [mb] } }

/-- The number of injected records. -/
def State.injectedRecs (s : State) : Nat := (s.cxl.poison.filter (·.injected)).length

/-- What both poison commands check: their functions are ready, the DPA lies in the LD, and the hank is not sealed (R364). -/
def State.poisonCmd (s : State) (mb : Mailbox) (dpa : Nat) (f : State → State) : Res :=
  s.mbCmd mb false (s.poisonReady mb.ld dpa || !(s.dpaRange mb.ld dpa 64)) fun s =>
    if !(s.dpaRange mb.ld dpa 64) then s.mbAnswer mb rcPhysAddr [] []
    else if s.sealedOrBusy (lhnOf (s.lineOfDpa mb.ld dpa)) then s.mbAnswer mb rcInvalidInput [] []
    else f s

/-- Inject Poison: the line stands in the pool poisoned, up to 256 injected records. -/
def execInjectPoison (mb : Mailbox) (dpa : Nat) (s : State) : Res :=
  s.poisonCmd mb dpa fun s =>
    let line := s.lineOfDpa mb.ld dpa
    if 256 ≤ s.injectedRecs then s.mbAnswer mb rcInjectLimit [] []
    else (s.notePoison mb.ld dpa true).placeAlone mb line (s.readNow line).1 true

/-- Clear Poison: an ordinary full-line write, which clears the line's poison; it is not mirrored. -/
def execClearPoison (mb : Mailbox) (dpa : Nat) (data : Line) (s : State) : Res :=
  s.poisonCmd mb dpa fun s =>
    let line := s.lineOfDpa mb.ld dpa
    match s.writeFate line with
    | .apply => (s.unpoison mb.ld dpa).placeAlone mb line data false
    | f => (s.notApplied f mb.ld dpa line).mbAnswer mb rcSuccess [] []

/-! ### Scans (R365) -/

/-- The time a scan takes: 1 ms for each 16 GiB of the range, in ms. -/
def scanMs (lines : Nat) : Nat := (64 * lines + 2 ^ 34 - 1) / 2 ^ 34

/-- Get Scan Media Capabilities: the time the scan would take. -/
def execGetScanMediaCapabilities (mb : Mailbox) (dpa len : Nat) (s : State) : Res :=
  s.mbDone mb false true fun s =>
    if !(s.dpaRange mb.ld dpa (64 * len)) then (rcPhysAddr, [], [], s) else (rcSuccess, [scanMs len], [], s)

/-- Whether every skein of a range of lines is ready. -/
def State.skeinsOf (s : State) (ld dpa len : Nat) : Bool :=
  (List.range 64).all fun k => s.skeinReady k ||
    decide (k < skeinOf (s.lhnOfDpa ld dpa)) || decide (skeinOf (s.lhnOfDpa ld (dpa + 64 * len - 1)) < k)

/-- Scan Media: a background operation over a range of lines. -/
def execScanMedia (mb : Mailbox) (dpa len : Nat) (noEvents : Bool) (s : State) : Res :=
  s.mbDone mb false (s.skeinsOf mb.ld dpa len || !(s.dpaRange mb.ld dpa (64 * len))) fun s =>
    if s.bgRuns then (rcBusy, [], [], s)
    else if len = 0 ∨ s.dpaRange mb.ld dpa (64 * len) = false then (rcPhysAddr, [], [], s)
    else (rcBackground, [], [], { s with cxl := { s.cxl with scan := some (mb.ld, dpa, len, noEvents), scanFound := [], scanMb := some mb
                                                             bgOp := 0x4304, bgDone := 0 } })

/-- A line that the scan could not read: poisoned in place with its media event, unless it reads as poison already or the scan makes no
events. -/
def State.scanLine (s : State) (ld dpa : Nat) (noEvents : Bool) : State :=
  let line := s.lineOfDpa ld dpa
  if (s.readNow line).2 then s
  else
    let e := s.hostEntry (lhnOf line)
    let ch := chanOf e.phn (stripeOf line) (pageOf line)
    let s1 := ((s.poisonLine e.phn (stripeOf line) (pageOf line) (lineOf line)).suspectStripe e.phn (stripeOf line) (2 ^ pageOf line)
      (s.bgDeadline 0)).recomputePump
    if noEvents then s1 else s1.mediaEvent line ch (s.dieOf ch (phnAdie e.phn)) (phnPart e.phn) 3

/-- SCAN_MEDIA_DONE: the poison list over the range is rebuilt from what the scan found (DPA and lines); a scan of the whole LD clears the
overflow. Injected lines keep their source. -/
def execScanMediaDone (found : List (Nat × Nat)) (s : State) : Res :=
  nextState (match s.cxl.scan with
    | none => s
    | some (ld, dpa, len, noEvents) =>
      if s.power ≠ .on ∨ s.adm.held.getD 16 false = true then s
      else
        let s := s.charge 16 len
        let hits := found.flatMap fun f => cutPoison ld dpa len { ld := ld, dpa := f.1 / 64 * 64, lines := f.2, injected := false }
        let lines := hits.flatMap fun r => (List.range r.lines).map (r.dpa + 64 * ·)
        let s1 := lines.foldl (fun s a => s.scanLine ld a noEvents) s
        let was := fun (a : Nat) => s.cxl.poison.any fun r => r.injected && !(cutPoison ld a 1 r).isEmpty
        let scanned := (List.range len).map (dpa + 64 * ·)
        let s2 := scanned.foldl (fun s a => s.unpoison ld a) s1
        let whole := dpa = 0 ∧ 64 * len = s.ldHanks ld * 2 ^ 20
        let s3 : State := { s2 with cxl := { s2.cxl with poisonOvf := if whole then false else s2.cxl.poisonOvf } }
        let s4 := lines.foldl (fun s a => s.notePoison ld a (was a)) s3
        { s4 with cxl := { s4.cxl with scan := none, scanFound := hits.map fun r => (r.dpa, r.lines) } })

/-- Get Scan Media Results: up to 4,096 ranges a call, of the newest scan that the mailbox started; more remain when bit 0 is set. -/
def execGetScanMediaResults (mb : Mailbox) (s : State) : Res :=
  s.mbDone mb false true fun s =>
    if s.cxl.scan.isSome then (rcBusy, [], [], s)
    else if s.cxl.scanMb.map (·.ld) ≠ some mb.ld then (rcUnsupported, [], [], s)
    else
      let now := s.cxl.scanFound.take 4096
      let rest := s.cxl.scanFound.drop 4096
      (rcSuccess, [if rest.isEmpty then 0 else 1, now.length] ++ now.flatMap (fun r => [r.1, r.2]), [],
        { s with cxl := { s.cxl with scanFound := rest } })

end Sys2Proof.Machine
end

