-- ==== Sys2Proof/Machine/Secure.lean ====
section
/-! DEFINITION. Sanitize, Secure Erase and the persistent memory security commands (R275, R367, R368). -/

namespace Sys2Proof.Machine

/-! ### The crypto erase (R275) -/

/-- What waits for the lines of the pool, the merge buffer and the mirror queues goes on: those lines are gone. -/
def State.linesGone (s : State) : State :=
  let lines := s.tlc.pool.map Prod.fst ++ s.tlc.mb.flatMap (fun e => e.2.lines.map fun l => l.2.line)
  let s1 : State := { s with tlc := { s.tlc with pool := [], waits := [] } }
  (lines.foldl (fun s l => s.lineDurable l) (s1.setMb [])).workDone fun w => decide (2 ^ 40 ≤ w ∧ w < 2 ^ 41 ∨ 2 ^ 45 ≤ w)

/-- Everything in flight or held on chip is dropped: requests accepted complete first. Stripes whose programs were under way are recomputed
(R134). -/
def State.dropWork (s : State) : State :=
  let s1 := (s.adm.dl.map Prod.fst).foldl (fun s q => s.settleReq q) s
  let s2 : State := { s1 with
    adm := { s1.adm with ops := [] }
    med := { s1.med with progs := [], staged := [], refreshQ := [] }
    crypto := { s1.crypto with cache := [] }
    tlc := { s1.tlc with mshr := [] } }
  let s3 := s2.linesGone.setCache []
  let s4 := ((s3.setSpill 0 []).setSpill 1 []).updLink 0 fun l => { l with mirrorOut := [], mirrorWait := [] }
  let s5 := (s4.updLink 1 fun l => { l with mirrorOut := [], mirrorWait := [] }).ccStat
  (s5.fset Reg.TLC_POOL Fld.TLC_POOL_SHADOW 0).startSuspects

/-- Every hank bound to slot 0: the maps as they then stand are the newest images, and the journal starts anew. -/
def State.bindAll (s : State) : State :=
  let host := (s.hanks.host.filter fun e => e.2.key != 0).foldl (fun t e =>
    dput shippedHost t e.1 (MapEntry.sealChk { e.2 with key := 0 } e.1)) s.hanks.host
  let img : Image := { host := host, sys := s.hanks.sys, seq := s.hanks.seq, done := true, digest := imageDigest host s.hanks.sys }
  State.fset { s with hanks := { s.hanks with host := host, imgA := img, imgB := img, journal := [], ckptRun := none } }
    Reg.TLC_JRNL Fld.TLC_JRNL_MAPJ 0

/-- The records of the slots after an erase: slots 1 to 4,095 EMPTY with WKEY zeroed, their loads counted on, and a new key in slot 0. -/
def State.erasedSlots (s : State) (key : BitVec 256) : Tbl KeySlot :=
  let empty := s.crypto.slots.foldl (fun t e => dput shippedSlot t e.1 { e.2 with state := 0, wkey := 0 }) s.crypto.slots
  tput empty 0 (loadedSlot 0 key (((s.slot 0).gen + 1) % 2 ^ 32))

/-- The erase: pool, line cache and counter cache dropped; slots 1 to 4,095 EMPTY, a new key in slot 0 and every hank bound to it; the tree
written afresh under a new generation with major count MAXMAJ + 1, so that every line reads as zeros. -/
def State.cryptoErase (s : State) : State :=
  let s1 := s.dropWork.bindAll
  let maj := s1.fget Reg.KEY_MAXMAJ Fld.KEY_MAXMAJ_MAXMAJ + 1
  let n := s1.crypto.eraseCount + 1
  let key := Config.slot0Key n
  let slots := s1.erasedSlots key
  let s2 : State := { s1 with
    crypto := { s1.crypto with nodes := [], cache := [], slots := slots, store := tput [] 0 (KeyMat.of key), retiring := [], eraseCount := n, base := maj, gen := s1.crypto.gen + 1
                               rmin := [], rmaj := maj, rootSeq := s1.crypto.rootSeq + 1 }
    cxl := { s1.cxl with poison := [], poisonOvf := false } }
  let waits := s1.crypto.retiring.filterMap fun e => e.2.map fun id => (id, e.1)
  waits.foldl (fun s w => s.cmdUnwait w.1 (wKey w.2) stOK) ((s2.noteMaj maj).slotTotals)

/-- ERASE KIND 1 for every two-ply region (R335): a region whose link is not UP becomes BROKEN and its ERASE stays pending. In lane plan A
there is no region (R11). -/
def State.eraseRegions (s : State) : State :=
  if !s.planB then s else
  ([0, 1] : List Nat).foldl (fun s k => (List.range 16).foldl (fun s r =>
    let (st, _, count) := s.region k r
    if st = 0 then s
    else if s.linkUp k then s.queueOp k (plyOp 6 r [0, count, 1])
    else
      let s1 := s.updLink k fun l => { l with ops := l.ops ++ [plyOp 6 r [0, count, 1]] }
      if st = 4 then s1 else s1.plyEvent k r 4) s) s

/-- Every area held for a neighbour becomes LOST (R368). -/
def State.loseAreas (s : State) : State :=
  ([0, 1] : List Nat).foldl (fun s k => (List.range 16).foldl (fun s a =>
    if (s.area k a).1 = 2 then s.fset (Reg.PLK_AREA k a) Fld.PLK_AREA_STATE 1 else s) s) s

/-- Start an erase of a kind (1 Secure Erase, 2 Sanitize): the cryptographic erase is done at once; credit stops until SANITIZE_DONE. -/
def State.eraseStart (s : State) (kind op : Nat) : State :=
  let s1 := s.cryptoErase.eraseRegions.loseAreas
  State.healthCheck { s1 with cxl := { s1.cxl with sanitizing := kind, bgOp := op, bgDone := 0 } }

/-- Whether a seal is in force or in progress (R303). -/
def State.sealsHeld (s : State) : Bool := !s.seals.live.isEmpty || !s.seals.jobs.isEmpty

/-- Whether the functions an erase needs are ready. -/
def State.eraseReady (s : State) : Bool := s.ready rKEYS && s.ready rMAP && s.ready rSEAL

/-- Sanitize and Secure Erase: refused while locked, frozen, or while a seal is in force or in progress. -/
def State.eraseCmd (s : State) (mb : Mailbox) (kind op : Nat) : Res :=
  s.mbDone mb false s.eraseReady fun s =>
    if s.bgRuns then (rcBusy, [], [], s)
    else if s.cxl.locked || s.cxl.frozen || s.sealsHeld then (rcSecurity, [], [], s)
    else (rcBackground, [], [], s.eraseStart kind op)

def execSanitize (mb : Mailbox) (s : State) : Res := s.eraseCmd mb 2 0x4400
def execSecureErase (mb : Mailbox) (s : State) : Res := s.eraseCmd mb 1 0x4401

/-- Whether an ERASE that has been sent still waits for its answer. -/
def State.eraseWaits (s : State) : Bool := [0, 1].any fun k => s.linkUp k && (s.link k).ops.any fun o => o.op == 6

/-- Sanitize overwrites every physical hank with blank stripes (R128), both selvedge halves included. -/
def State.overwriteAll (s : State) : State :=
  let blank := fun (h : Selvedge) => { h with items := [], blanked := true }
  { s with
    med := { s.med with lines := [], blankAll := s.label, blankWep := [], corrupt := [], progs := [], staged := [] }
    hanks := { s.hanks with rmw := [], suspect := [], failedAt := [] }
    adm := { s.adm with ops := s.adm.ops.filter fun e => match e.2.kind with | .stripe _ => false | _ => true }
    tlc := { s.tlc with pool := s.tlc.pool.map fun q => (q.1, { q.2 with op := none, again := false }) }
    energy := { s.energy with halfA := blank s.energy.halfA, halfB := blank s.energy.halfB } }

/-- SANITIZE_DONE: an erase finishes once the neighbours have answered; credit and Media Status return (R368). Lines written since then do
not exist: no credit was given. -/
def execSanitizeDone (s : State) : Res :=
  nextState (if s.cxl.sanitizing ≠ 0 ∧ s.power = .on ∧ s.ready rMAP = true ∧ s.replayDone = true ∧ s.eraseWaits = false then
    let s1 := if s.cxl.sanitizing = 2 then s.overwriteAll else s
    State.healthCheck { s1 with cxl := { s1.cxl with sanitizing := 0, bgDone := 0 } }
  else s)

/-! ### Passphrases (R367) -/

/-- Get Security State: user set, master set, locked, frozen, user attempts reached, master attempts reached. -/
def execGetSecurityState (mb : Mailbox) (s : State) : Res :=
  s.mbDone mb false true fun s =>
    let b := fun (k : Nat) (v : Bool) => if v then 2 ^ k else 0
    (rcSuccess, [b 0 s.cxl.userPass.isSome + b 1 s.cxl.masterSet + b 2 s.cxl.locked + b 3 s.cxl.frozen + b 4 (decide (5 ≤ s.cxl.userTries)) +
      b 5 (decide (5 ≤ s.cxl.masterTries))], [], s)

/-- The stored hash of a passphrase, if one is set, and the failed attempts at it. -/
def State.passOf (s : State) (master : Bool) : Option (BitVec 384) :=
  if master then (if s.cxl.masterSet then some s.cxl.masterPass else none) else s.cxl.userPass
def State.triesOf (s : State) (master : Bool) : Nat := if master then s.cxl.masterTries else s.cxl.userTries

/-- Count a failed attempt. -/
def State.failTry (s : State) (master : Bool) : State :=
  if master then { s with cxl := { s.cxl with masterTries := s.cxl.masterTries + 1 } }
  else { s with cxl := { s.cxl with userTries := s.cxl.userTries + 1 } }

/-- Check a passphrase: refused after five failed attempts; with none set, nothing is checked. Answers a code other than Success when it
fails. -/
def State.checkPass (s : State) (master : Bool) (pass : List Byte) : Nat × State :=
  if 5 ≤ s.triesOf master then (rcSecurity, s)
  else
    match s.passOf master with
    | none => (rcSuccess, s)
    | some h => if Config.passHash pass = h then (rcSuccess, s) else (rcPassphrase, s.failTry master)

/-- Store or remove a passphrase. -/
def State.setPass (s : State) (master : Bool) (h : Option (BitVec 384)) : State :=
  if master then { s with cxl := { s.cxl with masterPass := h.getD 0, masterSet := h.isSome } }
  else { s with cxl := { s.cxl with userPass := h } }

def execSetPassphrase (mb : Mailbox) (master : Bool) (old new : List Byte) (s : State) : Res :=
  s.mbDone mb false true fun s =>
    if s.cxl.frozen || (s.cxl.locked && !master) then (rcSecurity, [], [], s)
    else if new.length ≠ 32 then (rcInvalidInput, [], [], s)
    else
      let (code, s1) := s.checkPass master old
      if code ≠ rcSuccess then (code, [], [], s1) else (rcSuccess, [], [], s1.setPass master (some (Config.passHash new)))

def execDisablePassphrase (mb : Mailbox) (master : Bool) (old : List Byte) (s : State) : Res :=
  s.mbDone mb false true fun s =>
    if s.cxl.frozen || (s.cxl.locked && !master) || (s.passOf master).isNone then (rcSecurity, [], [], s)
    else
      let (code, s1) := s.checkPass master old
      if code ≠ rcSuccess then (code, [], [], s1) else (rcSuccess, [], [], s1.setPass master none)

/-- Unlock: the user passphrase leaves the Locked state. -/
def execUnlock (mb : Mailbox) (pass : List Byte) (s : State) : Res :=
  s.mbDone mb false true fun s =>
    if s.cxl.frozen || !s.cxl.locked then (rcSecurity, [], [], s)
    else
      let (code, s1) := s.checkPass false pass
      if code ≠ rcSuccess then (code, [], [], s1) else (rcSuccess, [], [], { s1 with cxl := { s1.cxl with locked := false } })

def execFreezeSecurityState (mb : Mailbox) (s : State) : Res :=
  s.mbDone mb false true fun s =>
    if s.cxl.frozen then (rcSecurity, [], [], s) else (rcSuccess, [], [], { s with cxl := { s.cxl with frozen := true } })

/-- Passphrase Secure Erase: the passphrase is checked, Secure Erase performed, and the user passphrase removed, which ends the Locked
state. -/
def execPassphraseSecureErase (mb : Mailbox) (master : Bool) (pass : List Byte) (s : State) : Res :=
  s.mbDone mb false s.eraseReady fun s =>
    if s.bgRuns then (rcBusy, [], [], s)
    else if s.cxl.frozen || s.sealsHeld || (master && !s.cxl.masterSet) then (rcSecurity, [], [], s)
    else
      let (code, s1) := s.checkPass master pass
      if code ≠ rcSuccess then (code, [], [], s1)
      else
        let s2 := s1.setPass false none
        (rcBackground, [], [], State.eraseStart { s2 with cxl := { s2.cxl with locked := false } } 1 0x4505)

end Sys2Proof.Machine
end

