-- ==== Sys2Proof/Machine/HankOps.lean ====
section
/-! DEFINITION. Starting and ordering ring commands (R386), and the range commands that work hank by hank (R152 to R155, R254, R335,
R383, R385): DISCARD, ZERO_HANKS and KEY_BIND. -/

namespace Sys2Proof.Machine

/-! ### What a command changes, and which commands run one after the other (R386) -/

/-- An object that a command changes: its kind (0 hank, 1 key slot, 2 seal, 3 region, 4 area, 5 ratchet, 6 bank, 7 register), and the
numbers from `lo` to below `hi`. -/
structure Obj where
  kind : Nat
  lo : Nat
  hi : Nat
  deriving DecidableEq, Repr

/-- The first hank of an LD's capacity. -/
def State.ldBase (s : State) (ld : Nat) : Nat := (s.cxl.lds.getD ld ⟨0, 0⟩).base

/-- The hanks that `n` bytes from a DPA touch. -/
def State.hanksAt (s : State) (ld dpa n : Nat) : Obj :=
  { kind := 0, lo := s.ldBase ld + dpa / 2 ^ 20, hi := s.ldBase ld + (dpa + n + 2 ^ 20 - 1) / 2 ^ 20 }

/-- The hanks of a seal that a release token names. -/
def State.sealObj (s : State) (seq : Nat) : List Obj :=
  { kind := 2, lo := seq, hi := seq + 1 } ::
    (match tget s.seals.live seq with | some v => [{ kind := 0, lo := v.first, hi := v.first + v.count }] | none => [])

/-- The objects that a command changes. -/
def State.objects (s : State) (p : Packet) : List Obj :=
  let hanks : List Obj := [{ kind := 0, lo := s.ldBase p.ld + p.arg0, hi := s.ldBase p.ld + p.arg0 + p.arg1 }]
  let one := fun (k n : Nat) => ({ kind := k, lo := n, hi := n + 1 } : Obj)
  match p.opcode with
  | 0x0201 => [s.hanksAt p.ld p.arg1 (64 * p.arg2)]
  | 0x0202 => [s.hanksAt p.ld p.arg0 (64 * p.arg1)]
  | 0x0205 => [s.hanksAt p.ld p.arg0 p.buflen]
  | 0x0301 => hanks
  | 0x0302 => hanks
  | 0x0401 => [one 1 p.keyidx]
  | 0x0402 => one 1 p.keyidx :: hanks
  | 0x0403 => [one 1 p.keyidx]
  | 0x0501 => hanks
  | 0x0503 => s.sealObj p.arg0
  | 0x0601 => if p.flags.testBit 0 then [one 4 (16 * p.arg2 + p.arg3)] else hanks
  | 0x0603 => [one 3 (16 * p.arg0 + p.arg1)]
  | 0x0701 => [one 7 p.arg0]
  | 0x0804 => [one 7 (32 + p.arg0)]
  | 0x0805 => [one 7 34]
  | 0x0A02 => [one 6 p.arg0]
  | 0x0C03 => [one 5 p.arg0]
  | 0x0D01 => if p.arg0 = 7 then [one 6 p.arg1] else []
  | 0x0D02 => if p.arg0 = 5 then [{ kind := 6, lo := 0, hi := 12 }] else []
  | _ => []

def objsMeet (a b : List Obj) : Bool :=
  a.any fun x => b.any fun y => x.kind == y.kind && decide (x.lo < y.hi) && decide (y.lo < x.hi)

/-- Whether a command travels on a ring, and on which. -/
def ringOf : Carrier → Option Nat
  | .ring n => some n
  | _ => none

def isFenced (p : Packet) : Bool := p.flags.testBit 8

/-- Whether command `id` waits for one accepted before it: those of its ring start in order, FENCE waits for every earlier one of the
ring, and of two commands on one object the one accepted first goes first; a second SELF_TEST starts, so as to be answered BUSY. -/
def State.mustWait (s : State) (id : Nat) (c : Cmd) : Bool :=
  s.cmds.any fun e => decide (e.1 < id) &&
    (((ringOf c.carrier).isSome && ringOf e.2.carrier == ringOf c.carrier && (isFenced c.pkt || !e.2.running)) ||
      (!(e.2.pkt.opcode == 0x0D02 && c.pkt.opcode == 0x0D02) && objsMeet (s.objects e.2.pkt) (s.objects c.pkt)))

/-- Whether commands start: the firmware runs, and no takeover of a core is under way (R447, Table 12-16). -/
def State.cmdsRun (s : State) : Bool := s.ctlUp && s.ready rFW && !s.plat.takeover

/-- Whether a command that has been accepted may start. -/
def State.mayStart (s : State) (id : Nat) (c : Cmd) : Bool := s.cmdsRun && !c.running && !(s.mustWait id c)

/-- Start command `id` when it is one of opcode `op` and may start; otherwise nothing happens. -/
def State.start (s : State) (id op : Nat) (f : Cmd → State → State) : Res :=
  nextState (match tget s.cmds id with
    | some c => if c.pkt.opcode = op ∧ s.mayStart id c = true then f { c with running := true } (s.setCmd id { c with running := true }) else s
    | none => s)

/-- Start a command that ends at once with a status, two results and output. -/
def State.answer (s : State) (id op : Nat) (f : Cmd → State → Nat × Nat × Nat × List Byte × State) : Res :=
  s.start id op fun c s => let (st, r0, r1, out, s1) := f c s; s1.finish id st r0 r1 out

/-- A fixed structure (R385): nothing is written when BUFLEN is 0. -/
def whenAsked (c : Cmd) (out : List Byte) : List Byte := if c.pkt.buflen = 0 then [] else out

/-! ### Hanks of a range -/

/-- Whether the range of a hank command lies in its LD's capacity (R388). -/
def State.hanksInLd (s : State) (p : Packet) : Bool := decide (p.arg0 + p.arg1 ≤ s.ldHanks p.ld)

/-- Whether a discard of a hank is secure: FLAGS.SECURE, or the default of its region (R155). -/
def State.isSecure (s : State) (c : Cmd) (lhn : Nat) : Bool := c.pkt.flags.testBit 0 || (s.attrOf lhn).2.2 == 1

/-- Whether the next hank of a range waits: for room in the map journal (R130), or, to be bound, for its migration's MIG_COMMITTED
(R254). -/
def State.hankWaits (s : State) (c : Cmd) (lhn : Nat) : Bool :=
  s.journalFull || (c.pkt.opcode == 0x0402 && (match s.migOf false lhn with
    | some (_, g) => g.state != .committed && g.state != .released
    | none => false))

/-- End a range command: at once with a status that stopped it, otherwise when the neighbours have answered. -/
def State.rangeEnd (s : State) (id : Nat) (stop : Option Nat) : State :=
  match tget s.cmds id, stop with
  | none, _ => s
  | some c, some st => s.finish id st c.done 0 []
  | some _, none => s.cmdUnwait id wRange stOK

/-- A hint discard of one hank (R152): its dirty and cached lines go, HINT is set, and it is zeroed in the background; a hank that is being zeroed
or overwritten anyway keeps that work. -/
def State.hintOne (s : State) (lhn : Nat) : State :=
  let s1 := s.dropLines lhn
  let s2 := s1.setEntry false lhn { s1.hostEntry lhn with hint := true }
  match tget s.hanks.work lhn with
  | some (.zero _) => s2
  | some (.secure _) => s2
  | _ => s2.beginWork lhn .hint

/-- Begin the work on one hank of a range, its neighbour being asked to erase the replica (R335). -/
def State.hankBegin (s : State) (id lhn : Nat) (c : Cmd) : State :=
  let secure := c.pkt.opcode == 0x0301
  let (down, w, s1) := s.plyErase lhn (if secure then 1 else 0) (some id)
  let c1 : Cmd := { c with started := true, status := if down then stPLY_DEGRADED else c.status, work := c.work ++ w ++ [wHank lhn] }
  let s2 := s1.setCmd id c1
  if secure then s2.secureBegin lhn (some id)
  else
    let key := (s.hostEntry lhn).key
    if c.pkt.opcode = 0x0402 then (s2.zeroBegin lhn c.pkt.keyidx (some id)).slotLeft key
    else s2.zeroBegin lhn key (some id)

/-- Take the hanks of a range in ascending order until one takes time, waits, or stops the command: `n` hanks are left. -/
def State.rangeGo : Nat → State → Nat → State
  | 0, s, id => s.rangeEnd id none
  | n + 1, s, id =>
    match tget s.cmds id with
    | none => s
    | some c =>
      let lhn := s.ldBase c.pkt.ld + c.pkt.arg0 + c.done
      let c1 : Cmd := { c with done := c.done + 1, started := true }
      if c.pkt.opcode = 0x0402 ∧ (s.hostEntry lhn).key = c.pkt.keyidx then State.rangeGo n (s.setCmd id { c with done := c.done + 1 }) id
      else if s.sealedOrBusy lhn then s.rangeEnd id (some stSEALED)
      else if s.hankWaits c lhn then s
      else if c.pkt.opcode = 0x0301 ∧ s.isSecure c lhn = false then
        let (down, _, s1) := s.plyErase lhn 0 none
        State.rangeGo n ((s1.setCmd id { c1 with status := if down then stPLY_DEGRADED else c.status }).hintOne lhn) id
      else s.hankBegin id lhn c

/-- Go on with a range. -/
def State.rangeNext (s : State) (id : Nat) : State :=
  match tget s.cmds id with
  | some c => State.rangeGo (c.pkt.arg1 - c.done) s id
  | none => s

/-- A hank of a range is done: the next one follows, or the command ends for its expiry or its ring's stop. -/
def State.rangeHankDone (s : State) (id lhn : Nat) : State :=
  match tget s.cmds id with
  | none => s
  | some c =>
    let c1 : Cmd := { c with done := c.done + 1, work := c.work.erase (wHank lhn) }
    let s1 := s.setCmd id c1
    match c.endWith with
    | some st => s1.finish id st c1.done 0 []
    | none => s1.rangeNext id

/-- Run a range command, or go on with one that waited between two hanks. `check`: the opcode's own checks. -/
def State.runRange (s : State) (id op : Nat) (check : Cmd → Option Nat) : Res :=
  match tget s.cmds id with
  | some c =>
    if c.pkt.opcode = op ∧ atGap c = true ∧ s.cmdsRun = true then nextState (s.rangeNext id)
    else s.start id op fun c s =>
      match check c with
      | some st => s.finish id st 0 0 []
      | none => State.rangeNext (s.setCmd id { c with work := [wRange] }) id
  | none => nextState s

def rangeCheck (s : State) (c : Cmd) : Option Nat := if s.hanksInLd c.pkt then none else some stRANGE

def execDiscard (cmd : Nat) (s : State) : Res := s.runRange cmd 0x0301 (rangeCheck s)
def execZeroHanks (cmd : Nat) (s : State) : Res := s.runRange cmd 0x0302 (rangeCheck s)

/-- KEY_BIND (R254): the slot must be LOADED. -/
def execKeyBind (cmd : Nat) (s : State) : Res :=
  s.runRange cmd 0x0402 fun c =>
    if !(s.hanksInLd c.pkt) || decide (4096 ≤ c.pkt.keyidx) then some stRANGE
    else
      let st := (s.slot c.pkt.keyidx).state
      if st = 0 ∨ st = 4 then some stKEY_ABSENT
      else if st = 2 ∨ st = 3 then some stKEY_IN_USE
      else none

/-! ### The work on a hank ends -/

/-- A hank's work is done, for the command, the neighbour or the FM API request that asked for it. -/
def State.hankDone (s : State) (lhn : Nat) (cmd : Option Nat) : State :=
  let s1 := s.hankAnswered lhn
  match cmd with | some id => s1.rangeHankDone id lhn | none => s1

/-- Whether a migration of a hank has not reached MIG_COMMITTED (step 4 of R154). -/
def State.migOpen (s : State) (lhn : Nat) : Bool :=
  match s.migOf false lhn with | some (_, g) => g.state != .committed | none => false

/-- All patches of a ZEROING hank are zeroed: MAPPED, or UNASSIGNED when no LD holds it and it is in no ply area
(R153, R156, R323, R324). -/
def execHankZeroDone (lhn : Nat) (s : State) : Res :=
  nextState (match tget s.hanks.work lhn with
    | some (.zero cmd) =>
      if s.journalFull then s
      else
        let s1 := (((s.zeroHank lhn).cacheDropHank lhn).charge (s.partyOf lhn) 256).endWork lhn
        let st := if (s.ldOf (lhn * 16384)).isSome ∨ (s.hostEntry lhn).ply = 3 then 1 else 0
        (s1.setEntry false lhn { s1.hostEntry lhn with state := st, hint := false }).hankDone lhn cmd
    | _ => s)

/-- Every step of a secure discard has finished for a hank (R154): a migration of it has committed, both selvedge halves are blank, and the
neighbour has answered, where no command waits for that. -/
def execSecureOverwriteDone (lhn : Nat) (s : State) : Res :=
  nextState (match tget s.hanks.work lhn with
    | some (.secure cmd) =>
      if s.journalFull || s.migOpen lhn || (cmd.isNone && (s.eraseOf lhn).isSome) || s.hankBusy (s.hostEntry lhn).phn || !s.energy.halfA.blanked || !s.energy.halfB.blanked then s
      else
        let s1 := ((((s.zeroHank lhn).overwriteHank lhn).charge (s.partyOf lhn) (8 * 2176)).endWork lhn)
        (s1.setEntry false lhn { s1.hostEntry lhn with state := 1, hint := false }).hankDone lhn cmd
    | _ => s)

end Sys2Proof.Machine
end

