-- ==== Sys2Proof/Machine/Rings.lean ====
section
/-! DEFINITION. The command rings (R375 to R387): doorbells, fetching, the checks of a packet, expiry, stops and halts, and packets through
the mailboxes (R392). -/

namespace Sys2Proof.Machine

/-! ### What an opcode takes (Tables 12-3 to 12-7) -/

/-- An opcode: the FLAGS bits 7:0 it defines, the arguments it names (bits 0 to 3 ARG0 to ARG3, bit 4 KEYIDX), its buffer (0 none, 1 read,
2 written), the size of a fixed structure, and the functions it needs (R230, Table 7-2). -/
structure OpSpec where
  opcode : Nat
  flags : Nat
  args : Nat
  buf : Nat
  fixed : Nat
  needs : List Nat
  deriving DecidableEq, Repr

/-- Table 12-3. -/
def opsHealth : List OpSpec :=
  [⟨0x0101, 0, 0, 2, 128, []⟩, ⟨0x0102, 0, 0, 2, 400, []⟩, ⟨0x0103, 0, 3, 2, 0, []⟩, ⟨0x0901, 0, 1, 2, 0, []⟩, ⟨0x0902, 0, 3, 2, 0, []⟩,
   ⟨0x0903, 0, 1, 0, 0, []⟩, ⟨0x0A01, 0, 0, 2, 176, [rGAUGE]⟩, ⟨0x0A02, 0, 1, 0, 0, [rGAUGE]⟩, ⟨0x0A03, 0, 0, 0, 0, []⟩,
   ⟨0x0701, 7, 15, 0, 0, []⟩, ⟨0x0702, 0, 0, 2, 496, []⟩]

/-- Table 12-4. -/
def opsMemory : List OpSpec :=
  [⟨0x0201, 0, 23, 0, 0, [rMAP, rKEYS]⟩, ⟨0x0202, 0, 23, 0, 0, [rMAP, rKEYS]⟩, ⟨0x0203, 0, 0, 0, 0, [rMAP]⟩,
   ⟨0x0204, 1, 17, 2, 0, [rMAP, rKEYS]⟩, ⟨0x0205, 0, 17, 1, 0, [rMAP, rKEYS]⟩, ⟨0x0301, 1, 3, 0, 0, [rMAP]⟩, ⟨0x0302, 0, 3, 0, 0, [rMAP]⟩]

/-- Table 12-5. -/
def opsKeys : List OpSpec :=
  [⟨0x0401, 0, 16, 1, 0, [rKEYS]⟩, ⟨0x0402, 0, 19, 0, 0, [rMAP, rKEYS]⟩, ⟨0x0403, 0, 16, 0, 0, [rMAP, rKEYS]⟩, ⟨0x0404, 0, 16, 2, 96, [rKEYS]⟩,
   ⟨0x0501, 0, 23, 2, 0, [rSEAL]⟩, ⟨0x0502, 1, 3, 2, 0, [rSEAL]⟩, ⟨0x0503, 0, 1, 1, 0, [rSEAL]⟩, ⟨0x0504, 0, 1, 2, 48, [rSEAL]⟩]

/-- Table 12-6. -/
def opsPly : List OpSpec :=
  [⟨0x0601, 1, 15, 0, 0, [rPLY]⟩, ⟨0x0602, 0, 1, 2, 256, [rPLY]⟩, ⟨0x0603, 1, 3, 0, 0, [rPLY]⟩, ⟨0x0B01, 0, 7, 2, 0, [rCHAIN]⟩,
   ⟨0x0B02, 0, 1, 1, 0, [rCHAIN]⟩, ⟨0x0B03, 0, 3, 2, 0, [rCHAIN]⟩]

/-- Table 12-7. -/
def opsMaint : List OpSpec :=
  [⟨0x0801, 0, 7, 0, 0, [rWMEM]⟩, ⟨0x0802, 0, 7, 0, 0, [rWMEM]⟩, ⟨0x0803, 0, 7, 0, 0, [rWMEM]⟩, ⟨0x0804, 0, 7, 0, 0, [rMEDIA]⟩,
   ⟨0x0805, 0, 3, 0, 0, [rMAP]⟩, ⟨0x0C01, 0, 1, 2, 0, []⟩, ⟨0x0C02, 0, 1, 1, 0, []⟩, ⟨0x0C03, 0, 3, 0, 0, []⟩, ⟨0x0C04, 0, 3, 2, 96, []⟩,
   ⟨0x0D01, 0, 7, 0, 0, []⟩, ⟨0x0D02, 0, 1, 0, 0, []⟩]

def opTable : List OpSpec := opsHealth ++ opsMemory ++ opsKeys ++ opsPly ++ opsMaint

def opSpec (opcode : Nat) : Option OpSpec := opTable.find? fun o => o.opcode == opcode

/-- The opcodes that MCTP carries (R372). -/
def mctpOps : List Nat := [0x0101, 0x0102, 0x0103, 0x0702, 0x0901, 0x0902, 0x0A01, 0x0602, 0x0502, 0x0B01, 0x0B03]

/-- Opcodes that only report, which answer in BOUND as well (R206); PREPARE_POWER_LOSS completes OK there. -/
def boundOps : List Nat :=
  [0x0101, 0x0102, 0x0103, 0x0702, 0x0901, 0x0902, 0x0A01, 0x0A03, 0x0404, 0x0502, 0x0602, 0x0B03, 0x0C01, 0x0C04]

/-! ### The checks of R381 -/

/-- Bytes 0 to 59 of a packet (Table 12-1). -/
def packetBytes (p : Packet) : List Byte :=
  le 2 p.opcode ++ le 2 p.flags ++ le 4 p.tag ++ le 2 p.ld ++ le 2 p.keyidx ++ le 4 p.timeout ++ le 8 p.arg0 ++ le 8 p.arg1 ++ le 8 p.arg2 ++
    le 8 p.arg3 ++ le 8 p.bufptr ++ le 4 p.buflen

/-- The arguments a packet may set: SET_PLY and READ_VIA_RING name others with AREA. -/
def argMask (o : OpSpec) (p : Packet) : Nat :=
  if p.opcode = 0x0204 ∧ p.flags.testBit 0 then 13
  else if p.opcode = 0x0601 then (if p.flags.testBit 0 then 12 else 7)
  else o.args

/-- Reserved bits of arguments, and counts of zero (R388). -/
def argShape (p : Packet) : Bool :=
  match p.opcode with
  | 0x0201 => p.arg2 != 0
  | 0x0202 => p.arg1 != 0
  | 0x0301 => p.arg1 != 0
  | 0x0302 => p.arg1 != 0
  | 0x0402 => p.arg1 != 0
  | 0x0502 => p.flags.testBit 0 || p.arg1 != 0
  | 0x0601 => p.flags.testBit 0 || p.arg1 != 0
  | 0x0701 => decide (p.arg3 < 2)
  | 0x0801 => p.arg0 != 3 || p.arg2 != 0
  | 0x0802 => p.arg0 != 3 || p.arg2 != 0
  | 0x0803 => p.arg0 != 3 || p.arg2 != 0
  | 0x0804 => decide (p.arg1 < 2)
  | 0x0805 => decide (p.arg0 < 8)
  | _ => true

/-- The entries of a scatter list whose lengths sum to `left` (R384); none when the list is invalid. -/
def sglTake : Nat → List SglEntry → Nat → Option (List SglEntry)
  | _, _, 0 => some []
  | n + 1, e :: es, left + 1 =>
    if e.addr % 8 = 0 ∧ e.len ≠ 0 ∧ e.len % 8 = 0 ∧ e.pad = 0 ∧ e.len ≤ left + 1 then (sglTake n es (left + 1 - e.len)).map (e :: ·) else none
  | _, _, _ => none

/-- Whether the buffer of a packet is well formed on its path (R384, R392). `unread`: the scatter list could not be read. -/
def bufOk (o : OpSpec) (carrier : Carrier) (p : Packet) (sgl : List SglEntry) (unread : Bool) : Bool :=
  match carrier with
  | .ring _ =>
    if o.buf = 0 then true
    else if p.flags.testBit 10 then p.buflen != 0 && p.bufptr % 16 == 0 && (unread || (sglTake 64 sgl p.buflen).isSome)
    else p.buflen == 0 || p.bufptr % 8 == 0
  | .mctp => true
  | _ => p.bufptr == 0 && !(p.flags.testBit 10) && (o.buf == 0 || decide (p.buflen ≤ 2 ^ 20 - (if o.buf = 1 then 64 else 32)))

/-- Whether a packet may name its LD on its path (R381, R392). -/
def State.ldOk (s : State) (carrier : Carrier) (ld : Nat) : Bool :=
  decide (ld < 16) && (match carrier with
    | .ring n => s.fbit (Reg.CRG_CTL n) Fld.CRG_CTL_LDMASK ld
    | .primary m => ld == m
    | .secondary m => ld == m
    | .mctp => true)

/-- Check 3 of R381. -/
def State.fieldsOk (s : State) (o : OpSpec) (carrier : Carrier) (p : Packet) (sgl : List SglEntry) (unread : Bool) : Bool :=
  let m := argMask o p
  let named := fun (b v : Nat) => m.testBit b || v == 0
  p.flags / 2048 == 0 && (p.flags % 256) &&& (255 - o.flags) == 0 && named 0 p.arg0 && named 1 p.arg1 && named 2 p.arg2 && named 3 p.arg3 &&
    named 4 p.keyidx && s.ldOk carrier p.ld && bufOk o carrier p sgl unread && argShape p &&
    (p.buflen == 0 || o.buf == 0 || decide (o.fixed ≤ p.buflen))

/-- The hanks whose contents or state a command needs: those it changes, and those it reads. -/
def State.hanksUsed (s : State) (p : Packet) : List Obj :=
  (s.objects p).filter (fun x => x.kind == 0) ++
    (match p.opcode with
    | 0x0201 => [s.hanksAt p.ld p.arg0 (64 * p.arg2)]
    | 0x0204 => if p.flags.testBit 0 then [] else [s.hanksAt p.ld p.arg0 p.buflen]
    | _ => [])

/-- Whether every skein of some hanks is ready. -/
def State.skeinsReady (s : State) (os : List Obj) : Bool :=
  os.all fun x => (List.range 64).all fun k => decide (x.hi ≤ k * 98304) || decide ((k + 1) * 98304 ≤ x.lo) || s.skeinReady k

/-- Commands that move host data, which a locked module refuses (R367). -/
def movesData (opcode : Nat) : Bool := [0x0201, 0x0202, 0x0204, 0x0205].contains opcode

/-- Check 4 of R381: the functions needed are ready (R230); the module is in service unless the opcode only reports; no command that moves
host data runs while the module is locked. -/
def State.needsOk (s : State) (o : OpSpec) (p : Packet) : Bool :=
  o.needs.all s.ready && (s.power == .on || boundOps.contains p.opcode) && !(s.cxl.locked && movesData p.opcode) && s.skeinsReady (s.hanksUsed p)

/-- Checks 1 to 4 of R381: the status of the first that fails. -/
def State.packetCheck (s : State) (carrier : Carrier) (p : Packet) (sgl : List SglEntry) (unread : Bool) : Option Nat :=
  if (Config.crc32c (packetBytes p)).toNat ≠ p.check then some stBAD_CHECK
  else
    match opSpec p.opcode with
    | none => some stBAD_OPCODE
    | some o =>
      if carrier = .mctp ∧ mctpOps.contains p.opcode = false then some stBAD_OPCODE
      else if s.fieldsOk o carrier p sgl unread = false then some stBAD_PARAM
      else if s.needsOk o p = false then some stNOT_READY
      else none

/-! ### Acceptance -/

/-- The scatter list of a packet as used: the entries up to BUFLEN. -/
def sglUsed (p : Packet) (sgl : List SglEntry) : List SglEntry :=
  if p.flags.testBit 10 then (sglTake 64 sgl p.buflen).getD [] else []

/-- A packet as its opcode sees it: a vendor message carries at most 1 KiB of result data (R372). -/
def carried (carrier : Carrier) (p : Packet) : Packet :=
  match carrier with
  | .mctp => { p with buflen := min p.buflen 1024 }
  | _ => p

/-- A command as it is accepted. -/
def State.newCmd (s : State) (carrier : Carrier) (p : Packet) (sgl : List SglEntry) (input : List Byte) (host : HostMem) : Cmd :=
  { carrier := carrier, pkt := carried carrier p, sgl := sglUsed p sgl, accept := s.clk.now
    expiry := if p.timeout = 0 then none else some (s.clk.now + p.timeout * 1024)
    input := input, running := false, started := false, stopping := false, work := [], done := 0, bad := 0, extra := 0, status := stOK
    lines := [], output := [], endWith := none, host := host }

/-- INFLIGHT of the ring of a path. -/
def State.carrierStat (s : State) (carrier : Carrier) : State :=
  match carrier with | .ring n => s.ringStat n | _ => s

/-- Accept a packet: it is checked at once; one that passes waits to start. An error on its input buffer or scatter list makes it ABORTED
(R385). -/
def State.takePacket (s : State) (carrier : Carrier) (p : Packet) (sgl : List SglEntry) (input : List Byte) (host : HostMem) : State :=
  let id := s.nextCmd
  let s1 : State := { s with cmds := tput s.cmds id (s.newCmd carrier p sgl input host), nextCmd := id + 1 }
  let reads := match opSpec p.opcode with
    | some o => o.buf == 1 || (o.buf == 2 && p.flags.testBit 10)
    | none => false
  match s.packetCheck carrier p sgl (host == .input) with
  | some st => s1.finish id st 0 0 []
  | none => if host = .input ∧ reads = true then s1.finish id stABORTED 0 0 [] else s1.carrierStat carrier

/-! ### Stops and halts (R387) -/

/-- End or wind up the commands of ring `n`: those that have changed nothing end ABORTED; a range command between two hanks ends with its
count; the others end ABORTED when they have finished what is in progress. -/
def State.stopCmds (s : State) (n : Nat) : State :=
  (s.ringCmds n).foldl (fun s e =>
    let c := e.2
    if !(c.running && c.started) then s.finish e.1 stABORTED 0 0 []
    else if atGap c then s.finish e.1 stABORTED c.done 0 []
    else s.setCmd e.1 { c with endWith := some stABORTED }) s

/-- Ring `n` halts for a cause. -/
def State.haltRing (s : State) (n cause : Nat) : State := ((s.haltMark n cause).stopCmds n).ringStat n

/-- Ring `n` runs: enabled and not halted. -/
def State.ringOn (s : State) (n : Nat) : Bool :=
  s.fget (Reg.CRG_CTL n) Fld.CRG_CTL_ENABLE == 1 && s.fget (Reg.CRG_STAT n) Fld.CRG_STAT_HALTED == 0

/-! ### Ring registers (R375 to R378) -/

/-- Whether the queues of ring `n` are where they may be: bases not 0, no queue past 2^64 − 1, no overlap (R387). -/
def State.basesOk (s : State) (n : Nat) : Bool :=
  let size := s.ringSize n
  let sq := s.fget (Reg.CRG_SQ_BASE n) Fld.CRG_SQ_BASE_ADDR * 64
  let cq := s.fget (Reg.CRG_CQ_BASE n) Fld.CRG_CQ_BASE_ADDR * 32
  sq != 0 && cq != 0 && decide (sq + 64 * size ≤ 2 ^ 64) && decide (cq + 32 * size ≤ 2 ^ 64) &&
    (decide (sq + 64 * size ≤ cq) || decide (cq + 32 * size ≤ sq))

/-- Start ring `n`: pointers 0, phase 1, state and count cleared (R375). -/
def State.ringStart (s : State) (n : Nat) : State :=
  let s1 : State := { s with rings := { s.rings with coal := lset s.rings.coal n 0, coalOn := lset s.rings.coalOn n none
                                                     stopping := lset s.rings.stopping n false } }
  let s2 := (((s1.setReg (Reg.CRG_SQ_TAIL n) 0).setReg (Reg.CRG_SQ_HEAD n) 0).setReg (Reg.CRG_CQ_HEAD n) 0).setReg (Reg.CRG_CQ_TAIL n) (regReset (Reg.CRG_CQ_TAIL n))
  let s3 := ((s2.setReg (Reg.CRG_DONE n) 0).setReg (Reg.CRG_STAT n) 0).fset (Reg.CRG_STAT n) Fld.CRG_STAT_RUNNING 1
  if s3.basesOk n then s3.ringStat n else s3.haltRing n 4

/-- A write of CRG_CTL: LDMASK and TEST_EN unless locked; ENABLE starts or stops the ring. -/
def State.crgCtl (s : State) (n : Nat) (val : W64) : State :=
  let r := Reg.CRG_CTL n
  let on := getF val Fld.CRG_CTL_ENABLE
  let was := s.fget r Fld.CRG_CTL_ENABLE
  let s1 := if s.rwlLocked then s
    else (s.fset r Fld.CRG_CTL_LDMASK (getF val Fld.CRG_CTL_LDMASK)).fset r Fld.CRG_CTL_TEST_EN (getF val Fld.CRG_CTL_TEST_EN)
  let s2 := s1.fset r Fld.CRG_CTL_ENABLE on
  if on = was then s2
  else if on = 1 then s2.ringStart n
  else (State.stopCmds { s2 with rings := { s2.rings with stopping := lset s2.rings.stopping n true } } n).ringStat n

/-- RING_ENABLE: a write of CRG_CTL with ENABLE = 1. -/
def execRingEnable (ring : Nat) (val : W64) (s : State) : Res :=
  nextState (if ring < 8 ∧ getF val Fld.CRG_CTL_ENABLE = 1 then s.crgCtl ring val else s)

/-- RING_STOP: a write of CRG_CTL with ENABLE = 0 (R387). -/
def execRingStop (ring : Nat) (val : W64) (s : State) : Res :=
  nextState (if ring < 8 ∧ getF val Fld.CRG_CTL_ENABLE = 0 then s.crgCtl ring val else s)

/-- A write of CRG_SQ_TAIL, the doorbell: a tail of the size or more halts a running ring with CAUSE 1 (R376). -/
def State.doorbell (s : State) (n : Nat) (val : W64) : State :=
  let t := getF val Fld.CRG_SQ_TAIL_TAIL
  let s1 := s.fset (Reg.CRG_SQ_TAIL n) Fld.CRG_SQ_TAIL_TAIL t
  if s.ringOn n ∧ s.ringSize n ≤ t then s1.haltRing n 1 else s1

def execRingDoorbell (ring : Nat) (val : W64) (s : State) : Res := nextState (if ring < 8 then s.doorbell ring val else s)

/-- A write of CRG_CQ_HEAD; one of the size or more is ignored (R377). -/
def State.cqHead (s : State) (n : Nat) (val : W64) : State :=
  let h := getF val Fld.CRG_CQ_HEAD_HEAD
  if s.ringSize n ≤ h then s else s.fset (Reg.CRG_CQ_HEAD n) Fld.CRG_CQ_HEAD_HEAD h

def execCqHeadWrite (ring : Nat) (val : W64) (s : State) : Res := nextState (if ring < 8 then s.cqHead ring val else s)

/-- Whether a completion not yet told of was written COAL_TIME µs ago or earlier. -/
def State.coalPassed (s : State) (n : Nat) : Bool :=
  match s.rings.coalOn.getD n none with
  | some t => decide (t + 100 * s.fget (Reg.CRG_MSIX n) Fld.CRG_MSIX_COAL_TIME ≤ s.clk.now)
  | none => false

/-- COAL_TIME has passed since the first completion not yet told of: the message is sent (R378). -/
def execMsixCoalesceTimer (ring : Nat) (s : State) : Res :=
  nextState (if ring < 8 ∧ s.coalPassed ring = true ∧ s.fget (Reg.CRG_MSIX ring) Fld.CRG_MSIX_EN = 1 ∧
      s.fget (Reg.CRG_MSIX ring) Fld.CRG_MSIX_COAL_TIME ≠ 0 then
    State.out { s with rings := { s.rings with coal := lset s.rings.coal ring 0, coalOn := lset s.rings.coalOn ring none } }
      (.msix (s.fget (Reg.CRG_MSIX ring) Fld.CRG_MSIX_VECTOR))
  else s)

/-! ### Fetching (R376) -/

/-- Completions of ring `n` that the host has not consumed. -/
def State.unconsumed (s : State) (n : Nat) : Nat :=
  (s.fget (Reg.CRG_CQ_TAIL n) Fld.CRG_CQ_TAIL_TAIL + s.ringSize n - s.fget (Reg.CRG_CQ_HEAD n) Fld.CRG_CQ_HEAD_HEAD) % s.ringSize n

/-- Whether ring `n` may fetch its next entry. -/
def State.canFetch (s : State) (n : Nat) : Bool :=
  let k := (s.ringCmds n).length
  decide (n < 8) && s.cmdsRun && s.ready rRINGS && s.ringOn n &&
    s.fget (Reg.CRG_SQ_HEAD n) Fld.CRG_SQ_HEAD_HEAD != s.fget (Reg.CRG_SQ_TAIL n) Fld.CRG_SQ_TAIL_TAIL &&
    decide (k < 64) && decide (k + s.unconsumed n < s.ringSize n - 1)

/-- COMMAND_FETCH: the entry at the head is fetched and accepted; a host error on its read halts the ring with CAUSE 2. -/
def execCommandFetch (ring : Nat) (host : HostMem) (p : Packet) (sgl : List SglEntry) (input : List Byte) (s : State) : Res :=
  nextState (if s.canFetch ring = false then s
  else if host = .sqRead then s.haltRing ring 2
  else
    let r := Reg.CRG_SQ_HEAD ring
    let s1 := s.fset r Fld.CRG_SQ_HEAD_HEAD ((s.fget r Fld.CRG_SQ_HEAD_HEAD + 1) % s.ringSize ring)
    s1.takePacket (.ring ring) p sgl input host)

/-! ### Through the mailbox (R392) -/

/-- The input that follows a packet: BUFLEN bytes when its opcode reads a buffer. -/
def inputLen (p : Packet) : Nat :=
  match opSpec p.opcode with
  | some o => if o.buf = 1 then p.buflen else 0
  | none => 0

/-- ETHORN_PASSTHRU: the mailbox stays busy until the completion. -/
def execEthornPassthru (mb : Mailbox) (p : Packet) (input : List Byte) (s : State) : Res :=
  s.mbCmd mb false true fun s =>
    if input.length ≠ inputLen p then s.mbAnswer mb rcPayloadLen [] []
    else
      State.takePacket { s with cxl := { s.cxl with mboxBusy := s.cxl.mboxBusy ++ [mb] } }
        (if mb.secondary then .secondary mb.ld else .primary mb.ld) p [] input .ok

/-! ### Expiry (R383) -/

/-- Commands that never give up: from their acceptance, or once they have started their change. -/
def neverStops (c : Cmd) : Bool :=
  [0x0603, 0x0A02, 0x0801, 0x0802, 0x0803].contains c.pkt.opcode ||
    (c.started && [0x0501, 0x0503, 0x0403, 0x0601, 0x0A03, 0x0D01].contains c.pkt.opcode)

/-- Commands that finish the hank in progress. -/
def endsByHank (opcode : Nat) : Bool := [0x0301, 0x0302, 0x0402, 0x0201, 0x0202, 0x0204, 0x0205].contains opcode

/-- Commands that change the map, and so wait for its journal (R130). -/
def changesMap (opcode : Nat) : Bool := [0x0301, 0x0302, 0x0402, 0x0501, 0x0503, 0x0601].contains opcode

/-- COMMAND_EXPIRY: the expiry tick of a command has come and it has not finished. -/
def execCommandExpiry (cmd : Nat) (s : State) : Res :=
  nextState (match tget s.cmds cmd with
    | none => s
    | some c =>
      match c.expiry with
      | none => s
      | some d =>
        if s.clk.now < d ∨ neverStops c = true then s
        else
          let full := changesMap c.pkt.opcode && s.journalFull
          let st := if full then stBUSY else stTIMEOUT
          if c.started then
            if atGap c then s.finish cmd st c.done 0 []
            else if endsByHank c.pkt.opcode then s.setCmd cmd { c with endWith := some stTIMEOUT }
            else s.finish cmd stTIMEOUT 0 0 []
          else
            let left := if c.pkt.opcode = 0x0203 then c.work.length else c.done
            s.finish cmd (if full && !c.running then stBUSY else if atGap c then st else stTIMEOUT) left 0 [])

end Sys2Proof.Machine
end

