-- ==== Sys2Proof/Machine/Sideband.lean ====
section
/-! DEFINITION. The sideband (R369 to R372): SMBus ARP, the status blocks, and MCTP. -/

namespace Sys2Proof.Machine

/-- D0 is powered, so that the SMBus interface answers. -/
def State.d0Up (s : State) : Bool := s.power != .none

/-- The UDID (R369), in the order of SMBus 3.1: dynamic address with PEC, version 1, vendor, device 0x0E6A, interface, subsystem, and the low
half of the serial (log 41). -/
def udid : List Byte :=
  bytesOf [0x81, 0x08 + Config.siliconRev % 8] ++ be 2 Config.vendorId ++ be 2 0x0E6A ++ be 2 0x0006 ++ be 2 Config.vendorId ++
    be 2 Config.subsystemId ++ be 4 Config.serial

/-- An SMBus ARP command assigns an address, or asks for the UDID. Until one is assigned the module answers at 0x3D. -/
def execArp (assign : Option Nat) (s : State) : Res :=
  nextState (if s.d0Up = false then s
  else
    match assign with
    | some a => { s with cxl := { s.cxl with smbAddr := some (a % 128) } }
    | none => s.out (.smbus (udid ++ bytesOf [2 * s.cxl.smbAddr.getD 0x3D])))

/-- ARP Reset Device drops the assigned address. -/
def execArpResetDevice (s : State) : Res :=
  nextState (if s.d0Up then { s with cxl := { s.cxl with smbAddr := none } } else s)

/-- SMBRST# resets the SMBus interface alone: the assigned address is kept, and no transfer outlives a command here (R369). -/
def execSmbrstAssert (s : State) : Res := nextState s

/-- The block as the always-on domain holds it: as refreshed, or as it is when it has never been. -/
def State.basicBlock (s : State) : List Byte := if s.cxl.basic.isEmpty then s.statusBlock else s.cxl.basic

/-- Whether main power is off. -/
def State.mainOff (s : State) : Bool := s.power == .none || s.power == .aux || s.power == .waitP12v

/-- The always-on domain refreshes the block every 10 ms; on aux alone only the temperature and FLAGS bit 7 follow (R371). -/
def execStatusBlockRefresh (s : State) : Res :=
  nextState (if s.d0Up = false then s
  else if s.mainOff then
    let b := s.basicBlock
    let flags := (b.getD 1 0).toNat % 128 + 128
    let b1 := b.take 1 ++ bytesOf [flags] ++ le 2 (s.fget Reg.THM_MAX Fld.THM_MAX_TEMP) ++ b.drop 4
    { s with cxl := { s.cxl with basic := b1 } }
  else { s with cxl := { s.cxl with basic := s.statusBlock } })

/-- Block Read of command code 0x00: the 32 bytes of the basic status block. -/
def execBasicStatusRead (s : State) : Res := nextState (if s.d0Up then s.out (.smbus s.basicBlock) else s)

/-- Block Read of command code 0x01: RDY_SERIAL, RDY_IDENT bits 31:0, and four zeros. -/
def execIdentityBlockRead (s : State) : Res :=
  nextState (if s.d0Up then s.out (.smbus (le 8 (s.reg Reg.RDY_SERIAL).toNat ++ le 4 (s.reg Reg.RDY_IDENT).toNat ++ le 4 0)) else s)

/-- Whether MCTP messages are served: the firmware runs (R372). -/
def State.mctpUp (s : State) : Bool := s.ctlUp && s.ready rFW

/-- MCTP Set Endpoint ID; the special IDs 0 and 255 are refused (DSP0236, log 41). -/
def execSetEndpointId (eid : Nat) (s : State) : Res :=
  nextState (if s.mctpUp = false then s
  else if eid = 0 ∨ 255 ≤ eid then s.out (.mctp [2])
  else State.out { s with cxl := { s.cxl with eid := eid } } (.mctp [0, 0, eid, 0]))

/-- A vendor message carries one ring packet, of the opcodes of R372. -/
def execMctpVendorMessage (p : Packet) (input : List Byte) (s : State) : Res :=
  nextState (if s.mctpUp then s.takePacket .mctp p [] input .ok else s)

/-! ### Contacts that the module drives (R373, Table 7-4) -/

/-- What the activity LED shows. -/
inductive Led where
  | off
  | on
  | blink
  deriving DecidableEq, Repr

/-- The activity LED: off without main power, blinking while a FAIL bit is set, on while a request was accepted in the last 20 ms. -/
def State.activityLed (s : State) : Led :=
  if s.mainOff || s.power == .bound then .off
  else if s.fget Reg.RDY_STATUS Fld.RDY_STATUS_FAIL ≠ 0 then .blink
  else match s.adm.lastReq with
    | some t => if s.clk.now ≤ t + 2000000 then .on else .off
    | none => .off

/-- Whether CLKREQ# is pulled low: from 12 V good to power-down. -/
def State.clkreqLow (s : State) : Bool := !(s.mainOff || s.power == .bound)

/-- How the module drives or loads a pair, a lane or a pin (Table 7-4). -/
inductive PinState where
  | noTermination | electricalIdle | active | terminated | highZ | live | driven | noLoad | sampled
  deriving DecidableEq, Repr

/-- The pins of Table 7-4 beside the activity LED (R241): host transmitter and receiver pairs, Helra lanes, SMBCLK and SMBDAT, CLKREQ#, and the
inputs PWRDIS, SMBRST# and PERST#. -/
structure Pins where
  hostTx : PinState
  hostRx : PinState
  helra : PinState
  smbus : PinState
  clkreq : PinState
  inputs : PinState
  deriving DecidableEq, Repr

def State.pins (s : State) : Pins :=
  { hostTx := if s.mainOff then .noTermination else if s.cxl.perst then .electricalIdle else .active
    hostRx := if s.mainOff then .noTermination else .terminated
    helra := if s.mainOff || !s.planB then .noTermination else .active
    smbus := if s.d0Up then .live else .highZ
    clkreq := if s.mainOff then .highZ else .driven
    inputs := if s.d0Up then .sampled else .noLoad }

/-! ### What the module reports over CXL beside its commands (R237, R240, R345) -/

/-- The identification and DVSEC values of Table 11-1 that can change or that another rule gives. Sizes in bytes, times in µs, power in watts. -/
structure Dvsec where
  classCode : Nat
  deviceId : Nat
  memHwInitMode : Bool
  hdmCount : Nat
  viralCapable : Bool
  resetCapable : Bool
  resetTimeout : Nat
  resetMemClr : Bool
  mld : Bool
  range1Size : Nat
  memInfoValid : Bool
  mediaType : Nat
  memActive : Bool
  memActiveTimeout : Nat
  gpfDuration : Nat
  gpfPower : Nat
  payloadSize : Nat
  doeCount : Nat
  deriving DecidableEq, Repr

/-- The values of an LD (Table 11-1). -/
def State.dvsec (s : State) (ld : Nat) : Dvsec :=
  { classCode := 0x050210, deviceId := 0x0E6A, memHwInitMode := false, hdmCount := 1, viralCapable := false, resetCapable := true,
    resetTimeout := 100000, resetMemClr := false, mld := s.cxl.mld, range1Size := s.ldHanks ld * 2 ^ 20, memInfoValid := s.ready rMBOX,
    mediaType := 2, memActive := s.cxl.memActive, memActiveTimeout := 1000000, gpfDuration := 10,
    gpfPower := s.fget Reg.PWR_LIMIT Fld.PWR_LIMIT_WATTS, payloadSize := 20, doeCount := 1 }

/-- Media Status as the Memory Device Status register codes it: 0 Not Ready, 1 Ready, 2 Error (R237). -/
def State.deviceMediaStatus (s : State) : Nat :=
  if s.mediaStatus = 3 then 2 else if s.mediaStatus = 0 then 1 else 0

/-- The Memory Device Status register (R237; bit layout of CXL 2.0, log 41): Media Status in bits 3:2, Mailbox Interfaces Ready in bit 4. -/
def State.memDeviceStatus (s : State) : Nat := 4 * s.deviceMediaStatus + 16 * (if s.ready rMBOX then 1 else 0)

end Sys2Proof.Machine
end

