-- ==== Sys2Proof/Machine/History.lean ====
section
/-! DEFINITION. Counting and remembering (chapter 13): the performance counters, the bandwidth windows, the history recorder. -/

namespace Sys2Proof.Machine

/-! ### The performance counters (R395 to R397) -/

/-- Whether a condition event holds (Table 13-1). -/
def State.condition (s : State) (ev sel : Nat) : Bool :=
  match ev with
  | 0x0100 =>
    if sel < 4 then (match s.logs[sel]? with | some l => decide (512 ≤ logCount l) | none => false)
    else if sel = 4 then decide (1024 ≤ (s.hist.ingest.filter fun x => x.ev.cls != evGAP).length)
    else decide (65536 ≤ (s.link (sel - 5)).spill.length)
  | 0x0101 => s.fget Reg.ADM_STATUS Fld.ADM_STATUS_THROTTLED == 1
  | 0x0102 => s.fget Reg.ADM_STATUS Fld.ADM_STATUS_LOADED == 1
  | 0x0103 =>
    let w := (s.reg Reg.ADM_STATUS).toNat
    if sel = 0xFFFF then (w / 16) % 512 != 0 else w.testBit sel
  | 0x0104 => s.adm.held.getD sel false
  | 0x0105 => !(s.linkUp sel)
  | _ => false

/-- Whether SEL is in range for an event of Table 13-1. -/
def selOk (ev sel : Nat) : Bool :=
  if ev = 0x0100 then decide (sel ≤ 6)
  else if ev = 0x0103 then decide (4 ≤ sel ∧ sel ≤ 12) || sel == 0xFFFF
  else if ev = 0x0104 then decide (sel ≤ 23)
  else if ev = 0x0105 ∨ ev = 0x0040 ∨ ev = 0x0041 then decide (sel ≤ 1)
  else if 0x0020 ≤ ev ∧ ev ≤ 0x0024 then decide (sel ≤ 33) || sel == 0xFFFF
  else if ev = 0x0030 then decide (sel ≤ 1) || sel == 0xFFFF
  else if ev ≤ 0x0002 ∨ (0x0010 ≤ ev ∧ ev ≤ 0x0014) ∨ ev = 0x0031 ∨ ev = 0x0101 ∨ ev = 0x0102 then sel == 0
  else false

/-- Whether the condition of counter `n` holds. -/
def State.counterCond (s : State) (n : Nat) : Bool :=
  s.condition (s.fget (Reg.PMC_CTL n) Fld.PMC_CTL_EVENT) (s.fget (Reg.PMC_CTL n) Fld.PMC_CTL_SEL)

/-- The conditions as they stand, so that one that holds already gives no edge (R397). -/
def State.condNow (s : State) : State := { s with hist := { s.hist with prev := (List.range 8).map s.counterCond } }

/-- A tick of the counters: a condition counts by level, or by its rise (R397). -/
def State.pmcTick (s : State) : State :=
  let run := s.fget Reg.PMC_GCTL Fld.PMC_GCTL_GEN == 1
  let s1 := (List.range 8).foldl (fun s n =>
    let c := Reg.PMC_CTL n
    let hit := s.counterCond n && (s.fget c Fld.PMC_CTL_EDGE == 0 || !(s.hist.prev.getD n false))
    if run && s.fget c Fld.PMC_CTL_EN == 1 && hit then s.setReg (Reg.PMC_CNT n) (s.reg (Reg.PMC_CNT n) + 1) else s) s
  if run then s1.condNow else s1

/-- The count of counter `n` as the tick began. -/
def State.cntBefore (s : State) (n : Nat) : W64 := dget regReset s.clk.regs0 (Reg.PMC_CNT n)
def State.setBefore (s : State) (n : Nat) (v : W64) : State :=
  { s with clk := { s.clk with regs0 := dput regReset s.clk.regs0 (Reg.PMC_CNT n) v } }

/-- Clear every PMC_CNT: what the tick has counted stays, since the clear applies before the events of its tick (R409). -/
def State.pmcClear (s : State) : State :=
  (List.range 8).foldl (fun s n => (s.setReg (Reg.PMC_CNT n) (s.reg (Reg.PMC_CNT n) - s.cntBefore n)).setBefore n 0) s

/-- A write of PMC_GCTL: PRIV and OWNER unless locked, CLEAR, GEN. -/
def State.gctl (s : State) (val : W64) : State :=
  let r := Reg.PMC_GCTL
  let s1 := if s.rwlLocked then s
    else (s.fset r Fld.PMC_GCTL_PRIV (getF val Fld.PMC_GCTL_PRIV)).fset r Fld.PMC_GCTL_OWNER (getF val Fld.PMC_GCTL_OWNER)
  let s2 := if getF val Fld.PMC_GCTL_CLEAR = 1 then s1.pmcClear else s1
  let g := getF val Fld.PMC_GCTL_GEN
  if g = 1 ∧ s2.fget r Fld.PMC_GCTL_GEN = 0 then
    let s3 := s2.condNow
    State.fset { s3 with hist := { s3.hist with genAt := some s.clk.now } } r Fld.PMC_GCTL_GEN 1
  else s2.fset r Fld.PMC_GCTL_GEN g

/-- GEN starts or stops every enabled counter in one tick (R396). -/
def execPmcGen (val : W64) (s : State) : Res := nextState (s.gctl val)

/-- CLEAR clears every PMC_CNT in one tick (R396). -/
def execPmcClear (val : W64) (s : State) : Res := nextState (s.gctl (val ||| maskF Fld.PMC_GCTL_CLEAR))

/-- A write of PMC_CNT preloads the count while the counter's EN is 0. -/
def State.pmcPreload (s : State) (n : Nat) (val : W64) : State :=
  if s.fget (Reg.PMC_CTL n) Fld.PMC_CTL_EN = 0 then (s.setReg (Reg.PMC_CNT n) val).setBefore n val else s

def execPmcCntWrite (n : Nat) (val : W64) (s : State) : Res := nextState (if n < 8 then s.pmcPreload n val else s)

/-- A write of PMC_CTL: ignored as a whole when it names no event of Table 13-1. -/
def State.pmcCtl (s : State) (n : Nat) (val : W64) : State :=
  if selOk (getF val Fld.PMC_CTL_EVENT) (getF val Fld.PMC_CTL_SEL) then
    let keep := maskF Fld.PMC_CTL_EN ||| maskF Fld.PMC_CTL_EDGE ||| maskF Fld.PMC_CTL_ADDR_EN ||| maskF Fld.PMC_CTL_SEL ||| maskF Fld.PMC_CTL_EVENT
    let s1 := s.setReg (Reg.PMC_CTL n) (val &&& keep)
    { s1 with hist := { s1.hist with prev := lset s1.hist.prev n (s1.counterCond n) } }
  else s

/-! ### Bandwidth windows (R398) -/

/-- A write of LEN: out of range ignored; otherwise the window in progress is discarded. -/
def State.bwwLen (s : State) (val : W64) : State :=
  let v := getF val Fld.PMC_BWW_CTL_LEN
  if 1000 ≤ v ∧ v ≤ 100000000 then
    State.fset { s with hist := { s.hist with winLive := false, bytes := List.replicate 6 0, bytes0 := List.replicate 6 0 } } Reg.PMC_BWW_CTL Fld.PMC_BWW_CTL_LEN v
  else s

def execBwwLenWrite (val : W64) (s : State) : Res := nextState (s.bwwLen val)

/-- A window ends at a multiple of LEN: PMC_BWW takes its bytes and its number; a window that was discarded leaves none. What has been counted on
the boundary tick belongs to the new window, which ends no more on that tick (R398, R409). -/
def execBandwidthWindowEnd (s : State) : Res :=
  nextState (let len := s.fget Reg.PMC_BWW_CTL Fld.PMC_BWW_CTL_LEN
  if s.mainOff ∨ s.clk.now = 0 ∨ s.clk.now % len ≠ 0 ∨ s.hist.winAt = some s.clk.now then s
  else
    let k := s.clk.now / len - 1
    let s1 := if s.hist.winLive then (List.range 6).foldl (fun s i =>
        (s.fset (Reg.PMC_BWW i) Fld.PMC_BWW_BYTES (s.hist.bytes0.getD i 0)).fset (Reg.PMC_BWW i) Fld.PMC_BWW_WIN k) s
      else s
    { s1 with hist := { s1.hist with winLive := true, winAt := some s.clk.now, bytes0 := List.replicate 6 0
                                     bytes := (List.range 6).map fun i => s.hist.bytes.getD i 0 - s.hist.bytes0.getD i 0 } })

/-! ### The record ring (R402, Table 13-5) -/

/-- ARG0 and ARG1 of a history record: CAUSE and MASK of a SALVAGE, the first 16 bytes of the data of a standard record. -/
def histArgs (e : Event) : List Byte :=
  if e.cls = evSALVAGE then (if e.args.getD 0 0 = 1 then le 8 (e.args.getD 3 0) ++ le 8 (e.args.getD 5 0) else le 16 0)
  else if e.cls = evMEDIA ∨ e.cls = evMODULE then (Event.data e).take 16
  else le 8 (e.args.getD 0 0) ++ le 8 (e.args.getD 1 0)

/-- The 64 bytes of a history record. -/
def histBytes (r : HistRec) : List Byte :=
  let e := r.ev
  let std := e.cls == evMEDIA || e.cls == evMODULE
  let body := le 1 e.cls ++ le 1 e.sev ++ le 1 (if std then 0 else e.akind) ++ le 1 r.log ++ le 2 e.ld ++ le 2 r.caston ++ le 8 e.addr ++
    le 4 e.rep ++ le 4 r.rseq ++ le 8 e.first ++ le 8 e.last ++ histArgs e ++ le 4 e.handle
  body ++ le 4 (Config.crc32c body).toNat

/-- Places of the record ring. -/
def ringPlaces : Nat := 2432

def State.recNext (s : State) : Nat := s.fget Reg.HST_RSEQ Fld.HST_RSEQ_NEXT
def State.recOldest (s : State) : Nat := s.fget Reg.HST_RSEQ Fld.HST_RSEQ_OLDEST

/-- Records in the ring. -/
def State.recCount (s : State) : Nat := (s.recNext + 2 ^ 32 - s.recOldest) % 2 ^ 32

/-- Write a record under the next RSEQ; a full ring loses its oldest. -/
def State.recWrite (s : State) (r : HistRec) : State :=
  let n := s.recNext
  let full := decide (ringPlaces ≤ s.recCount)
  let s1 : State := { s with hist := { s.hist with ring := tput s.hist.ring (n % ringPlaces) { r with rseq := n } } }
  let s2 := if full then (s1.fset Reg.HST_RSEQ Fld.HST_RSEQ_OLDEST ((s.recOldest + 1) % 2 ^ 32)).fadd Reg.HST_STAT Fld.HST_STAT_OVERWRITTEN 1 else s1
  s2.fset Reg.HST_RSEQ Fld.HST_RSEQ_NEXT ((n + 1) % 2 ^ 32)

/-- The place of the newest record of the ring, and that record. -/
def State.newestSlot (s : State) : Nat := (s.recNext + 2 ^ 32 - 1) % 2 ^ 32 % ringPlaces
def State.newestRec (s : State) : Option HistRec := if s.recCount = 0 then none else tget s.hist.ring s.newestSlot

/-- Whether a record repeats the newest of the ring. -/
def sameRec (a b : HistRec) : Bool :=
  a.ev.cls == b.ev.cls && a.ev.sev == b.ev.sev && a.ev.ld == b.ev.ld && a.ev.akind == b.ev.akind && a.ev.addr == b.ev.addr &&
    (histArgs a.ev).take 8 == (histArgs b.ev).take 8 && a.caston == b.caston

/-- A record leaves the ingest queue: written, or merged with the newest record of the ring. -/
def execHistoryIngest (s : State) : Res :=
  nextState (if s.mainOff then s
  else
    match s.hist.ingest with
    | [] => s
    | r :: rest =>
      let s1 : State := { s with hist := { s.hist with ingest := rest } }
      match s.newestRec with
      | some old =>
        if sameRec old r then
          let e : Event := { old.ev with rep := min (old.ev.rep + r.ev.rep) (2 ^ 32 - 1), last := r.ev.last }
          { s1 with hist := { s1.hist with ring := tput s1.hist.ring s.newestSlot { old with ev := e } } }
        else s1.recWrite r
      | none => s1.recWrite r)

/-- Every 1 ms the counts on chip are flushed (R403). -/
def execHistoryFlush (s : State) : Res := nextState (if s.mainOff then s else s.histFlush)

/-! ### READ_HISTORY and RESET_HISTORY (R399, R405, R406) -/

/-- A word of the history header (Table 13-7). -/
def State.histHeader (s : State) (i : Nat) : List Byte :=
  let t := fun (k : Nat) => s.hist.resetTick.getD k 0
  let c := fun (k : Nat) => s.hist.resetCast.getD k 0 % 65536
  if i = 0 then le 8 1
  else if 1 ≤ i ∧ i ≤ 3 then le 8 (t (i - 1))
  else if i = 4 then le 8 (c 0 + c 1 * 2 ^ 16 + c 2 * 2 ^ 32)
  else if i = 5 then le 8 s.hist.flushes
  else if 32 ≤ i ∧ i < 64 then
    let x := dget (fun _ => noExtreme) s.hist.ext ((i - 32) / 4)
    match (i - 32) % 4 with
    | 0 => le 4 x.max ++ le 4 x.min
    | 1 => le 2 x.maxLd ++ le 2 x.minLd ++ le 2 x.maxCast ++ le 2 x.minCast
    | 2 => le 8 x.maxTick
    | _ => le 8 x.minTick
  else le 8 0

/-- The 33 bins of a block 16 × kind + LD as flushed to the Stash. -/
def State.histBlock (s : State) (b : Nat) : List Byte :=
  (List.range 33).flatMap fun i => le 8 (dget (fun _ => 0) s.hist.flushed (33 * b + i))

/-- The record of an RSEQ. -/
def State.histRecord (s : State) (r : Nat) : List Byte :=
  match tget s.hist.ring (r % ringPlaces) with | some x => histBytes x | none => le 64 0

/-- Units of output that fit in a buffer of `len` bytes: the units written, and the completion (R385): `next` gives the value to go on from. -/
def partialOut (len unit total : Nat) (at' : Nat → List Byte) (next : Nat → Nat) : Nat × Nat × Nat × List Byte :=
  let n := min total (len / unit)
  (if n < total then stPARTIAL else stOK, next n, n, (List.range n).flatMap at')

/-- Whether PRIV keeps a command from the history (R399). -/
def State.histDenied (s : State) (c : Cmd) : Bool :=
  s.fget Reg.PMC_GCTL Fld.PMC_GCTL_PRIV == 1 && c.carrier != .mctp && c.pkt.ld != s.fget Reg.PMC_GCTL Fld.PMC_GCTL_OWNER

def State.readHistory (c : Cmd) (s : State) : Nat × Nat × Nat × List Byte × State :=
  let start := c.pkt.arg1
  let give := fun (x : Nat × Nat × Nat × List Byte) => (x.1, x.2.1, x.2.2.1, x.2.2.2, s)
  if s.histDenied c then (stAUTH_FAIL, 0, 0, [], s)
  else if c.pkt.arg0 = 0 then
    if start % 8 ≠ 0 then (stBAD_PARAM, 0, 0, [], s)
    else if 4096 ≤ start then (stRANGE, 0, 0, [], s)
    else give (partialOut c.pkt.buflen 8 (512 - start / 8) (fun i => s.histHeader (start / 8 + i)) fun n => start + 8 * n)
  else if c.pkt.arg0 = 1 then
    if 127 < start then (stRANGE, 0, 0, [], s)
    else give (partialOut c.pkt.buflen 264 (128 - start) (fun i => s.histBlock (start + i)) fun n => start + n)
  else if c.pkt.arg0 = 2 then
    let from' := (start + 2 ^ 32 - s.recOldest) % 2 ^ 32
    if 2 ^ 32 ≤ start ∨ s.recCount < from' then (stRANGE, 0, 0, [], s)
    else give (partialOut c.pkt.buflen 64 (s.recCount - from') (fun i => s.histRecord ((start + i) % 2 ^ 32)) fun n => (start + n) % 2 ^ 32)
  else (stBAD_PARAM, 0, 0, [], s)

def execReadHistory (cmd : Nat) (s : State) : Res := s.answer cmd 0x0902 State.readHistory

/-- Note the tick and the cast-on count of a reset in the header. -/
def State.noteReset (s : State) (k : Nat) : State :=
  { s with hist := { s.hist with resetTick := lset s.hist.resetTick k s.clk.now
                                 resetCast := lset s.hist.resetCast k (s.fget Reg.RDY_CASTON Fld.RDY_CASTON_COLD) } }

/-- Reset the bins; INCOMPLETE clears. -/
def State.resetBins (s : State) : State :=
  State.fset (State.noteReset { s with hist := { s.hist with bins := [], flushed := [], flushes := 0 } } 0) Reg.HST_STAT Fld.HST_STAT_INCOMPLETE 0

/-- Reset the extremes. -/
def State.resetExt (s : State) : State := State.noteReset { s with hist := { s.hist with ext := [] } } 1

/-- Empty the record ring; a marker holds the number of records discarded. -/
def State.resetRecs (s : State) : State :=
  let n := s.recCount
  let s1 := (s.fset Reg.HST_RSEQ Fld.HST_RSEQ_OLDEST s.recNext).fset Reg.HST_STAT Fld.HST_STAT_OVERWRITTEN 0
  let m : Event := { gapMarker s.clk.now with rep := n, wall := s.wallOf s.clk.now }
  (s1.recWrite { ev := m, log := 0, caston := s.fget Reg.RDY_CASTON Fld.RDY_CASTON_COLD % 65536, rseq := 0 }).noteReset 2

def State.resetHistory (c : Cmd) (s : State) : Nat × Nat × Nat × List Byte × State :=
  let m := c.pkt.arg0
  if m = 0 ∨ 8 ≤ m then (stBAD_PARAM, 0, 0, [], s)
  else if s.histDenied c ∨ s.fget Reg.HST_CTL Fld.HST_CTL_NORESET = 1 then (stAUTH_FAIL, 0, 0, [], s)
  else
    let s1 := if m.testBit 0 then s.resetBins else s
    let s2 := if m.testBit 1 then s1.resetExt else s1
    let s3 := if m.testBit 2 then s2.resetRecs else s2
    (stOK, 0, 0, [], s3.setReg Reg.HST_SEQ (s3.reg Reg.HST_SEQ + 2))

def execResetHistory (cmd : Nat) (s : State) : Res := s.answer cmd 0x0903 State.resetHistory

end Sys2Proof.Machine
end

