-- ==== Sys2Proof/Machine/Report.lean ====
section
/-! DEFINITION. Identity, health, energy and contract opcodes (Table 12-3). -/

namespace Sys2Proof.Machine

/-- The output of IDENTIFY_UNIT (Table 12-8). -/
def State.identity (s : State) (ld : Nat) : List Byte :=
  let u := s.reg Reg.PLK_UADDR
  le 8 (s.reg Reg.RDY_SERIAL).toNat ++ le 4 (s.reg Reg.RDY_IDENT).toNat ++
    bytesOf [s.fget Reg.RDY_CASTON Fld.RDY_CASTON_PLAN, if s.cxl.mld then 1 else 0] ++
    le 2 (getF u Fld.PLK_UADDR_ADDR + 32768 * getF u Fld.PLK_UADDR_VALID) ++ le 8 (s.ldHanks ld * 2 ^ 20) ++ le 4 (s.ldBase ld) ++
    bytesOf [8, 64, 64, 0] ++ padTo 32 Config.buildString ++ le 64 0

def execIdentifyUnit (cmd : Nat) (s : State) : Res :=
  s.answer cmd 0x0101 fun c s => (stOK, (s.reg Reg.RDY_SERIAL).toNat, (s.reg Reg.RDY_IDENT).toNat, whenAsked c (s.identity c.pkt.ld), s)

/-- A completion that was not written, in 32 bytes. -/
def unwrittenBytes (u : Unwritten) : List Byte :=
  le 4 u.tag ++ le 1 u.ring ++ le 1 0 ++ le 2 u.opcode ++ le 2 u.status ++ le 6 0 ++ le 8 u.result0 ++ le 8 u.time

/-- The output of GET_READINESS (Table 12-9). -/
def State.readiness (s : State) : List Byte :=
  le 8 (s.reg Reg.RDY_CHAN).toNat ++ (List.range 17).flatMap (fun n => le 8 (s.reg (Reg.RDY_TIME n)).toNat) ++
    padTo 256 (s.rings.unwritten.flatMap unwrittenBytes)

def execGetReadiness (cmd : Nat) (s : State) : Res :=
  s.answer cmd 0x0102 fun c s => (stOK, (s.reg Reg.RDY_STATUS).toNat, (s.reg Reg.RDY_SKEIN).toNat, whenAsked c s.readiness, s)

/-- GET_CERT_CHAIN (R283): entries 0 to 2, or entry 3, from a byte offset. DESIGN CHOICE (log 92): the spec states no answer to an offset past the total
length; it is RANGE. -/
def execGetCertChain (cmd : Nat) (s : State) : Res :=
  s.answer cmd 0x0103 fun c s =>
    let p := c.pkt
    let chain := if p.arg0 = 0 then certChain else certBytes 3
    if 1 < p.arg0 then (stBAD_PARAM, 0, 0, [], s)
    else if chain.length < p.arg1 then (stRANGE, 0, 0, [], s)
    else
      let out := (chain.drop p.arg1).take p.buflen
      if p.arg1 + p.buflen < chain.length then (stPARTIAL, p.arg1 + p.buflen, chain.length, out, s) else (stOK, 0, chain.length, out, s)

/-- GET_HEALTH_EXT (R158): records from channel ARG0; whole, it gives life used. -/
def execGetHealthExt (cmd : Nat) (s : State) : Res :=
  s.answer cmd 0x0901 fun c s =>
    let ch := c.pkt.arg0
    if 33 < ch then (stRANGE, 0, 0, [], s)
    else
      let (st, next, n, out) := partialOut c.pkt.buflen 64 (34 - ch) (fun i => s.healthRecord (ch + i)) (ch + ·)
      (st, if st = stOK then s.lifeUsed else next, n, out, s)

/-- GAUGE_STATUS: the ten registers of the gauge and the twelve banks. -/
def execGaugeStatus (cmd : Nat) (s : State) : Res :=
  s.answer cmd 0x0A01 fun c s =>
    let out := (List.range 10).flatMap (fun i => le 8 (s.reg (0x050000 + 8 * i)).toNat) ++
      (List.range 12).flatMap fun b => le 8 (s.reg (Reg.GAU_BANK b)).toNat
    (stOK, (s.reg Reg.GAU_CAP_LINES).toNat, (s.reg Reg.GAU_E_USABLE).toNat, whenAsked c out, s)

/-- GAUGE_TEST: the test of Table 6-2 on one bank; its end completes the command. -/
def execGaugeTest (cmd : Nat) (s : State) : Res :=
  s.start cmd 0x0A02 fun c s =>
    let b := c.pkt.arg0
    if 11 < b then s.finish cmd stRANGE 0 0 []
    else if 4 ≤ s.bankState b then s.finish cmd stBAD_PARAM 0 0 []
    else if s.canTest = false ∨ 2 ≤ s.bankState b then s.finish cmd stBUSY 0 0 []
    else (s.setCmd cmd { c with started := true }).testStart b (some cmd)

/-- PREPARE_POWER_LOSS (R206): a bind-off from P12V, which completes the command; OK at once in BOUND. -/
def execPreparePowerLoss (cmd : Nat) (s : State) : Res :=
  s.start cmd 0x0A03 fun c s =>
    if s.power = .bound then s.finish cmd stOK (s.reg Reg.GAU_SEQ).toNat (if s.energy.rcd.noImage then 0 else s.energy.rcd.total) []
    else if s.energy.prepareCmd.isSome then s.finish cmd stBUSY 0 0 []
    else
      let s1 := s.setCmd cmd { c with started := true }
      let s2 := if s1.power = .on then s1.bindoffStart 3 else s1
      { s2 with energy := { s2.energy with prepareCmd := some cmd } }

/-- The reservation register that SET_RESERVATION asks for. -/
def State.resvWord (s : State) (p : Packet) : W64 :=
  let old := s.reg (resvReg p.arg0)
  let w1 := if p.flags.testBit 0 then setF old ⟨12, 0⟩ p.arg1 else old
  let w2 := if p.flags.testBit 1 then (if p.arg0 < 16 then setF w1 ⟨44, 32⟩ p.arg2 else setF w1 ⟨63, 32⟩ p.arg2) else w1
  if p.flags.testBit 2 then setF w2 ⟨16, 16⟩ p.arg3 else w2

/-- The bits that it asks to write. -/
def resvMask (p : Packet) : W64 :=
  let w1 := if p.flags.testBit 0 then setF 0 ⟨12, 0⟩ (2 ^ 13 - 1) else 0
  let w2 := if p.flags.testBit 1 then setF w1 ⟨63, 32⟩ (2 ^ 32 - 1) else w1
  if p.flags.testBit 2 then setF w2 ⟨16, 16⟩ 1 else w2

/-- SET_RESERVATION (R68). -/
def execSetReservation (cmd : Nat) (s : State) : Res :=
  s.answer cmd 0x0701 fun c s =>
    let p := c.pkt
    if 23 < p.arg0 then (stRANGE, 0, 0, [], s)
    else if p.flags.testBit 1 ∧ 2 ^ (if p.arg0 < 16 then 13 else 32) ≤ p.arg2 then (stBAD_PARAM, 0, 0, [], s)
    else if p.flags.testBit 0 ∧ 4096 < p.arg1 then (stRANGE, 0, 0, [], s.raise Reg.ADM_STATUS Fld.ADM_STATUS_RESV_REFUSED)
    else
      let w := s.resvWord p
      let exceeds := decide (4096 < s.shareSum p.arg0 (shareOf w))
      let (done, s1) := s.writeResv 0 p.arg0 (resvMask p) w
      if done then (stOK, (s1.reg (resvReg p.arg0)).toNat, 0, [], s1) else (if exceeds then stRANGE else stBAD_PARAM, 0, 0, [], s1)

/-- The offsets of the 62 registers of Table 2-11, in table order. -/
def contractRegs : List Nat :=
  (List.range 5).map (fun i => 0x020000 + 8 * i) ++ (List.range 6).map (fun i => 0x020040 + 8 * i) ++ (List.range 3).map (fun i => 0x020080 + 8 * i) ++
    (List.range 16).map Reg.ADM_RESV ++ (List.range 8).map Reg.ADM_RESV_INT ++ (List.range 24).map Reg.ADM_BAL

def execGetContract (cmd : Nat) (s : State) : Res :=
  s.answer cmd 0x0702 fun c s =>
    (stOK, (s.reg Reg.ADM_STATUS).toNat, (s.reg Reg.ADM_OCC).toNat, whenAsked c (contractRegs.flatMap fun o => le 8 (s.reg o).toNat), s)

end Sys2Proof.Machine
end

