-- ==== Sys2Proof/Machine/Lines.lean ====
section
/-! DEFINITION. The line commands (R389, Table 12-4): copying, filling, reading and writing lines by command, and PERSIST_FENCE. -/

namespace Sys2Proof.Machine

/-! ### One line -/

/-- Why a line command stops at a line it would read (R253, R256). -/
def State.readStop (s : State) (key line : Nat) : Option Nat :=
  let e := s.hostEntry (lhnOf line)
  if e.key ≠ key then some stBAD_PARAM
  else if s.keyLive e.key then none
  else some stKEY_RETIRED

/-- Why it stops at a line it would write (R253, R257, R302). -/
def State.writeStop (s : State) (key line : Nat) : Option Nat :=
  let e := s.hostEntry (lhnOf line)
  if e.key ≠ key then some stBAD_PARAM
  else if s.sealedOrBusy (lhnOf line) then some stSEALED
  else if (s.slot e.key).state ≠ 1 then some stKEY_RETIRED
  else none

/-- Account for one line operation of a command: a token of its LD, 64 bytes of the host port (Table 2-7, Table 13-3). -/
def State.lineOp (s : State) (ld : Nat) : State := (s.charge ld 1).bytes 0 64

/-- DPA of a line of an LD. -/
def State.dpaOf (s : State) (ld line : Nat) : Nat := (line - s.ldBase ld * 16384) * 64

/-- A line command under way: lines done, work to wait for, lines that read as poison, bytes read, and the status that stopped it. -/
structure LineRun where
  done : Nat
  work : List Nat
  bad : Nat
  bytes : List Byte
  stop : Option Nat
  deriving DecidableEq, Repr

def LineRun.start : LineRun := { done := 0, work := [], bad := 0, bytes := [], stop := none }

/-- Read one line, checked where working memory holds it (R163): zeros and a count for poison. -/
def State.readOne (s : State) (ld key line : Nat) (x : LineRun) : LineRun × State :=
  match s.readStop key line with
  | some st => ({ x with stop := some st }, s)
  | none =>
    let s := s.hitRead line
    let (d, p) := s.readNow line
    ({ x with done := x.done + 1, bad := x.bad + (if p then 1 else 0), bytes := x.bytes ++ lineBytes (if p then 0 else d) }, s.lineOp ld)

/-- Write one line under the region's ply and path. A line of a dead stripe is not applied, which stops the command (R150). -/
def State.writeOne (s : State) (id ld key line : Nat) (d : Line) (poison : Bool) (x : LineRun) : LineRun × State :=
  match s.writeStop key line with
  | some st => ({ x with stop := some st }, if st = stSEALED then s.sealedWrite ld (s.dpaOf ld line) (lhnOf line) else s)
  | none =>
    let s1 := s.lineOp ld
    match s1.writeFate line with
    | .apply =>
      let (w, s2) := s1.writeNow line d poison ld id
      ({ x with done := x.done + 1, work := x.work ++ w, bad := x.bad + (if poison then 1 else 0) }, s2)
    | .dead => ({ x with stop := some stMEDIA_ERROR }, s1.notApplied .dead ld (s.dpaOf ld line) line)
    | f => ({ x with done := x.done + 1 }, s1.notApplied f ld (s.dpaOf ld line) line)

/-- Take lines one after another until `n` are done or one stops the command; `f` handles line `i`. -/
def lineLoop (f : Nat → LineRun → State → LineRun × State) : Nat → Nat → LineRun → State → LineRun × State
  | 0, _, x, s => (x, s)
  | n + 1, i, x, s =>
    let (x1, s1) := f i x s
    if x1.stop.isSome then (x1, s1) else lineLoop f n (i + 1) x1 s1

/-! ### The commands -/

/-- The hanks of `n` lines from one whose map entries fail their CHK. -/
def State.badHanks (s : State) (first n : Nat) : List Nat :=
  ((List.range (lhnOf (first + n - 1) + 1 - lhnOf first)).map (lhnOf first + ·)).filter fun l => !(s.entryOk false l)

/-- A command that moves lines waits until the map entries of its hanks are restored (R126); `f` runs it once they stand. -/
def State.whenGood (s : State) (cmd : Nat) (c : Cmd) (ranges : List (Nat × Nat)) (f : State → State) : State :=
  match ranges.flatMap fun r => s.badHanks r.1 r.2 with
  | [] => f s
  | bad => State.setCmd (bad.foldl (fun s l => s.badEntry false l) s) cmd { c with running := false }

/-- End a line command, or let it wait until every line is in the persistence domain. -/
def State.linesEnd (s : State) (id : Nat) (r1 : Nat) (x : LineRun) : State :=
  match tget s.cmds id with
  | none => s
  | some c =>
    let st := x.stop.getD (if r1 = 0 then stOK else stPOISONED)
    if x.work = [] then s.finish id st x.done r1 []
    else s.setCmd id { c with started := true, work := x.work, status := st, done := x.done, extra := r1 }

/-- The range checks of the line commands: alignment, the count, and the capacity of the LD (R388, R389). -/
def State.lineCheck (s : State) (ld n : Nat) (dpas : List Nat) : Option Nat :=
  if n = 0 ∨ 16777216 < n ∨ dpas.any (fun d => d % 64 != 0) then some stBAD_PARAM
  else if dpas.any fun d => decide (s.ldHanks ld * 2 ^ 20 < d + 64 * n) then some stRANGE
  else none

/-- COPY_LINES: a source line that reads as poison is written poisoned. -/
def execCopyLines (cmd : Nat) (s : State) : Res :=
  s.start cmd 0x0201 fun c s =>
    let p := c.pkt
    let n := p.arg2
    let overlap := decide (p.arg0 < p.arg1 + 64 * n) && decide (p.arg1 < p.arg0 + 64 * n)
    match (if overlap then some stBAD_PARAM else s.lineCheck p.ld n [p.arg0, p.arg1]) with
    | some st => s.finish cmd st 0 0 []
    | none =>
      let src := s.lineOfDpa p.ld p.arg0
      let dst := s.lineOfDpa p.ld p.arg1
      s.whenGood cmd c [(src, n), (dst, n)] fun s =>
        let (x, s1) := lineLoop (fun i x s =>
          match s.readStop p.keyidx (src + i) with
          | some st => ({ x with stop := some st }, s)
          | none =>
            let s := s.hitRead (src + i)
            let (d, q) := s.readNow (src + i)
            (s.lineOp p.ld).writeOne cmd p.ld p.keyidx (dst + i) d q x) n 0 LineRun.start s
        s1.linesEnd cmd x.bad x

/-- FILL_LINES: an 8-byte pattern. -/
def execFillLines (cmd : Nat) (s : State) : Res :=
  s.start cmd 0x0202 fun c s =>
    let p := c.pkt
    match s.lineCheck p.ld p.arg1 [p.arg0] with
    | some st => s.finish cmd st 0 0 []
    | none =>
      let dst := s.lineOfDpa p.ld p.arg0
      let d := lineOfBytes ((List.replicate 8 (le 8 p.arg2)).flatten)
      s.whenGood cmd c [(dst, p.arg1)] fun s =>
        let (x, s1) := lineLoop (fun i x s => s.writeOne cmd p.ld p.keyidx (dst + i) d false x) p.arg1 0 LineRun.start s
        s1.linesEnd cmd 0 x

/-- WRITE_VIA_RING. -/
def execWriteViaRing (cmd : Nat) (s : State) : Res :=
  s.start cmd 0x0205 fun c s =>
    let p := c.pkt
    match (if p.buflen % 64 = 0 then s.lineCheck p.ld (p.buflen / 64) [p.arg0] else some stBAD_PARAM) with
    | some st => s.finish cmd st 0 0 []
    | none =>
      let dst := s.lineOfDpa p.ld p.arg0
      s.whenGood cmd c [(dst, p.buflen / 64)] fun s =>
        let (x, s1) := lineLoop (fun i x s => s.writeOne cmd p.ld p.keyidx (dst + i) (lineOfBytes ((c.input.drop (64 * i)).take 64)) false x)
          (p.buflen / 64) 0 LineRun.start s
        s1.linesEnd cmd 0 x

/-- The first line of a read, or why there is none: of the LD, or of a ply area held for a neighbour (R324). -/
def State.readFrom (s : State) (p : Packet) : Nat ⊕ Nat :=
  let n := p.buflen / 64
  if p.buflen % 64 ≠ 0 ∨ n = 0 ∨ p.arg0 % 64 ≠ 0 then .inr stBAD_PARAM
  else if p.flags.testBit 0 then
    if 1 < p.arg2 ∨ 15 < p.arg3 then .inr stRANGE
    else
      let (st, base, count) := s.area p.arg2 p.arg3
      if st = 0 ∨ count * 2 ^ 20 < p.arg0 + p.buflen then .inr stRANGE else .inl (base * 16384 + p.arg0 / 64)
  else
    match s.lineCheck p.ld n [p.arg0] with
    | some st => .inr st
    | none => .inl (s.lineOfDpa p.ld p.arg0)

/-- READ_VIA_RING: zeros for each line that reads as poison. -/
def execReadViaRing (cmd : Nat) (s : State) : Res :=
  s.start cmd 0x0204 fun c s =>
    let p := c.pkt
    match s.readFrom p with
    | .inr st => s.finish cmd st 0 0 []
    | .inl first =>
      s.whenGood cmd c [(first, p.buflen / 64)] fun s =>
        let (x, s1) := lineLoop (fun i x s => s.readOne p.ld p.keyidx (first + i) x) (p.buflen / 64) 0 LineRun.start s
        s1.finish cmd (x.stop.getD (if x.bad = 0 then stOK else stPOISONED)) x.done x.bad x.bytes

/-! ### PERSIST_FENCE -/

/-- Whether a line belongs to an LD. -/
def State.lineOfLd (s : State) (ld line : Nat) : Bool :=
  match s.ldOf line with | some (n, _) => n == ld | none => false

/-- The lines that a fence waits for: those of its LD not yet in the medium, written before its acceptance. -/
def State.fenceLines (s : State) (ld accept : Nat) : List Nat :=
  ((s.tlc.pool.filter fun q => s.lineOfLd ld q.1 && decide (q.2.accept ≤ accept)).map Prod.fst) ++
    (s.tlc.mb.flatMap fun e => (e.2.lines.map fun l => l.2.line).filter fun l => s.lineOfLd ld l && (s.poolGet l).isNone)

/-- Whether a write of an LD accepted by a tick is still on its way to the pool or the merge buffer. -/
def State.writesComing (s : State) (ld accept : Nat) : Bool :=
  s.adm.dl.any (fun e => e.2.kind != .read && e.2.ld == ld && decide (e.2.accept ≤ accept) && (!e.2.routed || e.2.stuck)) ||
    s.tlc.waits.any fun w => w.master == ld && decide (w.accept ≤ accept)

/-- PERSIST_FENCE: each such line falls due no later than the command's own deadline; it completes when all are in the medium. It
starts once the writes accepted before it have been routed. -/
def execPersistFence (cmd : Nat) (s : State) : Res :=
  s.start cmd 0x0203 fun c s =>
    if s.writesComing c.pkt.ld c.accept then s.setCmd cmd { c with running := false }
    else
    let lines := (s.fenceLines c.pkt.ld c.accept).eraseDups
    let due := match c.expiry with | some d => d | none => s.bgDeadline 3
    if lines = [] then s.finish cmd stOK 0 0 []
    else
      let sooner := fun (q : Nat × PoolLine) => if lines.contains q.1 then (q.1, { q.2 with due := min q.2.due due }) else q
      State.setCmd { s with tlc := { s.tlc with pool := s.tlc.pool.map sooner } } cmd { c with work := lines.map wLine, done := lines.length }

end Sys2Proof.Machine
end

