-- ==== Sys2Proof/Machine/KeyCmds.lean ====
section
/-! DEFINITION. Key, ratchet and seal opcodes (Table 12-5, R247 to R258, R285 to R301). -/

namespace Sys2Proof.Machine

/-! ### Keys -/

/-- Why a KEY_LOAD is refused, or the key it loads (R249, R250). -/
def State.keyLoad (s : State) (c : Cmd) : Nat ⊕ BitVec 256 :=
  let b := c.input
  let n := c.pkt.keyidx
  let q : BitVec 384 × BitVec 384 := (BitVec.ofNat 384 (ofBe (b.take 48)), BitVec.ofNat 384 (ofBe ((b.drop 48).take 48)))
  if 4095 < n then .inl stRANGE
  else if c.pkt.buflen < 192 ∨ ((b.drop 152).take 40).any (fun x => x != 0) ∨ Config.onCurve q.1 q.2 = false then .inl stBAD_PARAM
  else if (s.slot n).state ≠ 0 then .inl stKEY_IN_USE
  else
    match keyUnwrap (keyLoadKtk q ((b.drop 96).take 16) n) (BitVec.ofNat 320 (ofBytes ((b.drop 112).take 40))) with
    | none => .inl stAUTH_FAIL
    | some k => .inr k

/-- The second half of a load: the record is written whole, its key stands in the store, and the command completes with KCV and GEN. -/
def State.keyLoaded (s : State) (cmd n : Nat) (key : BitVec 256) : State :=
  let gen := ((s.slot n).gen + 1) % 2 ^ 32
  let s1 := State.slotTotals ((s.setSlot n (loadedSlot n key gen)).storeKey n key)
  let s2 : State := { s1 with cmds := tmod s1.cmds cmd fun c => { c with done := kcvOf key, extra := gen } }
  s2.cmdUnwait cmd (wKey n) stOK

/-- KEY_LOAD: the slot goes from EMPTY through LOADING to LOADED. The row's first run on a command checks it and writes STATE LOADING, its next
writes the record (R247, R248). -/
def execKeyLoad (cmd : Nat) (s : State) : Res :=
  match tget s.cmds cmd with
  | some c =>
    if c.pkt.opcode = 0x0401 ∧ c.running = true ∧ c.work = [wKey c.pkt.keyidx] ∧ s.cmdsRun = true then
      match State.keyLoad (s.setSlot c.pkt.keyidx { s.slot c.pkt.keyidx with state := 0 }) c with
      | .inr k => nextState (s.keyLoaded cmd c.pkt.keyidx k)
      | .inl _ => nextState s
    else
      s.start cmd 0x0401 fun c s =>
        match s.keyLoad c with
        | .inl st => s.finish cmd st 0 0 []
        | .inr _ =>
          let s1 := s.setCmd cmd { c with started := true, work := [wKey c.pkt.keyidx] }
          s1.setSlot c.pkt.keyidx { s1.slot c.pkt.keyidx with state := 4 }
  | none => nextState s

/-- KEY_SLOT of a slot: KCV, STATE and REFS (Table 8-11). -/
def State.slotWord (s : State) (n : Nat) : W64 :=
  let k := s.slot n
  let refs := if n = 0 then hostHanks - (s.hanks.host.filter fun e => e.2.key != 0).length else (s.boundHanks n).length
  setF (setF (setF 0 Fld.KEY_SLOT_KCV (if k.state = 1 ∨ k.state = 2 then k.kcv else 0)) Fld.KEY_SLOT_STATE k.state) Fld.KEY_SLOT_REFS refs

/-- KEY_QUERY (R250). -/
def execKeyQuery (cmd : Nat) (s : State) : Res :=
  s.answer cmd 0x0404 fun c s =>
    let n := c.pkt.keyidx
    if 4095 < n then (stRANGE, 0, 0, [], s)
    else (stOK, (s.slotWord n).toNat, (s.slot n).gen, whenAsked c (be 48 (Config.publicKey 1).1.toNat ++ be 48 (Config.publicKey 1).2.toNat), s)

/-- Why a KEY_RETIRE is refused (R256). -/
def State.retireCheck (s : State) (n : Nat) : Option Nat :=
  let st := (s.slot n).state
  if 4095 < n then some stRANGE
  else if n = 0 then some stBAD_PARAM
  else if st = 0 ∨ st = 4 then some stKEY_ABSENT
  else if st = 2 ∨ st = 3 then some stKEY_RETIRED
  else if (s.boundHanks n).any s.sealedOrBusy then some stSEALED
  else none

/-- KEY_RETIRE: STATE RETIRING is written, and the lines held under the index fall due; the rest follows once they have verified. -/
def execKeyRetire (cmd : Nat) (s : State) : Res :=
  s.start cmd 0x0403 fun c s =>
    let n := c.pkt.keyidx
    match s.retireCheck n with
    | some st => s.finish cmd st 0 0 []
    | none =>
      let due := match c.expiry with | some d => d | none => c.accept + 100000
      let held := (s.tlc.pool.filter fun q => q.2.key == n).length + (s.tlc.mb.map fun e => (e.2.lines.filter fun l => l.2.key == n).length).sum
      let sooner := fun (q : Nat × PoolLine) => if q.2.key = n then (q.1, { q.2 with due := min q.2.due due }) else q
      let s1 := s.setCmd cmd { c with started := true, work := [wKey n], done := held, extra := (s.boundHanks n).length }
      let s2 : State := { s1 with tlc := { s1.tlc with pool := s1.tlc.pool.map sooner } }
      let s3 := s2.setSlot n { s2.slot n with state := 2 }
      State.slotTotals { s3 with crypto := { s3.crypto with retiring := tput s3.crypto.retiring n (some cmd) } }

/-! ### Ratchets (R286) -/

def execRatchetAdvance (cmd : Nat) (s : State) : Res :=
  s.answer cmd 0x0C03 fun c s =>
    let n := c.pkt.arg0
    let by' := c.pkt.arg1
    if n < 16 ∨ 63 < n ∨ by' = 0 ∨ 2 ^ 32 < by' then (stBAD_PARAM, 0, 0, [], s)
    else if 2 ^ 64 ≤ s.ratchet n + by' then (stRANGE, 0, 0, [], s)
    else (stOK, s.ratchet n + by', 0, [], s.setRatchet n (s.ratchet n + by'))

/-- What a signature over a ratchet covers: the ASCII "EM6T-RATCHET", the serial, the index, the value and the host's nonce. -/
def ratchetMessage (n v nonce : Nat) : List Byte :=
  bytesOf [0x45, 0x4D, 0x36, 0x54, 0x2D, 0x52, 0x41, 0x54, 0x43, 0x48, 0x45, 0x54] ++ le 8 Config.serial ++ le 2 n ++ le 8 v ++ le 8 nonce

def execRatchetRead (cmd : Nat) (s : State) : Res :=
  s.answer cmd 0x0C04 fun c s =>
    let n := c.pkt.arg0
    if 63 < n then (stBAD_PARAM, 0, 0, [], s)
    else (stOK, s.ratchet n, 0, whenAsked c (be 96 (Config.ecdsaSign (ratchetMessage n (s.ratchet n) c.pkt.arg1)).toNat), s)

/-! ### Sealing (R290, R291) -/

/-- Why the hanks of an extent cannot be sealed: one is sealed, one is not MAPPED, or a slot is not LOADED (Table 9-5). -/
def State.extentCheck (s : State) (first count : Nat) : Option Nat :=
  let hanks := (List.range count).map (first + ·)
  if hanks.any s.sealedOrBusy then some stSEALED
  else if hanks.any fun l => (s.hostEntry l).state == 1 && ((s.slot (s.hostEntry l).key).state == 2 || (s.slot (s.hostEntry l).key).state == 3) then
    some stKEY_RETIRED
  else if hanks.any fun l => (s.hostEntry l).state != 1 || (s.slot (s.hostEntry l).key).state != 1 then some stBAD_PARAM
  else none

/-- The checks of Table 9-5, in its order. -/
def State.sealCheck (s : State) (p : Packet) : Option Nat :=
  if p.arg1 = 0 ∨ 98304 < p.arg1 ∨ (0 < p.buflen ∧ p.buflen < 256) then some stBAD_PARAM
  else if s.ldHanks p.ld < p.arg0 + p.arg1 then some stRANGE
  else if s.seals.owner.isNone then some stAUTH_FAIL
  else if 4 ≤ s.seals.jobs.length then some stBUSY
  else if 4096 ≤ s.seals.live.length then some stNO_SPARE
  else
    match s.extentCheck (s.ldBase p.ld + p.arg0) p.arg1 with
    | some st => some st
    | none => if s.ledgerFree then none else some stBUSY

/-- SEAL_EXTENT: the seal-in-progress record is written and the extent protected (steps 1 and 2 of R291); it waits for HINT to clear, and
for room in the map journal (R130). The hash completes it. -/
def execSealExtent (cmd : Nat) (s : State) : Res :=
  s.start cmd 0x0501 fun c s =>
    let p := c.pkt
    let first := s.ldBase p.ld + p.arg0
    match s.sealCheck p with
    | some st => (if st = stBUSY then s.ledgerBusy else s).finish cmd st 0 0 []
    | none =>
      if s.journalFull || (List.range p.arg1).any fun i => (s.hostEntry (first + i)).hint then s.setCmd cmd { c with running := false }
      else
        let j : SealJob := { cmd := cmd, ld := p.ld, key := (s.hostEntry first).key, first := first, count := p.arg1, flags := 0, label := p.arg2, ref := 0,
                              due := c.expiry.getD (s.bgDeadline 6), timed := c.expiry.isSome }
        let s1 := s.setCmd cmd { c with started := true }
        let s2 : State := { s1 with seals := { s1.seals with jobs := tput s1.seals.jobs s1.seals.nextJob j, nextJob := s1.seals.nextJob + 1 } }
        (s2.markSealed first p.arg1 true).selStat

/-! ### Reading records (R299) -/

def execGetSealRecord (cmd : Nat) (s : State) : Res :=
  s.answer cmd 0x0502 fun c s =>
    let p := c.pkt
    let room := p.buflen / 256
    if room = 0 then (stBAD_PARAM, 0, 0, [], s)
    else if p.flags.testBit 0 then
      let lhn := s.ldBase p.ld + p.arg0
      match if s.ldHanks p.ld ≤ p.arg0 then none else tfind s.seals.live fun _ v => decide (v.first ≤ lhn ∧ lhn < v.first + v.count) with
      | some (_, v) => (stOK, 0, 1, recordBytes v.rcd, s)
      | none => (stRANGE, 0, 0, [], s)
    else
      let head := s.ledgerHead
      if head < p.arg0 ∨ (tget s.seals.ledger p.arg0).isNone then (stRANGE, 0, 0, [], s)
      else
        let all := min p.arg1 (head - p.arg0 + 1)
        let n := min all room
        let out := (List.range n).flatMap fun i => match tget s.seals.ledger (p.arg0 + i) with | some r => recordBytes r | none => le 256 0
        (if n < all then stPARTIAL else stOK, if n < all then p.arg0 + n else 0, n, out, s)

/-! ### Tokens and releases (R288, R289, R301) -/

/-- An owner token (Table 9-3). -/
structure Token where
  kind : Nat
  serial : Nat
  ctr : Nat
  sealSeq : Nat
  hash : BitVec 384
  newKey : BitVec 384 × BitVec 384
  sig : BitVec 768
  zeros : Bool
  body : List Byte
  deriving DecidableEq, Repr

def tokenOf (b : List Byte) : Token :=
  let num := fun (at' n : Nat) => ofBytes ((b.drop at').take n)
  let big := fun (at' : Nat) => BitVec.ofNat 384 (ofBe ((b.drop at').take 48))
  let kind := num 0 2
  let zero := fun (at' n : Nat) => num at' n == 0
  { kind := kind, serial := num 8 8, ctr := num 16 8, sealSeq := num 24 8, hash := big 32, newKey := (big 32, big 80)
    sig := BitVec.ofNat 768 (ofBe ((b.drop 160).take 96))
    zeros := zero 2 6 && zero 128 32 && (if kind = 1 then zero 80 48 else zero 24 8), body := b.take 160 }

/-- What a token's signature covers: the ASCII "EM6T-OWNER-TOKEN" and bytes 0 to 159. -/
def tokenMessage (t : Token) : List Byte :=
  bytesOf [0x45, 0x4D, 0x36, 0x54, 0x2D, 0x4F, 0x57, 0x4E, 0x45, 0x52, 0x2D, 0x54, 0x4F, 0x4B, 0x45, 0x4E] ++ t.body

/-- The checks of Table 9-4, in its order. -/
def State.tokenCheck (s : State) (c : Cmd) (t : Token) : Option Nat :=
  let key := if t.kind = 3 then some t.newKey else s.seals.owner
  if c.pkt.buflen < 256 ∨ t.kind = 0 ∨ 3 < t.kind ∨ t.zeros = false ∨ c.pkt.arg0 ≠ (if t.kind = 1 then t.sealSeq else 0) ∨
      (t.kind ≠ 1 ∧ Config.onCurve t.newKey.1 t.newKey.2 = false) then some stBAD_PARAM
  else if t.serial ≠ Config.serial ∨ t.ctr ≠ s.ratchet 1 then some stAUTH_FAIL
  else if (t.kind == 3) == s.seals.owner.isSome then some stAUTH_FAIL
  else if (match key with | some k => Config.ecdsaVerify k (tokenMessage t) t.sig | none => false) = false then some stAUTH_FAIL
  else
    match (if t.kind = 1 then tget s.seals.live t.sealSeq else none) with
    | none => if t.kind = 1 then some stRANGE else if s.ledgerFree then none else some stBUSY
    | some v => if v.rcd.extentHash ≠ t.hash then some stAUTH_FAIL else if s.ledgerFree then none else some stBUSY

/-- Release a seal (R301): the RELEASE record, the live slot, SEALED on each hank, a SEAL event, and the neighbours. -/
def State.release (s : State) (id : Nat) (v : LiveSeal) : State :=
  let (r, s1) := s.append { blankRec 2 with
    ld := v.ld, keyidx := v.rcd.keyidx, flags := v.rcd.flags % 8, first := v.rcd.first, count := v.count, label := v.rcd.label, ref := v.seq
    extentHash := v.rcd.extentHash }
  let s2 : State := { s1 with seals := { s1.seals with live := tdel s1.seals.live v.seq } }
  let s3 := ((s2.markSealed v.first v.count false).selStat).eventSev evSEAL 0 2 v.ld v.first [r.seq]
  s3.endWithRecord 8 r v.first v.count id []

/-- RELEASE_SEAL: an accepted token is spent, and releases a seal, changes the owner, or enrols one. It waits for room in the map
journal to release (R130). -/
def execReleaseSeal (cmd : Nat) (s : State) : Res :=
  s.start cmd 0x0503 fun c s =>
    let t := tokenOf c.input
    match s.tokenCheck c t with
    | some st => (if st = stBUSY then s.ledgerBusy else s).finish cmd st 0 0 []
    | none =>
      if t.kind = 1 ∧ s.journalFull = true then s.setCmd cmd { c with running := false }
      else
        let s1 := (s.setCmd cmd { c with started := true }).setRatchet 1 (s.ratchet 1 + 1)
        match (if t.kind = 1 then tget s1.seals.live t.sealSeq else none) with
        | some v => s1.release cmd v
        | none =>
          let (r, s2) := s1.append { blankRec (if t.kind = 2 then 4 else 3) with extentHash := Config.sha384 (ownerBytes t.newKey) }
          ((State.selStat { s2 with seals := { s2.seals with owner := some t.newKey } })).finish cmd stOK r.seq 0 []

/-- VERIFY_EXTENT: the extent of a seal in force is hashed again; the hash completes it (R300). -/
def execVerifyExtent (cmd : Nat) (s : State) : Res :=
  s.start cmd 0x0504 fun c s =>
    match tget s.seals.live c.pkt.arg0 with
    | none => s.finish cmd stRANGE 0 0 []
    | some v =>
      let j : SealJob := { cmd := cmd, ld := v.ld, key := 0, first := v.first, count := v.count, flags := 0, label := 0, ref := v.seq,
                            due := c.expiry.getD (s.bgDeadline 6), timed := c.expiry.isSome }
      { s with seals := { s.seals with verify := tput s.seals.verify cmd j } }

end Sys2Proof.Machine
end

