-- ==== Sys2Proof/Machine/PlyCmds.lean ====
section
/-! DEFINITION. Ply and chain opcodes (Table 12-6): R322, R324, R331, R337, R338, R388, R390. -/

namespace Sys2Proof.Machine

/-! ### SET_PLY -/

/-- Whether some hanks overlap a region of either link. -/
def State.regionMeets (s : State) (first count : Nat) : Bool :=
  (List.range 2).any fun k => (List.range 16).any fun r =>
    let (st, base, n) := s.region k r
    st != 0 && decide (base < first + count ∧ first < base + n)

/-- The region that is exactly some hanks. -/
def State.regionExact (s : State) (first count : Nat) : Option (Nat × Nat) :=
  ((List.range 32).map fun i => (i / 16, i % 16)).find? fun x =>
    let (st, base, n) := s.region x.1 x.2
    st != 0 && base == first && n == count

/-- The lowest region number of a link that is OFF and waits for no answer to an OPEN. -/
def State.freeRegion (s : State) (k : Nat) : Option Nat :=
  (List.range 16).find? fun r => (s.region k r).1 == 0 && !((s.link k).ops.any fun o => o.op == 1 && o.region == r)

/-- Whether a hank of a range is sealed or under a seal. -/
def State.anySealed (s : State) (first count : Nat) : Bool := (List.range count).any fun i => s.sealedOrBusy (first + i)

/-- A region goes back to one-ply (R322): PLY is journalled 0, the region is OFF, and CLOSE goes to the holder, at the next UP when the link
is down. -/
def State.regionOff (s : State) (k r : Nat) : State :=
  let (_, base, count) := s.region k r
  let lines := (s.spillOf k r).map (·.line)
  let s1 := (List.range count).foldl (fun s i => s.setEntry false (base + i) { s.hostEntry (base + i) with ply := 0 }) s
  let s2 := s1.setSpill k ((s1.link k).spill.filter fun x => !(lines.contains x.line))
  let s3 := s2.setReg (Reg.PLK_REGION k r) 0
  let stop := match (s3.link k).sync with | some y => y.region == r | none => false
  let s4 := if stop then s3.setSync k none else s3
  let s5 := s4.updLink k fun l => { l with holders := tdel l.holders r, wantSync := l.wantSync.filter (fun w => w % 16 != r),
                                           ops := l.ops.filter fun o => o.region != r || o.sent || decide (16 ≤ o.op) }
  ((s5.queueOp k (plyOp 5 r [])).plyCheck).syncPump k

/-- SET_PLY frees an area at the holder (R324). -/
def State.setPlyArea (s : State) (cmd k a : Nat) : State :=
  if 2 ≤ k ∨ 16 ≤ a then s.finish cmd stRANGE 0 0 []
  else if (s.area k a).1 = 0 then s.finish cmd stRANGE 0 0 []
  else if s.fget (Reg.PLK_AREA k a) Fld.PLK_AREA_SEALS ≠ 0 then s.finish cmd stSEALED 0 0 []
  else (s.freeArea k a).finish cmd stOK a 0 []

/-- SET_PLY to two-ply (R322): OPEN goes to the holder, and its answer decides. -/
def State.setPlyOpen (s : State) (cmd k first count : Nat) : State :=
  if s.linkUp k = false then s.finish cmd stPLY_DEGRADED 0 0 []
  else if s.regionMeets first count then s.finish cmd stBAD_PARAM 0 0 []
  else if s.anySealed first count then s.finish cmd stSEALED 0 0 []
  else
    match s.freeRegion k with
    | none => s.finish cmd stNO_SPARE 0 0 []
    | some r => (s.updLink k fun l => { l with setPly := some (cmd, r, first, count) }).queueOp k (plyOp 1 r [count])

/-- SET_PLY to one-ply: the range is a whole region. -/
def State.setPlyOne (s : State) (cmd first count : Nat) : State :=
  match s.regionExact first count with
  | none => s.finish cmd stBAD_PARAM 0 0 []
  | some (k, r) => if s.anySealed first count then s.finish cmd stSEALED 0 0 [] else (s.regionOff k r).finish cmd stOK r 0 []

/-- SET_PLY (R322, R324). It waits for room in the map journal (R130), and for the answer to an earlier OPEN on the link. -/
def execSetPly (cmd : Nat) (s : State) : Res :=
  s.start cmd 0x0601 fun c s =>
    let p := c.pkt
    let first := s.ldBase p.ld + p.arg0
    let waits := s.journalFull || (p.flags.testBit 0 == false && decide (1 ≤ p.arg2 ∧ p.arg2 ≤ 2) && (s.link (p.arg2 - 1)).setPly.isSome)
    if waits then s.setCmd cmd { c with running := false }
    else if p.flags.testBit 0 then s.setPlyArea cmd p.arg2 p.arg3
    else if 2 < p.arg2 then s.finish cmd stBAD_PARAM 0 0 []
    else if s.hanksInLd p = false then s.finish cmd stRANGE 0 0 []
    else if p.arg2 = 0 then s.setPlyOne cmd first p.arg1
    else s.setPlyOpen cmd (p.arg2 - 1) first p.arg1

/-! ### GET_PLY_STATE and RESYNC_PLY -/

/-- GET_PLY_STATE: the regions and areas of a link. -/
def execGetPlyState (cmd : Nat) (s : State) : Res :=
  s.answer cmd 0x0602 fun c s =>
    let k := c.pkt.arg0
    if 2 ≤ k then (stRANGE, 0, 0, [], s)
    else
      let words := fun (f : Nat → Nat) => (List.range 16).flatMap fun i => le 8 (s.reg (f i)).toNat
      (stOK, (s.reg (Reg.PLK_LINK k)).toNat, (s.reg (Reg.PLK_SYNC k)).toNat,
        whenAsked c (words (Reg.PLK_REGION k) ++ words (Reg.PLK_AREA k)), s)

/-- RESYNC_PLY (R331): the region joins the resyncs to come; the command ends when it is MIRRORED. A region that is MIRRORED or SYNCING is
resynced again only when FULL asks for it. -/
def execResyncPly (cmd : Nat) (s : State) : Res :=
  s.start cmd 0x0603 fun c s =>
    let k := c.pkt.arg0
    let r := c.pkt.arg1
    let full := c.pkt.flags.testBit 0
    if 2 ≤ k ∨ 16 ≤ r then s.finish cmd stRANGE 0 0 []
    else
      let (st, _, count) := s.region k r
      if st = 0 then s.finish cmd stRANGE 0 0 []
      else if s.linkUp k = false then s.finish cmd stPLY_DEGRADED 0 0 []
      else
        let n := if full || st == 4 then count else (s.spillOf k r).length
        let s1 := s.setCmd cmd { c with started := true, work := [wPly k (syncItem r)], done := n }
        let want := if full || st == 4 then 16 + r else r
        State.syncPump (s1.updLink k fun l => { l with wantSync := if l.wantSync.contains want then l.wantSync else l.wantSync ++ [want] }) k

/-! ### The chain -/

/-- Ticks that a CHAIN_WALK waits: ARG0 ms, 820 ms for 0. -/
def walkWait (p : Packet) : Nat := (if p.arg0 = 0 then 820 else p.arg0) * 100000

/-- The last UADDR of a walk, lowered to what the buffer holds (R390). -/
def walkLast (p : Packet) : Nat := min p.arg2 (p.arg1 + p.buflen / 64 - 1)

/-- CHAIN_WALK: a WALK goes to every module of the chain, and this module's own entry is taken at once. -/
def execChainWalk (cmd : Nat) (s : State) : Res :=
  s.start cmd 0x0B01 fun c s =>
    let p := c.pkt
    if 16384 ≤ p.arg1 ∨ 16384 ≤ p.arg2 then s.finish cmd stRANGE 0 0 []
    else if p.arg2 < p.arg1 then s.finish cmd stBAD_PARAM 0 0 []
    else if p.buflen < 64 then s.finish cmd stPARTIAL p.arg1 0 []
    else
      let (mid, s1) := s.chainOut 1 true 0 []
      let own := tput ([] : Tbl (List Byte)) s.uaddr (s.statusData 16384)
      let s2 := s1.setCmd cmd { c with extra := s.clk.now }
      { s2 with chain := { s2.chain with walks := tput s2.chain.walks cmd { cmd := cmd, mid := mid, kind := 1, dest := 0, replies := own } } }

/-- The wait of a walk ends: a slot of 64 bytes for each UADDR, zeros where none replied (R390). -/
def execChainWalkWaitEnd (cmd : Nat) (s : State) : Res :=
  nextState (match tget s.chain.walks cmd, tget s.cmds cmd with
    | some w, some c =>
      if w.kind ≠ 1 ∨ s.clk.now < c.extra + walkWait c.pkt then s
      else
        let last := walkLast c.pkt
        let addrs := (List.range (last + 1 - c.pkt.arg1)).map (c.pkt.arg1 + ·)
        let slot := fun a => match tget w.replies a with | some d => (d ++ List.replicate 64 0).take 64 | none => List.replicate 64 0
        let n := (addrs.filter fun a => (tget w.replies a).isSome).length
        let s1 : State := { s with chain := { s.chain with walks := tdel s.chain.walks cmd } }
        if last < c.pkt.arg2 then s1.finish cmd stPARTIAL (last + 1) n (addrs.flatMap slot)
        else s1.finish cmd stOK 0 n (addrs.flatMap slot)
    | _, _ => s)

/-- CHAIN_RELAY (R338): host data goes to one UADDR; the RELAY_ACK completes the command. -/
def execChainRelay (cmd : Nat) (s : State) : Res :=
  s.start cmd 0x0B02 fun c s =>
    let p := c.pkt
    if 16384 ≤ p.arg0 then s.finish cmd stRANGE 0 0 []
    else if p.buflen = 0 ∨ 240 < p.buflen ∨ p.buflen % 4 ≠ 0 then s.finish cmd stBAD_PARAM 0 0 []
    else
      let add := fun (s : State) (mid : Nat) =>
        ({ s with chain := { s.chain with walks := tput s.chain.walks cmd { cmd := cmd, mid := mid, kind := 4, dest := p.arg0, replies := [] } } } : State)
      if p.arg0 = s.uaddr then
        (add s s.chain.mid).relayIn { mid := s.chain.mid, mclass := 4, bcast := false, isLocal := false, ttl := 16383, src := s.uaddr, dest := p.arg0,
                                      data := c.input }
      else
        let (mid, s1) := s.chainOut 4 false p.arg0 c.input
        add s1 mid

/-- An inbox message as CHAIN_STATUS writes it: 256 bytes. -/
def inboxRecord (e : Nat × ChainMsg) : List Byte :=
  le 2 e.2.src ++ le 1 e.2.data.length ++ List.replicate 5 0 ++ le 8 e.1 ++ (e.2.data ++ List.replicate 240 0).take 240

/-- CHAIN_STATUS: this module's entry, a STATUS_REQ to another, or the oldest messages of the inbox, which are removed as they are
written. -/
def execChainStatus (cmd : Nat) (s : State) : Res :=
  s.start cmd 0x0B03 fun c s =>
    let p := c.pkt
    if 2 < p.arg0 ∨ (p.arg0 ≠ 1 ∧ p.arg1 ≠ 0) then s.finish cmd stBAD_PARAM 0 0 []
    else if p.arg0 = 2 then
      let k := min (p.buflen / 256) s.chain.inbox.length
      let recs := (s.chain.inbox.take k).flatMap inboxRecord
      let left := s.chain.inbox.drop k
      let s1 := State.fset { s with chain := { s.chain with inbox := left } } Reg.PLK_CHAIN Fld.PLK_CHAIN_INBOX left.length
      s1.finish cmd stOK (s1.reg Reg.PLK_CHAIN).toNat k recs
    else if 0 < p.buflen ∧ p.buflen < 64 then s.finish cmd stBAD_PARAM 0 0 []
    else if 16384 ≤ p.arg1 then s.finish cmd stRANGE 0 0 []
    else if p.arg0 = 0 ∨ p.arg1 = s.uaddr then
      s.finish cmd stOK (s.reg Reg.PLK_CHAIN).toNat (if p.buflen = 0 then 0 else 1) (whenAsked c (s.statusData 16384))
    else
      let (mid, s1) := s.chainOut 2 false p.arg1 []
      { s1 with chain := { s1.chain with walks := tput s1.chain.walks cmd { cmd := cmd, mid := mid, kind := 2, dest := p.arg1, replies := [] } } }

end Sys2Proof.Machine
end

