-- ==== Sys2Proof/Machine/Efc.lean ====
section
/-! DEFINITION. The embedded flash controller (R420 to R425): unlock, read, program and erase. -/

namespace Sys2Proof.Machine

/-- Programs of a word since its last erase; a word as shipped counts one. -/
def State.flashCount (s : State) (w : Nat) : Nat :=
  match tget s.plat.flashPgm w with
  | some n => n
  | none => if s.plat.flashErased.contains (sectorOf w) then 0 else 1

/-- The word that EFC_ADDR names. -/
def State.efcWord (s : State) : Nat := s.fget Reg.EFC_ADDR Fld.EFC_ADDR_BANK * 2 ^ 19 + s.fget Reg.EFC_ADDR Fld.EFC_ADDR_WORD

/-- Set a bit of EFC_STAT. -/
def State.efcFlag (s : State) (f : Field) : State := s.raise Reg.EFC_STAT f

/-- An EFC write other than EFC_UNLOCK breaks the unlock sequence (R421). -/
def State.efcTouch (s : State) : State := { s with plat := { s.plat with unlockStep := 0 } }

/-- A write of EFC_UNLOCK (R421): ignored after CONFIG_LOCK; the second key in a row of the two unlocks, a wrong one sets LOCKERR. -/
def State.efcUnlock (s : State) (key : Nat) : State :=
  if s.rwlLocked then s
  else
    let s1 := s.fset Reg.EFC_STAT Fld.EFC_STAT_UNLOCKED 0
    if key = 0x3C5A ∧ s.plat.unlockStep = 1 then s1.efcTouch.efcFlag Fld.EFC_STAT_UNLOCKED
    else if key = 0xC3A5 then { s1 with plat := { s1.plat with unlockStep := 1 } }
    else s1.efcTouch.efcFlag Fld.EFC_STAT_LOCKERR

def execEfcUnlock (val : W64) (s : State) : Res := nextState (s.efcUnlock (getF val Fld.EFC_UNLOCK_KEY))

/-- Whether a bank is under program or erase (R423). -/
def State.flashBusy (s : State) (bank : Nat) : Bool := match s.plat.flashOp with | some (_, w) => w / 2 ^ 19 == bank | none => false

/-- EFC_CMD READ (R423): the word, or EFC_STAT when its bank is under program or erase. Refused while a Transfer FW is in progress (R421). -/
def State.efcRead (s : State) : State :=
  let s1 := s.efcTouch
  if s.cxl.fwStage.isSome then s1.efcFlag Fld.EFC_STAT_LOCKERR
  else s1.setReg Reg.EFC_DATA (if s.flashBusy (s.efcWord / 2 ^ 19) then s.reg Reg.EFC_STAT else s.flashWordAt s.efcWord)

def execEfcRead (s : State) : Res := nextState s.efcRead

/-- EFC_CMD with a program or erase (R421, R424). `fromBar`: it comes from BAR2/3, not from a core. `fetching`: a core is fetching from the
target bank. -/
def State.flashStart (s : State) (op : Nat) (fromBar fetching : Bool) : State :=
  let s1 := s.efcTouch
  let w := s.efcWord
  if s.plat.flashOp.isSome then s1
  else
    let s2 := s1.fset Reg.EFC_STAT Fld.EFC_STAT_UNLOCKED 0
    if (fromBar && s.cxl.fwStage.isSome) || s.fget Reg.EFC_STAT Fld.EFC_STAT_UNLOCKED == 0 then s2.efcFlag Fld.EFC_STAT_LOCKERR
    else if fetching || (fromBar && w / 2 ^ 19 == s.fget Reg.EFC_STAT Fld.EFC_STAT_ACTIVE) then s2.efcFlag Fld.EFC_STAT_SELF
    else
      { s2 with plat := { s2.plat with flashOp := some (op, w), flashWord := s.reg Reg.EFC_DATA } }

def execEfcProgram (fromBar fetching : Bool) (s : State) : Res := nextState (s.flashStart 2 fromBar fetching)
def execEfcEraseSector (fromBar fetching : Bool) (s : State) : Res := nextState (s.flashStart 3 fromBar fetching)
def execEfcEraseBank (fromBar fetching : Bool) (s : State) : Res := nextState (s.flashStart 4 fromBar fetching)

/-- A program or erase ends: DONE sets. -/
def State.flashEnd (s : State) : State := State.efcFlag { s with plat := { s.plat with flashOp := none } } Fld.EFC_STAT_DONE

/-- Whether a program is one that a word may take: at most the second since its erase, turning no 0 into a 1 (R422). -/
def State.mayProgram (s : State) (w : Nat) (v : W64) : Bool := decide (s.flashCount w < 2) && (v &&& ~~~(s.flashWordAt w)) == 0

/-- A word program ends (R422). -/
def execFlashProgramDone (verified : Bool) (s : State) : Res :=
  nextState (match s.plat.flashOp with
    | some (2, w) =>
      let v := s.plat.flashWord
      if s.mayProgram w v && verified then
        State.flashEnd { s with plat := { s.plat with flash := tput s.plat.flash w v, flashPgm := tput s.plat.flashPgm w (s.flashCount w + 1) } }
      else s.flashEnd.efcFlag Fld.EFC_STAT_PGMERR
    | _ => s)

/-- Sectors are erased: every word reads all ones, with no program since. -/
def State.sectorsErased (s : State) (ks : List Nat) : State :=
  { s with plat := { s.plat with
      flash := s.plat.flash.filter fun e => !(ks.contains (sectorOf e.1))
      flashPgm := s.plat.flashPgm.filter fun e => !(ks.contains (sectorOf e.1))
      flashLost := s.plat.flashLost.filter fun e => !(ks.contains e.1)
      flashErased := (s.plat.flashErased.filter fun k => !(ks.contains k)) ++ ks } }

/-- The spare sectors of a bank. -/
def spareField (bank : Nat) : Field := if bank = 0 then Fld.EFC_STAT_SPARE_A else Fld.EFC_STAT_SPARE_B

/-- An erase ends (R425): a sector that fails takes a spare of its bank, and the erase is repeated once; ERSERR is set when the repeat fails
or no spare remains. The spec states no contents for sectors whose erase fails. -/
def execFlashEraseDone (firstOk repeatOk : Bool) (s : State) : Res :=
  nextState (match s.plat.flashOp with
    | some (op, w) =>
      if op = 2 then s
      else
        let ks := eraseSectors op w
        let f := spareField (w / 2 ^ 19)
        let spares := s.fget Reg.EFC_STAT f
        if firstOk then (s.sectorsErased ks).flashEnd
        else if spares = 0 then ((s.sectorsOpen ks).flashEnd).efcFlag Fld.EFC_STAT_ERSERR
        else
          let s1 := s.fset Reg.EFC_STAT f (spares - 1)
          if repeatOk then (s1.sectorsErased ks).flashEnd else ((s1.sectorsOpen ks).flashEnd).efcFlag Fld.EFC_STAT_ERSERR
    | none => s)

end Sys2Proof.Machine
end

