-- ==== Sys2Proof/Machine/Thermal.lean ====
section
/-! DEFINITION. Temperature and power limits (R427 to R436). -/

namespace Sys2Proof.Machine

/-! ### Sensors and zones (R427, R428) -/

/-- Whether a sensor counts toward its zone's temperature: active, or broken and neither replaced nor excluded. -/
def State.sensorCounts (s : State) (k : Nat) : Bool :=
  s.fget (Reg.THM_SENSOR k) Fld.THM_SENSOR_ACTIVE == 1 && s.fget (Reg.THM_SENSOR k) Fld.THM_SENSOR_EXCL == 0

/-- The sensor with the highest reading of some, the first of equals. -/
def State.hottest (s : State) (ks : List Nat) : Option Nat :=
  ks.foldl (fun a k => match a with | none => some k | some b => if s.sensorTemp b < s.sensorTemp k then some k else some b) none

/-- The highest reading of some sensors; −55 °C, the lowest a sensor reads, without any. -/
def State.highTemp (s : State) (ks : List Nat) : Int := match s.hottest ks with | some k => s.sensorTemp k | none => -55

def word16 (t : Int) : Nat := (t % 65536).toNat

/-- The thresholds of a zone: warn, throttle, critical. -/
def State.thresholds (s : State) (z : Nat) : List Int :=
  [(s.fget (Reg.THM_ZONE z) Fld.THM_ZONE_WARN : Int), (s.fget (Reg.THM_ZONE z) Fld.THM_ZONE_THROT : Int), (s.fget (Reg.THM_ZONE z) Fld.THM_ZONE_CRIT : Int)]

/-- The readings of one sample: a broken sensor reads 150 °C. -/
def State.takeReadings (s : State) (readings : List Int) : State :=
  (List.range 58).foldl (fun s k =>
    let t := if s.fget (Reg.THM_SENSOR k) Fld.THM_SENSOR_BROKEN = 1 then 150 else readings.getD k 25
    s.fset (Reg.THM_SENSOR k) Fld.THM_SENSOR_TEMP (word16 t)) s

/-- The level a zone rises to: warn and throttle at 2 consecutive samples, critical at 10. -/
def riseLevel (hot : List Nat) : Nat :=
  if 10 ≤ hot.getD 2 0 then 3 else if 2 ≤ hot.getD 1 0 then 2 else if 2 ≤ hot.getD 0 0 then 1 else 0

/-- The highest level at or below `n` whose threshold has not been left by 5 °C for 1 s. -/
def fallLevel (fall : List Nat) : Nat → Nat
  | 0 => 0
  | n + 1 => if 1000 ≤ fall.getD n 0 then fallLevel fall n else n + 1

/-- The counts and the level of a zone after a sample. -/
def State.zoneSample (s : State) (z : Nat) : State :=
  let all := (zoneSensors z).filter s.sensorCounts
  let working := all.filter fun k => s.fget (Reg.THM_SENSOR k) Fld.THM_SENSOR_BROKEN == 0
  let temp := s.highTemp all
  let own := [temp, temp, s.highTemp working]
  let thr := s.thresholds z
  let hyst : Int := s.fget Reg.THM_LIMITS Fld.THM_LIMITS_HYST
  let over' := (List.range 3).map fun i => if thr.getD i 0 ≤ own.getD i 0 then (s.plat.overCnt.getD z []).getD i 0 + 1 else 0
  let fall := (List.range 3).map fun i => if own.getD i 0 ≤ thr.getD i 0 - hyst then (s.plat.fallCnt.getD z []).getD i 0 + 1 else 0
  let cur := s.fget (Reg.THM_ZONE z) Fld.THM_ZONE_LEVEL
  let level := max (riseLevel over') (fallLevel fall cur)
  let s1 : State := { s with plat := { s.plat with overCnt := lset s.plat.overCnt z over', fallCnt := lset s.plat.fallCnt z fall } }
  (s1.fset (Reg.THM_ZONE z) Fld.THM_ZONE_TEMP (word16 temp)).fset (Reg.THM_ZONE z) Fld.THM_ZONE_LEVEL level

/-- Scale of a thermal level (Table 2-9). -/
def thermScale (level : Nat) : Nat := if level = 0 then 100 else if level = 1 then 75 else if level = 2 then 40 else 0

/-- The thermal level: that of the hottest zone; each change raises a THERMAL event, and critical stops admission (R76, R428, R430). -/
def State.thermalLevel (s : State) : State :=
  let zones := List.range 5
  let level := (zones.map fun z => s.fget (Reg.THM_ZONE z) Fld.THM_ZONE_LEVEL).foldl max 0
  let all := (List.range 58).filter s.sensorCounts
  let was := s.fget Reg.THM_MAX Fld.THM_MAX_LEVEL
  let s1 := ((s.fset Reg.THM_MAX Fld.THM_MAX_LEVEL level).fset Reg.THM_MAX Fld.THM_MAX_SENSOR ((s.hottest all).getD 0)).fset
    Reg.THM_MAX Fld.THM_MAX_TEMP (word16 (s.highTemp all))
  let s2 := (s1.fset Reg.ADM_THROTTLE Fld.ADM_THROTTLE_THERM_LVL level).fset Reg.ADM_THROTTLE Fld.ADM_THROTTLE_THERM_SCALE (thermScale level)
  if level = was then s2
  else
    let s3 := s2.eventSev evTHERMAL (if level = 3 then 2 else 1) 4 0xFFFF level [was, s2.fget Reg.THM_MAX Fld.THM_MAX_SENSOR]
    if level = 3 then
      match zones.find? fun z => s.fget (Reg.THM_ZONE z) Fld.THM_ZONE_LEVEL == 3 with
      | some z =>
        let k := (s.hottest ((zoneSensors z).filter s.sensorWorks)).getD 0
        { s3 with adm := { s3.adm with critical := true }, plat := { s3.plat with thermCrit := some (z, k, s.sensorTemp k) } }
      | none => s3
    else s3

/-! ### Resuming (R431) -/

/-- Whether the module waits to cool: BOUND after a THERMAL bind-off, or a cold cast-on held after MBOX. -/
def State.coolWait (s : State) : Bool := (s.power == .bound && s.energy.trig == 4) || s.plat.coldHold

/-- One sample of the resume condition: every counted working sensor at least 15 °C below critical. -/
def State.resumeSample (s : State) : State :=
  let n := if s.coolWait && !s.hotSensor then s.plat.belowCnt + 1 else 0
  State.fset { s with plat := { s.plat with belowCnt := n } } Reg.THM_AUTO_RESUME Fld.THM_AUTO_RESUME_QUIET (n / 1000)

/-- The input power of the last 1 ms, measured and so not determined, within the selected limit (R435); PEAK is the greatest. -/
def State.inputPower (s : State) : State :=
  if s.power = .on then
    let (v, s1) := s.draw 32
    let mw := v.toNat % (1000 * limitWatts (s.fget Reg.PWR_LIMIT Fld.PWR_LIMIT_SEL) + 1)
    (s1.fset Reg.PWR_INPUT Fld.PWR_INPUT_MW mw).fset Reg.PWR_INPUT Fld.PWR_INPUT_PEAK (max mw (s1.fget Reg.PWR_INPUT Fld.PWR_INPUT_PEAK))
  else s

/-- Every 1 ms all sensors are sampled (R428). -/
def execSensorSample (readings : List Int) (s : State) : Res :=
  nextState (if s.power = .none then s
  else
    let s1 := s.takeReadings readings
    (((List.range 5).foldl (fun s z => s.zoneSample z) s1).thermalLevel.resumeSample).healthCheck.inputPower)

/-- The margin has held for 10 s with EN = 1: a warm cast-on runs, or a held cold cast-on goes on. -/
def execThermalAutoResume (s : State) : Res :=
  nextState (if s.fget Reg.THM_AUTO_RESUME Fld.THM_AUTO_RESUME_EN = 1 ∧ 10000 ≤ s.plat.belowCnt ∧ s.coolWait = true then
    let s1 : State := { s with plat := { s.plat with belowCnt := 0 } }
    if s.power = .bound then s1.warmCastOn else { s1 with plat := { s1.plat with coldHold := false } }
  else s)

/-! ### Broken sensors (R429) -/

/-- A sensor is broken: it reads 150 °C. -/
def State.sensorBreaks (s : State) (k : Nat) : State :=
  (s.fset (Reg.THM_SENSOR k) Fld.THM_SENSOR_BROKEN 1).fset (Reg.THM_SENSOR k) Fld.THM_SENSOR_TEMP 150

/-- A zone's spare takes the place of a broken sensor, once it has passed its two self-checks; a SPARE event (warning) is raised. -/
def State.spareSensorIn (s : State) (k sp : Nat) : State :=
  let s1 := (s.fset (Reg.THM_SENSOR sp) Fld.THM_SENSOR_ACTIVE 1).fset (Reg.THM_SENSOR sp) Fld.THM_SENSOR_REPLACES k
  let s2 := (s1.fset (Reg.THM_SENSOR k) Fld.THM_SENSOR_ACTIVE 0).fset (Reg.THM_ZONE (zoneOf k)) Fld.THM_ZONE_SPARE_USED 1
  s2.event evSPARE 4 0xFFFF k [sp]

/-- A self-check of sensor `k`: a failure breaks it, and its zone's spare is confirmed and switched in when it is free. -/
def execSensorSelfCheck (k : Nat) (pass spareOk : Bool) (s : State) : Res :=
  nextState (if s.power = .none ∨ 58 ≤ k ∨ pass = true ∨ s.fget (Reg.THM_SENSOR k) Fld.THM_SENSOR_BROKEN = 1 then s
  else
    let s1 := s.sensorBreaks k
    let z := zoneOf k
    let sp := s.fget (Reg.THM_ZONE z) Fld.THM_ZONE_SPARE
    if sp = k ∨ s.fget (Reg.THM_ZONE z) Fld.THM_ZONE_SPARE_USED = 1 ∨ s.fget (Reg.THM_SENSOR sp) Fld.THM_SENSOR_BROKEN = 1 then s1
    else if spareOk then s1.spareSensorIn k sp
    else s1.sensorBreaks sp)

/-- A write of EXCL (R429). -/
def State.exclude (s : State) (k v : Nat) : State :=
  if s.rwsHeld ∨ s.exclOk k v = false then s
  else (s.fset (Reg.THM_SENSOR k) Fld.THM_SENSOR_EXCL v).rwsSave

def execSensorExclude (k : Nat) (val : W64) (s : State) : Res :=
  nextState (if k < 58 then s.exclude k (getF val Fld.THM_SENSOR_EXCL) else s)

/-! ### Power domains and the power limit (R434, R435) -/

/-- A write of PWR_REQ: D2_OFF and D3_OFF count in lane plan B only, where their links leave UP with cause 7 (R434). -/
def State.pwrReq (s : State) (val : W64) : State :=
  let bit := fun (f : Field) => getF val f
  let s1 := s.fset Reg.PWR_REQ Fld.PWR_REQ_D11_OFF (bit Fld.PWR_REQ_D11_OFF)
  if s.planB then
    ((s1.fset Reg.PWR_REQ Fld.PWR_REQ_D2_OFF (bit Fld.PWR_REQ_D2_OFF)).fset Reg.PWR_REQ Fld.PWR_REQ_D3_OFF (bit Fld.PWR_REQ_D3_OFF)).linksFollow
  else s1

def execPwrReqWrite (val : W64) (s : State) : Res := nextState (s.pwrReq val)

/-- A write of PWR_LIMIT.SEL: 3 is ignored; the scale follows at the next row boundary (R75, R435). -/
def State.pwrLimit (s : State) (val : W64) : State :=
  let sel := getF val Fld.PWR_LIMIT_SEL
  if sel = 3 ∨ s.rwsHeld = true then s
  else ((s.fset Reg.PWR_LIMIT Fld.PWR_LIMIT_SEL sel).fset Reg.PWR_LIMIT Fld.PWR_LIMIT_WATTS (limitWatts sel)).rwsSave

def execPwrLimitWrite (val : W64) (s : State) : Res := nextState (s.pwrLimit val)

/-- The domains that are on (Table 14-7), as PWR_STATE.ON reads: D0 alone without main power. -/
def State.domainsOn (s : State) : Nat :=
  if s.power = .none then 0
  else if s.power = .aux ∨ s.power = .waitP12v then 1 + (if s.clk.p12v then 2 ^ 56 else 0)
  else
    let b := s.planB
    let req := fun (k : Nat) => s.fbit Reg.PWR_REQ ⟨2, 0⟩ k
    let target := fun (d : Nat) => s.fget Reg.WME_STATE Fld.WME_STATE_REBUILD == 1 && s.fget Reg.WME_REBUILD Fld.WME_REBUILD_TARGET == d
    let dev := fun (d : Nat) => !(s.devFailed d) && (target d || (List.range 9).any fun k => s.slotDev k == d)
    ((List.range 57).filter fun d =>
      if d = 2 then !(b && req 0)
      else if d = 3 then !(b && req 1)
      else if d = 5 then b
      else if d = 6 ∨ d = 7 then s.engineState (d - 6) != 2
      else if d = 11 then !(req 2)
      else if 12 ≤ d ∧ d ≤ 21 then dev (d - 12)
      else if 22 ≤ d ∧ d ≤ 55 then s.fget (Reg.MCH_STATE (d - 22)) Fld.MCH_STATE_ENGINE != 3
      else true).foldl (fun a d => a + 2 ^ d) 0

end Sys2Proof.Machine
end

