-- ==== Sys2Proof/Machine/Faults.lean ====
section
/-! DEFINITION. Faults of the controller's own parts: the transparent SRAM test (R440), queue pointers (R32 to R34), management cores (R447),
the end of powered life (R453), and the rebuilt free bitmap (R171). -/

namespace Sys2Proof.Machine

/-! ### The transparent test of the SRAM banks (R437, R440) -/

/-- Words of eight bytes in an SRAM bank. -/
def sramWords (b : Nat) : Nat := 128 * sramSize b

/-- The work item of a SELF_TEST of kind 3. -/
def wSram : Nat := wOther 803000

/-- Whether the test engine tests a bank: MASK names it. -/
def State.sramMasked (s : State) (b : Nat) : Bool := s.fbit Reg.SRB_TEST_CTL Fld.SRB_TEST_CTL_MASK b

/-- Whether the test engine runs: EN is 1 or a SELF_TEST of kind 3 runs, and domain D11 is on (R434). -/
def State.sramRuns (s : State) : Bool :=
  (s.fget Reg.SRB_TEST_CTL Fld.SRB_TEST_CTL_EN == 1 || s.cmds.any fun e => e.2.running && e.2.work.contains wSram) &&
    s.power == .on && s.fget Reg.PWR_REQ Fld.PWR_REQ_D11_OFF == 0

/-- A pass ends when no word of a bank to be tested is left: PASSES counts it, and a SELF_TEST of kind 3 completes. -/
def State.sramPassEnd (s : State) : State :=
  if (List.range 8).any fun b => s.sramMasked b && decide (s.plat.sramRow.getD b 0 < sramWords b) then s
  else
    let s1 : State := { s with plat := { s.plat with sramRow := List.replicate 8 0 } }
    (s1.fadd Reg.SRB_TEST_CTL Fld.SRB_TEST_CTL_PASSES 1).workDone fun w => w == wSram

/-- Whether test work waits because class 7 is held (R64); with a TIMEOUT it has its deadline from the command (R382). -/
def State.testHeld (s : State) : Bool :=
  s.adm.held.getD 23 false && !(s.cmds.any fun e => e.2.running && e.2.expiry.isSome && e.2.work.contains wSram)

/-- The next word of a bank is tested, one operation of class 7 (log 91): a mismatch takes a spare row, and counts in UE when none remains; a word that its owner writes
meanwhile is left for the next pass. -/
def execSramTest (bank : Nat) (isMatch abandoned : Bool) (s : State) : Res :=
  nextState (if bank < 8 ∧ s.sramMasked bank = true ∧ s.sramRuns = true ∧ s.testHeld = false ∧
      s.plat.sramRow.getD bank 0 < sramWords bank then
    let s1 := (s.charge 23 1).fset Reg.SRB_TEST_CTL Fld.SRB_TEST_CTL_BANK bank
    let s2 : State := { s1 with plat := { s1.plat with sramRow := lset s1.plat.sramRow bank (s1.plat.sramRow.getD bank 0 + 1) } }
    let s3 :=
      if abandoned then s2
      else
        let r := Reg.SRB_BANK bank
        let left := s2.fget r Fld.SRB_BANK_SPARE_LEFT
        let s4 := if isMatch then s2 else if 0 < left then s2.fset r Fld.SRB_BANK_SPARE_LEFT (left - 1) else s2.fadd r Fld.SRB_BANK_UE 1
        let mark := fun (e : Nat × Cmd) =>
          if e.2.running && e.2.work.contains wSram then
            (e.1, { e.2 with extra := e.2.extra + 1, done := if isMatch || e.2.done != 0 then e.2.done else e.2.extra + 1 })
          else e
        { s4 with cmds := s4.cmds.map mark }
    s3.sramPassEnd
  else s)

/-! ### Queue pointers (R32 to R34, R387) -/

/-- Items that a notification queue loses with its reset: its records, and those its markers count. -/
def lostItems (recs : List Event) : Nat := recs.foldl (fun n e => n + (if e.cls = evGAP then e.rep else 1)) 0

/-- The dropped-stitch marker at the head of a queue that was reset (R34, R37). -/
def resetMarker (recs : List Event) (now : Nat) : Event :=
  let first := match recs.head? with | some e => e.first | none => now
  let last := match recs.getLast? with | some e => e.last | none => now
  { gapMarker first with rep := min (lostItems recs) (2 ^ 32 - 1), last := last }

/-- Reset event log `k`: its marker takes the next handle. -/
def State.resetLog (s : State) (k : Nat) : State :=
  let l := s.logs.getD k Log.init
  let m : Event := { resetMarker l.recs s.clk.now with handle := l.nextHandle, wall := s.wallOf s.clk.now }
  { s with logs := lset s.logs k { l with recs := [m], nextHandle := if 65535 ≤ l.nextHandle then 1 else l.nextHandle + 1 } }

/-- Reset the history ingest queue. -/
def State.resetIngest (s : State) : State :=
  let m := resetMarker (s.hist.ingest.map HistRec.ev) s.clk.now
  let r : HistRec := { ev := m, log := 0, caston := s.fget Reg.RDY_CASTON Fld.RDY_CASTON_COLD % 65536, rseq := 0 }
  { s with hist := { s.hist with ingest := [r] } }

/-- The pointer copies of a queue differ, as long as the queues are powered: 0 to 3 an event log, 4 the history ingest queue, 8 to 15 a ring's
queues (a ring that runs halts, R387), others a data queue, whose items their originators send again under their old deadlines (R33). -/
def execPointerMismatch (queue : Nat) (s : State) : Res :=
  nextState (if s.mainOff then s
  else if 8 ≤ queue ∧ queue < 16 then
    (if s.ringOn (queue - 8) then s.haltRing (queue - 8) 5 else s.event evFAULT 4 0xFFFF (queue - 8) [5])
  else
    let s1 := s.openFault (600000 + queue)
    let s2 := if queue < 4 then s1.resetLog queue else if queue = 4 then s1.resetIngest else s1
    (s2.event evFAULT 4 0xFFFF queue [queue]).closeFault (600000 + queue))

/-! ### Management cores (R447) -/

/-- Cores that work: active, or starting in a takeover. -/
def State.coresUp (s : State) : Nat := (s.plat.cores.filter fun c => c == 0 || c == 3).length

/-- With fewer than two working cores the firmware's function has failed (R447). -/
def State.coreCheck (s : State) : State := if s.coresUp < 2 then s.setFail rFW else s

/-- A core misses its heartbeat for 5 µs: it stops, and the spare core starts; with none left the others carry the work. -/
def State.coreFails (s : State) (core : Nat) : State :=
  let s1 : State := { s with plat := { s.plat with cores := lset s.plat.cores core 2 } }
  match (List.range 4).find? fun c => s1.plat.cores.getD c 2 == 1 with
  | some sp => State.openFault { s1 with plat := { s1.plat with cores := lset s1.plat.cores sp 3, takeover := true } } (700000 + core)
  | none => (s1.eventSev evSPARE 2 4 0xFFFF core [s1.coresUp]).coreCheck

def execCoreHeartbeatTimeout (core : Nat) (s : State) : Res :=
  nextState (if (s.power = .on ∨ s.power = .bindoff ∨ s.power = .bound) ∧ s.plat.cores.getD core 2 = 0 then s.coreFails core else s)

/-- The spare core serves again: the SPARE event names the core that failed, and an INJECT_FAULT of kind 5 completes. -/
def execCoreTakeoverDone (s : State) : Res :=
  nextState (if s.plat.takeover then
    let s1 : State := { s with plat := { s.plat with takeover := false, cores := s.plat.cores.map fun c => if c = 3 then 0 else c } }
    (List.range 4).foldl (fun s core =>
      if s.adm.faults.contains (700000 + core) then
        ((s.event evSPARE 4 0xFFFF core [s.coresUp]).closeFault (700000 + core)).injectDone (700000 + core)
      else s) s1
  else s)

/-! ### Powered life and the free bitmap (R453, R171) -/

/-- Ticks of powered time in 25 years of 365.25 days. -/
def lifeTicks : Nat := 78894000000000000

/-- Powered time reaches 25 years: once, a SPARE event. -/
def execPoweredLifeEnd (s : State) : Res :=
  nextState (if lifeTicks ≤ s.hanks.poweredTicks ∧ s.plat.lifeEnd = false then
    State.event { s with plat := { s.plat with lifeEnd := true } } evSPARE 0 0xFFFF 0 [100]
  else s)

/-- The free bitmap is rebuilt, as it stood: migrations may start again. -/
def execFreeBitmapRebuilt (s : State) : Res :=
  nextState (if s.hanks.fillRebuild then { s with hanks := { s.hanks with fillRebuild := false } } else s)

end Sys2Proof.Machine
end

