-- ==== Sys2Proof/Machine/Maint.lean ====
section
/-! DEFINITION. Maintenance by command (Table 12-7): the cache maintenance commands (R182), SCRUB_CONTROL and MIGRATION_CONTROL. -/

namespace Sys2Proof.Machine

/-! ### Cache maintenance (R182, Table 5-4) -/

/-- Why a maintenance command does not run: an unknown scope, or a set, way or address outside its range. -/
def State.maintCheck (s : State) (p : Packet) : Option Nat :=
  if 3 < p.arg0 then some stBAD_PARAM
  else if p.arg0 = 3 then
    if p.arg1 % 64 ≠ 0 ∨ p.arg2 % 64 ≠ 0 then some stBAD_PARAM
    else if s.ldHanks p.ld * 2 ^ 20 < p.arg1 + p.arg2 then some stRANGE
    else none
  else if (1 ≤ p.arg0 ∧ 32767 < p.arg1) ∨ (p.arg0 = 2 ∧ 15 < p.arg2) then some stRANGE
  else none

/-- The scope that a packet names, as a maintenance operation of command `id`. -/
def State.maintOf (s : State) (op id : Nat) (p : Packet) : Maint :=
  let first := s.ldBase p.ld * 16384 + p.arg1 / 64
  { op := op, scope := p.arg0, a := if p.arg0 = 3 then first else p.arg1
    b := if p.arg0 = 3 then first + p.arg2 / 64 - 1 else p.arg2, cmd := some id, left := [], inval := false }

/-- Pool lines that the clean of a maintenance operation writes back. -/
def State.maintLines (s : State) (m : Maint) : Nat := if m.op = 2 then 0 else (s.tlc.pool.filter fun q => m.covers q.1).length

/-- A maintenance command: it waits while another operation runs. -/
def State.maintCmd (s : State) (id op : Nat) (c : Cmd) : State :=
  match s.maintCheck c.pkt with
  | some st => s.finish id st 0 0 []
  | none =>
    if s.tlc.maint.isSome then s.setCmd id { c with running := false }
    else
      let m := s.maintOf op id c.pkt
      (s.setCmd id { c with started := true, done := s.maintLines m }).maintStart m

def execCacheClean (cmd : Nat) (s : State) : Res := s.start cmd 0x0801 fun c s => s.maintCmd cmd 1 c
def execCacheInvalidate (cmd : Nat) (s : State) : Res := s.start cmd 0x0802 fun c s => s.maintCmd cmd 2 c
def execCacheCleanInvalidate (cmd : Nat) (s : State) : Res := s.start cmd 0x0803 fun c s => s.maintCmd cmd 3 c

/-! ### Scrubber, refresh and migration settings (R175, R113, R139, R140) -/

/-- Write EN and PERIOD of the scrubber: a PERIOD outside 60 to 86,400 is ignored. -/
def State.scrubWrite (s : State) (en per : Nat) : State :=
  let s1 := s.fset Reg.WME_SCRUB_CTL Fld.WME_SCRUB_CTL_EN en
  if 60 ≤ per ∧ per ≤ 86400 then s1.fset Reg.WME_SCRUB_CTL Fld.WME_SCRUB_CTL_PERIOD per else s1

/-- Write REFRESH_AGE: outside 24 to 32, or while RWS_IMAGE is contested, it is ignored. -/
def State.refreshWrite (s : State) (age : Nat) : State :=
  if 24 ≤ age ∧ age ≤ 32 ∧ s.rwsHeld = false then (s.fset Reg.MCH_REFRESH Fld.MCH_REFRESH_REFRESH_AGE age).rwsSave else s

/-- Write the fields of TLC_MIG_CTL that a mask names; values out of range are ignored, and all under CONFIG_LOCK (R18). -/
def State.migWrite (s : State) (mask : Nat) (val : W64) : State :=
  let heat := getF val Fld.TLC_MIG_CTL_HEAT_THR
  let days := getF val Fld.TLC_MIG_CTL_STATIC_DAYS
  let r := Reg.TLC_MIG_CTL
  if s.rwlLocked then s
  else
    let s1 := if mask.testBit 0 && decide (256 ≤ heat) then s.fset r Fld.TLC_MIG_CTL_HEAT_THR heat else s
    let s2 := if mask.testBit 1 && decide (30 ≤ days) && decide (days ≤ 3650) then s1.fset r Fld.TLC_MIG_CTL_STATIC_DAYS days else s1
    if mask.testBit 2 then s2.fset r Fld.TLC_MIG_CTL_STATIC_EN (getF val Fld.TLC_MIG_CTL_STATIC_EN) else s2

/-- SCRUB_CONTROL: target 0 the scrubber, 1 refresh. -/
def execScrubControl (cmd : Nat) (s : State) : Res :=
  s.answer cmd 0x0804 fun c s =>
    let p := c.pkt
    if 1 < p.arg0 then (stBAD_PARAM, 0, 0, [], s)
    else
      let s1 := if p.arg1 % 2 = 0 then s
        else if p.arg0 = 0 then s.scrubWrite (p.arg2 % 2) (p.arg2 / 2 % 2 ^ 17) else s.refreshWrite p.arg2
      (stOK, (s1.reg (if p.arg0 = 0 then Reg.WME_SCRUB_CTL else Reg.MCH_REFRESH)).toNat, 0, [], s1)

/-- MIGRATION_CONTROL. -/
def execMigrationControl (cmd : Nat) (s : State) : Res :=
  s.answer cmd 0x0805 fun c s =>
    let s1 := s.migWrite c.pkt.arg0 (BitVec.ofNat 64 c.pkt.arg1)
    (stOK, (s1.reg Reg.TLC_MIG_CTL).toNat, 0, [], s1)

end Sys2Proof.Machine
end

