-- ==== Sys2Proof/Machine/RegWrite.lean ====
section
/-! DEFINITION. Writes of registers through BAR2/3 (R14 to R18): the access types, the checks and actions of each block. -/

namespace Sys2Proof.Machine

/-! ### Fields by access type (Table 0-6) -/

/-- What a field holds after a write of `v`, by its type: `locked` is CONFIG_LOCK, `held` that RWS_IMAGE is contested (R417), `fresh` the bits
that hardware sets in the same cycle (R17). -/
def fieldAfter (acc : Access) (locked held : Bool) (fresh old v : Nat) : Nat :=
  match acc with
  | .rw => v
  | .rw1c => (old - (old &&& v)) ||| fresh
  | .rw1s => old ||| v
  | .rws => if held then old else v
  | .rwl => if locked then old else v
  | _ => old

/-- Write the software fields of a register; its RWS fields go to the Stash before the write completes. -/
def State.plainWrite (s : State) (off : Nat) (w : W64) : State :=
  match specOf off with
  | none => s
  | some r =>
    let s1 := r.fields.foldl (fun s x =>
      s.fset off x.field (fieldAfter x.acc s.rwlLocked s.rwsHeld (s.setNow off x.field) (s.fget off x.field) (getF w x.field))) s
    if (r.fields.any fun x => x.acc == .rws) && !s.rwsHeld then s1.rwsSave else s1

/-- Write them when a check holds, else nothing. -/
def State.checkedWrite (s : State) (off : Nat) (w : W64) (ok : Bool) : State := if ok then s.plainWrite off w else s

/-- The index of an offset in an array of registers. -/
def regIndex (base stride n off : Nat) : Option Nat :=
  if base ≤ off ∧ off < base + stride * n ∧ (off - base) % stride = 0 then some ((off - base) / stride) else none

/-! ### The blocks -/

/-- CRG (R375 to R378): BASE and SIZE are fixed while the ring is enabled. -/
def State.writeCrg (s : State) (off : Nat) (w cover : W64) : State :=
  let n := (off - 0x010000) / 0x100
  let on := s.fget (Reg.CRG_CTL n) Fld.CRG_CTL_ENABLE == 1
  let log2 := getF w Fld.CRG_SQ_SIZE_LOG2
  if off = Reg.CRG_SQ_BASE n ∨ off = Reg.CRG_CQ_BASE n then s.checkedWrite off w (!on)
  else if off = Reg.CRG_SQ_SIZE n then s.checkedWrite off w (!on && decide (4 ≤ log2) && decide (log2 ≤ 16))
  else if off = Reg.CRG_SQ_TAIL n then (if getF cover Fld.CRG_SQ_TAIL_TAIL = 0 then s else s.doorbell n w)
  else if off = Reg.CRG_CQ_HEAD n then s.cqHead n w
  else if off = Reg.CRG_CTL n then s.crgCtl n w
  else s.plainWrite off w

/-- ADM (R65 to R77). -/
def State.writeAdm (s : State) (off : Nat) (w : W64) : State :=
  let opt := getF w Fld.ADM_DEVLOAD_OPT_LO
  let mod' := getF w Fld.ADM_DEVLOAD_MOD_LO
  let sev := getF w Fld.ADM_DEVLOAD_SEV_LO
  let host := getF w Fld.ADM_THROTTLE_HOST_SCALE
  if off = Reg.ADM_DEVLOAD then s.checkedWrite off w (decide (opt < mod') && decide (mod' < sev) && decide (sev ≤ 100))
  else if off = Reg.ADM_THROTTLE then s.checkedWrite off w (decide (1 ≤ host) && decide (host ≤ 100))
  else
    match regIndex (Reg.ADM_RESV 0) 8 16 off, regIndex (Reg.ADM_RESV_INT 0) 8 8 off with
    | some n, _ => (s.writeResv 1 n (BitVec.allOnes 64) w).2
    | none, some n => (s.writeResv 1 (n + 16) (BitVec.allOnes 64) w).2
    | none, none => s.plainWrite off w

/-- TLC (R178, R182, R183, R139): attributes, maintenance, the LFSR, migration control. -/
def State.writeTlc (s : State) (off : Nat) (w cover : W64) : State :=
  if off = Reg.TLC_ATTR_DFLT then (s.keepAttr off).checkedWrite off w (getF w Fld.TLC_ATTR_DFLT_ALLOC != 3 && decide (getF w Fld.TLC_ATTR_DFLT_WPOL < 2))
  else if off = Reg.TLC_MAINT then (if getF cover Fld.TLC_MAINT_OP = 0 then s else s.maintWrite (getF w Fld.TLC_MAINT_OP) w)
  else if off = Reg.TLC_LFSR then s.checkedWrite off w (getF w Fld.TLC_LFSR_STATE != 0)
  else if off = Reg.TLC_MIG_CTL then s.migWrite 7 w
  else
    match regIndex (Reg.TLC_ATTR 0) 8 64 off with
    | some n => s.attrWrite n w
    | none => s.plainWrite off w

/-- MCH (R94, R111, R113). -/
def State.writeMch (s : State) (off : Nat) (w : W64) : State :=
  let tol := getF w Fld.MCH_DCLK_STAT_TOL
  if off = Reg.MCH_DCLK_STAT then s.checkedWrite off w (decide (2 ≤ tol))
  else if off = Reg.MCH_REFRESH then s.refreshWrite (getF w Fld.MCH_REFRESH_REFRESH_AGE)
  else
    match regIndex (Reg.MCH_ROWPLAN 0) 0x400 34 off with
    | some ch => s.rowplan ch w
    | none => s.plainWrite off w

/-- A write of SEL_CTL: without HOLD the ledger takes records again (R297). -/
def State.selCtl (s : State) (w : W64) : State :=
  let s1 := s.plainWrite Reg.SEL_CTL w
  if s1.holdBlocks then s1 else s1.fset Reg.SEL_STAT Fld.SEL_STAT_HOLD_BLOCK 0

/-- GAU, KEY, SEL, PLK, THM and PWR. -/
def State.writeMid (s : State) (off : Nat) (w : W64) : State :=
  if off = Reg.GAU_TEST_CTL then s.gauTest w
  else if off = Reg.SEL_CTL then s.selCtl w
  else if off = Reg.SEL_ARCHIVED then s.selArchived w
  else if off = Reg.PLK_PLYRES then s.plkPlyres w
  else if off = Reg.PLK_CTL then s.plkCtl w
  else if off = Reg.PWR_REQ then s.pwrReq w
  else if off = Reg.PWR_LIMIT then s.pwrLimit w
  else
    match regIndex (Reg.THM_SENSOR 0) 8 58 off with
    | some k => s.exclude k (getF w Fld.THM_SENSOR_EXCL)
    | none => s.plainWrite off w

/-- PMC and HST (R396 to R400). -/
def State.writePmc (s : State) (off : Nat) (w cover : W64) : State :=
  if off = Reg.PMC_GCTL then s.gctl w
  else if off = Reg.PMC_BWW_CTL then (if getF cover Fld.PMC_BWW_CTL_LEN = 0 then s else s.bwwLen w)
  else
    match regIndex (Reg.PMC_CTL 0) 8 8 off, regIndex (Reg.PMC_CNT 0) 8 8 off with
    | some n, _ => s.pmcCtl n w
    | none, some n => s.pmcPreload n w
    | none, none => s.plainWrite off w

/-- WME (R173 to R175): while ARMED is 1 the flip mask and its control are fixed. -/
def State.writeWme (s : State) (off : Nat) (w : W64) : State :=
  if off = Reg.WME_FLIP_MASK then s.checkedWrite off w (s.fget Reg.WME_FLIP_CTL Fld.WME_FLIP_CTL_ARMED == 0)
  else if off = Reg.WME_FLIP_CTL then s.flipCtl w
  else if off = Reg.WME_CE_LOG_STAT then s.ceLogClear w
  else if off = Reg.WME_SCRUB_CTL then s.scrubWrite (getF w Fld.WME_SCRUB_CTL_EN) (getF w Fld.WME_SCRUB_CTL_PERIOD)
  else
    match regIndex (Reg.WME_CE_LOG 0) 8 16 off with
    | some n => s.ceLogFree n w
    | none => s.plainWrite off w

/-- A write of SRB_TEST_CTL: a PERIOD below 60 is ignored; a pass that MASK leaves without a word ends (R440, Table 14-9). -/
def State.srbTest (s : State) (w : W64) : State :=
  let r := Reg.SRB_TEST_CTL
  let per := getF w Fld.SRB_TEST_CTL_PERIOD
  let s1 := (s.fset r Fld.SRB_TEST_CTL_EN (getF w Fld.SRB_TEST_CTL_EN)).fset r Fld.SRB_TEST_CTL_MASK (getF w Fld.SRB_TEST_CTL_MASK)
  let s2 := if 60 ≤ per then s1.fset r Fld.SRB_TEST_CTL_PERIOD per else s1
  if s2.plat.sramRow.any fun n => n != 0 then s2.sramPassEnd else s2

/-- EFC (R421 to R424): every write but one of EFC_UNLOCK breaks the unlock sequence. -/
def State.writeEfc (s : State) (off : Nat) (w cover : W64) : State :=
  let op := getF w Fld.EFC_CMD_OP
  if off = Reg.EFC_UNLOCK then (if getF cover Fld.EFC_UNLOCK_KEY = 0 then s.efcTouch else s.efcUnlock (getF w Fld.EFC_UNLOCK_KEY))
  else if off = Reg.EFC_CMD then
    if op = 1 then s.efcRead else if 2 ≤ op ∧ op ≤ 4 then s.flashStart op true false else s.efcTouch
  else s.efcTouch.plainWrite off w

/-- Whether PRIV keeps a function from an offset (R399). -/
def State.privDenied (s : State) (ld off : Nat) : Bool :=
  s.fget Reg.PMC_GCTL Fld.PMC_GCTL_PRIV == 1 && ld != s.fget Reg.PMC_GCTL Fld.PMC_GCTL_OWNER &&
    ((decide (0x0B0000 ≤ off) && decide (off < 0x0D0000)) || (decide (0x300000 ≤ off) && decide (off < 0x340000)))

/-- A register takes a 64-bit value: `cover` marks the bits that the access wrote. A reserved offset, STW and HSW ignore it (R15, R413, R404). -/
def State.regWrite (s : State) (off : Nat) (w cover : W64) : State :=
  if (specOf off).isNone then s
  else
    match off / 0x10000 with
    | 0x1 => s.writeCrg off w cover
    | 0x2 => s.writeAdm off w
    | 0x3 => s.writeTlc off w cover
    | 0x4 => s.writeMch off w
    | 0xB => s.writePmc off w cover
    | 0xC => s.writePmc off w cover
    | 0xD => s.writeWme off w
    | 0xE => if off = Reg.SRB_TEST_CTL then s.srbTest w else s.plainWrite off w
    | 0xF => s.writeEfc off w cover
    | 0x0 => s.plainWrite off w
    | _ => s.writeMid off w

/-- Whether an HSW word is a histogram word or a time value of the header (R404, Tables 13-6 and 13-7). -/
def hswWide (x : Nat) : Bool :=
  (decide (0x1000 ≤ x) && decide (x < 0xA000)) || x == 0x08 || x == 0x10 || x == 0x18 ||
    (decide (0x100 ≤ x) && decide (x < 0x200) && decide (16 ≤ x % 32))

/-- Whether 32-bit accesses of a word are void: it holds a counter or a time value (R14, R404). -/
def isWide (off : Nat) : Bool :=
  if 0x300000 ≤ off ∧ off < 0x340000 then hswWide (off - 0x300000)
  else match specOf off with | some r => r.wide | none => false

/-- The value a 32-bit write leaves: the written half, and the lasting fields of the other; the other half of a field that acts on ones
takes zeros. -/
def State.mergeHalf (s : State) (off : Nat) (upper : Bool) (val : W64) : W64 :=
  let mask : W64 := if upper then 0xFFFFFFFF00000000 else 0xFFFFFFFF
  let part : W64 := if upper then (val &&& 0xFFFFFFFF) <<< 32 else val &&& 0xFFFFFFFF
  let lasting := accMask off fun a => a == .rw || a == .rws || a == .rwl
  part ||| (s.reg off &&& lasting &&& ~~~mask)

/-- A write through BAR2/3 by the function of an LD: 64 bits at a multiple of 8, or 32 bits at a multiple of 4 (R14). BAR2/3 is 16 MiB. -/
def execRegisterWrite (ld offset width : Nat) (val : W64) (s : State) : Res :=
  if 2 ^ 24 ≤ offset then .fault (.noSuchAddress offset)
  else nextState (
    let off := offset / 8 * 8
    if s.privDenied ld off then s
    else if width = 64 ∧ offset % 8 = 0 then s.regWrite off val (BitVec.allOnes 64)
    else if width = 32 ∧ offset % 4 = 0 ∧ isWide off = false then
      let upper := offset % 8 == 4
      s.regWrite off (s.mergeHalf off upper val) (if upper then 0xFFFFFFFF00000000 else 0xFFFFFFFF)
    else s)

end Sys2Proof.Machine
end

