-- ==== Sys2Proof/Machine/Stash.lean ====
section
/-! DEFINITION. The Stash as it is read and written by command (R410 to R419): its map, the dual-copy records, STASH_READ, STASH_WRITE. -/

namespace Sys2Proof.Machine

/-! ### Records (R414, Tables 14-3, 14-3a, 15-3) -/

/-- Payload length of a record that STASH_WRITE takes. -/
def hostRecordLen (id : Nat) : Option Nat :=
  if id = 1 then some 8 else if id = 2 then some 1024 else if 0x100 ≤ id ∧ id < 0x108 then some 256 else none

/-- Payload of SPARE_MAPS (Table 15-3). -/
def State.spareMaps (s : State) : List Byte :=
  let failed := (List.range 4).foldl (fun a c => if s.plat.cores.getD c 0 = 2 then a + 2 ^ c else a) 0
  let spare := match (List.range 4).find? fun c => s.plat.cores.getD c 0 == 1 with | some c => c | none => 0xFF
  let sub := fun (z : Nat) =>
    if s.fget (Reg.THM_ZONE z) Fld.THM_ZONE_SPARE_USED = 1 then s.fget (Reg.THM_SENSOR (s.fget (Reg.THM_ZONE z) Fld.THM_ZONE_SPARE)) Fld.THM_SENSOR_REPLACES
    else 0xFF
  (List.range 34).flatMap (fun ch => le 8 (s.reg (Reg.MCH_DIESUB ch)).toNat) ++ le 8 (s.reg Reg.WME_STATE).toNat ++
    bytesOf ((List.range 12).map s.bankState) ++ bytesOf [failed, spare] ++ bytesOf ((List.range 5).map sub) ++ List.replicate 213 0

/-- The payload of a record whose layout the spec gives. -/
def State.payload (s : State) (id : Nat) : Option (List Byte) :=
  if id = 7 then some s.spareMaps else if (hostRecordLen id).isSome then some (s.recBytes id) else none

/-- Bytes that the spec gives, and bytes it leaves open (none). -/
def known (l : List Byte) : List (Option Byte) := l.map some
def unknown (n : Nat) : List (Option Byte) := List.replicate n none

/-- Slot `k` of a record: ID, LEN, SEQ, payload, CRC-32C, zeros. Of a slot whose CRC is not valid, the CRC is open. -/
def State.slotImage (s : State) (id len k : Nat) : List (Option Byte) :=
  let head := le 2 id ++ le 2 len
  let x := if k = 0 then (s.recOf id).a else (s.recOf id).b
  match s.payload id with
  | none => known head ++ unknown (len + 8) ++ known (le 4 0)
  | some p =>
    if id = 7 then known head ++ unknown 4 ++ known p ++ unknown 4 ++ known (le 4 0)
    else
      let body := head ++ le 4 x.seq ++ x.bytes
      known body ++ (if x.crcOk then known (le 4 (Config.crc32c body).toNat) else unknown 4) ++ known (le 4 0)

/-- A directory entry: the slots' offsets with the contest flag, and the record-hash ratchet. -/
def State.dirEntry (s : State) (i : Nat) : List (Option Byte) :=
  match recordTable.find? fun r => r.1 == i with
  | none => unknown 16
  | some (_, id, _) =>
    let r := s.recOf id
    let slots := le 4 (slotAt i 0 + (if r.contest then 2 ^ 31 else 0)) ++ le 4 (slotAt i 1)
    if (hostRecordLen id).isSome then known (slots ++ hash4 r.ratBytes ++ le 4 r.ratSeq) else known slots ++ unknown 8

/-- The byte of a record slot at a Stash offset, if one lies there. -/
def State.slotByte (s : State) (x : Nat) : Option Byte :=
  let inSlot := fun (k : Nat) (r : Nat × Nat × Nat) => decide (slotAt r.1 k ≤ x) && decide (x < slotAt r.1 k + slotLen r.2.2)
  match recordTable.find? (inSlot 0), recordTable.find? (inSlot 1) with
  | some r, _ => (s.slotImage r.2.1 r.2.2 0).getD (x - slotAt r.1 0) none
  | none, some r => (s.slotImage r.2.1 r.2.2 1).getD (x - slotAt r.1 1) none
  | none, none => none

/-! ### The map of the Stash (Table 14-1) -/

/-- Bytes of the history recorder region (Table 13-6). -/
def State.histByte (s : State) (h : Nat) : Option Byte :=
  if h < 0x1000 then (s.histHeader (h / 8))[h % 8]?
  else if h < 0xA000 then
    let b := (h - 0x1000) / 8
    if b < 4224 then (le 8 (dget (fun _ => 0) s.hist.flushed b))[h % 8]? else some 0
  else if h < 0x1A000 then none
  else match tget s.hist.ring ((h - 0x1A000) / 64) with | some r => (histBytes r)[(h - 0x1A000) % 64]? | none => none

/-- The root record of the present SEQ (Table 8-7), in slot A for an even one. -/
def State.rootRecord (s : State) : List Byte :=
  let body := le 8 s.crypto.rmaj ++ bytesOf [dget (fun _ => 0) s.crypto.rmin 0, dget (fun _ => 0) s.crypto.rmin 1] ++ le 6 0 ++
    le 8 (s.reg Reg.KEY_MAXMAJ).toNat ++ le 4 s.crypto.gen ++ le 4 0 ++ le 8 s.crypto.rootSeq ++ List.replicate 84 0
  body ++ le 4 (Config.crc32c body).toNat

/-- A copy of an L4 or L5 node in the Stash (R265): the node (Table 8-5), its tag, a zero byte (DEDUCED, log 79: the node's own 64 bytes). -/
def State.nodeCopy (s : State) (lvl idx : Nat) : List Byte :=
  lineBytes (s.node lvl idx).bits ++ le 7 (s.nodeStored lvl idx).tag.toNat ++ [0]

/-- Bytes of the tree region. -/
def State.treeByte (s : State) (x : Nat) : Option Byte :=
  if x < 0x100 then (if x / 128 = s.crypto.rootSeq % 2 then s.rootRecord[x % 128]? else none)
  else if x < 0x200 then (if (x - 0x100) / 72 < 2 then (s.nodeCopy 5 ((x - 0x100) / 72))[(x - 0x100) % 72]? else none)
  else if (x - 0x200) / 72 < 96 then (s.nodeCopy 4 ((x - 0x200) / 72))[(x - 0x200) % 72]?
  else none

/-- The byte at a Stash offset; none where the spec does not state it: private layouts, journals, spill, scratch. -/
def State.stashByte (s : State) (x : Nat) : Option Byte :=
  if x < 0x400 then (s.dirEntry (x / 16)).getD (x % 16) none
  else if x < 0xF000 then s.slotByte x
  else if 0x10000 ≤ x ∧ x < 0x10200 then (le 8 (s.reg (Reg.SEL_RATCHET ((x - 0x10000) / 8))).toNat)[x % 8]?
  else if 0x100000 ≤ x ∧ x < 0x140000 then some (dget (fun _ => 0) s.cxl.lsa (x - 0x100000))
  else if 0x140000 ≤ x ∧ x < 0x180000 then s.histByte (x - 0x140000)
  else if 0x180000 ≤ x ∧ x < 0x190000 then s.treeByte (x - 0x180000)
  else none

/-- Whether a range of the Stash touches the private keys (R281) or the wrapped key slots (R248). -/
def stashHidden (x n : Nat) : Bool :=
  (decide (x < 0x10000) && decide (0xF000 < x + n)) || (decide (x < 0x60000) && decide (0x20000 < x + n))

/-- `n` bytes from an offset, its words read and corrected (R411): a byte the spec does not state is a free value, and so is one of a word that
cannot be corrected. -/
def State.stashBytes (s : State) (x n : Nat) : List Byte × State :=
  let at' := fun (i : Nat) => if (s.stashWrong ((x + i) / 8)).length < 2 then s.stashByte (x + i) else none
  ((List.range n).map fun i => (at' i).getD (Config.freeValue 8 (s.freeCtr + i)), State.stashCheck { s with freeCtr := s.freeCtr + n } x n)

/-- STASH_READ. -/
def execStashRead (cmd : Nat) (s : State) : Res :=
  s.answer cmd 0x0C01 fun c s =>
    let x := c.pkt.arg0
    let n := c.pkt.buflen
    if x % 8 ≠ 0 ∨ n % 8 ≠ 0 ∨ n = 0 ∨ stashHidden x n = true then (stBAD_PARAM, 0, 0, [], s)
    else if 2 ^ 21 < x + n then (stRANGE, 0, 0, [], s)
    else let (out, s1) := s.stashBytes x n; (stOK, 0, 0, out, s1)

/-! ### STASH_WRITE (R415 to R419) -/

/-- Apply the RWS fields of one register as a write of it would; its other software fields keep their values. -/
def State.imageApply (s : State) (off : Nat) (w : W64) : State :=
  let keep := accMask off fun a => a == .rw || a == .rwl
  s.regWrite off ((w &&& rwsMask off) ||| (s.reg off &&& keep)) (BitVec.allOnes 64)

/-- Write a record: LANE_PLAN waits for the next power cycle (R10), RWS_IMAGE applies at once. -/
def State.recWriteHost (s : State) (id : Nat) (bytes : List Byte) : State :=
  let s1 := s.recStore id bytes false
  let s2 :=
    if id = 2 then
      let t := (imageWords bytes).foldl (fun s x => s.imageApply x.1 x.2) s1
      { t with plat := { t.plat with recs := s1.plat.recs } }
    else if id = 1 then
      s1.fset Reg.RDY_CASTON Fld.RDY_CASTON_PLAN_PEND (if s1.lanePlanRec = s1.fget Reg.RDY_CASTON Fld.RDY_CASTON_PLAN then 0 else 1)
    else s1
  s2.contestStat

/-- STASH_WRITE. -/
def execStashWrite (cmd : Nat) (s : State) : Res :=
  s.answer cmd 0x0C02 fun c s =>
    let id := c.pkt.arg0
    let b := c.input
    match hostRecordLen id with
    | none => (stBAD_PARAM, 0, 0, [], s)
    | some n =>
      let good := if id = 1 then lanePlanOk b else if id = 2 then s.imageOk b else true
      if c.pkt.buflen ≠ n ∨ good = false then (stBAD_PARAM, 0, 0, [], s)
      else let s1 := s.recWriteHost id b; (stOK, s1.recSeq id, 0, [], s1)

end Sys2Proof.Machine
end

