-- ==== Sys2Proof/Machine/Inject.lean ====
section
/-! DEFINITION. INJECT_FAULT and SELF_TEST (R391, Table 12-10). -/

namespace Sys2Proof.Machine

/-! ### INJECT_FAULT -/

/-- The `n`-th active core. -/
def State.activeCore (s : State) (n : Nat) : Option Nat := ((List.range 4).filter fun c => s.plat.cores.getD c 2 == 0)[n]?

/-- Whether the spare of a channel's dies is in use: none is free, or a rebuild is under way. -/
def State.dieSpareUsed (s : State) (ch : Nat) : Bool :=
  (s.spareDie ch).isNone || s.fget (Reg.MCH_STATE ch) Fld.MCH_STATE_REBUILD == 1

/-- Whether INJECT_FAULT comes on a ring whose TEST_EN is 1 (R391, R392). -/
def State.testEnabled (s : State) (c : Carrier) : Bool :=
  match ringOf c with
  | some n => s.fget (Reg.CRG_CTL n) Fld.CRG_CTL_TEST_EN == 1
  | none => false

/-- The first check that a packet fails against the component it names: its number, then its state and its spare. -/
def State.injectCheck (s : State) (p : Packet) : Option Nat :=
  let a := p.arg1
  let spare := fun (used : Bool) => if used then some stNO_SPARE else none
  match p.arg0 with
  | 1 => if 34 ≤ a ∨ 8 ≤ p.arg2 then some stRANGE else spare (s.dieSpareUsed a)
  | 2 => if 34 ≤ a then some stRANGE else spare (s.restartedLately a || s.fget (Reg.MCH_STATE a) Fld.MCH_STATE_ENGINE != 1)
  | 3 => if 9 ≤ a then some stRANGE else spare (s.spareDev.isNone || s.fget Reg.WME_STATE Fld.WME_STATE_REBUILD == 1)
  | 4 => if 2 ≤ a then some stRANGE else spare (s.engineState (1 - a) == 2 || s.engineState a == 2)
  | 5 => if 3 ≤ a then some stRANGE else spare ((List.range 4).all fun c => s.plat.cores.getD c 2 != 1)
  | 6 => if 2 ≤ a then some stRANGE else if s.linkUp a then none else some stNOT_READY
  | 7 => if 12 ≤ a then some stRANGE
    else if s.bankState a ≠ 0 ∧ s.bankState a ≠ 2 then some stBAD_PARAM
    else spare ((List.range 12).all fun b => s.bankState b != 1)
  | 8 => if a % 64 ≠ 0 then some stBAD_PARAM else if s.dpaRange p.ld a 64 then none else some stRANGE
  | _ => some stBAD_PARAM

/-- The stored line of a DPA is corrupted beyond decode, in the physical hank that its map entry gives. -/
def State.corruptLine (s : State) (line : Nat) : State :=
  let e := s.hostEntry (lhnOf line)
  let k := medKey e.phn (stripeOf line) (pageOf line) (lineOf line)
  if s.med.corrupt.contains k then s else { s with med := { s.med with corrupt := s.med.corrupt ++ [k] } }

/-- Remember a component that INJECT_FAULT failed, to be checked at the next cold cast-on. -/
def State.injectedNote (s : State) (kind a b : Nat) : State := { s with plat := { s.plat with injected := s.plat.injected ++ [(kind, a, b)] } }

/-- Inject the fault: the state after its onset, and the fault that the command waits for, if its handling takes time. -/
def State.inject (s : State) (p : Packet) : State × Option Nat :=
  let a := p.arg1
  match p.arg0 with
  | 1 => ((s.injectedNote 1 a (s.dieOf a p.arg2)).dieFails a (s.dieOf a p.arg2), none)
  | 2 => (s.watchdog a, some (400000 + a))
  | 3 => ((s.injectedNote 3 (s.slotDev a) 0).devFail (s.slotDev a), none)
  | 4 => ((s.injectedNote 4 a 0).engineFail a, none)
  | 5 => (match s.activeCore a with
    | some c => ((s.injectedNote 5 c 0).coreFails c, some (700000 + c))
    | none => (s, none))
  | 6 => (s.linkLeaves a 1, none)
  | 7 => ((s.injectedNote 7 a 0).bankFails a, none)
  | 8 => (s.corruptLine (s.lineOfDpa p.ld a), none)
  | _ => (s, none)

/-- The interruption that an injected fault made, when its handling is already complete: the newest, if there is a new one. -/
def newIntr (before after : State) : Nat :=
  if before.adm.intrs.length < after.adm.intrs.length then
    (match after.adm.intrs with | (a, b) :: _ => b - a | [] => 0)
  else 0

/-- INJECT_FAULT: the fault is real in every effect; the command completes when its handling is complete. -/
def execInjectFault (cmd : Nat) (s : State) : Res :=
  s.start cmd 0x0D01 fun c s =>
    if s.testEnabled c.carrier = false then s.finish cmd stAUTH_FAIL 0 0 []
    else
      match (if c.pkt.arg0 = 0 ∨ 8 < c.pkt.arg0 then some stBAD_PARAM else if s.adm.faults.isEmpty then s.injectCheck c.pkt else some stBUSY) with
      | some st => s.finish cmd st 0 0 []
      | none =>
        let work := fun (w : Option Nat) => match w with | some f => [wOther f] | none => []
        let s1 := (s.setCmd cmd { c with started := true, done := s.clk.now, work := work (s.inject c.pkt).2 }).charge 23 1
        let (s2, w) := s1.inject c.pkt
        match w with
        | some _ => s2
        | none => s2.finish cmd stOK s.clk.now (newIntr s1 s2) []

/-! ### SELF_TEST -/

/-- Whether a SELF_TEST of the same kind runs. -/
def State.sameTest (s : State) (id kind : Nat) : Bool :=
  s.cmds.any fun e => e.1 != id && e.2.running && e.2.pkt.opcode == 0x0D02 && e.2.pkt.arg0 == kind

/-- Whether the parts that a kind tests are there: the SRAM banks and their test engine are in D11, and the banks of capacitors are
charged. -/
def State.testReady (s : State) (kind : Nat) : Bool :=
  if kind = 2 ∨ kind = 3 then s.fget Reg.PWR_REQ Fld.PWR_REQ_D11_OFF == 0
  else if kind = 5 then s.fget Reg.GAU_STAT Fld.GAU_STAT_STATE == 1
  else true

/-- The items of a kind. -/
def State.testItems (s : State) (kind : Nat) : List Nat :=
  match kind with
  | 1 => [wOther 801000, wOther 801001]
  | 2 => [wOther 802000]
  | 3 => if (List.range 8).any fun b => s.sramMasked b then [wSram] else []
  | 4 => [wOther 804000]
  | _ => ((List.range 12).filter fun b => s.bankState b == 0).map fun b => wOther (805000 + b)

/-- SELF_TEST: its items run as events; a kind without items passes at once. -/
def execSelfTest (cmd : Nat) (s : State) : Res :=
  s.start cmd 0x0D02 fun c s =>
    let kind := c.pkt.arg0
    if kind = 0 ∨ 5 < kind then s.finish cmd stBAD_PARAM 0 0 []
    else if s.sameTest cmd kind then s.finish cmd stBUSY 0 0 []
    else if s.testReady kind = false then s.finish cmd stNOT_READY 0 0 []
    else
      let w := s.testItems kind
      if w.isEmpty then s.finish cmd stOK 0 0 []
      else
        let s1 := s.setCmd cmd { c with started := true, work := w }
        if kind = 3 then { s1 with plat := { s1.plat with sramRow := List.replicate 8 0 } }
        else if kind = 5 then s1.selfTestNext
        else s1

/-- A SELF_TEST of kind 2 or 4 ends: the first item that failed, or 0, and the items tested; each line of kind 2 is an operation of class 0
(Table 12-10). -/
def execSelfTestDone (kind firstFail items : Nat) (s : State) : Res :=
  nextState (if kind = 2 ∨ kind = 4 then
    (tkeys s.cmds fun c => c.running && c.work.contains (wOther (800000 + 1000 * kind))).foldl
      (fun s id => (if kind = 2 then s.charge 16 items else s.charge 23 1).finish id stOK firstFail items []) s
  else s)

end Sys2Proof.Machine
end

