-- ==== Sys2Proof/Machine/Dispatch.lean ====
section
/-! DEFINITION. What each command does: one arm per constructor, one meaning per arm. -/

namespace Sys2Proof.Machine

def exec (i : Instr) (s : State) : Host.Outcome State Fault Refusal :=
  match i with
  -- CXL.mem, admission and the read path
  | .memRd ld hpa => Sys2Proof.Machine.execMemRd ld hpa s
  | .memWr ld hpa data => Sys2Proof.Machine.execMemWr ld hpa data s
  | .memWrPtl ld hpa data mask => Sys2Proof.Machine.execMemWrPtl ld hpa data mask s
  | .creditIssue rwd => Sys2Proof.Machine.execCreditIssue rwd s
  | .rowBoundary => Sys2Proof.Machine.execRowBoundary s
  | .transferSlot ch slot => Sys2Proof.Machine.execTransferSlot ch slot s
  | .senseComplete op r => Sys2Proof.Machine.execSenseComplete op r s
  | .valleySenseComplete op r => Sys2Proof.Machine.execValleySenseComplete op r s
  | .stripeRebuildComplete op decoded => Sys2Proof.Machine.execStripeRebuildComplete op decoded s
  | .stitchEnd prog verified => Sys2Proof.Machine.execStitchEnd prog verified s
  | .lineDecryptDone op engineOk => Sys2Proof.Machine.execLineDecryptDone op engineOk s
  | .counterFetchDone op nodes => Sys2Proof.Machine.execCounterFetchDone op nodes s
  | .counterWriteBack level idx => Sys2Proof.Machine.execCounterWriteBack level idx s
  | .writeBack line => Sys2Proof.Machine.execWriteBack line s
  | .writeBackDone op => Sys2Proof.Machine.execWriteBackDone op s
  | .mirrorAck link hdr aseq => Sys2Proof.Machine.execMirrorAck link hdr aseq s
  | .mergeBufferReadsDone entry => Sys2Proof.Machine.execMergeBufferReadsDone entry s
  -- drift, refresh, dies and channels
  | .driftStep fits => Sys2Proof.Machine.execDriftStep fits s
  | .driftClock valleys => Sys2Proof.Machine.execDriftClock valleys s
  | .refreshVisit phn stripe page => Sys2Proof.Machine.execRefreshVisit phn stripe page s
  | .dieFailure ch die => Sys2Proof.Machine.execDieFailure ch die s
  | .dieRebuildDone ch => Sys2Proof.Machine.execDieRebuildDone ch s
  | .channelWatchdog ch => Sys2Proof.Machine.execChannelWatchdog ch s
  | .engineRestartDone ch => Sys2Proof.Machine.execEngineRestartDone ch s
  | .rowplanWrite ch val => Sys2Proof.Machine.execRowplanWrite ch val s
  -- map, migration, discard
  | .mapCheckpoint => Sys2Proof.Machine.execMapCheckpoint s
  | .mapCheckpointDone => Sys2Proof.Machine.execMapCheckpointDone s
  | .mapEntryRestore sys idx => Sys2Proof.Machine.execMapEntryRestore sys idx s
  | .staticSweepVisit => Sys2Proof.Machine.execStaticSweepVisit s
  | .migrationCopyDone m => Sys2Proof.Machine.execMigrationCopyDone m s
  | .migrationVerifyDone m found => Sys2Proof.Machine.execMigrationVerifyDone m found s
  | .migrationCommit m => Sys2Proof.Machine.execMigrationCommit m s
  | .migrationRelease m => Sys2Proof.Machine.execMigrationRelease m s
  | .hintZero lhn => Sys2Proof.Machine.execHintZero lhn s
  | .hankZeroDone lhn => Sys2Proof.Machine.execHankZeroDone lhn s
  | .secureOverwriteDone lhn => Sys2Proof.Machine.execSecureOverwriteDone lhn s
  -- working memory and line cache
  | .scrubLine errs => Sys2Proof.Machine.execScrubLine errs s
  | .qdrRebuildDone => Sys2Proof.Machine.execQdrRebuildDone s
  | .narrowWriteDrain wma => Sys2Proof.Machine.execNarrowWriteDrain wma s
  | .wmeCeLogFree n val => Sys2Proof.Machine.execWmeCeLogFree n val s
  | .wmeCeLogClear val => Sys2Proof.Machine.execWmeCeLogClear val s
  | .flipArm val => Sys2Proof.Machine.execFlipArm val s
  | .fullInvalidationDone => Sys2Proof.Machine.execFullInvalidationDone s
  | .tlcMaintClean val => Sys2Proof.Machine.execTlcMaintClean val s
  | .tlcMaintInvalidate val => Sys2Proof.Machine.execTlcMaintInvalidate val s
  | .tlcMaintCleanInvalidate val => Sys2Proof.Machine.execTlcMaintCleanInvalidate val s
  | .tlcAttrWrite n val => Sys2Proof.Machine.execTlcAttrWrite n val s
  -- the gauge and bind-off
  | .gaugeRecompute vbusMv capTempC phases => Sys2Proof.Machine.execGaugeRecompute vbusMv capTempC phases s
  | .reserveCharged => Sys2Proof.Machine.execReserveCharged s
  | .bankTest => Sys2Proof.Machine.execBankTest s
  | .bankTestDone complete esr cap => Sys2Proof.Machine.execBankTestDone complete esr cap s
  | .gauTestForce val => Sys2Proof.Machine.execGauTestForce val s
  | .bankFailure bank => Sys2Proof.Machine.execBankFailure bank s
  | .spareBankConnect bank => Sys2Proof.Machine.execSpareBankConnect bank s
  | .powerFail => Sys2Proof.Machine.execPowerFail s
  | .brownOut => Sys2Proof.Machine.execBrownOut s
  | .pwrdisAssert => Sys2Proof.Machine.execPwrdisAssert s
  | .pwrdisRelease => Sys2Proof.Machine.execPwrdisRelease s
  | .thermalBindoff => Sys2Proof.Machine.execThermalBindoff s
  | .bindoffFreeze => Sys2Proof.Machine.execBindoffFreeze s
  | .bindoffFrozen => Sys2Proof.Machine.execBindoffFrozen s
  | .bindoffIndexed => Sys2Proof.Machine.execBindoffIndexed s
  | .bindoffSections => Sys2Proof.Machine.execBindoffSections s
  | .bindoffComplete => Sys2Proof.Machine.execBindoffComplete s
  | .reserveLow watermark => Sys2Proof.Machine.execReserveLow watermark s
  | .p12vReturn => Sys2Proof.Machine.execP12vReturn s
  | .p12vStable => Sys2Proof.Machine.execP12vStable s
  | .dirtyZoneClear zone => Sys2Proof.Machine.execDirtyZoneClear zone s
  | .gpfPhase1 => Sys2Proof.Machine.execGpfPhase1 s
  | .gpfPhase2 => Sys2Proof.Machine.execGpfPhase2 s
  -- cast-on and resets
  | .coldCastOn => Sys2Proof.Machine.execColdCastOn s
  | .pllLock => Sys2Proof.Machine.execPllLock s
  | .fwVerified nextOk otherOk => Sys2Proof.Machine.execFwVerified nextOk otherOk s
  | .keysReady rootOk keysOk => Sys2Proof.Machine.execKeysReady rootOk keysOk s
  | .wmemReady => Sys2Proof.Machine.execWmemReady s
  | .channelEngineReady ch ok => Sys2Proof.Machine.execChannelEngineReady ch ok s
  | .mboxReady => Sys2Proof.Machine.execMboxReady s
  | .ringsReady => Sys2Proof.Machine.execRingsReady s
  | .l3LoadDone lost => Sys2Proof.Machine.execL3LoadDone lost s
  | .mapRestoreDone imageOk failed => Sys2Proof.Machine.execMapRestoreDone imageOk failed s
  | .replayDone => Sys2Proof.Machine.execReplayDone s
  | .sealLedgerCheck aOk bOk => Sys2Proof.Machine.execSealLedgerCheck aOk bOk s
  | .skeinReady k => Sys2Proof.Machine.execSkeinReady k s
  | .perstAssert => Sys2Proof.Machine.execPerstAssert s
  | .perstRelease => Sys2Proof.Machine.execPerstRelease s
  | .cxlReset => Sys2Proof.Machine.execCxlReset s
  | .flr => Sys2Proof.Machine.execFlr s
  | .configLock val => Sys2Proof.Machine.execConfigLock val s
  | .hostLinkTrained lanes rate mldBelowSwitch => Sys2Proof.Machine.execHostLinkTrained lanes rate mldBelowSwitch s
  | .refclkStop => Sys2Proof.Machine.execRefclkStop s
  | .auxLoss => Sys2Proof.Machine.execAuxLoss s
  -- keys, IDE and SPDM
  | .knownAnswerCheck engine pass => Sys2Proof.Machine.execKnownAnswerCheck engine pass s
  | .keyRetireFlushed slot => Sys2Proof.Machine.execKeyRetireFlushed slot s
  | .ideMacFailure mem => Sys2Proof.Machine.execIdeMacFailure mem s
  | .ideKeyProg session mem rx keySet key => Sys2Proof.Machine.execIdeKeyProg session mem rx keySet key s
  | .spdmGetVersion => Sys2Proof.Machine.execSpdmGetVersion s
  | .spdmGetCapabilities => Sys2Proof.Machine.execSpdmGetCapabilities s
  | .spdmNegotiateAlgorithms asym hash dhe aead => Sys2Proof.Machine.execSpdmNegotiateAlgorithms asym hash dhe aead s
  | .spdmGetDigests => Sys2Proof.Machine.execSpdmGetDigests s
  | .spdmGetCertificate slot offset length => Sys2Proof.Machine.execSpdmGetCertificate slot offset length s
  | .spdmChallenge slot nonce => Sys2Proof.Machine.execSpdmChallenge slot nonce s
  | .spdmGetMeasurements session index signed nonce => Sys2Proof.Machine.execSpdmGetMeasurements session index signed nonce s
  | .spdmKeyExchange q => Sys2Proof.Machine.execSpdmKeyExchange q s
  | .spdmFinish session hmacOk => Sys2Proof.Machine.execSpdmFinish session hmacOk s
  | .spdmHeartbeat session => Sys2Proof.Machine.execSpdmHeartbeat session s
  | .spdmKeyUpdate session => Sys2Proof.Machine.execSpdmKeyUpdate session s
  | .spdmEndSession session => Sys2Proof.Machine.execSpdmEndSession session s
  | .sealHashDone sealId => Sys2Proof.Machine.execSealHashDone sealId s
  | .verifyHashDone cmd => Sys2Proof.Machine.execVerifyHashDone cmd s
  | .selArchivedWrite val => Sys2Proof.Machine.execSelArchivedWrite val s
  -- Helra links, two-ply and the chain
  | .linkTrained k ok => Sys2Proof.Machine.execLinkTrained k ok s
  | .linkTrainRetry k => Sys2Proof.Machine.execLinkTrainRetry k s
  | .linkDown k cause => Sys2Proof.Machine.execLinkDown k cause s
  | .linkIdleTimeout k => Sys2Proof.Machine.execLinkIdleTimeout k s
  | .creditTimer k => Sys2Proof.Machine.execCreditTimer k s
  | .replayTimer k => Sys2Proof.Machine.execReplayTimer k s
  | .packetTransmit k => Sys2Proof.Machine.execPacketTransmit k s
  | .hello k hdr d => Sys2Proof.Machine.execHello k hdr d s
  | .auth k hdr a => Sys2Proof.Machine.execAuth k hdr a s
  | .mirrorWrite k hdr p => Sys2Proof.Machine.execMirrorWrite k hdr p s
  | .resyncData k hdr p => Sys2Proof.Machine.execResyncData k hdr p s
  | .helraCredit k hdr mirror resync chain => Sys2Proof.Machine.execHelraCredit k hdr mirror resync chain s
  | .helraNak k hdr expseq => Sys2Proof.Machine.execHelraNak k hdr expseq s
  | .plyOpen k hdr region count => Sys2Proof.Machine.execPlyOpen k hdr region count s
  | .plyQuery k hdr region => Sys2Proof.Machine.execPlyQuery k hdr region s
  | .plyBegin k hdr region => Sys2Proof.Machine.execPlyBegin k hdr region s
  | .plyEnd k hdr region => Sys2Proof.Machine.execPlyEnd k hdr region s
  | .plyClose k hdr region => Sys2Proof.Machine.execPlyClose k hdr region s
  | .plyErase k hdr region hoff count kind => Sys2Proof.Machine.execPlyErase k hdr region hoff count kind s
  | .plySeal k hdr region part rec hoff count => Sys2Proof.Machine.execPlySeal k hdr region part rec hoff count s
  | .plyRelease k hdr region part rec => Sys2Proof.Machine.execPlyRelease k hdr region part rec s
  | .resyncReqResponse k hdr op region status data => Sys2Proof.Machine.execResyncReqResponse k hdr op region status data s
  | .walk k hdr m => Sys2Proof.Machine.execWalk k hdr m s
  | .statusReq k hdr m => Sys2Proof.Machine.execStatusReq k hdr m s
  | .statusReply k hdr m => Sys2Proof.Machine.execStatusReply k hdr m s
  | .relay k hdr m => Sys2Proof.Machine.execRelay k hdr m s
  | .relayAck k hdr m => Sys2Proof.Machine.execRelayAck k hdr m s
  | .claim k hdr c => Sys2Proof.Machine.execClaim k hdr c s
  | .claimRoundEnd => Sys2Proof.Machine.execClaimRoundEnd s
  | .chainLinkTimeout => Sys2Proof.Machine.execChainLinkTimeout s
  | .plyReadyTimeout => Sys2Proof.Machine.execPlyReadyTimeout s
  | .plkPlyresWrite val => Sys2Proof.Machine.execPlkPlyresWrite val s
  | .plkCtlWrite val => Sys2Proof.Machine.execPlkCtlWrite val s
  -- FM API and mailbox QoS
  | .fmIdentify => Sys2Proof.Machine.execFmIdentify s
  | .backgroundOperationStatus => Sys2Proof.Machine.execBackgroundOperationStatus s
  | .getLdInfo => Sys2Proof.Machine.execGetLdInfo s
  | .getLdAllocations start count => Sys2Proof.Machine.execGetLdAllocations start count s
  | .setLdAllocations start granularity allocs => Sys2Proof.Machine.execSetLdAllocations start granularity allocs s
  | .getQosControl => Sys2Proof.Machine.execGetQosControl s
  | .setQosControl telemetry modPct sevPct interval => Sys2Proof.Machine.execSetQosControl telemetry modPct sevPct interval s
  | .getQosStatus => Sys2Proof.Machine.execGetQosStatus s
  | .getQosAllocatedBw start count => Sys2Proof.Machine.execGetQosAllocatedBw start count s
  | .setQosAllocatedBw start fractions => Sys2Proof.Machine.execSetQosAllocatedBw start fractions s
  | .getQosBwLimit start count => Sys2Proof.Machine.execGetQosBwLimit start count s
  | .setQosBwLimit start fractions => Sys2Proof.Machine.execSetQosBwLimit start fractions s
  | .getSldQosControl mb => Sys2Proof.Machine.execGetSldQosControl mb s
  | .setSldQosControl mb telemetry modPct sevPct interval => Sys2Proof.Machine.execSetSldQosControl mb telemetry modPct sevPct interval s
  | .getSldQosStatus mb => Sys2Proof.Machine.execGetSldQosStatus mb s
  | .hdmDecoderCommit ld m base size ways gran skip position lockOnCommit poisonOnErr => Sys2Proof.Machine.execHdmDecoderCommit ld m base size ways gran skip position lockOnCommit poisonOnErr s
  | .doeDiscovery index => Sys2Proof.Machine.execDoeDiscovery index s
  | .tableAccess entry => Sys2Proof.Machine.execTableAccess entry s
  -- mailbox commands
  | .getEventRecords mb log => Sys2Proof.Machine.execGetEventRecords mb log s
  | .clearEventRecords mb log all handles => Sys2Proof.Machine.execClearEventRecords mb log all handles s
  | .getEventInterruptPolicy mb => Sys2Proof.Machine.execGetEventInterruptPolicy mb s
  | .setEventInterruptPolicy mb info warn fail fatal => Sys2Proof.Machine.execSetEventInterruptPolicy mb info warn fail fatal s
  | .getFwInfo mb => Sys2Proof.Machine.execGetFwInfo mb s
  | .transferFw mb action slot offset data sigOk productOk => Sys2Proof.Machine.execTransferFw mb action slot offset data sigOk productOk s
  | .activateFw mb online slot => Sys2Proof.Machine.execActivateFw mb online slot s
  | .getTimestamp mb => Sys2Proof.Machine.execGetTimestamp mb s
  | .setTimestamp mb ns => Sys2Proof.Machine.execSetTimestamp mb ns s
  | .getSupportedLogs mb => Sys2Proof.Machine.execGetSupportedLogs mb s
  | .getLog mb uuid offset length => Sys2Proof.Machine.execGetLog mb uuid offset length s
  | .identifyMemoryDevice mb => Sys2Proof.Machine.execIdentifyMemoryDevice mb s
  | .getPartitionInfo mb => Sys2Proof.Machine.execGetPartitionInfo mb s
  | .setPartitionInfo mb => Sys2Proof.Machine.execSetPartitionInfo mb s
  | .getLsa mb offset length => Sys2Proof.Machine.execGetLsa mb offset length s
  | .setLsa mb offset data => Sys2Proof.Machine.execSetLsa mb offset data s
  | .getHealthInfo mb => Sys2Proof.Machine.execGetHealthInfo mb s
  | .getAlertConfiguration mb => Sys2Proof.Machine.execGetAlertConfiguration mb s
  | .setAlertConfiguration mb valid enable life overT underT volErr persErr => Sys2Proof.Machine.execSetAlertConfiguration mb valid enable life overT underT volErr persErr s
  | .getShutdownState mb => Sys2Proof.Machine.execGetShutdownState mb s
  | .setShutdownState mb val => Sys2Proof.Machine.execSetShutdownState mb val s
  | .getPoisonList mb dpa len => Sys2Proof.Machine.execGetPoisonList mb dpa len s
  | .injectPoison mb dpa => Sys2Proof.Machine.execInjectPoison mb dpa s
  | .clearPoison mb dpa data => Sys2Proof.Machine.execClearPoison mb dpa data s
  | .getScanMediaCapabilities mb dpa len => Sys2Proof.Machine.execGetScanMediaCapabilities mb dpa len s
  | .scanMedia mb dpa len noEvents => Sys2Proof.Machine.execScanMedia mb dpa len noEvents s
  | .scanMediaDone found => Sys2Proof.Machine.execScanMediaDone found s
  | .getScanMediaResults mb => Sys2Proof.Machine.execGetScanMediaResults mb s
  | .sanitize mb => Sys2Proof.Machine.execSanitize mb s
  | .secureErase mb => Sys2Proof.Machine.execSecureErase mb s
  | .sanitizeDone => Sys2Proof.Machine.execSanitizeDone s
  | .getSecurityState mb => Sys2Proof.Machine.execGetSecurityState mb s
  | .setPassphrase mb master old new => Sys2Proof.Machine.execSetPassphrase mb master old new s
  | .disablePassphrase mb master old => Sys2Proof.Machine.execDisablePassphrase mb master old s
  | .unlock mb pass => Sys2Proof.Machine.execUnlock mb pass s
  | .freezeSecurityState mb => Sys2Proof.Machine.execFreezeSecurityState mb s
  | .passphraseSecureErase mb master pass => Sys2Proof.Machine.execPassphraseSecureErase mb master pass s
  | .ethornPassthru mb p input => Sys2Proof.Machine.execEthornPassthru mb p input s
  | .ethornWarmRestart mb => Sys2Proof.Machine.execEthornWarmRestart mb s
  -- sideband
  | .arp assign => Sys2Proof.Machine.execArp assign s
  | .arpResetDevice => Sys2Proof.Machine.execArpResetDevice s
  | .smbrstAssert => Sys2Proof.Machine.execSmbrstAssert s
  | .basicStatusRead => Sys2Proof.Machine.execBasicStatusRead s
  | .identityBlockRead => Sys2Proof.Machine.execIdentityBlockRead s
  | .statusBlockRefresh => Sys2Proof.Machine.execStatusBlockRefresh s
  | .setEndpointId eid => Sys2Proof.Machine.execSetEndpointId eid s
  | .mctpVendorMessage p input => Sys2Proof.Machine.execMctpVendorMessage p input s
  -- rings
  | .ringDoorbell ring val => Sys2Proof.Machine.execRingDoorbell ring val s
  | .commandFetch ring host p sgl input => Sys2Proof.Machine.execCommandFetch ring host p sgl input s
  | .cqHeadWrite ring val => Sys2Proof.Machine.execCqHeadWrite ring val s
  | .ringEnable ring val => Sys2Proof.Machine.execRingEnable ring val s
  | .ringStop ring val => Sys2Proof.Machine.execRingStop ring val s
  | .msixCoalesceTimer ring => Sys2Proof.Machine.execMsixCoalesceTimer ring s
  | .commandExpiry cmd => Sys2Proof.Machine.execCommandExpiry cmd s
  -- ring opcodes
  | .identifyUnit cmd => Sys2Proof.Machine.execIdentifyUnit cmd s
  | .getReadiness cmd => Sys2Proof.Machine.execGetReadiness cmd s
  | .getCertChain cmd => Sys2Proof.Machine.execGetCertChain cmd s
  | .getHealthExt cmd => Sys2Proof.Machine.execGetHealthExt cmd s
  | .readHistory cmd => Sys2Proof.Machine.execReadHistory cmd s
  | .resetHistory cmd => Sys2Proof.Machine.execResetHistory cmd s
  | .gaugeStatus cmd => Sys2Proof.Machine.execGaugeStatus cmd s
  | .gaugeTest cmd => Sys2Proof.Machine.execGaugeTest cmd s
  | .preparePowerLoss cmd => Sys2Proof.Machine.execPreparePowerLoss cmd s
  | .setReservation cmd => Sys2Proof.Machine.execSetReservation cmd s
  | .getContract cmd => Sys2Proof.Machine.execGetContract cmd s
  | .copyLines cmd => Sys2Proof.Machine.execCopyLines cmd s
  | .fillLines cmd => Sys2Proof.Machine.execFillLines cmd s
  | .persistFence cmd => Sys2Proof.Machine.execPersistFence cmd s
  | .readViaRing cmd => Sys2Proof.Machine.execReadViaRing cmd s
  | .writeViaRing cmd => Sys2Proof.Machine.execWriteViaRing cmd s
  | .discard cmd => Sys2Proof.Machine.execDiscard cmd s
  | .zeroHanks cmd => Sys2Proof.Machine.execZeroHanks cmd s
  | .keyLoad cmd => Sys2Proof.Machine.execKeyLoad cmd s
  | .keyBind cmd => Sys2Proof.Machine.execKeyBind cmd s
  | .keyRetire cmd => Sys2Proof.Machine.execKeyRetire cmd s
  | .keyQuery cmd => Sys2Proof.Machine.execKeyQuery cmd s
  | .sealExtent cmd => Sys2Proof.Machine.execSealExtent cmd s
  | .getSealRecord cmd => Sys2Proof.Machine.execGetSealRecord cmd s
  | .releaseSeal cmd => Sys2Proof.Machine.execReleaseSeal cmd s
  | .verifyExtent cmd => Sys2Proof.Machine.execVerifyExtent cmd s
  | .setPly cmd => Sys2Proof.Machine.execSetPly cmd s
  | .getPlyState cmd => Sys2Proof.Machine.execGetPlyState cmd s
  | .resyncPly cmd => Sys2Proof.Machine.execResyncPly cmd s
  | .chainWalk cmd => Sys2Proof.Machine.execChainWalk cmd s
  | .chainWalkWaitEnd cmd => Sys2Proof.Machine.execChainWalkWaitEnd cmd s
  | .chainRelay cmd => Sys2Proof.Machine.execChainRelay cmd s
  | .chainStatus cmd => Sys2Proof.Machine.execChainStatus cmd s
  | .cacheClean cmd => Sys2Proof.Machine.execCacheClean cmd s
  | .cacheInvalidate cmd => Sys2Proof.Machine.execCacheInvalidate cmd s
  | .cacheCleanInvalidate cmd => Sys2Proof.Machine.execCacheCleanInvalidate cmd s
  | .scrubControl cmd => Sys2Proof.Machine.execScrubControl cmd s
  | .migrationControl cmd => Sys2Proof.Machine.execMigrationControl cmd s
  | .stashRead cmd => Sys2Proof.Machine.execStashRead cmd s
  | .stashWrite cmd => Sys2Proof.Machine.execStashWrite cmd s
  | .ratchetAdvance cmd => Sys2Proof.Machine.execRatchetAdvance cmd s
  | .ratchetRead cmd => Sys2Proof.Machine.execRatchetRead cmd s
  | .injectFault cmd => Sys2Proof.Machine.execInjectFault cmd s
  | .selfTest cmd => Sys2Proof.Machine.execSelfTest cmd s
  -- counting and remembering
  | .pmcGen val => Sys2Proof.Machine.execPmcGen val s
  | .pmcClear val => Sys2Proof.Machine.execPmcClear val s
  | .pmcCntWrite n val => Sys2Proof.Machine.execPmcCntWrite n val s
  | .bwwLenWrite val => Sys2Proof.Machine.execBwwLenWrite val s
  | .bandwidthWindowEnd => Sys2Proof.Machine.execBandwidthWindowEnd s
  | .historyIngest => Sys2Proof.Machine.execHistoryIngest s
  | .historyFlush => Sys2Proof.Machine.execHistoryFlush s
  -- platform services
  | .efcUnlock val => Sys2Proof.Machine.execEfcUnlock val s
  | .efcRead => Sys2Proof.Machine.execEfcRead s
  | .efcProgram fromBar fetching => Sys2Proof.Machine.execEfcProgram fromBar fetching s
  | .efcEraseSector fromBar fetching => Sys2Proof.Machine.execEfcEraseSector fromBar fetching s
  | .efcEraseBank fromBar fetching => Sys2Proof.Machine.execEfcEraseBank fromBar fetching s
  | .flashProgramDone verified => Sys2Proof.Machine.execFlashProgramDone verified s
  | .flashEraseDone firstOk repeatOk => Sys2Proof.Machine.execFlashEraseDone firstOk repeatOk s
  | .sensorSample readings => Sys2Proof.Machine.execSensorSample readings s
  | .sensorSelfCheck sn pass spareOk => Sys2Proof.Machine.execSensorSelfCheck sn pass spareOk s
  | .sensorExclude sn val => Sys2Proof.Machine.execSensorExclude sn val s
  | .thermalAutoResume => Sys2Proof.Machine.execThermalAutoResume s
  | .pwrReqWrite val => Sys2Proof.Machine.execPwrReqWrite val s
  | .pwrLimitWrite val => Sys2Proof.Machine.execPwrLimitWrite val s
  | .sramTest bank isMatch abandoned => Sys2Proof.Machine.execSramTest bank isMatch abandoned s
  | .pointerMismatch queue => Sys2Proof.Machine.execPointerMismatch queue s
  | .coreHeartbeatTimeout core => Sys2Proof.Machine.execCoreHeartbeatTimeout core s
  | .coreTakeoverDone => Sys2Proof.Machine.execCoreTakeoverDone s
  | .poweredLifeEnd => Sys2Proof.Machine.execPoweredLifeEnd s
  | .admResvWrite internal n val => Sys2Proof.Machine.execAdmResvWrite internal n val s
  | .registerWrite ld offset width val => Sys2Proof.Machine.execRegisterWrite ld offset width val s
  | .spareBankTest bank complete esr cap => Sys2Proof.Machine.execSpareBankTest bank complete esr cap s
  | .p3v3AuxReturn => Sys2Proof.Machine.execP3v3AuxReturn s
  | .refclkReturn => Sys2Proof.Machine.execRefclkReturn s
  | .chainMsg k hdr m => Sys2Proof.Machine.execChainMsg k hdr m s
  | .packetCrcFailure k => Sys2Proof.Machine.execPacketCrcFailure k s
  | .selfTestDone kind firstFail items => Sys2Proof.Machine.execSelfTestDone kind firstFail items s
  | .freeBitmapRebuilt => Sys2Proof.Machine.execFreeBitmapRebuilt s

end Sys2Proof.Machine
end

