-- ==== Sys2Proof/Machine/Tick.lean ====
section
/-! DEFINITION. The passing of one tick, which is what a step does when no command waits: device time (R41), PMC_CYCLES (R395), the counters
that count by level (R396, R397), powered time (R453), the wall time offset that applies from this tick (R42), and the report of GPF Phase 2
that waited (R208). -/

namespace Sys2Proof.Machine

/-- Device time runs: main power is on, or a bind-off or its end holds the module. -/
def State.timeRuns (s : State) : Bool := s.power == .on || s.power == .bindoff || s.power == .bound

/-- Device time, powered time and the wall time offset at the next tick, and the registers as they stand at its start (R17, R183). -/
def State.timeTick (s : State) : State :=
  { s with
    clk := { s.clk with now := s.clk.now + 1, offset := s.clk.nextOffset.getD s.clk.offset, nextOffset := none,
                        regs0 := s.regs, armAgain := false }
    hwSet := []
    adm := { s.adm with resvLog := [] }
    tlc := { s.tlc with filled := [], attrs0 := [] }
    hist := { s.hist with bytes0 := s.hist.bytes }
    hanks := { s.hanks with poweredTicks := s.hanks.poweredTicks + 1 } }

/-- PMC_CYCLES counts the 12 CCLK cycles of a tick from PLL lock. -/
def State.cycleTick (s : State) : State :=
  if s.clk.pll then s.setReg Reg.PMC_CYCLES (s.reg Reg.PMC_CYCLES + 12) else s

/-- A QDR rebuild goes on in WMA order (R169): WME_REBUILD.DONE rises by a free amount and stays below 2^22 until the rebuild completes (log 83). -/
def State.qdrTick (s : State) : State :=
  if s.fget Reg.WME_STATE Fld.WME_STATE_REBUILD = 1 then
    let (v, s1) := s.draw 22
    let d := s.fget Reg.WME_REBUILD Fld.WME_REBUILD_DONE
    s1.fset Reg.WME_REBUILD Fld.WME_REBUILD_DONE (d + v.toNat % (2 ^ 22 - d))
  else s

/-- GPF Phase 2 is answered once every accepted write has landed. -/
def State.gpfTick (s : State) : State :=
  if s.energy.gpf && s.writesLanded then State.gpfOut { s with energy := { s.energy with gpf := false } } 2 else s

/-- One tick; without main power nothing counts. -/
def State.tick (s : State) : State := if s.timeRuns then s.timeTick.cycleTick.pmcTick.qdrTick.gpfTick else s

def execTick (s : State) : Res := nextState s.tick

end Sys2Proof.Machine
end

