-- ==== Sys2Proof/Machine/RegRead.lean ====
section
/-! DEFINITION. What a read through BAR2/3 answers (R13 to R16, R399, R404, R413). A read changes nothing and has no row in the opcode table; the
statements speak of the registers by it. -/

namespace Sys2Proof.Machine

/-- TLC_MAP_ENTRY: the entry that TLC_MAP_SEL selects, zero beyond the map (Tables 4-12, 4-13). Until MAP is 1 the function accepts no read
(Table 7-2); DESIGN CHOICE (log 84): it then answers zero, which the spec does not state. -/
def State.mapSelected (s : State) : W64 :=
  let idx := s.fget Reg.TLC_MAP_SEL Fld.TLC_MAP_SEL_INDEX
  if !(s.ready rMAP) then 0
  else if s.fget Reg.TLC_MAP_SEL Fld.TLC_MAP_SEL_SYS = 1 then (if idx < 199744 then (s.sysEntry idx).word else 0)
  else if idx < 6291456 then (s.hostEntry idx).word else 0

/-- PWR_HELD: the domains that Table 14-7 holds off; none while main power is off. -/
def State.domainsHeld (s : State) : Nat := if s.mainOff then 0 else 2 ^ 57 - 1 - s.domainsOn

/-- A register as it reads: fields written only read as zero, and four registers show what stands elsewhere. -/
def State.regView (s : State) (off : Nat) : W64 :=
  if (specOf off).isNone then 0
  else if off = Reg.KEY_SLOT then s.slotWord (s.fget Reg.KEY_SLOT_SEL Fld.KEY_SLOT_SEL_IDX)
  else if off = Reg.TLC_MAP_ENTRY then s.mapSelected
  else if off = Reg.PWR_STATE then BitVec.ofNat 64 s.domainsOn
  else if off = Reg.PWR_HELD then BitVec.ofNat 64 s.domainsHeld
  else s.reg off &&& ~~~(accMask off fun a => a == .wo)

/-- Eight bytes of the Stash as STW and HSW show them: the ranges of R248 and R281 read as zeros, and a byte the spec does not state is free. -/
def State.stashView (s : State) (x : Nat) : W64 :=
  if stashHidden x 8 then 0 else BitVec.ofNat 64 (ofBytes (s.stashBytes x 8).1)

/-- The eight bytes at a multiple of eight. -/
def State.barWord (s : State) (off : Nat) : W64 :=
  if 0x100000 ≤ off ∧ off < 0x300000 then s.stashView (off - 0x100000)
  else if 0x300000 ≤ off ∧ off < 0x340000 then s.stashView (0x140000 + (off - 0x300000))
  else s.regView off

/-- A read by the function of an LD: 64 bits at a multiple of 8, or 32 bits at a multiple of 4, which is 0 for a counter or a time value (R14).
DESIGN CHOICE (log 84): the spec states no answer to a misaligned read or to one of another width; it is 0. -/
def State.barRead (s : State) (ld off width : Nat) : W64 :=
  let base := off / 8 * 8
  if s.privDenied ld base then 0
  else if width = 64 ∧ off % 8 = 0 then s.barWord base
  else if width = 32 ∧ off % 4 = 0 ∧ isWide base = false then
    (if off % 8 = 4 then s.barWord base >>> 32 else s.barWord base &&& 0xFFFFFFFF)
  else 0

end Sys2Proof.Machine
end

