-- ==== Sys2Proof/Safety.lean ====
section
/-! DEFINITION. What the claims speak of: the invariants of the machine, and what "unchanged" means for the registers. -/

namespace Sys2Proof.Machine

/-- Every live field shows what it reports. -/
def State.Live (s : State) : Prop := ∀ x ∈ liveFields, s.fget x.1 x.2.1 = liveValue x.2.1 (x.2.2 s)

/-- Whether two fields of one register share no bit. -/
def apart (f g : Field) : Bool := decide (f.hi < g.lo) || decide (g.hi < f.lo)

/-- Whether a field shares no bit with a live field. -/
def quietField (off : Nat) (f : Field) : Bool := liveFields.all fun x => x.1 != off || apart x.2.1 f

/-- Whether a register has no live field. -/
def quietReg (off : Nat) : Bool := liveFields.all fun x => x.1 != off

/-- Every register but those of a list, and but the live fields, is as before. -/
def RegsKept (s t : State) (but : List Nat) : Prop := ∀ off, quietReg off = true → off ∉ but → t.reg off = s.reg off

/-- The parts of the state beside its queue, and beside `hwSet`, which tells a write of 1 to clear what hardware has set in the same tick (R17)
and is empty from the next tick. -/
inductive Part where
  | regs | outbox | freeCtr | power | clk | adm | hanks | med | crypto | tlc | wm | energy | cast | linkA | linkB | chain | cxl | rings | cmds
  | seals | logs | hist | plat
  deriving DecidableEq, Repr

/-- One part of two states is the same; for the registers, all but the live fields. -/
def Part.same (s t : State) : Part → Prop
  | .regs => RegsKept s t []
  | .outbox => t.outbox = s.outbox
  | .freeCtr => t.freeCtr = s.freeCtr
  | .power => t.power = s.power
  | .clk => t.clk = s.clk
  | .adm => t.adm = s.adm
  | .hanks => t.hanks = s.hanks
  | .med => t.med = s.med
  | .crypto => t.crypto = s.crypto
  | .tlc => t.tlc = s.tlc
  | .wm => t.wm = s.wm
  | .energy => t.energy = s.energy
  | .cast => t.cast = s.cast
  | .linkA => t.linkA = s.linkA
  | .linkB => t.linkB = s.linkB
  | .chain => t.chain = s.chain
  | .cxl => t.cxl = s.cxl
  | .rings => t.rings = s.rings
  | .cmds => t.cmds = s.cmds ∧ t.nextCmd = s.nextCmd
  | .seals => t.seals = s.seals
  | .logs => t.logs = s.logs
  | .hist => t.hist = s.hist
  | .plat => t.plat = s.plat

/-- From `s` to `t` nothing has changed but the parts of `ps` and the live fields. The medium, which holds every stored line, is one of the
parts. -/
def Keeps (s t : State) (ps : List Part) : Prop := t.pending = s.pending ∧ ∀ p, p ∉ ps → p.same s t

/-- The same, and of the registers only those of `rs` may differ. -/
def Frame (s t : State) (ps : List Part) (rs : List Nat) : Prop := Keeps s t (.regs :: ps) ∧ RegsKept s t rs

/-- The eight PMC counters, which many commands count in. -/
def pmcRegs : List Nat := (List.range 8).map Reg.PMC_CNT

/-- A host request accepted now whose skein is not ready (R52). -/
def waiting (s : State) (kind : ReqKind) (ld dpa : Nat) (data : Line) (mask : BitVec 64) : DlEntry :=
  { kind := kind, ld := ld, dpa := dpa / 64 * 64, line := s.lineOfDpa ld dpa, accept := s.clk.now, base := s.clk.now, deadline := none,
    routed := false, data := data, mask := mask, cover := s.adm.covers.headD false, mirror := none, stuck := false, merged := false,
    wpol := none, key := none }

/-- Nothing waits for room: no request in translation, no line of a command, no mirrored line, and no stripe for its recompute (R28). -/
abbrev State.NoWaits (s : State) : Prop :=
  (∀ e ∈ s.adm.dl, e.2.stuck = false) ∧ s.tlc.waits = [] ∧ s.linkA.mirrorWait = [] ∧ s.linkB.mirrorWait = [] ∧ s.hanks.suspect = []

/-- No medium operation, program, migration or die rebuild is under way, or waits. -/
abbrev State.NoMedium (s : State) : Prop :=
  s.adm.ops = [] ∧ s.med.progs = [] ∧ s.hanks.migs = [] ∧ s.hanks.retireQ = [] ∧ s.hanks.evac = [] ∧ ∀ ch, ch < 34 → s.rebuilds ch = false

/-- The latched read of a channel that comes first, of those whose purpose passes (R71, R95). -/
def State.firstLatched (s : State) (ch : Nat) (p : Purpose → Bool) : Option (Nat × Op) :=
  leastBy (fun a b => opBefore a.2 b.2) ((s.latchedOn ch).filter fun e => match e.2.kind with | .read r => p r.purpose | _ => false)

/-- The stored lines of the medium stand in canonical form: keys rise, and a blank line is not listed. -/
abbrev Medium.wf (m : Medium) : Prop := TCanon m.blank m.lines

/-- The registers stand in canonical form: offsets rise, and a register at its reset value is not listed. -/
abbrev State.regsWf (s : State) : Prop := TCanon regReset s.regs

/-- A sequenced packet passes every check of link `k` in one of the states given: its sequence, its tag, its class and its credits (R309, R311,
R313, R315). -/
def State.Accepts (s : State) (k : Nat) (hdr : PktHdr) (states : List Nat) (cls cost : Nat) : Prop :=
  k < 2 ∧ s.linkState k ∈ states ∧ hdr.seq = (s.link k).rxSeq ∧ hdr.tagOk = true ∧ hdr.cls = cls ∧
    (cls < 3 → (s.link k).rxUsed.getD cls 0 + cost ≤ (s.link k).given.getD cls 0)

/-- A CREDIT or NAK passes every check of link `k` (R312). -/
def State.AcceptsFree (s : State) (k : Nat) (hdr : PktHdr) (states : List Nat) : Prop :=
  k < 2 ∧ s.linkState k ∈ states ∧ hdr.tagOk = true ∧ hdr.cls = 3

/-- The state once an accepted packet has been counted: its bytes, the time, what it acknowledges, its sequence and credits (R311 to R315). -/
def State.accepted (s : State) (k : Nat) (hdr : PktHdr) (cls cost : Nat) : State :=
  let s1 := (s.updLink k fun l => { l with lastRx := s.clk.now }).linkBytes k hdr.len
  let l := if hdr.ackv then (s1.link k).acked hdr.ackseq else s1.link k
  s1.setLink k { l with
    rxSeq := ((s.link k).rxSeq + 1) % 4096, ackDue := true
    rxUsed := if cls < 3 then lset (s.link k).rxUsed cls ((s.link k).rxUsed.getD cls 0 + cost) else (s.link k).rxUsed }

/-- The state once an accepted CREDIT or NAK has been counted; while the link is UP its counter is the smallest above the last accepted with
the low bits received (R312). -/
def State.acceptedFree (s : State) (k : Nat) (hdr : PktHdr) : State :=
  let s1 := (s.updLink k fun l => { l with lastRx := s.clk.now }).linkBytes k hdr.len
  let l := if hdr.ackv then (s1.link k).acked hdr.ackseq else s1.link k
  let n := (s.link k).rxUctr / 2 ^ 20 * 2 ^ 20 + hdr.uctr % 2 ^ 20
  s1.setLink k { l with rxUctr := if s.linkUp k then (if n < (s.link k).rxUctr then n + 2 ^ 20 else n) + 1 else (s.link k).rxUctr }

/-- Command `id` is one of opcode `op`, and may start. -/
def State.CmdReady (s : State) (id op : Nat) (c : Cmd) : Prop := tget s.cmds id = some c ∧ c.pkt.opcode = op ∧ s.mayStart id c = true

/-- The state in which command `id` has started. -/
def State.begun (s : State) (id : Nat) (c : Cmd) : State := s.setCmd id { c with running := true }

/-- Where the answer of command `c` goes in `t`: the completion queue of its ring, at the tail and with the phase that `s` holds, and the buffer its
packet names; or the path of its mailbox or of MCTP (R377, R384). -/
def State.Carries (s t : State) (c : Cmd) (st r0 r1 : Nat) (bytes : List Byte) : Carrier → Prop
  | .ring n => n < 8 → s.cqDead n = false →
      Out.cqe n (s.fget (Reg.CRG_CQ_TAIL n) Fld.CRG_CQ_TAIL_TAIL) c.pkt.tag st (s.fget (Reg.CRG_CQ_TAIL n) Fld.CRG_CQ_TAIL_PHASE) (r0 % 2 ^ 64)
        (r1 % 2 ^ 64) s.clk.now ∈ t.outbox ∧
      (bytes ≠ [] → c.pkt.flags.testBit 10 = false → Out.host c.pkt.bufptr bytes ∈ t.outbox) ∧
      t.reg (Reg.CRG_DONE n) = s.reg (Reg.CRG_DONE n) + 1
  | .primary ld => Out.carrier (.primary ld) c.pkt.tag st (r0 % 2 ^ 64) (r1 % 2 ^ 64) s.clk.now bytes ∈ t.outbox
  | .secondary ld => Out.carrier (.secondary ld) c.pkt.tag st (r0 % 2 ^ 64) (r1 % 2 ^ 64) s.clk.now bytes ∈ t.outbox
  | .mctp => Out.carrier .mctp c.pkt.tag st (r0 % 2 ^ 64) (r1 % 2 ^ 64) s.clk.now bytes ∈ t.outbox

/-- Command `id` has completed in `t`: it is gone, and unless it was stopped or its buffer failed, its answer stands where its carrier takes it. -/
def State.Answered (s t : State) (id : Nat) (c : Cmd) (st r0 r1 : Nat) (bytes : List Byte) : Prop :=
  tget t.cmds id = none ∧
    (c.stopping = false → c.endWith = none → c.host = .ok → c.pkt.opcode < 65536 → s.Carries t c st r0 r1 bytes c.carrier)

/-- Where the stored copy of a logical line stands in the medium, by its map entry. -/
def State.medKeyOf (s : State) (line : Nat) : Nat := medKey (s.hostEntry (lhnOf line)).phn (stripeOf line) (pageOf line) (lineOf line)

/-- A line that a command with this key index may write and that the pool holds, in a one-ply hank, where no line of a command waits for room: its
write overwrites it in place (R25, R253). -/
def State.overwrites (s : State) (key line : Nat) : Bool :=
  (s.writeStop key line).isNone && s.writeFate line == .apply && !s.patchWaits line && (s.regionOf (lhnOf line)).isNone &&
    (s.poolGet line).isSome && s.tlc.waits.all fun w => w.line != line

/-- The parts that an event record touches, beside registers. -/
def eventParts : List Part := [.outbox, .logs, .hist]

/-- The parts that the completion of a ring, mailbox or MCTP command can touch, beside registers (R377, R387). -/
def doneParts : List Part := eventParts ++ [.linkA, .linkB, .chain, .cxl, .rings, .cmds, .seals]

/-- The parts of the state that each command may change: it keeps every other part, and its queue, whatever the state. -/
def footprint : Instr → List Part
  -- CXL.mem, admission and the read path
  | .memRd _ _ => eventParts ++ [.freeCtr, .regs, .adm, .hanks, .med, .crypto, .tlc, .wm, .energy, .linkA, .linkB, .cxl]
  | .memWr _ _ _ => eventParts ++ [.freeCtr, .regs, .adm, .hanks, .med, .crypto, .tlc, .wm, .energy, .linkA, .linkB, .cxl]
  | .memWrPtl _ _ _ _ => eventParts ++ [.freeCtr, .regs, .adm, .hanks, .med, .crypto, .tlc, .wm, .energy, .linkA, .linkB, .cxl]
  | .creditIssue _ => [.outbox, .adm]
  | .rowBoundary => doneParts ++ [.freeCtr, .regs, .adm, .hanks, .med, .crypto, .tlc, .wm, .energy]
  | .transferSlot _ _ => eventParts ++ [.freeCtr, .regs, .adm, .hanks, .med, .crypto, .tlc, .wm, .linkA, .linkB, .cxl]
  | .senseComplete _ _ => [.regs, .adm, .med, .tlc]
  | .valleySenseComplete _ _ => doneParts ++ [.freeCtr, .regs, .adm, .hanks, .med, .crypto, .tlc, .wm, .energy, .cast]
  | .stripeRebuildComplete _ _ => doneParts ++ [.freeCtr, .regs, .adm, .hanks, .med, .crypto, .tlc, .wm, .energy]
  | .stitchEnd _ _ => doneParts ++ [.freeCtr, .regs, .adm, .hanks, .med, .crypto, .tlc, .wm, .energy, .cast]
  | .lineDecryptDone _ _ => eventParts ++ [.freeCtr, .regs, .adm, .hanks, .med, .crypto, .tlc, .wm, .energy, .linkA, .linkB, .cxl]
  | .counterFetchDone _ _ => eventParts ++ [.freeCtr, .regs, .adm, .hanks, .med, .crypto, .tlc, .wm, .linkA, .linkB, .cxl]
  | .counterWriteBack _ _ => doneParts ++ [.freeCtr, .regs, .adm, .hanks, .med, .crypto, .tlc, .wm, .energy, .cast]
  | .writeBack _ => doneParts ++ [.freeCtr, .regs, .adm, .hanks, .med, .crypto, .tlc, .wm, .cast]
  | .writeBackDone _ => doneParts ++ [.freeCtr, .regs, .adm, .hanks, .med, .crypto, .tlc, .wm, .energy, .cast]
  | .mirrorAck _ _ _ => doneParts ++ [.freeCtr, .regs, .adm, .hanks, .med, .crypto, .tlc, .wm, .energy]
  | .mergeBufferReadsDone _ => doneParts ++ [.freeCtr, .regs, .adm, .hanks, .med, .crypto, .tlc, .wm, .cast]
  -- drift, refresh, dies and channels
  | .driftStep _ => [.regs, .adm, .med]
  | .driftClock _ => eventParts ++ [.regs, .adm, .med, .tlc]
  | .refreshVisit _ _ _ => eventParts ++ [.freeCtr, .regs, .adm, .hanks, .med, .crypto, .tlc, .wm, .linkA, .linkB, .cxl]
  | .dieFailure _ _ => doneParts ++ [.freeCtr, .regs, .adm, .hanks, .med, .crypto, .tlc, .wm, .energy, .cast]
  | .dieRebuildDone _ => [.regs]
  | .channelWatchdog _ => doneParts ++ [.freeCtr, .regs, .adm, .hanks, .med, .crypto, .tlc, .wm, .energy, .cast]
  | .engineRestartDone _ => doneParts ++ [.freeCtr, .regs, .adm, .hanks, .med, .crypto, .tlc, .wm, .energy]
  | .rowplanWrite _ _ => [.regs, .med]
  -- map, migration, discard
  | .mapCheckpoint => [.regs, .hanks]
  | .mapCheckpointDone => doneParts ++ [.freeCtr, .regs, .adm, .hanks, .med, .crypto, .tlc, .wm, .energy]
  | .mapEntryRestore _ _ => doneParts ++ [.freeCtr, .regs, .adm, .hanks, .med, .crypto, .tlc, .wm, .energy]
  | .staticSweepVisit => eventParts ++ [.freeCtr, .regs, .adm, .hanks, .wm]
  | .migrationCopyDone _ => [.hanks]
  | .migrationVerifyDone _ _ => doneParts ++ [.freeCtr, .regs, .adm, .hanks, .med, .crypto, .tlc, .wm, .energy, .cast]
  | .migrationCommit _ => doneParts ++ [.freeCtr, .regs, .adm, .hanks, .med, .crypto, .tlc, .wm, .energy, .cast]
  | .migrationRelease _ => eventParts ++ [.freeCtr, .regs, .adm, .hanks, .med, .wm]
  | .hintZero _ => eventParts ++ [.freeCtr, .regs, .adm, .hanks, .crypto, .wm]
  | .hankZeroDone _ => doneParts ++ [.freeCtr, .regs, .adm, .hanks, .crypto, .tlc, .wm, .cast]
  | .secureOverwriteDone _ => doneParts ++ [.freeCtr, .regs, .adm, .hanks, .med, .crypto, .tlc, .wm, .cast]
  -- working memory and line cache
  | .scrubLine _ => eventParts ++ [.freeCtr, .regs, .adm, .hanks, .med, .crypto, .tlc, .wm, .linkA, .linkB, .cxl]
  | .qdrRebuildDone => [.regs]
  | .narrowWriteDrain _ => eventParts ++ [.freeCtr, .regs, .adm, .hanks, .wm]
  | .wmeCeLogFree _ _ => [.regs]
  | .wmeCeLogClear _ => [.regs]
  | .flipArm _ => [.regs, .clk]
  | .fullInvalidationDone => doneParts ++ [.regs, .tlc]
  | .tlcMaintClean _ => doneParts ++ [.regs, .tlc]
  | .tlcMaintInvalidate _ => doneParts ++ [.regs, .tlc]
  | .tlcMaintCleanInvalidate _ => doneParts ++ [.regs, .tlc]
  | .tlcAttrWrite _ _ => [.regs, .tlc]
  -- the gauge and bind-off
  | .gaugeRecompute _ _ _ => eventParts ++ [.freeCtr, .regs, .energy, .cxl]
  | .reserveCharged => eventParts ++ [.regs, .energy]
  | .bankTest => [.regs, .energy]
  | .bankTestDone _ _ _ => doneParts ++ [.regs, .energy]
  | .gauTestForce _ => [.regs, .energy, .plat]
  | .bankFailure _ => doneParts ++ [.regs, .energy]
  | .spareBankConnect _ => eventParts ++ [.regs, .energy]
  | .powerFail => doneParts ++ [.freeCtr, .regs, .power, .clk, .adm, .hanks, .med, .crypto, .tlc, .wm, .energy, .cast, .plat]
  | .brownOut => [.regs]
  | .pwrdisAssert => doneParts ++ [.freeCtr, .regs, .power, .adm, .hanks, .med, .crypto, .tlc, .wm, .energy, .cast, .plat]
  | .pwrdisRelease => doneParts ++ [.freeCtr, .regs, .power, .clk, .adm, .hanks, .med, .crypto, .tlc, .wm, .energy, .cast, .plat]
  | .thermalBindoff => doneParts ++ [.regs, .power, .energy, .plat]
  | .bindoffFreeze => doneParts ++ [.freeCtr, .regs, .adm, .hanks, .med, .crypto, .tlc, .wm, .energy]
  | .bindoffFrozen => doneParts ++ [.freeCtr, .regs, .adm, .hanks, .tlc, .wm, .energy, .cast]
  | .bindoffIndexed => [.energy]
  | .bindoffSections => [.energy]
  | .bindoffComplete => doneParts ++ [.freeCtr, .regs, .power, .adm, .hanks, .med, .crypto, .tlc, .wm, .energy, .cast, .plat]
  | .reserveLow _ => [.freeCtr, .regs, .power, .adm, .hanks, .med, .crypto, .tlc, .wm, .energy, .cast, .linkA, .linkB, .chain, .cxl, .rings, .cmds, .seals, .hist, .plat]
  | .p12vReturn => [.clk]
  | .p12vStable => doneParts ++ [.freeCtr, .regs, .power, .clk, .adm, .hanks, .med, .crypto, .tlc, .wm, .energy, .cast, .plat]
  | .dirtyZoneClear _ => [.energy]
  | .gpfPhase1 => [.outbox]
  | .gpfPhase2 => [.outbox, .energy]
  -- cast-on and resets
  | .coldCastOn => doneParts ++ [.freeCtr, .regs, .power, .clk, .adm, .hanks, .med, .crypto, .tlc, .wm, .energy, .cast, .plat]
  | .pllLock => [.clk]
  | .fwVerified _ _ => eventParts ++ [.regs]
  | .keysReady _ _ => eventParts ++ [.regs, .crypto]
  | .wmemReady => eventParts ++ [.regs]
  | .channelEngineReady _ _ => doneParts ++ [.freeCtr, .regs, .adm, .hanks, .med, .crypto, .tlc, .wm, .energy, .cast]
  | .mboxReady => eventParts ++ [.regs, .cxl]
  | .ringsReady => eventParts ++ [.regs]
  | .l3LoadDone _ => eventParts ++ [.freeCtr, .regs, .crypto, .wm, .cast]
  | .mapRestoreDone _ _ => doneParts ++ [.freeCtr, .regs, .adm, .hanks, .med, .crypto, .tlc, .wm, .energy, .cast]
  | .replayDone => eventParts ++ [.freeCtr, .regs, .crypto, .tlc, .wm, .energy, .cast, .linkA, .linkB, .cxl, .plat]
  | .sealLedgerCheck _ _ => eventParts ++ [.freeCtr, .regs, .adm, .hanks, .wm, .seals]
  | .skeinReady _ => eventParts ++ [.freeCtr, .regs, .adm, .hanks, .med, .crypto, .tlc, .wm, .energy, .linkA, .linkB, .cxl]
  | .perstAssert => [.regs, .crypto, .cxl, .rings, .cmds]
  | .perstRelease => [.cxl]
  | .cxlReset => eventParts ++ [.freeCtr, .regs, .power, .clk, .adm, .hanks, .med, .crypto, .tlc, .wm, .energy, .cast, .linkA, .linkB, .cxl, .rings, .cmds, .seals, .plat]
  | .flr => [.regs, .rings, .cmds]
  | .configLock _ => [.regs]
  | .hostLinkTrained _ _ _ => [.regs, .cxl]
  | .refclkStop => [.cxl]
  | .auxLoss => [.regs, .power, .clk]
  -- keys, IDE and SPDM
  | .knownAnswerCheck _ _ => doneParts ++ [.regs, .adm]
  | .keyRetireFlushed _ => doneParts ++ [.regs, .crypto, .tlc]
  | .ideMacFailure _ => eventParts ++ [.regs, .adm, .crypto]
  | .ideKeyProg _ _ _ _ _ => [.crypto]
  | .spdmGetVersion => [.outbox, .seals]
  | .spdmGetCapabilities => [.outbox, .seals]
  | .spdmNegotiateAlgorithms _ _ _ _ => [.outbox, .seals]
  | .spdmGetDigests => [.outbox]
  | .spdmGetCertificate _ _ _ => [.outbox]
  | .spdmChallenge _ _ => [.outbox, .freeCtr]
  | .spdmGetMeasurements _ _ _ _ => [.outbox, .freeCtr]
  | .spdmKeyExchange _ => [.outbox, .seals]
  | .spdmFinish _ _ => [.outbox, .seals]
  | .spdmHeartbeat _ => [.outbox]
  | .spdmKeyUpdate _ => [.outbox, .seals]
  | .spdmEndSession _ => [.outbox, .seals]
  | .sealHashDone _ => doneParts ++ [.freeCtr, .regs, .adm, .hanks, .med, .crypto, .tlc, .wm]
  | .verifyHashDone _ => doneParts ++ [.freeCtr, .regs, .adm, .hanks, .med, .crypto, .tlc, .wm]
  | .selArchivedWrite _ => [.regs, .plat]
  -- Helra links, two-ply and the chain
  | .linkTrained _ _ => [.freeCtr, .regs, .linkA, .linkB]
  | .linkTrainRetry _ => [.regs]
  | .linkDown _ _ => doneParts ++ [.freeCtr, .regs, .adm, .wm]
  | .linkIdleTimeout _ => doneParts ++ [.freeCtr, .regs, .adm, .wm]
  | .creditTimer _ => [.linkA, .linkB]
  | .replayTimer _ => doneParts ++ [.freeCtr, .regs, .adm, .wm]
  | .packetTransmit _ => doneParts ++ [.freeCtr, .regs, .adm, .hanks, .med, .crypto, .tlc, .wm]
  | .hello _ _ _ => doneParts ++ [.freeCtr, .regs, .adm, .wm]
  | .auth _ _ _ => doneParts ++ [.freeCtr, .regs, .adm, .wm]
  | .mirrorWrite _ _ _ => doneParts ++ [.freeCtr, .regs, .adm, .hanks, .med, .crypto, .tlc, .wm, .energy]
  | .resyncData _ _ _ => doneParts ++ [.freeCtr, .regs, .adm, .hanks, .med, .crypto, .tlc, .wm, .energy]
  | .helraCredit _ _ _ _ _ => doneParts ++ [.freeCtr, .regs, .adm, .wm]
  | .helraNak _ _ _ => doneParts ++ [.freeCtr, .regs, .adm, .wm]
  | .plyOpen _ _ _ _ => doneParts ++ [.freeCtr, .regs, .adm, .hanks, .tlc, .wm, .cast]
  | .plyQuery _ _ _ => doneParts ++ [.freeCtr, .regs, .adm, .wm]
  | .plyBegin _ _ _ => doneParts ++ [.freeCtr, .regs, .adm, .wm]
  | .plyEnd _ _ _ => doneParts ++ [.freeCtr, .regs, .adm, .wm]
  | .plyClose _ _ _ => doneParts ++ [.freeCtr, .regs, .adm, .hanks, .tlc, .wm, .cast]
  | .plyErase _ _ _ _ _ _ => doneParts ++ [.freeCtr, .regs, .adm, .hanks, .tlc, .wm, .cast]
  | .plySeal _ _ _ _ _ _ _ => doneParts ++ [.freeCtr, .regs, .adm, .wm]
  | .plyRelease _ _ _ _ _ => doneParts ++ [.freeCtr, .regs, .adm, .wm]
  | .resyncReqResponse _ _ _ _ _ _ => doneParts ++ [.freeCtr, .regs, .adm, .hanks, .wm]
  | .walk _ _ _ => doneParts ++ [.freeCtr, .regs, .adm, .wm]
  | .statusReq _ _ _ => doneParts ++ [.freeCtr, .regs, .adm, .wm]
  | .statusReply _ _ _ => doneParts ++ [.freeCtr, .regs, .adm, .wm]
  | .relay _ _ _ => doneParts ++ [.freeCtr, .regs, .adm, .wm]
  | .relayAck _ _ _ => doneParts ++ [.freeCtr, .regs, .adm, .wm]
  | .claim _ _ _ => doneParts ++ [.freeCtr, .regs, .adm, .wm]
  | .claimRoundEnd => eventParts ++ [.regs, .linkA, .linkB, .chain, .plat]
  | .chainLinkTimeout => eventParts ++ [.regs, .chain, .plat]
  | .plyReadyTimeout => eventParts ++ [.regs]
  | .plkPlyresWrite _ => [.regs]
  | .plkCtlWrite _ => doneParts ++ [.freeCtr, .regs, .adm, .wm, .plat]
  -- FM API and mailbox QoS
  | .fmIdentify => [.outbox]
  | .backgroundOperationStatus => [.outbox, .freeCtr]
  | .getLdInfo => [.outbox]
  | .getLdAllocations _ _ => [.outbox]
  | .setLdAllocations _ _ _ => doneParts ++ [.freeCtr, .regs, .adm, .hanks, .crypto, .tlc, .wm, .cast]
  | .getQosControl => [.outbox]
  | .setQosControl _ _ _ _ => [.outbox, .regs, .cxl]
  | .getQosStatus => [.outbox]
  | .getQosAllocatedBw _ _ => [.outbox]
  | .setQosAllocatedBw _ _ => [.outbox, .regs, .adm, .cxl]
  | .getQosBwLimit _ _ => [.outbox]
  | .setQosBwLimit _ _ => [.outbox, .regs, .adm, .cxl]
  | .getSldQosControl _ => [.outbox]
  | .setSldQosControl _ _ _ _ _ => [.outbox, .regs, .cxl]
  | .getSldQosStatus _ => [.outbox]
  | .hdmDecoderCommit _ _ _ _ _ _ _ _ _ _ => [.cxl]
  | .doeDiscovery _ => [.outbox]
  | .tableAccess _ => [.outbox]
  -- mailbox commands
  | .getEventRecords _ _ => [.outbox]
  | .clearEventRecords _ _ _ _ => [.outbox, .logs]
  | .getEventInterruptPolicy _ => [.outbox]
  | .setEventInterruptPolicy _ _ _ _ _ => [.outbox, .cxl]
  | .getFwInfo _ => [.outbox]
  | .transferFw _ _ _ _ _ _ _ => [.outbox, .cxl, .plat]
  | .activateFw _ _ _ => eventParts ++ [.regs, .cxl, .plat]
  | .getTimestamp _ => [.outbox]
  | .setTimestamp _ _ => eventParts ++ [.regs, .clk, .med]
  | .getSupportedLogs _ => [.outbox]
  | .getLog _ _ _ _ => [.outbox]
  | .identifyMemoryDevice _ => [.outbox]
  | .getPartitionInfo _ => [.outbox]
  | .setPartitionInfo _ => [.outbox]
  | .getLsa _ _ _ => [.outbox]
  | .setLsa _ _ _ => [.outbox, .cxl]
  | .getHealthInfo _ => [.outbox]
  | .getAlertConfiguration _ => [.outbox]
  | .setAlertConfiguration _ _ _ _ _ _ _ _ => [.outbox, .cxl]
  | .getShutdownState _ => [.outbox]
  | .setShutdownState _ _ => [.outbox, .cxl]
  | .getPoisonList _ _ _ => [.outbox]
  | .injectPoison _ _ => eventParts ++ [.freeCtr, .regs, .adm, .hanks, .med, .crypto, .tlc, .wm, .energy, .linkA, .linkB, .cxl, .cmds]
  | .clearPoison _ _ _ => eventParts ++ [.freeCtr, .regs, .adm, .hanks, .med, .crypto, .tlc, .wm, .energy, .linkA, .linkB, .cxl, .cmds]
  | .getScanMediaCapabilities _ _ _ => [.outbox]
  | .scanMedia _ _ _ _ => [.outbox, .cxl]
  | .scanMediaDone _ => eventParts ++ [.freeCtr, .regs, .adm, .hanks, .med, .crypto, .tlc, .wm, .linkA, .linkB, .cxl]
  | .getScanMediaResults _ => [.outbox, .cxl]
  | .sanitize _ => doneParts ++ [.freeCtr, .regs, .adm, .hanks, .med, .crypto, .tlc, .wm, .energy]
  | .secureErase _ => doneParts ++ [.freeCtr, .regs, .adm, .hanks, .med, .crypto, .tlc, .wm, .energy]
  | .sanitizeDone => eventParts ++ [.regs, .adm, .hanks, .med, .tlc, .energy, .cxl]
  | .getSecurityState _ => [.outbox]
  | .setPassphrase _ _ _ _ => [.outbox, .cxl]
  | .disablePassphrase _ _ _ => [.outbox, .cxl]
  | .unlock _ _ => [.outbox, .cxl]
  | .freezeSecurityState _ => [.outbox, .cxl]
  | .passphraseSecureErase _ _ _ => doneParts ++ [.freeCtr, .regs, .adm, .hanks, .med, .crypto, .tlc, .wm, .energy]
  | .ethornPassthru _ _ _ => doneParts ++ [.regs]
  | .ethornWarmRestart _ => eventParts ++ [.regs, .cxl, .plat]
  -- sideband
  | .arp _ => [.outbox, .cxl]
  | .arpResetDevice => [.cxl]
  | .smbrstAssert => []
  | .basicStatusRead => [.outbox]
  | .identityBlockRead => [.outbox]
  | .statusBlockRefresh => [.cxl]
  | .setEndpointId _ => [.outbox, .cxl]
  | .mctpVendorMessage _ _ => doneParts ++ [.regs]
  -- rings
  | .ringDoorbell _ _ => doneParts ++ [.regs]
  | .commandFetch _ _ _ _ _ => doneParts ++ [.regs]
  | .cqHeadWrite _ _ => [.regs]
  | .ringEnable _ _ => doneParts ++ [.regs]
  | .ringStop _ _ => doneParts ++ [.regs]
  | .msixCoalesceTimer _ => [.outbox, .rings]
  | .commandExpiry _ => doneParts ++ [.regs]
  -- ring opcodes
  | .identifyUnit _ => doneParts ++ [.regs]
  | .getReadiness _ => doneParts ++ [.regs]
  | .getCertChain _ => doneParts ++ [.regs]
  | .getHealthExt _ => doneParts ++ [.regs]
  | .readHistory _ => doneParts ++ [.regs]
  | .resetHistory _ => doneParts ++ [.regs]
  | .gaugeStatus _ => doneParts ++ [.regs]
  | .gaugeTest _ => doneParts ++ [.regs, .energy]
  | .preparePowerLoss _ => doneParts ++ [.regs, .power, .energy]
  | .setReservation _ => doneParts ++ [.regs, .adm]
  | .getContract _ => doneParts ++ [.regs]
  | .copyLines _ => doneParts ++ [.freeCtr, .regs, .adm, .hanks, .med, .crypto, .tlc, .wm, .energy]
  | .fillLines _ => doneParts ++ [.freeCtr, .regs, .adm, .hanks, .med, .crypto, .tlc, .wm, .energy]
  | .persistFence _ => doneParts ++ [.regs, .tlc]
  | .readViaRing _ => doneParts ++ [.freeCtr, .regs, .adm, .hanks, .med, .crypto, .tlc, .wm]
  | .writeViaRing _ => doneParts ++ [.freeCtr, .regs, .adm, .hanks, .med, .crypto, .tlc, .wm, .energy]
  | .discard _ => doneParts ++ [.freeCtr, .regs, .adm, .hanks, .crypto, .tlc, .wm, .cast]
  | .zeroHanks _ => doneParts ++ [.freeCtr, .regs, .adm, .hanks, .crypto, .tlc, .wm, .cast]
  | .keyLoad _ => doneParts ++ [.regs, .crypto]
  | .keyBind _ => doneParts ++ [.freeCtr, .regs, .adm, .hanks, .crypto, .tlc, .wm, .cast]
  | .keyRetire _ => doneParts ++ [.regs, .crypto, .tlc]
  | .keyQuery _ => doneParts ++ [.regs]
  | .sealExtent _ => doneParts ++ [.freeCtr, .regs, .adm, .hanks, .tlc, .wm]
  | .getSealRecord _ => doneParts ++ [.regs]
  | .releaseSeal _ => doneParts ++ [.freeCtr, .regs, .adm, .hanks, .tlc, .wm]
  | .verifyExtent _ => doneParts ++ [.regs]
  | .setPly _ => doneParts ++ [.freeCtr, .regs, .adm, .hanks, .tlc, .wm, .cast]
  | .getPlyState _ => doneParts ++ [.regs]
  | .resyncPly _ => doneParts ++ [.regs]
  | .chainWalk _ => doneParts ++ [.regs]
  | .chainWalkWaitEnd _ => doneParts ++ [.regs]
  | .chainRelay _ => doneParts ++ [.regs]
  | .chainStatus _ => doneParts ++ [.regs]
  | .cacheClean _ => doneParts ++ [.regs, .tlc]
  | .cacheInvalidate _ => doneParts ++ [.regs, .tlc]
  | .cacheCleanInvalidate _ => doneParts ++ [.regs, .tlc]
  | .scrubControl _ => doneParts ++ [.regs, .plat]
  | .migrationControl _ => doneParts ++ [.regs]
  | .stashRead _ => doneParts ++ [.freeCtr, .regs, .plat]
  | .stashWrite _ => doneParts ++ [.freeCtr, .regs, .clk, .adm, .med, .tlc, .wm, .energy, .plat]
  | .ratchetAdvance _ => doneParts ++ [.regs]
  | .ratchetRead _ => doneParts ++ [.regs]
  | .injectFault _ => doneParts ++ [.freeCtr, .regs, .adm, .hanks, .med, .crypto, .tlc, .wm, .energy, .cast, .plat]
  | .selfTest _ => doneParts ++ [.regs, .energy, .plat]
  -- counting and remembering
  | .pmcGen _ => [.regs, .clk, .hist]
  | .pmcClear _ => [.regs, .clk, .hist]
  | .pmcCntWrite _ _ => [.regs, .clk]
  | .bwwLenWrite _ => [.regs, .hist]
  | .bandwidthWindowEnd => [.regs, .hist]
  | .historyIngest => [.regs, .hist]
  | .historyFlush => [.regs, .hist]
  -- platform services
  | .efcUnlock _ => [.regs, .plat]
  | .efcRead => [.regs, .plat]
  | .efcProgram _ _ => [.regs, .plat]
  | .efcEraseSector _ _ => [.regs, .plat]
  | .efcEraseBank _ _ => [.regs, .plat]
  | .flashProgramDone _ => [.regs, .plat]
  | .flashEraseDone _ _ => [.freeCtr, .regs, .plat]
  | .sensorSample _ => eventParts ++ [.freeCtr, .regs, .adm, .cxl, .plat]
  | .sensorSelfCheck _ _ _ => eventParts ++ [.regs]
  | .sensorExclude _ _ => [.regs, .plat]
  | .thermalAutoResume => eventParts ++ [.freeCtr, .regs, .power, .clk, .adm, .hanks, .med, .crypto, .tlc, .wm, .energy, .cast, .linkA, .linkB, .cxl, .rings, .cmds, .seals, .plat]
  | .pwrReqWrite _ => doneParts ++ [.freeCtr, .regs, .adm, .wm]
  | .pwrLimitWrite _ => [.regs, .plat]
  | .sramTest _ _ _ => doneParts ++ [.regs, .adm, .plat]
  | .pointerMismatch _ => doneParts ++ [.regs, .adm]
  | .coreHeartbeatTimeout _ => eventParts ++ [.regs, .adm, .plat]
  | .coreTakeoverDone => doneParts ++ [.regs, .adm, .plat]
  | .poweredLifeEnd => eventParts ++ [.regs, .plat]
  | .admResvWrite _ _ _ => [.regs, .adm]
  | .registerWrite _ _ _ _ => doneParts ++ [.freeCtr, .regs, .clk, .adm, .med, .tlc, .wm, .energy, .plat]
  | .spareBankTest _ _ _ _ => doneParts ++ [.regs, .energy]
  | .p3v3AuxReturn => [.regs, .power, .clk]
  | .refclkReturn => [.cxl]
  | .chainMsg _ _ _ => doneParts ++ [.freeCtr, .regs, .adm, .wm]
  | .packetCrcFailure _ => [.regs, .linkA, .linkB]
  | .selfTestDone _ _ _ => doneParts ++ [.regs, .adm]
  | .freeBitmapRebuilt => [.hanks]

/-- The families of commands: by the chapters that speak of them. -/
inductive Family where
  | medium | memory | energy | trust | links | attachment | rings | services
  deriving DecidableEq, Repr

/-- The family of a command. -/
def family : Instr → Family
  | .memRd _ _ => .medium
  | .memWr _ _ _ => .medium
  | .memWrPtl _ _ _ _ => .medium
  | .creditIssue _ => .medium
  | .rowBoundary => .medium
  | .transferSlot _ _ => .medium
  | .senseComplete _ _ => .medium
  | .valleySenseComplete _ _ => .medium
  | .stripeRebuildComplete _ _ => .medium
  | .stitchEnd _ _ => .medium
  | .lineDecryptDone _ _ => .medium
  | .counterFetchDone _ _ => .medium
  | .counterWriteBack _ _ => .medium
  | .writeBack _ => .medium
  | .writeBackDone _ => .medium
  | .mirrorAck _ _ _ => .medium
  | .mergeBufferReadsDone _ => .medium
  | .driftStep _ => .medium
  | .driftClock _ => .medium
  | .refreshVisit _ _ _ => .medium
  | .dieFailure _ _ => .medium
  | .dieRebuildDone _ => .medium
  | .channelWatchdog _ => .medium
  | .engineRestartDone _ => .medium
  | .rowplanWrite _ _ => .medium
  | .mapCheckpoint => .medium
  | .mapCheckpointDone => .medium
  | .mapEntryRestore _ _ => .medium
  | .staticSweepVisit => .medium
  | .migrationCopyDone _ => .medium
  | .migrationVerifyDone _ _ => .medium
  | .migrationCommit _ => .medium
  | .migrationRelease _ => .medium
  | .hintZero _ => .medium
  | .hankZeroDone _ => .medium
  | .secureOverwriteDone _ => .medium
  | .scrubLine _ => .memory
  | .qdrRebuildDone => .memory
  | .narrowWriteDrain _ => .memory
  | .wmeCeLogFree _ _ => .memory
  | .wmeCeLogClear _ => .memory
  | .flipArm _ => .memory
  | .fullInvalidationDone => .memory
  | .tlcMaintClean _ => .memory
  | .tlcMaintInvalidate _ => .memory
  | .tlcMaintCleanInvalidate _ => .memory
  | .tlcAttrWrite _ _ => .memory
  | .gaugeRecompute _ _ _ => .energy
  | .reserveCharged => .energy
  | .bankTest => .energy
  | .bankTestDone _ _ _ => .energy
  | .gauTestForce _ => .energy
  | .bankFailure _ => .energy
  | .spareBankConnect _ => .energy
  | .powerFail => .energy
  | .brownOut => .energy
  | .pwrdisAssert => .energy
  | .pwrdisRelease => .energy
  | .thermalBindoff => .energy
  | .bindoffFreeze => .energy
  | .bindoffFrozen => .energy
  | .bindoffIndexed => .energy
  | .bindoffSections => .energy
  | .bindoffComplete => .energy
  | .reserveLow _ => .energy
  | .p12vReturn => .energy
  | .p12vStable => .energy
  | .dirtyZoneClear _ => .energy
  | .gpfPhase1 => .energy
  | .gpfPhase2 => .energy
  | .coldCastOn => .energy
  | .pllLock => .energy
  | .fwVerified _ _ => .energy
  | .keysReady _ _ => .energy
  | .wmemReady => .energy
  | .channelEngineReady _ _ => .energy
  | .mboxReady => .energy
  | .ringsReady => .energy
  | .l3LoadDone _ => .energy
  | .mapRestoreDone _ _ => .energy
  | .replayDone => .energy
  | .sealLedgerCheck _ _ => .energy
  | .skeinReady _ => .energy
  | .perstAssert => .energy
  | .perstRelease => .energy
  | .cxlReset => .energy
  | .flr => .energy
  | .configLock _ => .energy
  | .hostLinkTrained _ _ _ => .energy
  | .refclkStop => .energy
  | .auxLoss => .energy
  | .knownAnswerCheck _ _ => .trust
  | .keyRetireFlushed _ => .trust
  | .ideMacFailure _ => .trust
  | .ideKeyProg _ _ _ _ _ => .trust
  | .spdmGetVersion => .trust
  | .spdmGetCapabilities => .trust
  | .spdmNegotiateAlgorithms _ _ _ _ => .trust
  | .spdmGetDigests => .trust
  | .spdmGetCertificate _ _ _ => .trust
  | .spdmChallenge _ _ => .trust
  | .spdmGetMeasurements _ _ _ _ => .trust
  | .spdmKeyExchange _ => .trust
  | .spdmFinish _ _ => .trust
  | .spdmHeartbeat _ => .trust
  | .spdmKeyUpdate _ => .trust
  | .spdmEndSession _ => .trust
  | .sealHashDone _ => .trust
  | .verifyHashDone _ => .trust
  | .selArchivedWrite _ => .trust
  | .linkTrained _ _ => .links
  | .linkTrainRetry _ => .links
  | .linkDown _ _ => .links
  | .linkIdleTimeout _ => .links
  | .creditTimer _ => .links
  | .replayTimer _ => .links
  | .packetTransmit _ => .links
  | .hello _ _ _ => .links
  | .auth _ _ _ => .links
  | .mirrorWrite _ _ _ => .links
  | .resyncData _ _ _ => .links
  | .helraCredit _ _ _ _ _ => .links
  | .helraNak _ _ _ => .links
  | .plyOpen _ _ _ _ => .links
  | .plyQuery _ _ _ => .links
  | .plyBegin _ _ _ => .links
  | .plyEnd _ _ _ => .links
  | .plyClose _ _ _ => .links
  | .plyErase _ _ _ _ _ _ => .links
  | .plySeal _ _ _ _ _ _ _ => .links
  | .plyRelease _ _ _ _ _ => .links
  | .resyncReqResponse _ _ _ _ _ _ => .links
  | .walk _ _ _ => .links
  | .statusReq _ _ _ => .links
  | .statusReply _ _ _ => .links
  | .relay _ _ _ => .links
  | .relayAck _ _ _ => .links
  | .claim _ _ _ => .links
  | .claimRoundEnd => .links
  | .chainLinkTimeout => .links
  | .plyReadyTimeout => .links
  | .plkPlyresWrite _ => .links
  | .plkCtlWrite _ => .links
  | .fmIdentify => .attachment
  | .backgroundOperationStatus => .attachment
  | .getLdInfo => .attachment
  | .getLdAllocations _ _ => .attachment
  | .setLdAllocations _ _ _ => .attachment
  | .getQosControl => .attachment
  | .setQosControl _ _ _ _ => .attachment
  | .getQosStatus => .attachment
  | .getQosAllocatedBw _ _ => .attachment
  | .setQosAllocatedBw _ _ => .attachment
  | .getQosBwLimit _ _ => .attachment
  | .setQosBwLimit _ _ => .attachment
  | .getSldQosControl _ => .attachment
  | .setSldQosControl _ _ _ _ _ => .attachment
  | .getSldQosStatus _ => .attachment
  | .hdmDecoderCommit _ _ _ _ _ _ _ _ _ _ => .attachment
  | .doeDiscovery _ => .attachment
  | .tableAccess _ => .attachment
  | .getEventRecords _ _ => .attachment
  | .clearEventRecords _ _ _ _ => .attachment
  | .getEventInterruptPolicy _ => .attachment
  | .setEventInterruptPolicy _ _ _ _ _ => .attachment
  | .getFwInfo _ => .attachment
  | .transferFw _ _ _ _ _ _ _ => .attachment
  | .activateFw _ _ _ => .attachment
  | .getTimestamp _ => .attachment
  | .setTimestamp _ _ => .attachment
  | .getSupportedLogs _ => .attachment
  | .getLog _ _ _ _ => .attachment
  | .identifyMemoryDevice _ => .attachment
  | .getPartitionInfo _ => .attachment
  | .setPartitionInfo _ => .attachment
  | .getLsa _ _ _ => .attachment
  | .setLsa _ _ _ => .attachment
  | .getHealthInfo _ => .attachment
  | .getAlertConfiguration _ => .attachment
  | .setAlertConfiguration _ _ _ _ _ _ _ _ => .attachment
  | .getShutdownState _ => .attachment
  | .setShutdownState _ _ => .attachment
  | .getPoisonList _ _ _ => .attachment
  | .injectPoison _ _ => .attachment
  | .clearPoison _ _ _ => .attachment
  | .getScanMediaCapabilities _ _ _ => .attachment
  | .scanMedia _ _ _ _ => .attachment
  | .scanMediaDone _ => .attachment
  | .getScanMediaResults _ => .attachment
  | .sanitize _ => .attachment
  | .secureErase _ => .attachment
  | .sanitizeDone => .attachment
  | .getSecurityState _ => .attachment
  | .setPassphrase _ _ _ _ => .attachment
  | .disablePassphrase _ _ _ => .attachment
  | .unlock _ _ => .attachment
  | .freezeSecurityState _ => .attachment
  | .passphraseSecureErase _ _ _ => .attachment
  | .ethornPassthru _ _ _ => .attachment
  | .ethornWarmRestart _ => .attachment
  | .arp _ => .attachment
  | .arpResetDevice => .attachment
  | .smbrstAssert => .attachment
  | .basicStatusRead => .attachment
  | .identityBlockRead => .attachment
  | .statusBlockRefresh => .attachment
  | .setEndpointId _ => .attachment
  | .mctpVendorMessage _ _ => .attachment
  | .ringDoorbell _ _ => .rings
  | .commandFetch _ _ _ _ _ => .rings
  | .cqHeadWrite _ _ => .rings
  | .ringEnable _ _ => .rings
  | .ringStop _ _ => .rings
  | .msixCoalesceTimer _ => .rings
  | .commandExpiry _ => .rings
  | .identifyUnit _ => .rings
  | .getReadiness _ => .rings
  | .getCertChain _ => .rings
  | .getHealthExt _ => .rings
  | .readHistory _ => .rings
  | .resetHistory _ => .rings
  | .gaugeStatus _ => .rings
  | .gaugeTest _ => .rings
  | .preparePowerLoss _ => .rings
  | .setReservation _ => .rings
  | .getContract _ => .rings
  | .copyLines _ => .rings
  | .fillLines _ => .rings
  | .persistFence _ => .rings
  | .readViaRing _ => .rings
  | .writeViaRing _ => .rings
  | .discard _ => .rings
  | .zeroHanks _ => .rings
  | .keyLoad _ => .rings
  | .keyBind _ => .rings
  | .keyRetire _ => .rings
  | .keyQuery _ => .rings
  | .sealExtent _ => .rings
  | .getSealRecord _ => .rings
  | .releaseSeal _ => .rings
  | .verifyExtent _ => .rings
  | .setPly _ => .rings
  | .getPlyState _ => .rings
  | .resyncPly _ => .rings
  | .chainWalk _ => .rings
  | .chainWalkWaitEnd _ => .rings
  | .chainRelay _ => .rings
  | .chainStatus _ => .rings
  | .cacheClean _ => .rings
  | .cacheInvalidate _ => .rings
  | .cacheCleanInvalidate _ => .rings
  | .scrubControl _ => .rings
  | .migrationControl _ => .rings
  | .stashRead _ => .rings
  | .stashWrite _ => .rings
  | .ratchetAdvance _ => .rings
  | .ratchetRead _ => .rings
  | .injectFault _ => .rings
  | .selfTest _ => .rings
  | .pmcGen _ => .services
  | .pmcClear _ => .services
  | .pmcCntWrite _ _ => .services
  | .bwwLenWrite _ => .services
  | .bandwidthWindowEnd => .services
  | .historyIngest => .services
  | .historyFlush => .services
  | .efcUnlock _ => .services
  | .efcRead => .services
  | .efcProgram _ _ => .services
  | .efcEraseSector _ _ => .services
  | .efcEraseBank _ _ => .services
  | .flashProgramDone _ => .services
  | .flashEraseDone _ _ => .services
  | .sensorSample _ => .services
  | .sensorSelfCheck _ _ _ => .services
  | .sensorExclude _ _ => .services
  | .thermalAutoResume => .services
  | .pwrReqWrite _ => .services
  | .pwrLimitWrite _ => .services
  | .sramTest _ _ _ => .services
  | .pointerMismatch _ => .services
  | .coreHeartbeatTimeout _ => .services
  | .coreTakeoverDone => .services
  | .poweredLifeEnd => .services
  | .admResvWrite _ _ _ => .services
  | .registerWrite _ _ _ _ => .services
  | .spareBankTest _ _ _ _ => .services
  | .p3v3AuxReturn => .services
  | .refclkReturn => .services
  | .chainMsg _ _ _ => .services
  | .packetCrcFailure _ => .services
  | .selfTestDone _ _ _ => .services
  | .freeBitmapRebuilt => .services

end Sys2Proof.Machine
end

