-- ==== Sys2Proof/Certificates/Slice0/Obligations.lean ====
section
/-!
DEFINITION. The statements for the provers. Each is about one command or one operation of the module, for every state that meets its
hypotheses; most have as their conclusion that the command answers a next state, and which. A value that the spec leaves open appears as an
uninterpreted constant (`Config`) or the next free value, and no statement rests on what it is. Where a clause rests on a choice of the
model, the docstring names the log entry.
-/

open Sys2Proof Sys2Proof.Machine

/-! ### The queue, the step, reset -/

/-- A step with a command at the front of the queue is `exec` of that command on the state with the queue's rest. -/
def Obligations.StepRunsTheFrontCommand : Prop :=
  ∀ (c : Instr) (rest : List Instr) (s : State), s.pending = c :: rest → step s = exec c { s with pending := rest }

/-- With an empty queue a tick passes (the model's choice, assumption log 8): while the module has main power or a bind-off runs, device time
and powered time rise by one, RDY_DEVTIME follows, and a waiting wall time offset applies; else nothing but the live fields is touched.
(R41, R42, R227) -/
def Obligations.EmptyQueueIsATick : Prop :=
  (∀ s : State, s.pending = [] → s.timeRuns = true → ∃ t, step s = .next t ∧ t.clk.now = s.clk.now + 1 ∧
      t.fget Reg.RDY_DEVTIME Fld.RDY_DEVTIME_TICKS = min (s.clk.now + 1) (2 ^ 64 - 1) ∧ t.hanks.poweredTicks = s.hanks.poweredTicks + 1 ∧
      t.clk.offset = s.clk.nextOffset.getD s.clk.offset ∧ t.clk.nextOffset = none ∧ t.pending = [] ∧ t.med = s.med ∧ t.crypto = s.crypto ∧
      t.tlc = s.tlc ∧ t.adm = s.adm ∧ t.cmds = s.cmds) ∧
  (∀ s : State, s.pending = [] → s.timeRuns = false → ∃ t, step s = .next t ∧ Keeps s t [])

/-- Every step keeps this: after it, every live field (device time, the counts of journals, merge entries, MSHRs, cached lines, commands in
flight, the busy flags) shows what the machine holds.

That the live fields follow at the end of each step is the model's choice (log 21).
(R20, R79, R129, R160, R179, R189, R190, R393) -/
def Obligations.StepKeepsLiveFields : Prop :=
  ∀ s t : State, step s = .next t → t.Live

/-- What reset leaves of the values the spec gives: no command waits, device time and the sequence counter are 0, no credit is out, the offset
of wall time is 0, AO and STASH alone are ready, the lane plan field and the throttles read their Reset values, the maps hold the shipped
entries, the pool, the merge buffer and the journal are empty.

After reset every live field shows what it reports.

The registers and the stored lines stand in canonical form after reset.

Which values stand where the tables say From Stash and the like is the model's choice (log 5).
(R10, R41, R69, R242, R465) -/
def Obligations.ResetValues : Prop :=
  (
  let s := State.reset
  s.pending = [] ∧ s.clk.now = 0 ∧ s.adm.seq = 0 ∧ s.adm.reqOut = 0 ∧ s.adm.covers = [] ∧ s.clk.offset = 0 ∧ s.power = .aux ∧
    s.reg Reg.RDY_STATUS = 3 ∧ s.scale = 100 ∧ s.tokens = 150 ∧ s.reg Reg.ADM_BOUND_RD = 240 ∧ s.reg Reg.ADM_BOUND_WR = 45 ∧ s.tlc.pool = [] ∧ s.tlc.mb = [] ∧ s.hanks.journal = [] ∧ s.adm.ops = [] ∧
    (∀ lhn, s.hostEntry lhn = shippedHost lhn) ∧ (∀ phn st d j, s.medGet phn st d j = blankStored) ∧
    s.logs = List.replicate 4 { recs := [], nextHandle := 1, ovf := 0, ovfFirst := 0, ovfLast := 0 }) ∧
  (
  State.reset.Live) ∧
  (
  State.reset.regsWf ∧ State.reset.med.wf)

/-- No command stops the machine, but a register write outside the 16 MiB of BAR2/3: every other command answers a next state, whatever the
state.

An address outside the 16 MiB of BAR2/3 does not exist: the write faults, and names it.

An event whose conditions do not hold changes nothing, which is the model's choice (log 2).
(R15, R19, R28, R345) -/
def Obligations.CommandsAnswer : Prop :=
  (
  ∀ (i : Instr) (s : State), (∀ ld off w v, i = .registerWrite ld off w v → off < 2 ^ 24) → ∃ t, exec i s = .next t) ∧
  (
  ∀ (s : State) (ld off w : Nat) (v : W64), 2 ^ 24 ≤ off → exec (.registerWrite ld off w v) s = .fault (.noSuchAddress off))

/-- What each command can change: a command that answers a next state leaves every part of the state outside its footprint (`footprint`) as it was, and the queue.

The parts are the model's own division of the state. -/
def Obligations.EveryCommandKeepsItsFootprint : Prop :=
  ∀ (i : Instr) (s t : State), exec i s = .next t → Keeps s t (footprint i)

/-! ### CXL.mem, admission, the read path -/

/-- A read of a line that the persistence pool holds is answered at once: with the pool's data and poison, and the DevLoad of its LD; its
credit is owed back to the link and its deadline entry is free again.
(R21, R48, R77, R177) -/
def Obligations.MemRdAnswersFromThePool : Prop :=
  ∀ (s : State) (ld hpa dpa : Nat) (p : PoolLine), s.canTake false ld = true → s.decodeHpa ld hpa = some dpa →
    s.skeinReady (skeinOf (lhnOf (s.lineOfDpa ld dpa))) = true → s.cxl.locked = false → s.readDenied (s.lineOfDpa ld dpa) = false →
    s.patchWaits (s.lineOfDpa ld dpa) = false → s.transRoom = true → s.wm.errs = [] → s.poolGet (s.lineOfDpa ld dpa) = some p →
    ∃ t, exec (.memRd ld hpa) s = .next t ∧ t.outbox = .data ld (dpa / 64 * 64) p.data p.poison (s.devload ld) :: s.outbox ∧
      tget t.adm.dl s.adm.seq = none ∧ t.adm.reqOut = s.adm.reqOut - 1 ∧ t.adm.owed = s.adm.owed ++ [⟨false, ld⟩] ∧
      t.adm.seq = (s.adm.seq + 1) % 2 ^ 32 ∧ Frame s t [.outbox, .adm, .hist] pmcRegs

/-- Where a host request goes that cannot be served yet, or is not the module's to serve. While its skein is not ready it stands in the deadline
table without a deadline (R52), its credit used; a request that no committed decoder decodes is answered at once: a read with poison, a write
as dropped.
(R1, R44, R52, R352) -/
def Obligations.HostRequestsThatWaitOrMiss : Prop :=
  (∀ (s : State) (ld hpa dpa : Nat), s.canTake false ld = true → s.decodeHpa ld hpa = some dpa →
    s.skeinReady (skeinOf (lhnOf (s.lineOfDpa ld dpa))) = false →
    ∃ t, exec (.memRd ld hpa) s = .next t ∧ tget t.adm.dl s.adm.seq = some (waiting s .read ld dpa 0 0) ∧ t.adm.reqOut = s.adm.reqOut - 1 ∧
      t.adm.covers = s.adm.covers ∧ Frame s t [.adm, .hist] pmcRegs) ∧
  (∀ (s : State) (ld hpa dpa : Nat) (data : Line), s.canTake true ld = true → s.decodeHpa ld hpa = some dpa →
    s.skeinReady (skeinOf (lhnOf (s.lineOfDpa ld dpa))) = false →
    ∃ t, exec (.memWr ld hpa data) s = .next t ∧ tget t.adm.dl s.adm.seq = some (waiting s .write ld dpa data (BitVec.allOnes 64)) ∧
      t.adm.covers = s.adm.covers.tail ∧ t.adm.reqOut = s.adm.reqOut ∧ Frame s t [.adm, .hist] pmcRegs) ∧
  (∀ (s : State) (ld hpa dpa : Nat) (data : Line) (mask : BitVec 64), s.canTake true ld = true → s.decodeHpa ld hpa = some dpa →
    s.skeinReady (skeinOf (lhnOf (s.lineOfDpa ld dpa))) = false →
    ∃ t, exec (.memWrPtl ld hpa data mask) s = .next t ∧ tget t.adm.dl s.adm.seq = some (waiting s .part ld dpa data mask) ∧
      t.adm.covers = s.adm.covers.tail ∧ t.adm.reqOut = s.adm.reqOut ∧ Frame s t [.adm, .hist] pmcRegs) ∧
  (∀ (s : State) (ld hpa : Nat), s.canTake false ld = true → s.decodeHpa ld hpa = none →
    ∃ t, exec (.memRd ld hpa) s = .next t ∧ t.outbox = .data ld hpa 0 true (s.devload ld) :: s.outbox ∧ t.adm.dl = s.adm.dl ∧
      Frame s t [.outbox, .adm, .hist] pmcRegs) ∧
  (∀ (s : State) (ld hpa : Nat) (data : Line), s.canTake true ld = true → s.decodeHpa ld hpa = none →
    ∃ t, exec (.memWr ld hpa data) s = .next t ∧ t.outbox = .cmp ld hpa (s.devload ld) :: s.outbox ∧ t.adm.dl = s.adm.dl ∧
      Frame s t [.outbox, .adm, .hist] pmcRegs)

/-- A write to a line that the pool holds, of a one-ply hank, overwrites it in place and completes: the pool line holds the new data, all of it
or the bytes under the mask, with no poison left, a new acceptance tick and write-back deadline, and the host has its completion.
(R25, R48, R59, R172, R185) -/
def Obligations.MemWrOverwritesThePoolLine : Prop :=
  (∀ (s : State) (ld hpa dpa : Nat) (data : Line) (p : PoolLine), s.canTake true ld = true → s.decodeHpa ld hpa = some dpa →
    s.skeinReady (skeinOf (lhnOf (s.lineOfDpa ld dpa))) = true → s.cxl.locked = false → s.writeFate (s.lineOfDpa ld dpa) = .apply →
    s.patchWaits (s.lineOfDpa ld dpa) = false → s.transRoom = true → s.wm.errs = [] → s.regionOf (lhnOf (s.lineOfDpa ld dpa)) = none → s.poolGet (s.lineOfDpa ld dpa) = some p →
    ∃ t, exec (.memWr ld hpa data) s = .next t ∧ t.outbox = .cmp ld (dpa / 64 * 64) (s.devload ld) :: s.outbox ∧
      t.poolGet (s.lineOfDpa ld dpa) = some { p with
        data := data, key := (s.hostEntry (lhnOf (s.lineOfDpa ld dpa))).key, poison := false, accept := s.clk.now,
        due := s.clk.now + 3900000, master := ld, again := p.again || p.op.isSome } ∧
      tget t.adm.dl s.adm.seq = none ∧ t.adm.covers = s.adm.covers.tail ∧ t.adm.owed = s.adm.owed ++ [⟨true, ld⟩] ∧
      t.med = s.med ∧ t.hanks = s.hanks ∧ t.crypto = s.crypto ∧ t.tlc.mb = s.tlc.mb) ∧
  (∀ (s : State) (ld hpa dpa : Nat) (data : Line) (mask : BitVec 64) (p : PoolLine), s.canTake true ld = true → s.decodeHpa ld hpa = some dpa →
    s.skeinReady (skeinOf (lhnOf (s.lineOfDpa ld dpa))) = true → s.cxl.locked = false → s.writeFate (s.lineOfDpa ld dpa) = .apply →
    s.patchWaits (s.lineOfDpa ld dpa) = false → s.transRoom = true → s.wm.errs = [] → s.regionOf (lhnOf (s.lineOfDpa ld dpa)) = none → s.poolGet (s.lineOfDpa ld dpa) = some p →
    p.poison = false →
    ∃ t, exec (.memWrPtl ld hpa data mask) s = .next t ∧ t.outbox = .cmp ld (dpa / 64 * 64) (s.devload ld) :: s.outbox ∧
      t.poolGet (s.lineOfDpa ld dpa) = some { p with
        data := mergeBytes p.data data mask, key := (s.hostEntry (lhnOf (s.lineOfDpa ld dpa))).key, accept := s.clk.now,
        due := s.clk.now + 3900000, master := ld, again := p.again || p.op.isSome } ∧
      tget t.adm.dl s.adm.seq = none ∧ t.adm.covers = s.adm.covers.tail ∧ t.adm.owed = s.adm.owed ++ [⟨true, ld⟩] ∧
      t.med = s.med ∧ t.hanks = s.hanks ∧ t.crypto = s.crypto ∧ t.tlc.mb = s.tlc.mb)

/-- CREDIT_ISSUE: when credit of the kind may be given and every guard passes, the credit goes out on the link. A credit owed for an LD that is
not held goes back first; with none owed of the kind a new one goes out. It counts 1 token of the row for a Req credit, 2 for a RwD credit,
and a RwD credit carries a pool credit set aside when POOL passes. A guard that fails withholds it, and only that is recorded.

The CHAN and POOL guards are read as in log 15 and log 26.
(R60, R61, R62, R64, R472, R473) -/
def Obligations.CreditIssueGivesCredit : Prop :=
  (∀ (s : State) (rwd : Bool) (i : Nat), s.creditRuns rwd = true → s.guardFails rwd = 0 → s.owedIdx rwd = some i →
    exec (.creditIssue rwd) s = nextState { s with
      outbox := .credit rwd :: s.outbox
      adm := { s.adm with
        owed := s.adm.owed.eraseIdx i, reqOut := if rwd then s.adm.reqOut else s.adm.reqOut + 1
        covers := if rwd then s.adm.covers ++ [s.poolOk] else s.adm.covers, issued := s.adm.issued + if rwd then 2 else 1 } }) ∧
  (∀ (s : State) (rwd : Bool), s.creditRuns rwd = true → s.guardFails rwd = 0 → (∀ o ∈ s.adm.owed, o.rwd ≠ rwd) →
    exec (.creditIssue rwd) s = nextState { s with
      outbox := .credit rwd :: s.outbox
      adm := { s.adm with
        reqOut := if rwd then s.adm.reqOut else s.adm.reqOut + 1
        covers := if rwd then s.adm.covers ++ [s.poolOk] else s.adm.covers, issued := s.adm.issued + if rwd then 2 else 1 } }) ∧
  (∀ (s : State) (rwd : Bool), s.creditRuns rwd = true → s.guardFails rwd ≠ 0 →
    exec (.creditIssue rwd) s = nextState { s with adm := { s.adm with withheld := s.adm.withheld ||| s.guardFails rwd } })

/-- ROW_BOUNDARY, once at each tick that is a multiple of 40 while the module is on or binds off: the row's token count starts at zero, guards
withheld are forgotten, RwD credit is given from now on exactly when the replay is complete, the power limit's scale applies, the effective
scale is the least of the three, the reservation words take force, each balance lies between minus twice and once its allotment, and no row
plan waits any longer. With no medium work and nothing waiting, no party is charged yet and nothing but the row's registers changes.

The internal classes refresh, parity and counter write-back are held in no row, whatever their balances.

Occupancy is taken as in log 57.
(R63, R67, R74, R75, R78, R94) -/
def Obligations.RowBoundaryStartsARow : Prop :=
  (
  ∀ s : State, s.clk.now % 40 = 0 → s.adm.rowAt ≠ s.clk.now + 1 → s.power = .on ∨ s.power = .bindoff →
    ∃ t, exec .rowBoundary s = .next t ∧ t.adm.issued = 0 ∧ t.adm.withheld = 0 ∧
      t.adm.rowAt = s.clk.now + 1 ∧ t.adm.rwdOn = s.replayDone ∧ t.med.plan = [] ∧
      t.fget Reg.ADM_THROTTLE Fld.ADM_THROTTLE_PWR_SCALE = limitScale (s.fget Reg.PWR_LIMIT Fld.PWR_LIMIT_SEL) ∧
      t.scale = min (s.fget Reg.ADM_THROTTLE Fld.ADM_THROTTLE_THERM_SCALE)
        (min (limitScale (s.fget Reg.PWR_LIMIT Fld.PWR_LIMIT_SEL)) (s.fget Reg.ADM_THROTTLE Fld.ADM_THROTTLE_HOST_SCALE)) ∧
      t.adm.inForce = (List.range 24).map (fun p => s.reg (resvReg p)) ∧ t.adm.rowScale = t.scale ∧
      (∀ p, p < 24 → -2 * (allotOf s.tokens t.scale (shareOf (s.reg (resvReg p))) : Int) ≤ t.adm.bal.getD p 0 ∧
        t.adm.bal.getD p 0 ≤ allotOf s.tokens t.scale (shareOf (s.reg (resvReg p)))) ∧
      t.adm.reqOut = s.adm.reqOut ∧ t.adm.covers = s.adm.covers ∧ t.adm.owed = s.adm.owed ∧
      (s.NoWaits → s.NoMedium → t.adm.charged = List.replicate 24 0 ∧ t.adm.dl = s.adm.dl ∧ t.adm.ops = s.adm.ops ∧
        Keeps s t [.regs, .adm, .med, .tlc])) ∧
  (
  ∀ (s : State) (p : Nat), s.clk.now % 40 = 0 → s.adm.rowAt ≠ s.clk.now + 1 → s.power = .on → p = 18 ∨ p = 19 ∨ p = 21 →
    ∃ t, exec .rowBoundary s = .next t ∧ t.adm.held.getD p true = false)

/-- At a row boundary a logical device with a LIMIT whose tokens charged in the row before exceed TOKENS × LIMIT / 4,096 is held, whether the
module is loaded or not.
(R66) -/
def Obligations.LimitHoldsItsDevice : Prop :=
  ∀ (s : State) (n : Nat), s.clk.now % 40 = 0 → s.adm.rowAt ≠ s.clk.now + 1 → s.power = .on → n < 16 → limitOf (s.reg (Reg.ADM_RESV n)) ≠ 0 →
    s.tokens * limitOf (s.reg (Reg.ADM_RESV n)) < s.adm.charged.getD n 0 * 4096 →
    ∃ t, exec .rowBoundary s = .next t ∧ t.adm.held.getD n false = true

/-- TRANSFER_SLOT: a read slot of the plan carries the latched line that comes first by deadline to a crypto engine, the one with more room; a
read of a stripe operation, or of a stripe rebuild, is handed to it. A
write slot carries one line of the program that comes first, and with none bound for a page buffer a line of an old page read to its merge
buffer entry. Each counts 80 bytes in its subchannel's bandwidth window.

STITCH_END: a stitch that has not verified is repeated, up to eight, and so is the first, which programs only the cells to be 0; a program
that verifies after its second stitch or a later one ends, and the medium holds its page: that of a swatch, a refresh, a write-back with programs
still left, or a write-back whose last program it is. A program that fails after its eighth stitch ends too: PGMFAIL counts, the medium keeps its
page, and a write-back goes on with its other programs.
(R87, R88, R94, R95, R398) -/
def Obligations.TransfersAndStitches : Prop :=
  (
  (∀ (s : State) (ch slot id : Nat) (o : Op) (r : ReadOp) (ws : List Waiter) (fill : Bool), ch < 34 → slot < 12 →
    s.fget (Reg.MCH_STATE ch) Fld.MCH_STATE_ENGINE = 1 → s.fbit (Reg.MCH_ROWPLAN ch) Fld.MCH_ROWPLAN_READ_MASK slot = true →
    s.firstLatched ch Purpose.takesRead = some (id, o) → o.kind = .read r → r.purpose = .serve ws fill → s.pickEngine ≠ 2 →
    ∃ t, exec (.transferSlot ch slot) s = .next t ∧
      t.readOp id = some ({ o with kind := .read { r with stage := .crypto, engine := s.pickEngine } }, { r with stage := .crypto, engine := s.pickEngine }) ∧
      t.adm.dl = s.adm.dl ∧ t.hist.bytes.getD (4 + ch / 17) 0 = (s.bytes (4 + ch / 17) 80).hist.bytes.getD (4 + ch / 17) 0 ∧
      Frame s t [.adm, .hist] []) ∧
  (∀ (s : State) (ch slot id op : Nat) (o q : Op) (r : ReadOp) (v : StripeOp), ch < 34 → slot < 12 →
    s.fget (Reg.MCH_STATE ch) Fld.MCH_STATE_ENGINE = 1 → s.fbit (Reg.MCH_ROWPLAN ch) Fld.MCH_ROWPLAN_READ_MASK slot = true → s.pickEngine ≠ 2 →
    s.firstLatched ch Purpose.takesRead = some (id, o) → o.kind = .read r → r.purpose = .old op → r.onset = none → op ≠ id →
    s.stripeOp op = some (q, v) → 1 < v.need → v.started = false →
    ∃ t, exec (.transferSlot ch slot) s = .next t ∧ tget t.adm.ops id = none ∧
      t.stripeOp op = some ({ q with kind := .stripe { v with need := v.need - 1, olds := tput v.olds (8 * r.d + r.j) r.stored } },
        { v with need := v.need - 1, olds := tput v.olds (8 * r.d + r.j) r.stored }) ∧ t.adm.dl = s.adm.dl ∧ Frame s t [.adm, .hist] []) ∧
  (∀ (s : State) (ch slot id p : Nat) (o q : Op) (r v : ReadOp), ch < 34 → slot < 12 →
    s.fget (Reg.MCH_STATE ch) Fld.MCH_STATE_ENGINE = 1 → s.fbit (Reg.MCH_ROWPLAN ch) Fld.MCH_ROWPLAN_READ_MASK slot = true → s.pickEngine ≠ 2 →
    s.firstLatched ch Purpose.takesRead = some (id, o) → o.kind = .read r → r.purpose = .part p → r.onset = none → p ≠ id →
    s.readOp p = some (q, v) →
    ∃ t, exec (.transferSlot ch slot) s = .next t ∧ tget t.adm.ops id = none ∧
      (t.readOp p).map (fun x => (x.2.need, x.2.stored.ct, x.2.stored.tag, x.2.stage)) =
        some (v.need - 1, v.stored.ct ^^^ r.stored.ct, v.stored.tag ^^^ r.stored.tag, v.stage) ∧ t.adm.dl = s.adm.dl ∧ Frame s t [.adm, .hist] []) ∧
  (∀ (s : State) (ch slot id : Nat) (p : Program), ch < 34 → slot < 12 →
    s.fget (Reg.MCH_STATE ch) Fld.MCH_STATE_ENGINE = 1 → s.fbit (Reg.MCH_ROWPLAN ch) Fld.MCH_ROWPLAN_READ_MASK slot = false →
    leastBy s.progBefore (s.movingOn ch) = some (id, p) →
    ∃ t, exec (.transferSlot ch slot) s = .next t ∧ tget t.med.progs id = some { p with toMove := p.toMove - 1 } ∧
      t.med.lines = s.med.lines ∧ Frame s t [.med, .hist] []) ∧
  (∀ (s : State) (ch slot id n : Nat) (o : Op) (r : ReadOp) (c : Bool) (e : MbEntry), ch < 34 → slot < 12 →
    s.fget (Reg.MCH_STATE ch) Fld.MCH_STATE_ENGINE = 1 → s.fbit (Reg.MCH_ROWPLAN ch) Fld.MCH_ROWPLAN_READ_MASK slot = false →
    s.movingOn ch = [] → s.firstLatched ch Purpose.isPage = some (id, o) → o.kind = .read r → r.purpose = .page n c → r.onset = none →
    tget s.tlc.mb n = some e →
    ∃ t, exec (.transferSlot ch slot) s = .next t ∧ tget t.adm.ops id = none ∧
      tget t.tlc.mb n = some { e with need := e.need - 1, state := if e.need ≤ 1 ∧ mbJoins e.state = true then .merged else e.state } ∧
      t.med.lines = s.med.lines ∧ t.tlc.pool = s.tlc.pool ∧ t.adm.dl = s.adm.dl)) ∧
  (
  (∀ (s : State) (prog : Nat) (v : Bool) (p : Program), tget s.med.progs prog = some p → p.running = true → p.stitches < 7 →
    v = false ∨ p.stitches = 0 → p.deferrals < 4 → s.NoWaits → s.adm.ops = [] → s.med.rescues = [] → s.med.fails = [] →
    ∃ t, exec (.stitchEnd prog v) s = .next t ∧ tget t.med.progs prog = some { p with stitches := p.stitches + 1, running := false } ∧
      t.med.lines = s.med.lines ∧ t.adm.dl = s.adm.dl ∧ t.tlc = s.tlc ∧ t.crypto = s.crypto) ∧
  (∀ (s : State) (prog e st : Nat) (p : Program), tget s.med.progs prog = some p → p.running = true → p.kind = .swatch e st → p.op = none →
    1 ≤ p.stitches → s.NoWaits → s.adm.ops = [] → s.med.rescues = [] → s.med.fails = [] →
    ∃ t, exec (.stitchEnd prog true) s = .next t ∧ tget t.med.progs prog = none ∧
      tget t.med.swatch (64 * (9 * p.ch + p.die) + e % 64) = some (some (swatchPage e st)) ∧
      t.med.lines = s.med.lines ∧ t.adm.dl = s.adm.dl ∧ t.tlc = s.tlc ∧ t.crypto = s.crypto) ∧
  (∀ (s : State) (prog op : Nat) (o : Op) (p : Program) (r : StripeOp), tget s.med.progs prog = some p → p.running = true → p.kind = .page →
    p.op = some op → s.stripeOp op = some (o, r) → r.kind = .writeBack → r.started = true → r.failed = [] → 1 ≤ p.stitches → s.NoWaits →
    s.adm.ops.length = 1 → s.med.rescues = [] → s.med.fails = [] →
    ∃ t, exec (.stitchEnd prog true) s = .next t ∧ tget t.med.progs prog = none ∧
      t.med.lines = (s.writePage p.phn p.s p.d p.lines).med.lines ∧
      t.stripeOp op = some ({ o with kind := .stripe { r with left := r.left.filter (· != prog) } }, { r with left := r.left.filter (· != prog) }) ∧
      t.adm.dl = s.adm.dl ∧ t.tlc.pool = s.tlc.pool ∧ t.tlc.mb = s.tlc.mb) ∧
  (∀ (s : State) (prog op : Nat) (o : Op) (p : Program) (r : StripeOp), tget s.med.progs prog = some p → p.running = true → p.kind = .page →
    p.op = some op → s.stripeOp op = some (o, r) → r.kind = .refresh → r.left = [prog] → 1 ≤ p.stitches → s.NoWaits →
    s.adm.ops.length = 1 → s.med.rescues = [] → s.med.fails = [] →
    ∃ t, exec (.stitchEnd prog true) s = .next t ∧ tget t.med.progs prog = none ∧ tget t.adm.ops op = none ∧
      t.med.lines = (s.writePage p.phn p.s p.d p.lines).med.lines ∧ t.refreshQueued p.phn p.s p.d = false ∧
      t.adm.dl = s.adm.dl ∧ t.tlc.pool = s.tlc.pool ∧ t.tlc.mb = s.tlc.mb) ∧
  (∀ (s : State) (prog op l : Nat) (o : Op) (p : Program) (r : StripeOp), tget s.med.progs prog = some p → p.running = true → p.kind = .page →
    p.op = some op → s.stripeOp op = some (o, r) → r.kind = .writeBack → r.started = true → r.left.any (· != prog) = true → p.stitches = 7 → p.d < 16 →
    s.boundTo p.phn = .host l → s.freeCount ≠ 0 → s.isDead p.phn p.s = false → s.NoWaits → s.adm.ops.length = 1 → s.med.rescues = [] → s.med.fails = [] →
    ∃ t, exec (.stitchEnd prog false) s = .next t ∧ tget t.med.progs prog = none ∧
      t.reg (Reg.MCH_CNT_PGMFAIL p.ch) = s.reg (Reg.MCH_CNT_PGMFAIL p.ch) + 1 ∧ t.med.lines = s.med.lines ∧
      (t.stripeOp op).map (fun x => (x.2.left, x.2.failed)) = some (r.left.filter (· != prog), r.failed ++ [p.d]) ∧
      t.adm.dl = s.adm.dl ∧ t.tlc.pool = s.tlc.pool ∧ t.tlc.mb = s.tlc.mb))

/-- A sense that decodes, after six corrections at most, latches the line that the decoder gives; one that does not leaves the read for a valley
sense. A valley sense that decodes latches it too; one that fails on a sound stripe opens an interruption and begins the rebuild of the line
from its stripe. A correction counts in MCH_CNT_CORR, a valley sense in MCH_CNT_SOFT; 4 or more corrections, or a valley sense, queue the page for
refresh.
(R83, R85, R98, R99, R101) -/
def Obligations.SensesLatchTheLine : Prop :=
  (∀ (s : State) (op n : Nat) (x : Sense) (v : Stored) (o : Op) (r : ReadOp), s.readOp op = some (o, r) → r.stage = .queued → r.busy = true →
    s.decodeOf r x = some (v, n) →
    ∃ t, exec (.senseComplete op x) s = .next t ∧
      t.readOp op = some ({ o with kind := .read { r with stage := .latched, busy := false, stored := v } },
        { r with stage := .latched, busy := false, stored := v }) ∧
      t.reg (Reg.MCH_CNT_CORR (chanOf r.phn r.s r.d)) = s.reg (Reg.MCH_CNT_CORR (chanOf r.phn r.s r.d)) + (if 1 ≤ n then 1 else 0) ∧
      (4 ≤ n → t.refreshQueued r.phn r.s r.d = true) ∧ t.med.lines = s.med.lines ∧ t.adm.dl = s.adm.dl ∧
      Frame s t [.adm, .med, .tlc] (Reg.MCH_CNT_CORR (chanOf r.phn r.s r.d) :: pmcRegs)) ∧
  (∀ (s : State) (op : Nat) (x : Sense) (o : Op) (r : ReadOp), s.readOp op = some (o, r) → r.stage = .queued → r.busy = true →
    s.decodeOf r x = none →
    ∃ t, exec (.senseComplete op x) s = .next t ∧
      (t.readOp op).map (fun q => (q.2.stage, q.2.line, q.2.purpose, q.1.deadline)) = some (.valley, r.line, r.purpose, o.deadline) ∧
      t.med.lines = s.med.lines ∧ t.adm.dl = s.adm.dl ∧ Frame s t [.adm, .med, .tlc] pmcRegs) ∧
  (∀ (s : State) (op n : Nat) (x : Sense) (v : Stored) (o : Op) (r : ReadOp), s.readOp op = some (o, r) → r.stage = .valley → r.busy = true →
    s.decodeOf r x = some (v, n) →
    ∃ t, exec (.valleySenseComplete op x) s = .next t ∧
      t.readOp op = some ({ o with kind := .read { r with stage := .latched, busy := false, stored := v } },
        { r with stage := .latched, busy := false, stored := v }) ∧
      t.reg (Reg.MCH_CNT_SOFT (chanOf r.phn r.s r.d)) = s.reg (Reg.MCH_CNT_SOFT (chanOf r.phn r.s r.d)) + 1 ∧
      t.refreshQueued r.phn r.s r.d = true ∧ t.med.lines = s.med.lines ∧ t.adm.dl = s.adm.dl ∧
      Frame s t [.adm, .med, .tlc] (Reg.MCH_CNT_CORR (chanOf r.phn r.s r.d) :: Reg.MCH_CNT_SOFT (chanOf r.phn r.s r.d) :: pmcRegs)) ∧
  (∀ (s : State) (op : Nat) (x : Sense) (o : Op) (r : ReadOp) (ws : List Waiter) (fill : Bool), s.readOp op = some (o, r) → r.stage = .valley →
    r.busy = true → r.purpose = .serve ws fill → s.decodeOf r x = none → s.isSuspect r.phn r.s = false → s.NoWaits → s.adm.ops.length = 1 →
    s.med.progs = [] → s.med.rescues = [] → s.med.fails = [] → s.med.hankRescue = [] →
    op < s.adm.nextOp →
    ∃ t, exec (.valleySenseComplete op x) s = .next t ∧ (t.readOp op).map (fun q => (q.2.stage, q.2.onset, q.1.deadline)) =
        some (.rebuild, some s.clk.now, o.deadline) ∧
      100000 + op ∈ t.adm.faults ∧ t.med.lines = s.med.lines ∧ t.adm.dl = s.adm.dl)

/-- When the reads of a rebuild have come, the read goes on with their XOR, and the page is queued for refresh when the line had failed; a line of
which another page did not decode either, or whose stripe is suspect, is poisoned in place.
(R86, R99, R100, R137) -/
def Obligations.StripeRebuildServesOrPoisons : Prop :=
  (∀ (s : State) (op : Nat) (o : Op) (r : ReadOp) (ws : List Waiter) (fill : Bool), s.readOp op = some (o, r) → r.stage = .rebuild →
    r.need = 0 → r.purpose = .serve ws fill → r.bad = [] → s.isSuspect r.phn r.s = false → s.NoWaits → s.adm.ops.length = 1 →
    ∃ t e, exec (.stripeRebuildComplete op true) s = .next t ∧
      t.readOp op = some ({ o with kind := .read { r with stage := .crypto, engine := e } }, { r with stage := .crypto, engine := e }) ∧
      (r.onset ≠ none → t.refreshQueued r.phn r.s r.d = true) ∧ t.med.lines = s.med.lines ∧ Frame s t [.adm, .med] []) ∧
  (∀ (s : State) (op : Nat) (o : Op) (r : ReadOp) (ws : List Waiter) (fill : Bool), s.readOp op = some (o, r) → r.stage = .rebuild →
    r.need = 0 → r.purpose = .serve ws fill → r.nodes = [] → r.d < 16 → r.bad ≠ [] ∨ s.isSuspect r.phn r.s = true → s.zeroServed r = false →
    op < s.adm.nextOp → s.NoWaits → s.adm.ops.length = 1 → s.med.progs = [] →
    ∃ t, exec (.stripeRebuildComplete op false) s = .next t ∧ (t.medGet r.phn r.s r.d r.j).poison = true ∧ tget t.adm.ops op = none)

/-- A host read ends when its line leaves the crypto engine with its counters at hand, in the order of the deadlines there: the line of a zeroed
patch reads as 64 zero bytes, a line whose tag verifies as its plaintext; the operation is free, and so is the deadline entry.
(R127, R244, R245, R268) -/
def Obligations.DecryptionEndsTheRead : Prop :=
  (∀ (s : State) (op q : Nat) (o : Op) (r : ReadOp) (e : DlEntry) (fill : Bool) (d : Nat), s.readOp op = some (o, r) → r.stage = .crypto → r.nodes = [] →
    r.engine < 2 → s.keyLive r.key = true → s.engineOn r.engine = true → s.engineFirst op o r = false → r.purpose = .serve [.host q] fill → r.onset = none → s.poolGet r.line = none →
    s.mbGet r.line = none → tget s.adm.dl q = some e → e.kind = .read → e.deadline = some d → s.clk.now ≤ d → s.lineZero r.line = true →
    ∃ t, exec (.lineDecryptDone op true) s = .next t ∧ t.outbox = .data e.ld e.dpa 0 false (s.devload e.ld) :: s.outbox ∧
      tget t.adm.ops op = none ∧ tget t.adm.dl q = none ∧ t.med = s.med ∧ t.tlc.pool = s.tlc.pool ∧ t.tlc.mb = s.tlc.mb ∧ t.crypto = s.crypto) ∧
  (∀ (s : State) (op q : Nat) (o : Op) (r : ReadOp) (e : DlEntry) (fill : Bool) (d : Nat), s.readOp op = some (o, r) → r.stage = .crypto → r.nodes = [] →
    r.engine < 2 → s.keyLive r.key = true → s.engineOn r.engine = true → s.engineFirst op o r = false → r.purpose = .serve [.host q] fill → r.onset = none → s.poolGet r.line = none →
    s.mbGet r.line = none → tget s.adm.dl q = some e → e.kind = .read → e.deadline = some d → s.clk.now ≤ d → s.lineZero r.line = false →
    s.lineLost r.line = false → r.stored.poison = false → s.tagOk r.line r.key r.stored = true →
    ∃ t, exec (.lineDecryptDone op true) s = .next t ∧
      t.outbox = .data e.ld e.dpa (s.open' r.line r.key r.stored) false (s.devload e.ld) :: s.outbox ∧
      tget t.adm.ops op = none ∧ tget t.adm.dl q = none ∧ t.med = s.med ∧ t.tlc.pool = s.tlc.pool ∧ t.tlc.mb = s.tlc.mb ∧ t.crypto = s.crypto)

/-- Counter nodes: a fetched node that verifies stands clean in the on-chip level of the counter cache, and the read waits for it no longer; a
node's write-back writes its block to both copies and leaves it clean in the cache, its parent's minor raised first.
(R264, R267, R268, R269) -/
def Obligations.CounterNodesComeAndGo : Prop :=
  (∀ (s : State) (op l i : Nat) (o : Op) (r : ReadOp), s.readOp op = some (o, r) → r.nodes = [(l, i)] → s.cached l i = none →
    (s.crypto.cache.filter fun e => e.2.onChip && e.1 % 2048 == nodeKey l i % 2048).length < 16 →
    ∃ t, exec (.counterFetchDone op [.good]) s = .next t ∧ t.cached l i = some { blk := s.node l i, due := none, onChip := true } ∧
      t.readOp op = some ({ o with kind := .read { r with nodes := [] } }, { r with nodes := [] }) ∧
      t.med = s.med ∧ t.hanks = s.hanks ∧ t.tlc = s.tlc ∧ t.crypto.nodes = s.crypto.nodes ∧ t.adm.dl = s.adm.dl) ∧
  (∀ (s : State) (l i due : Nat) (c : CacheNode), s.cached l i = some c → c.due = some due →
    (∀ e ∈ s.crypto.cache, ∀ d, e.2.due = some d → due ≤ d) → s.NoWaits → s.adm.ops = [] →
    ∃ t, exec (.counterWriteBack l i) s = .next t ∧ t.cached l i = some { c with due := none } ∧ t.node l i = c.blk ∧
      t.med.lines = s.med.lines ∧ t.tlc = s.tlc ∧ t.adm.dl = s.adm.dl ∧ t.crypto.slots = s.crypto.slots)

/-- Writing back, while working memory stores no error: a dirty pool line that may be written back, with no line before it, goes out with every dirty line of its stripe that is not in
flight, under one new operation; when its programs have verified its slot is free. A merge buffer entry goes on once its old page is read.
(R59, R133, R134, R185, R187) -/
def Obligations.WriteBacksGoOutAndEnd : Prop :=
  (∀ (s : State) (line : Nat) (p : PoolLine), s.poolGet line = some p → s.wbMay line p = true → s.wm.errs = [] →
    (∀ q ∈ s.tlc.pool, poolBefore q.2 p = true → s.wbMay q.1 q.2 = false) →
    s.isDead (s.hostEntry (lhnOf line)).phn (stripeOf line) = false →
    ∃ t, exec (.writeBack line) s = .next t ∧ (t.stripeOp s.adm.nextOp).isSome = true ∧
      t.tlc.pool = s.tlc.pool.map (fun q =>
        if q.1 / 128 == line / 128 && q.2.op.isNone then (q.1, { q.2 with op := some s.adm.nextOp, again := false }) else q) ∧
      t.tlc.mb = s.tlc.mb ∧ t.adm.dl = s.adm.dl) ∧
  (∀ (s : State) (op : Nat) (o : Op) (r : StripeOp) (x : SLine) (p : PoolLine), s.stripeOp op = some (o, r) → r.kind = .writeBack →
    r.started = true → r.left = [] → r.failed = [] → r.lines = [x] → s.poolGet x.line = some p → p.op = some op → p.again = false →
    s.NoWaits → s.adm.ops.length = 1 →
    ∃ t, exec (.writeBackDone op) s = .next t ∧ t.poolGet x.line = none ∧ tget t.adm.ops op = none ∧ t.med.lines = s.med.lines ∧ t.tlc.mb = s.tlc.mb) ∧
  (∀ (s : State) (n : Nat) (e : MbEntry), tget s.tlc.mb n = some e → s.mbMay e = true →
    (∀ x ∈ s.tlc.mb, mbBefore x.2 e = true → s.mbMay x.2 = false) → s.isDead e.phn e.s = false → s.wm.errs = [] →
    ∃ t st, exec (.mergeBufferReadsDone n) s = .next t ∧ tget t.tlc.mb n = some { e with state := st, op := some s.adm.nextOp } ∧
      (st = .program ∨ st = .merged) ∧ t.tlc.pool = s.tlc.pool ∧ t.adm.dl = s.adm.dl)

/-! ### Drift, refresh, dies, channels -/

/-- A drift step: medium time rises by one, and it and the verify-retry windows are saved; a die that responds is refitted to the valley codes of its
swatch pages, and no refit moves the threshold of any age by more than one code. At an epoch boundary the next label is allocated unless a page
still carries it, and swatch page EPOCH mod 64 of every die that responds is programmed with that time, or waits for room.

The drift clock, once MEDIA is ready: it sets medium time, which is saved and does not move backwards, and DRIFT is ready. With no die's
measurement the gap is zero: medium time is that of E_down, or the saved one where that is later.

Fractions and the median round as in log 18.
(R102, R103, R107, R108, R109, R110) -/
def Obligations.DriftPassesMediumTime : Prop :=
  (
  (∀ (s : State) (codes : List (Nat × Nat × List (Nat × Nat))), s.ready rDRIFT = true → (s.medTime + 1) % 64 ≠ 0 → s.medTime + 1 < 2 ^ 38 →
    s.fget Reg.MCH_DCLK_STAT Fld.MCH_DCLK_STAT_LABEL_HOLD = 0 →
    ∃ t, exec (.driftStep codes) s = .next t ∧ t.medTime = s.medTime + 1 ∧ t.label = s.label ∧
      t.med = { s.med with hankRescue := [], timeSaved := s.medTime + 1, windowSaved := s.med.window } ∧
      Frame s t [.med] (Reg.MCH_EPOCH :: pmcRegs ++ allDies.map fun x => Reg.MCH_DRIFT x.1 x.2)) ∧
  (∀ (s : State) (ch die : Nat) (codes : List (Nat × Nat)), s.ready rDRIFT = true → s.dieResponds ch die = true → s.medTime + 1 < 2 ^ 38 →
    s.fitPoints ch die (s.medTime + 1) codes ≠ [] →
    ∃ t, exec (.driftStep [(ch, die, codes)]) s = .next t ∧
      (t.fget (Reg.MCH_DRIFT ch die) Fld.MCH_DRIFT_BASE, t.fget (Reg.MCH_DRIFT ch die) Fld.MCH_DRIFT_NU) =
        refitTo (s.fget (Reg.MCH_DRIFT ch die) Fld.MCH_DRIFT_BASE) (s.fget (Reg.MCH_DRIFT ch die) Fld.MCH_DRIFT_NU)
          (s.fitPoints ch die (s.medTime + 1) codes)) ∧
  (∀ (s : State) (ch die : Nat) (codes : List (Nat × Nat × List (Nat × Nat))), ch < 34 → die < 9 →
    ∃ t, exec (.driftStep codes) s = .next t ∧ refitOk (s.fget (Reg.MCH_DRIFT ch die) Fld.MCH_DRIFT_BASE) (s.fget (Reg.MCH_DRIFT ch die) Fld.MCH_DRIFT_NU)
      (t.fget (Reg.MCH_DRIFT ch die) Fld.MCH_DRIFT_BASE) (t.fget (Reg.MCH_DRIFT ch die) Fld.MCH_DRIFT_NU) = true) ∧
  (∀ (s : State) (codes : List (Nat × Nat × List (Nat × Nat))), s.ready rDRIFT = true → (s.medTime + 1) % 64 = 0 → s.medTime + 1 < 2 ^ 38 →
    s.labelUsed ((s.label + 1) % 64) = false →
    ∃ t, exec (.driftStep codes) s = .next t ∧ t.medTime = s.medTime + 1 ∧ t.label = (s.label + 1) % 64 ∧
      tget t.med.labels ((s.label + 1) % 64) = some ((s.medTime + 1) / 64, 0) ∧
      (∀ x ∈ allDies, s.dieResponds x.1 x.2 = true → t.med.swatchDue.contains x = true ∨
        ∃ p ∈ t.med.progs, p.2.ch = x.1 ∧ p.2.die = x.2 ∧ p.2.kind = .swatch ((s.medTime + 1) / 64) 0) ∧
      t.med.lines = s.med.lines ∧
      Frame s t [.adm, .med] (Reg.MCH_EPOCH :: Reg.MCH_DCLK_STAT :: pmcRegs ++ allDies.map fun x => Reg.MCH_DRIFT x.1 x.2))) ∧
  (
  (∀ (s : State) (v : List (Nat × Nat × Nat)), s.ready rMEDIA = true → s.ready rDRIFT = false → s.plat.coldHold = false →
    ∃ t, exec (.driftClock v) s = .next t ∧ t.ready rDRIFT = true ∧ s.med.timeSaved ≤ t.med.timeSaved ∧ t.med.lines = s.med.lines ∧
      Keeps s t (eventParts ++ [.regs, .adm, .med, .tlc])) ∧
  (∀ (s : State) (e st : Nat), s.ready rMEDIA = true → s.ready rDRIFT = false → s.plat.coldHold = false → s.med.eDown = some (e, st) →
    max (e * 64 + st) s.med.timeSaved < 2 ^ 38 →
    ∃ t, exec (.driftClock []) s = .next t ∧ t.medTime = max (e * 64 + st) s.med.timeSaved ∧ t.med.timeSaved = t.medTime))

/-- A refresh visit to a page that is due, with its stripe free and room for its reads: the page leaves the queue and an operation of the refresh
class starts, with the page's deadline, which waits for the page's eight lines; nothing is programmed yet. A page that is not due is left alone.

A row plan of 6 to 9 read slots waits for the next row boundary, where its read slots come into force; any other value is ignored.
(R94, R113, R114) -/
def Obligations.RefreshVisitStagesThePage : Prop :=
  (
  (∀ (s : State) (phn st d : Nat), s.power = .on → s.ready rDRIFT = true → phn < 2 ^ 23 → st < 128 → d ≤ 16 → s.canSense phn st d = true →
    s.stripeBusy phn st = false → s.walkRoom phn st [d] = true → s.refreshDue phn st d = true →
    ∃ t o r, exec (.refreshVisit phn st d) s = .next t ∧ t.stripeOp s.adm.nextOp = some (o, r) ∧ r.kind = .refresh ∧ r.phn = phn ∧ r.s = st ∧
      r.pages = 2 ^ d ∧ r.need = 8 ∧ r.started = false ∧ o.deadline = s.refreshBy phn st d ∧ t.refreshQueued phn st d = false ∧
      t.med.progs = s.med.progs ∧ t.med.staged = s.med.staged ∧ t.med.lines = s.med.lines ∧ Frame s t [.adm, .med, .tlc] [Reg.MCH_REFRESH]) ∧
  (∀ (s : State) (phn st d : Nat), s.canSense phn st d = true → s.refreshDue phn st d = false →
    ∃ t, exec (.refreshVisit phn st d) s = .next t ∧ Keeps s t [])) ∧
  (
  (∀ (s : State) (ch : Nat) (v : W64), ch < 34 → 6 ≤ getF v Fld.MCH_ROWPLAN_READ_SLOTS → getF v Fld.MCH_ROWPLAN_READ_SLOTS ≤ 9 →
    ∃ t, exec (.rowplanWrite ch v) s = .next t ∧ tget t.med.plan ch = some (getF v Fld.MCH_ROWPLAN_READ_SLOTS) ∧
      t.fget (Reg.MCH_ROWPLAN ch) Fld.MCH_ROWPLAN_READ_SLOTS = getF v Fld.MCH_ROWPLAN_READ_SLOTS ∧
      t.fget (Reg.MCH_ROWPLAN ch) Fld.MCH_ROWPLAN_READ_MASK = s.fget (Reg.MCH_ROWPLAN ch) Fld.MCH_ROWPLAN_READ_MASK ∧
      Frame s t [.med] [Reg.MCH_ROWPLAN ch]) ∧
  (∀ (s : State) (ch : Nat) (v : W64), getF v Fld.MCH_ROWPLAN_READ_SLOTS < 6 ∨ 9 < getF v Fld.MCH_ROWPLAN_READ_SLOTS →
    ∃ t, exec (.rowplanWrite ch v) s = .next t ∧ Keeps s t []))

/-- A die that fails: its bit sets and a SPARE event is raised. A die that serves an active index while the channel has a spare, and rebuilds
nothing, starts the rebuild onto the spare; when every page of it is done MCH_DIESUB names the spare for the index.

A stalled engine: its first watchdog in a second restarts it (an interruption opens, its programs start again, its reads are rebuilt), and
when it is back it runs and the interruption closes.
(R117, R118, R119, R121) -/
def Obligations.DiesAndChannelsRecover : Prop :=
  (
  (∀ (s : State) (ch die : Nat), ch < 34 → die < 9 → s.fbit (Reg.MCH_STATE ch) Fld.MCH_STATE_DIE_FAILED die = false →
    s.fget (Reg.MCH_STATE ch) Fld.MCH_STATE_ENGINE ≠ 0 → s.indexOf ch die = none → s.fget (Reg.MCH_STATE ch) Fld.MCH_STATE_REBUILD = 0 →
    s.adm.ops = [] → s.med.progs = [] →
    ∃ t, exec (.dieFailure ch die) s = .next t ∧ t.fbit (Reg.MCH_STATE ch) Fld.MCH_STATE_DIE_FAILED die = true ∧
      t.logs = (s.event evSPARE 4 0xFFFF ch [die]).logs ∧ Frame s t eventParts [Reg.MCH_STATE ch, Reg.HST_STAT]) ∧
  (∀ (s : State) (ch die a sp : Nat), ch < 34 → die < 9 → s.fbit (Reg.MCH_STATE ch) Fld.MCH_STATE_DIE_FAILED die = false →
    s.fget (Reg.MCH_STATE ch) Fld.MCH_STATE_ENGINE ≠ 0 → s.indexOf ch die = some a → s.fget (Reg.MCH_STATE ch) Fld.MCH_STATE_REBUILD = 0 →
    (s.fsetBit (Reg.MCH_STATE ch) Fld.MCH_STATE_DIE_FAILED die true).spareDie ch = some sp → s.adm.ops = [] →
    (∀ p ∈ s.med.progs, p.2.deferrals < 4) →
    ∃ t, exec (.dieFailure ch die) s = .next t ∧ t.fbit (Reg.MCH_STATE ch) Fld.MCH_STATE_DIE_FAILED die = true ∧
      t.fget (Reg.MCH_STATE ch) Fld.MCH_STATE_REBUILD = 1 ∧ t.fget (Reg.MCH_DIESUB ch) Fld.MCH_DIESUB_REB_VALID = 1 ∧
      t.fget (Reg.MCH_DIESUB ch) Fld.MCH_DIESUB_REB_ADIE = a ∧ t.fget (Reg.MCH_REBUILD ch) Fld.MCH_REBUILD_SOURCE = die ∧
      t.fget (Reg.MCH_REBUILD ch) Fld.MCH_REBUILD_TARGET = sp ∧ t.fget (Reg.MCH_REBUILD ch) Fld.MCH_REBUILD_DONE = 0 ∧
      t.med.lines = s.med.lines ∧
      Frame s t (.med :: eventParts) [Reg.MCH_STATE ch, Reg.MCH_DIESUB ch, Reg.MCH_REBUILD ch, Reg.HST_STAT]) ∧
  (∀ (s : State) (ch : Nat), ch < 34 → s.fget (Reg.MCH_STATE ch) Fld.MCH_STATE_REBUILD = 1 → s.ready rDRIFT = true →
    s.fget (Reg.MCH_REBUILD ch) Fld.MCH_REBUILD_DONE = 2 ^ 26 →
    ∃ t, exec (.dieRebuildDone ch) s = .next t ∧
      t.dieOf ch (s.fget (Reg.MCH_DIESUB ch) Fld.MCH_DIESUB_REB_ADIE) = s.fget (Reg.MCH_REBUILD ch) Fld.MCH_REBUILD_TARGET ∧
      (∀ a, a < 8 → a ≠ s.fget (Reg.MCH_DIESUB ch) Fld.MCH_DIESUB_REB_ADIE → t.dieOf ch a = s.dieOf ch a) ∧
      t.fget (Reg.MCH_DIESUB ch) Fld.MCH_DIESUB_REB_VALID = 0 ∧ t.fget (Reg.MCH_STATE ch) Fld.MCH_STATE_REBUILD = 0 ∧
      Frame s t [] [Reg.MCH_STATE ch, Reg.MCH_DIESUB ch])) ∧
  (
  (∀ (s : State) (ch : Nat), ch < 34 → s.fget (Reg.MCH_STATE ch) Fld.MCH_STATE_ENGINE = 1 → s.restartedLately ch = false → s.adm.ops = [] →
    (∀ p ∈ s.med.progs, p.2.deferrals < 4) →
    ∃ t, exec (.channelWatchdog ch) s = .next t ∧ t.fget (Reg.MCH_STATE ch) Fld.MCH_STATE_ENGINE = 2 ∧
      t.fget (Reg.MCH_STATE ch) Fld.MCH_STATE_RESTARTS =
        min (s.fget (Reg.MCH_STATE ch) Fld.MCH_STATE_RESTARTS + 1) (2 ^ fwidth Fld.MCH_STATE_RESTARTS - 1) ∧
      t.fbit Reg.RDY_CHAN Fld.RDY_CHAN_CHAN ch = false ∧ 400000 + ch ∈ t.adm.faults ∧ tget t.med.restartAt ch = some s.clk.now ∧
      t.med.lines = s.med.lines ∧ Frame s t [.adm, .med] [Reg.MCH_STATE ch, Reg.RDY_CHAN]) ∧
  (∀ (s : State) (ch : Nat), ch < 34 → s.fget (Reg.MCH_STATE ch) Fld.MCH_STATE_ENGINE = 2 → s.NoWaits → s.adm.ops = [] → s.med.progs = [] →
    ∃ t, exec (.engineRestartDone ch) s = .next t ∧ t.fget (Reg.MCH_STATE ch) Fld.MCH_STATE_ENGINE = 1 ∧
      t.fbit Reg.RDY_CHAN Fld.RDY_CHAN_CHAN ch = true ∧ 400000 + ch ∉ t.adm.faults ∧ t.med.lines = s.med.lines))

/-! ### The map, migrations, hanks -/

/-- A checkpoint begins once 16,384 records have been appended, and its image completes as the newest, with its digest; the entry of a bad line is
put back as the newest image and the journal give it.

The static sweep goes from hank to hank: it starts a migration of the next one into a free hank, and goes on; a hank that migrates already is
passed by.
(R126, R130, R140) -/
def Obligations.MapCheckpointsAndRestores : Prop :=
  (
  (∀ s : State, s.hanks.mapsReady = true → s.hanks.ckptRun = none → 16384 ≤ s.fget Reg.TLC_JRNL Fld.TLC_JRNL_MAPJ →
    ∃ t, exec .mapCheckpoint s = .next t ∧ t.hanks = { s.hanks with ckptRun := some s.hanks.seq } ∧
      t.fget Reg.TLC_JRNL Fld.TLC_JRNL_MAPJ = 0 ∧ Frame s t [.hanks] [Reg.TLC_JRNL]) ∧
  (∀ (s : State) (q : Nat), s.hanks.ckptRun = some q → jFrom s.hanks.imgA.seq q = true → jFrom q s.hanks.imgA.seq = false →
    jFrom s.hanks.imgB.seq q = true → jFrom q s.hanks.imgB.seq = false → s.NoWaits → s.adm.ops = [] →
    ∃ t, exec .mapCheckpointDone s = .next t ∧ t.hanks.ckptRun = none ∧
      t.hanks.newestImage = some { host := s.hanks.host, sys := s.hanks.sys, seq := q, done := true, digest := imageDigest s.hanks.host s.hanks.sys } ∧
      t.hanks.host = s.hanks.host ∧ t.hanks.sys = s.hanks.sys ∧ (∀ x ∈ s.hanks.journal, jFrom q x.seq = true → x ∈ t.hanks.journal) ∧
      Frame s t [.adm, .hanks] [Reg.TLC_CKPT]) ∧
  (∀ (s : State) (sys : Bool) (idx : Nat), (sys, idx) ∈ s.hanks.restore → s.NoWaits → s.adm.ops = [] →
    ∃ t, exec (.mapEntryRestore sys idx) s = .next t ∧ t.entry sys idx = s.restored sys idx ∧ (sys, idx) ∉ t.hanks.restore ∧
      t.hanks.journal = s.hanks.journal ∧ Frame s t [.hanks] [])) ∧
  (
  (∀ (s : State) (sys : Bool) (idx dst : Nat), s.fget Reg.TLC_MIG_CTL Fld.TLC_MIG_CTL_STATIC_EN = 1 → s.hanks.mapsReady = true →
    sweepHank s.hanks.sweep = (sys, idx) → s.migOf sys idx = none → s.migActive < 16 → s.journalFull = false → s.hanks.fillRebuild = false →
    s.hanks.evac = [] → s.adm.held.getD 17 false = false → s.fget Reg.TLC_MIG_STAT Fld.TLC_MIG_STAT_WEAR_PAUSED = 0 →
    State.pickFree s (s.entry sys idx).phn sys (2 ^ 23) s.hanks.cursor = some dst →
    ∃ t, exec .staticSweepVisit s = .next t ∧ t.hanks.sweep = (s.hanks.sweep + 1) % (hostHanks + sysHanks) ∧
      tget t.hanks.migs s.hanks.nextMig = some
        { sys := sys, idx := idx, src := (s.entry sys idx).phn, dst := dst, kind := .static, state := .copying, bitmap := 0, again := 0,
          digest := 0, due := s.bgDeadline 1, bad := false } ∧
      t.isFree dst = false ∧ t.med = s.med ∧ t.tlc = s.tlc) ∧
  (∀ (s : State) (sys : Bool) (idx : Nat), s.fget Reg.TLC_MIG_CTL Fld.TLC_MIG_CTL_STATIC_EN = 1 → s.hanks.mapsReady = true →
    sweepHank s.hanks.sweep = (sys, idx) → (s.migOf sys idx).isSome = true →
    ∃ t, exec .staticSweepVisit s = .next t ∧ t.hanks = { s.hanks with sweep := (s.hanks.sweep + 1) % (hostHanks + sysHanks) } ∧
      Frame s t [.hanks] []))

/-- The copier of a migration: a page of a stripe's copy that verifies stands in the destination, and the last one of its stripe ends the stripe's
operation and marks the stripe as copied; with every stripe copied, verification begins. While a stripe is left, the end of the copy changes
nothing.

Verification: with no stripe that differs, and no failed program of the copy, the copy is recorded as copied with the destination's digest; each
stripe that differs for the first time is copied once more; one that differs again, or a failed program, discards the copy: the source stays
bound, and the destination is free again, or, when a program of the copy failed in it, retired.
(R142, R143) -/
def Obligations.MigrationCopiesAndVerifies : Prop :=
  (
  (∀ (s : State) (m prog op : Nat) (g : Mig) (p : Program) (o : Op) (r : StripeOp), tget s.hanks.migs m = some g → g.state = .copying →
    m < s.hanks.nextMig → tget s.med.progs prog = some p → p.running = true → p.kind = .copy g.src → p.op = some op → s.stripeOp op = some (o, r) →
    r.kind = .copy m → r.left = [prog] → 1 ≤ p.stitches → s.NoWaits → s.adm.ops.length = 1 → s.med.rescues = [] → s.med.fails = [] →
    ∃ t, exec (.stitchEnd prog true) s = .next t ∧ tget t.med.progs prog = none ∧ tget t.adm.ops op = none ∧
      tget t.hanks.migs m = some { g with bitmap := g.bitmap ||| (1#128 <<< r.s) } ∧
      t.med.lines = (s.writePage p.phn p.s p.d p.lines).med.lines ∧ t.tlc.pool = s.tlc.pool ∧ t.adm.dl = s.adm.dl) ∧
  (∀ (s : State) (m : Nat) (g : Mig), tget s.hanks.migs m = some g → g.state = .copying → g.bitmap = BitVec.allOnes 128 →
    ∃ t, exec (.migrationCopyDone m) s = .next t ∧
      t.hanks = { s.hanks with migs := tput s.hanks.migs m { g with state := .verifying } } ∧ Frame s t [.hanks] []) ∧
  (∀ (s : State) (m : Nat) (g : Mig), tget s.hanks.migs m = some g → g.bitmap ≠ BitVec.allOnes 128 →
    ∃ t, exec (.migrationCopyDone m) s = .next t ∧ Keeps s t [])) ∧
  (
  (∀ (s : State) (m : Nat) (found : List Nat) (g : Mig), tget s.hanks.migs m = some g → g.state = .verifying → g.bad = false →
    s.mismatches g found = 0 →
    ∃ t, exec (.migrationVerifyDone m found) s = .next t ∧
      tget t.hanks.migs m = some { g with state := .copied, digest := s.hankDigest g.dst } ∧ Frame s t [.adm, .hanks] []) ∧
  (∀ (s : State) (m : Nat) (found : List Nat) (g : Mig), tget s.hanks.migs m = some g → g.state = .verifying → g.bad = false →
    s.mismatches g found ≠ 0 → s.mismatches g found &&& g.again = 0 →
    ∃ t, exec (.migrationVerifyDone m found) s = .next t ∧
      tget t.hanks.migs m = some { g with
        state := .copying, bitmap := g.bitmap &&& ~~~(s.mismatches g found), again := g.again ||| s.mismatches g found } ∧
      Frame s t [.adm, .hanks] []) ∧
  (∀ (s : State) (m : Nat) (found : List Nat) (g : Mig), tget s.hanks.migs m = some g → g.state = .verifying → g.bad = false →
    s.mismatches g found &&& g.again ≠ 0 → s.journalFull = false → s.med.progs = [] →
    ∃ t, exec (.migrationVerifyDone m found) s = .next t ∧ tget t.hanks.migs m = none ∧ t.isFree g.dst = true ∧
      (t.entry g.sys g.idx).phn = (s.entry g.sys g.idx).phn) ∧
  (∀ (s : State) (m : Nat) (found : List Nat) (g : Mig), tget s.hanks.migs m = some g → g.state = .verifying → g.bad = true →
    s.journalFull = false → s.med.progs = [] →
    ∃ t, exec (.migrationVerifyDone m found) s = .next t ∧ tget t.hanks.migs m = none ∧ tget t.hanks.wear g.dst = some 0xFFFF ∧
      (t.entry g.sys g.idx).phn = (s.entry g.sys g.idx).phn))

/-- A verified copy is committed when nothing is programmed in its source and the journal has room: the map names the destination, HEAT starts at
0, and the change is journalled.

A committed migration is released: its slot is free and its source blank; a worn hank returns to the free hanks, a retired one is marked
retired in the wear ledger and counted in TLC_RETIRED.
(R138, R142, R145) -/
def Obligations.MigrationCommitsAndReleases : Prop :=
  (
  ∀ (s : State) (m : Nat) (g : Mig), tget s.hanks.migs m = some g → g.state = .copied → s.journalFull = false → s.hankBusy g.src = false →
    s.wm.errs = [] → s.NoWaits → s.adm.ops = [] →
    ∃ t, exec (.migrationCommit m) s = .next t ∧ (t.entry g.sys g.idx).phn = g.dst ∧ (t.entry g.sys g.idx).heat = 0 ∧
      (t.entry g.sys g.idx).key = (s.entry g.sys g.idx).key ∧ (t.entry g.sys g.idx).chk = (t.entry g.sys g.idx).goodChk g.idx ∧
      tget t.hanks.migs m = some { g with state := .committed } ∧
      t.hanks.journal = s.hanks.journal ++ [⟨s.hanks.seq, g.sys, g.idx, t.entry g.sys g.idx⟩] ∧ t.med.lines = s.med.lines) ∧
  (
  (∀ (s : State) (m : Nat) (g : Mig), tget s.hanks.migs m = some g → g.state = .committed → s.hanks.evac = [] → s.hanks.retireQ = [] →
    ∃ t, exec (.migrationRelease m) s = .next t ∧ tget t.hanks.migs m = none ∧
      (∀ st d j, st < 128 → d ≤ 16 → j < 8 → t.medGet g.src st d j = blankStored) ∧ t.reg Reg.TLC_MIG_DONE = s.reg Reg.TLC_MIG_DONE + 1 ∧
      t.hanks.host = s.hanks.host ∧ t.hanks.sys = s.hanks.sys) ∧
  (∀ (s : State) (m : Nat) (g : Mig), tget s.hanks.migs m = some g → g.state = .committed → s.hanks.evac = [] → s.hanks.retireQ = [] →
    g.kind = .wear ∨ g.kind = .static →
    ∃ t, exec (.migrationRelease m) s = .next t ∧ t.isFree g.src = true ∧ t.reg Reg.TLC_RETIRED = s.reg Reg.TLC_RETIRED) ∧
  (∀ (s : State) (m : Nat) (g : Mig), tget s.hanks.migs m = some g → g.state = .committed → s.hanks.evac = [] → s.hanks.retireQ = [] →
    g.kind = .retire ∨ g.kind = .evac →
    ∃ t, exec (.migrationRelease m) s = .next t ∧ tget t.hanks.wear g.src = some 0xFFFF ∧ t.hanks.free = s.hanks.free ∧
      t.reg Reg.TLC_RETIRED = s.reg Reg.TLC_RETIRED + 1))

/-- The work on a hank ends: every line of it reads as zeros by its counters, and nothing waits any longer. A hint-discarded hank has lost its
HINT; a zeroed one is MAPPED, or UNASSIGNED when no logical device and no ply area holds it; a secure discard has also blanked its data pages.

The rows at which zeroing and blanking happen are as in log 30.
(R127, R152, R153, R154) -/
def Obligations.HankWorkEndsInZeros : Prop :=
  (∀ (s : State) (lhn : Nat), tget s.hanks.work lhn = some .hint → s.journalFull = false → s.adm.held.getD (s.partyOf lhn) false = false →
    dget (fun _ => []) s.hanks.zeroed lhn = [] → s.wm.errs = [] →
    ∃ t, exec (.hintZero lhn) s = .next t ∧ tget t.hanks.work lhn = none ∧ (t.hostEntry lhn).hint = false ∧
      (t.hostEntry lhn).phn = (s.hostEntry lhn).phn ∧ (∀ line, lhnOf line = lhn → t.lineZero line = true) ∧ t.med = s.med ∧ t.tlc = s.tlc) ∧
  (∀ (s : State) (lhn : Nat), tget s.hanks.work lhn = some (.zero none) → s.journalFull = false → dget (fun _ => []) s.hanks.zeroed lhn = [] →
    s.wm.errs = [] →
    ∃ t, exec (.hankZeroDone lhn) s = .next t ∧ tget t.hanks.work lhn = none ∧
      (t.hostEntry lhn).state = (if (s.ldOf (lhn * 16384)).isSome ∨ (s.hostEntry lhn).ply = 3 then 1 else 0) ∧
      (t.hostEntry lhn).phn = (s.hostEntry lhn).phn ∧ (∀ line, lhnOf line = lhn → t.lineZero line = true) ∧ t.med = s.med) ∧
  (∀ (s : State) (lhn : Nat), tget s.hanks.work lhn = some (.secure none) → s.journalFull = false → s.migOpen lhn = false →
    s.eraseOf lhn = none → s.hankBusy (s.hostEntry lhn).phn = false → s.energy.halfA.blanked = true → s.energy.halfB.blanked = true →
    dget (fun _ => []) s.hanks.zeroed lhn = [] → s.wm.errs = [] →
    ∃ t, exec (.secureOverwriteDone lhn) s = .next t ∧ tget t.hanks.work lhn = none ∧ (t.hostEntry lhn).state = 1 ∧
      (∀ line, lhnOf line = lhn → t.lineZero line = true) ∧
      (∀ st d j, st < 128 → d < 16 → j < 8 → t.medGet (s.hostEntry lhn).phn st d j = blankStored))

/-! ### Working memory and the line cache -/

/-- The scrubber: its cursor moves on through all 2^22 lines, a wrap counting a pass. A single-bit error it meets is counted, and logged in the
first entry when the log is empty.

The rebuild of a QDR device's words onto the spare is done: the spare stands in the failed device's slot, the other slots as they were.
(R166, R169, R173, R175) -/
def Obligations.ScrubberChecksALine : Prop :=
  (
  (∀ s : State, s.fget Reg.WME_SCRUB_CTL Fld.WME_SCRUB_CTL_EN = 1 → s.adm.held.getD 16 false = false → s.ready rWMEM = true → s.fget Reg.PWR_REQ Fld.PWR_REQ_D11_OFF = 0 →
    s.wm.errs = [] →
    ∃ t, exec (.scrubLine []) s = .next t ∧
      t.fget Reg.WME_SCRUB_CTL Fld.WME_SCRUB_CTL_CURSOR = (s.fget Reg.WME_SCRUB_CTL Fld.WME_SCRUB_CTL_CURSOR + 1) % 2 ^ 22 ∧
      t.fget Reg.WME_SCRUB_CTL Fld.WME_SCRUB_CTL_PASSES = (if s.fget Reg.WME_SCRUB_CTL Fld.WME_SCRUB_CTL_CURSOR + 1 = 2 ^ 22 then
        min (s.fget Reg.WME_SCRUB_CTL Fld.WME_SCRUB_CTL_PASSES + 1) (2 ^ 24 - 1) else s.fget Reg.WME_SCRUB_CTL Fld.WME_SCRUB_CTL_PASSES) ∧
      Frame s t [.adm, .hist] (Reg.WME_SCRUB_CTL :: pmcRegs)) ∧
  (∀ (s : State) (k b : Nat), s.fget Reg.WME_SCRUB_CTL Fld.WME_SCRUB_CTL_EN = 1 → s.adm.held.getD 16 false = false → s.ready rWMEM = true →
    s.fget Reg.PWR_REQ Fld.PWR_REQ_D11_OFF = 0 → s.wm.errs = [] → s.fget Reg.WME_STATE Fld.WME_STATE_FAILED = 0 →
    s.fget Reg.WME_FLIP_CTL Fld.WME_FLIP_CTL_ARMED = 0 → k < 9 → b < 72 →
    (∀ n, n < 16 → s.fget (Reg.WME_CE_LOG n) Fld.WME_CE_LOG_VALID = 0) →
    ∃ t, exec (.scrubLine [⟨k, some b, false, false⟩]) s = .next t ∧ t.reg Reg.WME_CE_COUNT = s.reg Reg.WME_CE_COUNT + 1 ∧
      t.fget (Reg.WME_CE_LOG 0) Fld.WME_CE_LOG_VALID = 1 ∧ t.fget (Reg.WME_CE_LOG 0) Fld.WME_CE_LOG_DEV = s.slotDev k ∧
      t.fget (Reg.WME_CE_LOG 0) Fld.WME_CE_LOG_BIT = b ∧
      t.fget (Reg.WME_CE_LOG 0) Fld.WME_CE_LOG_WMA = s.fget Reg.WME_SCRUB_CTL Fld.WME_SCRUB_CTL_CURSOR ∧
      t.fget (Reg.WME_CE_LOG 0) Fld.WME_CE_LOG_UE = 0 ∧ t.fget (Reg.WME_CE_LOG 0) Fld.WME_CE_LOG_REPEAT = 1 ∧
      t.fget Reg.WME_CE_LOG_STAT Fld.WME_CE_LOG_STAT_COUNT = 1)) ∧
  (
  ∀ s : State, s.fget Reg.WME_STATE Fld.WME_STATE_REBUILD = 1 →
    ∃ t, exec .qdrRebuildDone s = .next t ∧
      (∀ k, k < 9 → t.slotDev k = if s.slotDev k = s.fget Reg.WME_REBUILD Fld.WME_REBUILD_SOURCE then
        s.fget Reg.WME_REBUILD Fld.WME_REBUILD_TARGET else s.slotDev k) ∧
      t.fget Reg.WME_STATE Fld.WME_STATE_REBUILD = 0 ∧ t.fget Reg.WME_REBUILD Fld.WME_REBUILD_DONE = 2 ^ 22 ∧
      Frame s t [] (Reg.WME_STATE :: Reg.WME_REBUILD :: (List.range 32).map Reg.WME_REMAP))

/-- A narrow-write entry drains: it leaves the merge buffer, and its line is written: one access when every byte of the line is in the entry,
else two, since the line is read first.

The correction log: a 1 written to VALID frees its entry, a 1 to CLEAR frees them all and clears OVERRUN; COUNT follows.

The flip mask's control takes a write while ARMED is 0, its reserved bits staying 0, and ignores it while ARMED is 1.

Maintenance of the line cache by TLC_MAINT. A full invalidation that completes leaves the cache empty and lookups hitting again. A clean of
dirty lines makes them due now and runs until they are written. An invalidate of one set and way drops that line alone and is done; of one set,
all its lines; of all, it starts a full invalidation. A clean and invalidate with nothing dirty invalidates at once. While an operation runs a
write is ignored.

A region's attributes: a write that its checks pass replaces the entry, reserved bits staying 0, and a later lookup of a hank of the range
finds it before every higher entry, from the next tick on; in its own tick the attributes stand as they were. Under CONFIG_LOCK it changes nothing.

What counts as a working memory access is as in log 16; narrow and misaligned register writes as in log 20.
(R172, R173, R174, R181, R182, R183, R189) -/
def Obligations.WorkingMemoryAndCache : Prop :=
  (
  ∀ (s : State) (wma : Nat) (e : Narrow), tget s.wm.narrow wma = some e → s.fget Reg.WME_FLIP_CTL Fld.WME_FLIP_CTL_ARMED = 0 → s.wm.errs = [] →
    ∃ t, exec (.narrowWriteDrain wma) s = .next t ∧ t.wm = { s.wm with narrow := tdel s.wm.narrow wma } ∧
      t.hist.bytes = lset s.hist.bytes 3 (s.hist.bytes.getD 3 0 + (if e.mask = BitVec.allOnes 64 then 64 else 128)) ∧
      Frame s t [.wm, .hist] pmcRegs) ∧
  (
  (∀ (s : State) (n : Nat) (v : W64), n < 16 → getF v Fld.WME_CE_LOG_VALID = 1 →
    s.setNow (Reg.WME_CE_LOG n) Fld.WME_CE_LOG_VALID = 0 →
    ∃ t, exec (.wmeCeLogFree n v) s = .next t ∧ t.fget (Reg.WME_CE_LOG n) Fld.WME_CE_LOG_VALID = 0 ∧
      t.fget (Reg.WME_CE_LOG n) Fld.WME_CE_LOG_WMA = s.fget (Reg.WME_CE_LOG n) Fld.WME_CE_LOG_WMA ∧
      t.fget Reg.WME_CE_LOG_STAT Fld.WME_CE_LOG_STAT_COUNT =
        ((List.range 16).filter fun k => k != n && s.fget (Reg.WME_CE_LOG k) Fld.WME_CE_LOG_VALID == 1).length ∧
      Frame s t [] [Reg.WME_CE_LOG n, Reg.WME_CE_LOG_STAT]) ∧
  (∀ (s : State) (v : W64), getF v Fld.WME_CE_LOG_STAT_CLEAR = 1 →
    ∃ t, exec (.wmeCeLogClear v) s = .next t ∧ (∀ n, n < 16 → t.fget (Reg.WME_CE_LOG n) Fld.WME_CE_LOG_VALID = 0) ∧
      t.fget Reg.WME_CE_LOG_STAT Fld.WME_CE_LOG_STAT_COUNT = 0 ∧ t.fget Reg.WME_CE_LOG_STAT Fld.WME_CE_LOG_STAT_OVERRUN = 0 ∧
      Frame s t [] (Reg.WME_CE_LOG_STAT :: (List.range 16).map Reg.WME_CE_LOG))) ∧
  (
  (∀ (s : State) (v : W64), s.fget Reg.WME_FLIP_CTL Fld.WME_FLIP_CTL_ARMED = 0 →
    ∃ t, exec (.flipArm v) s = .next t ∧ t.reg Reg.WME_FLIP_CTL = v &&& 0xC000FF0F003FFFFF ∧ Frame s t [.clk] [Reg.WME_FLIP_CTL]) ∧
  (∀ (s : State) (v : W64), s.fget Reg.WME_FLIP_CTL Fld.WME_FLIP_CTL_ARMED = 1 →
    ∃ t, exec (.flipArm v) s = .next t ∧ Keeps s t [.clk])) ∧
  (
  (∀ s : State, s.tlc.inval = true → s.clk.pll = true → s.tlc.maint = none →
    exec .fullInvalidationDone s = nextState { s with tlc := { s.tlc with inval := false, cache := [] } }) ∧
  (∀ (s : State) (v : W64) (line : Nat) (p : PoolLine), s.tlc.maint = none → getF v Fld.TLC_MAINT_SCOPE = 0 → s.poolGet line = some p →
    ∃ t m q, exec (.tlcMaintClean v) s = .next t ∧ t.tlc.maint = some m ∧ m.op = 1 ∧ line ∈ m.left ∧ t.poolGet line = some q ∧
      q.due = min p.due (s.bgDeadline 3) ∧ q.data = p.data ∧ t.fget Reg.TLC_MAINT Fld.TLC_MAINT_BUSY = 1 ∧ t.tlc.cache = s.tlc.cache ∧
      Frame s t [.tlc] [Reg.TLC_MAINT]) ∧
  (∀ (s : State) (v : W64), s.tlc.maint = none → getF v Fld.TLC_MAINT_SCOPE = 2 →
    ∃ t, exec (.tlcMaintInvalidate v) s = .next t ∧ t.tlc.maint = none ∧
      t.tlc.cache = tdel s.tlc.cache (16 * getF v Fld.TLC_MAINT_SET + getF v Fld.TLC_MAINT_WAY) ∧ t.tlc.pool = s.tlc.pool ∧
      Frame s t [.tlc] [Reg.TLC_MAINT]) ∧
  (∀ (s : State) (v : W64), s.tlc.maint = none → getF v Fld.TLC_MAINT_SCOPE = 1 →
    ∃ t, exec (.tlcMaintInvalidate v) s = .next t ∧ t.tlc.maint = none ∧
      t.tlc.cache = s.tlc.cache.filter (fun e => cacheSet e.2.line != getF v Fld.TLC_MAINT_SET) ∧ t.tlc.pool = s.tlc.pool) ∧
  (∀ (s : State) (v : W64), s.tlc.maint = none → getF v Fld.TLC_MAINT_SCOPE = 0 → s.tlc.pool = [] →
    ∃ t, exec (.tlcMaintCleanInvalidate v) s = .next t ∧ t.tlc.inval = true ∧ t.tlc.maint.isSome = true ∧
      t.fget Reg.TLC_MAINT Fld.TLC_MAINT_BUSY = 1) ∧
  (∀ (s : State) (v : W64), s.tlc.maint.isSome = true →
    exec (.tlcMaintClean v) s = nextState s ∧ exec (.tlcMaintInvalidate v) s = nextState s ∧ exec (.tlcMaintCleanInvalidate v) s = nextState s)) ∧
  (
  (∀ (s : State) (n : Nat) (v : W64), n < 64 → s.rwlLocked = false → getF v Fld.TLC_ATTR_BASE ≤ getF v Fld.TLC_ATTR_LIMIT →
    getF v Fld.TLC_ATTR_LIMIT < hostHanks → getF v Fld.TLC_ATTR_WPOL < 2 → getF v Fld.TLC_ATTR_ALLOC ≠ 3 →
    ∃ t, exec (.tlcAttrWrite n v) s = .next t ∧ t.reg (Reg.TLC_ATTR n) = v &&& 0xFFFFFFFFFFFE003B ∧ (∀ lhn, t.attrOf lhn = s.attrOf lhn) ∧
      Frame s t [.tlc] [Reg.TLC_ATTR n]) ∧
  (∀ (s : State) (lhn : Nat) (v : W64), s.rwlLocked = false → getF v Fld.TLC_ATTR_VALID = 1 → getF v Fld.TLC_ATTR_BASE ≤ lhn →
    lhn ≤ getF v Fld.TLC_ATTR_LIMIT → getF v Fld.TLC_ATTR_LIMIT < hostHanks → getF v Fld.TLC_ATTR_WPOL < 2 → getF v Fld.TLC_ATTR_ALLOC ≠ 3 →
    ∃ t, exec (.tlcAttrWrite 0 v) s = .next t ∧
      ({ t with tlc := { t.tlc with attrs0 := [] } } : State).attrOf lhn = (getF v Fld.TLC_ATTR_WPOL, getF v Fld.TLC_ATTR_ALLOC, getF v Fld.TLC_ATTR_DISC)) ∧
  (∀ (s : State) (n : Nat) (v : W64), s.rwlLocked = true → exec (.tlcAttrWrite n v) s = nextState s))

/-! ### The gauge, bind-off and power -/

/-- The gauge recomputes from measured values: bus voltage, zone temperature and working phases are as measured, GAU_CAP_LINES is 0 with two
phases or fewer and never above 2,097,152, and GAUGE is ready; the reserve's bus first at 33.0 V makes STATE 1.

Bank tests. A test isolates its bank at 33.0 V: the next active bank in turn, or the one that FORCE names. A test that ends with good
measurements records them and reconnects the bank; one with too little capacitance, or too much resistance, leaves it FADED.

Banks fail, connect and are tested as spares: a bank whose switch opens is FAILED; a charging spare within reach of the bus becomes ACTIVE
at the bus voltage; the test of a spare makes it TESTING, and ends by itself: measuring well it is a spare again, with the new capacitance; one that cannot
complete is FAILED.
(R196, R197, R198, R200, R201, R202) -/
def Obligations.GaugeAndBanks : Prop :=
  (
  (∀ (s : State) (v c n : Nat), s.power = .on → v < 65536 →
    ∃ t, exec (.gaugeRecompute v c n) s = .next t ∧ t.energy.vbus = v ∧ t.energy.capTemp = int16 (c % 65536) ∧ t.energy.phases = min 4 n ∧
      t.fget Reg.GAU_BUS Fld.GAU_BUS_V_BUS = v ∧ t.fget Reg.GAU_STAT Fld.GAU_STAT_PHASES = min 4 n ∧ t.capLines ≤ 2097152 ∧
      (n ≤ 2 → t.capLines = 0) ∧ t.ready rGAUGE = true ∧ (s.energy.test = none → t.freeCtr = s.freeCtr) ∧
      Keeps s t (eventParts ++ [.freeCtr, .regs, .energy, .cxl])) ∧
  (∀ s : State, s.power = .on → s.fget Reg.GAU_STAT Fld.GAU_STAT_STATE = 0 →
    ∃ t, exec .reserveCharged s = .next t ∧ t.fget Reg.GAU_STAT Fld.GAU_STAT_STATE = 1 ∧ t.energy.vbus = max 33000 s.energy.vbus ∧
      t.capLines ≤ 2097152 ∧ Keeps s t (eventParts ++ [.regs, .energy]))) ∧
  (
  (∀ (s : State) (b : Nat), s.canTest = true → s.nextBank = some b →
    ∃ t, exec .bankTest s = .next t ∧ t.energy.test = some (b, none) ∧ t.bankState b = 2 ∧ (t.bank b).own = 33000 ∧
      t.fget Reg.GAU_TEST_CTL Fld.GAU_TEST_CTL_BANK = b ∧ t.fget Reg.GAU_TEST_CTL Fld.GAU_TEST_CTL_BUSY = 1 ∧
      Frame s t [.energy] [Reg.GAU_BANK b, Reg.GAU_TEST_CTL]) ∧
  (∀ (s : State) (v : W64), getF v Fld.GAU_TEST_CTL_FORCE = 1 → getF v Fld.GAU_TEST_CTL_FBANK < 12 → s.canTest = true →
    s.bankState (getF v Fld.GAU_TEST_CTL_FBANK) < 2 →
    ∃ t, exec (.gauTestForce v) s = .next t ∧ t.energy.test = some (getF v Fld.GAU_TEST_CTL_FBANK, none) ∧
      t.bankState (getF v Fld.GAU_TEST_CTL_FBANK) = 2 ∧
      Frame s t [.energy, .plat] [Reg.GAU_BANK (getF v Fld.GAU_TEST_CTL_FBANK), Reg.GAU_TEST_CTL]) ∧
  (∀ (s : State) (b esr cap : Nat), b < 12 → s.energy.test = some (b, none) → s.energy.testSpare = false → s.cmds = [] → 600 ≤ cap → esr ≤ 250 →
    ∃ t, exec (.bankTestDone true esr cap) s = .next t ∧ t.energy.test = none ∧ t.bankState b = 0 ∧ (t.bank b).cTest = cap ∧
      (t.bank b).tTest = s.energy.capTemp ∧ (t.bank b).testedAt = s.clk.now ∧ t.fget (Reg.GAU_BANK b) Fld.GAU_BANK_ESR = esr ∧
      t.fget Reg.GAU_TEST_CTL Fld.GAU_TEST_CTL_BUSY = 0) ∧
  (∀ (s : State) (b esr cap : Nat), b < 12 → s.energy.test = some (b, none) → s.energy.testSpare = false → s.cmds = [] → cap < 600 ∨ 250 < esr →
    ∃ t, exec (.bankTestDone true esr cap) s = .next t ∧ t.energy.test = none ∧ t.bankState b = 4)) ∧
  (
  (∀ (s : State) (b : Nat), b < 12 → s.bankState b < 4 → s.power ≠ .none → s.energy.test = none →
    ∃ t, exec (.bankFailure b) s = .next t ∧ t.bankState b = 5 ∧ t.energy.vbus = s.energy.vbus) ∧
  (∀ (s : State) (b : Nat), b < 12 → s.bankState b = 3 →
    ∃ t, exec (.spareBankConnect b) s = .next t ∧ t.bankState b = 0 ∧ (t.bank b).own = s.energy.vbus ∧ (t.bank b).cTest = (s.bank b).cTest) ∧
  (∀ (s : State) (b esr cap : Nat) (ok : Bool), b < 12 → s.bankState b = 1 → s.canTest = true →
    ∃ t, exec (.spareBankTest b ok esr cap) s = .next t ∧ t.energy.test = some (b, none) ∧ t.energy.testSpare = true ∧ t.bankState b = 2 ∧
      t.fget Reg.GAU_TEST_CTL Fld.GAU_TEST_CTL_BANK = b ∧ t.fget Reg.GAU_TEST_CTL Fld.GAU_TEST_CTL_BUSY = 1 ∧
      Frame s t [.energy] [Reg.GAU_BANK b, Reg.GAU_TEST_CTL]) ∧
  (∀ (s : State) (b esr cap : Nat), b < 12 → s.energy.test = some (b, none) → s.energy.testSpare = true → s.energy.wantSpare = 0 →
    s.bankState b = 2 → s.cmds = [] → 600 ≤ cap → esr ≤ 250 →
    ∃ t, exec (.spareBankTest b true esr cap) s = .next t ∧ t.energy.test = none ∧ t.bankState b = 1 ∧ (t.bank b).cTest = cap) ∧
  (∀ (s : State) (b esr cap : Nat), b < 12 → s.energy.test = some (b, none) → s.energy.testSpare = true → s.bankState b = 2 → s.cmds = [] →
    ∃ t, exec (.spareBankTest b false esr cap) s = .next t ∧ t.energy.test = none ∧ t.bankState b = 5))

/-- The triggers of a bind-off, which the reserve carries: P12V fails, PWRDIS asserts, or the module is critical with every accepted request completed. STATE is 2, TRIG
names the trigger. With the newest image replayed the record takes the next SEQ and the other half, from the start; otherwise only the attempt
is recorded, without an image.
(R204, R213, R430) -/
def Obligations.BindoffStarts : Prop :=
  (∀ s : State, s.power = .on → s.reserveCarries = true →
    ∃ t, exec .powerFail s = .next t ∧ t.power = .bindoff ∧ t.clk.p12v = false ∧ t.fget Reg.GAU_STAT Fld.GAU_STAT_STATE = 2 ∧
      t.fget Reg.GAU_STAT Fld.GAU_STAT_TRIG = 1 ∧ t.energy.drained = false ∧ t.energy.rcd.aTrig = 1 ∧ t.energy.rcd.aTick = s.clk.now ∧
      (s.replayDone = true → s.clk.pll = true → t.energy.rcd.seq = s.energy.rcd.seq + 1 ∧ t.energy.rcd.half = !s.energy.rcd.half ∧
        t.energy.rcd.phase = 0 ∧ t.energy.rcd.trig = 1 ∧ t.energy.rcd.noImage = false) ∧
      (s.replayDone = false → t.energy.rcd.seq = s.energy.rcd.seq ∧ t.energy.rcd.noImage = true) ∧ t.tlc = s.tlc ∧ t.med = s.med) ∧
  (∀ s : State, s.power = .on → s.reserveCarries = true →
    ∃ t, exec .pwrdisAssert s = .next t ∧ t.power = .bindoff ∧ t.energy.pwrdis = true ∧ t.fget Reg.GAU_STAT Fld.GAU_STAT_STATE = 2 ∧
      t.fget Reg.GAU_STAT Fld.GAU_STAT_TRIG = 2 ∧ t.energy.rcd.aTrig = 2 ∧ t.clk = s.clk ∧ t.tlc = s.tlc ∧ t.med = s.med) ∧
  (∀ (s : State) (z k : Nat) (v : Int), s.power = .on → s.adm.critical = true → s.adm.dl = [] → s.plat.thermCrit = some (z, k, v) → z < 5 → k < 58 →
    ∃ t, exec .thermalBindoff s = .next t ∧ t.power = .bindoff ∧ t.fget Reg.GAU_STAT Fld.GAU_STAT_TRIG = 4 ∧
      t.fget Reg.THM_SHUTDOWN Fld.THM_SHUTDOWN_ZONE = z ∧ t.fget Reg.THM_SHUTDOWN Fld.THM_SHUTDOWN_SENSOR = k ∧
      t.plat.thermRec = some (s.clk.now, s.wallOf s.clk.now) ∧ t.tlc = s.tlc ∧ t.med = s.med)

/-- The freeze fixes the dump: the lines of the merge buffer, the spill queues and the pool; counting stops, and when the supply or PWRDIS was the
trigger the host link is down and no request is left. Once the programs have ended the half in use is OPEN under the record's SEQ with the items
of the dirty counters and of the dump, and the dump plan starts, with no read slot on any channel; then the index, the sections and the pool are
written, phase by phase, each phase in both copies of the record.

A bind-off ends. At COMPLETE the half's header is COMPLETE, medium time is saved as E_down, and the clean count rises; with the supply gone
the module is off, after PREPARE_POWER_LOSS with the supply good it is BOUND. When the reserve runs low first, the image is cut, E_down is not
saved, and the module is off.

What a bind-off without an image or a cut one leaves is as in log 23.
(R207, R209, R212, R213, R215, R220) -/
def Obligations.BindoffRunsToItsEnd : Prop :=
  (
  (∀ s : State, s.power = .bindoff → s.energy.drained = false → s.energy.low = false → s.energy.rcd.noImage = false → s.canFreeze = true →
    ∃ t, exec .bindoffFreeze s = .next t ∧ t.energy.drained = true ∧ t.fget Reg.PMC_GCTL Fld.PMC_GCTL_GEN = 0 ∧
      t.energy.rcd = s.energy.rcd ∧ t.energy.halfA = s.energy.halfA ∧ t.energy.halfB = s.energy.halfB ∧
      (s.adm.dl = [] → s.adm.ops = [] → t.energy.dump = s.lineItems s.unackedLines) ∧
      (s.energy.trig = 1 ∨ s.energy.trig = 2 → t.cxl.linkUp = false ∧ t.adm.dl = [])) ∧
  (∀ s : State, s.atPhase 0 = true → s.med.progs = [] →
    ∃ t, exec .bindoffFrozen s = .next t ∧ t.energy.rcd.phase = 1 ∧ t.energy.rcd.aPhase = 1 ∧ t.energy.rcdB = t.energy.rcd ∧
      (t.half s.energy.rcd.half).seq = s.energy.rcd.seq ∧ (t.half s.energy.rcd.half).complete = false ∧
      (s.adm.ops = [] → (t.half s.energy.rcd.half).items.length = s.counterItems.length + s.energy.dump.length) ∧
      t.energy.rcd.nPool = ((t.half t.energy.rcd.half).items.filter fun i => i.src == 0).length ∧
      (∀ ch, ch < 34 → t.fget (Reg.MCH_ROWPLAN ch) Fld.MCH_ROWPLAN_READ_MASK = 0) ∧ t.med.lines = s.med.lines ∧ t.crypto = s.crypto ∧
      (s.adm.ops = [] → Frame s t [.energy] ((List.range 34).map Reg.MCH_ROWPLAN))) ∧
  (∀ s : State, s.atPhase 1 = true → exec .bindoffIndexed s =
    nextState { s with energy := { s.energy with
      rcd := { s.energy.rcd with phase := 2, aPhase := 2 }, rcdB := { s.energy.rcd with phase := 2, aPhase := 2 } } }) ∧
  (∀ s : State, s.atPhase 2 = true → exec .bindoffSections s =
    nextState (s.setRcd { s.energy.rcd with
      phase := 3, aPhase := 3, watermark := s.energy.rcd.nCtr + s.energy.rcd.nMb + s.energy.rcd.nSpill }))) ∧
  (
  (∀ s : State, s.atPhase 3 = true → s.clk.p12v = false → s.energy.prepareCmd = none →
    ∃ t, exec .bindoffComplete s = .next t ∧ t.power = s.offPower ∧ t.energy.rcd.phase = 4 ∧ (t.half s.energy.rcd.half).complete = true ∧
      t.med.eDown = some (s.medTime / 64, s.medTime % 64) ∧ t.med.lines = s.med.lines ∧
      t.fget Reg.GAU_BINDOFF_LAST Fld.GAU_BINDOFF_LAST_OUTCOME = 1 ∧
      t.fget Reg.GAU_BINDOFF_CNT Fld.GAU_BINDOFF_CNT_CLEAN =
        min (s.fget Reg.GAU_BINDOFF_CNT Fld.GAU_BINDOFF_CNT_CLEAN + 1) (2 ^ fwidth Fld.GAU_BINDOFF_CNT_CLEAN - 1)) ∧
  (∀ s : State, s.atPhase 3 = true → s.clk.p12v = true → s.energy.pwrdis = false → s.energy.trig = 3 → s.energy.prepareCmd = none →
    ∃ t, exec .bindoffComplete s = .next t ∧ t.power = .bound ∧ t.fget Reg.GAU_STAT Fld.GAU_STAT_STATE = 3 ∧ t.energy.rcd.phase = 4 ∧
      (t.half s.energy.rcd.half).complete = true) ∧
  (∀ (s : State) (w : Nat), s.power = .bindoff → s.clk.p12v = false → s.energy.rcd.noImage = false → s.energy.rcd.phase = 1 →
    ∃ t, exec (.reserveLow w) s = .next t ∧ t.power = s.offPower ∧ t.energy.rcd.cut = true ∧ t.med.eDown = none ∧
      t.fget Reg.GAU_BINDOFF_LAST Fld.GAU_BINDOFF_LAST_OUTCOME = 4))

/-- Power comes back: P12V is noted good during a bind-off or after one; once it has been stable the module casts on from cold, and so it does
when PWRDIS is released on a module that is off with 12 V good. A dip that starts nothing is counted.

12 V good casts the module on from cold: it is on, device time is 0, the clocks run from the reference until the PLL locks, no skein is
ready, and the stored lines are as they were.

Zones and GPF: the bit of a zone without dirty lines clears; GPF Phase 1 is answered at once, Phase 2 when every accepted write has landed,
else when it has.

When device time runs is as in log 22.
(R205, R208, R219, R221, R227, R41) -/
def Obligations.PowerReturns : Prop :=
  (
  (∀ s : State, s.power = .bindoff ∨ s.power = .waitP12v → exec .p12vReturn s = nextState { s with clk := { s.clk with p12v := true } }) ∧
  (∀ s : State, s.power = .waitP12v → s.clk.p12v = true → s.energy.pwrdis = false →
    ∃ t, exec .p12vStable s = .next t ∧ t.power = .on ∧ t.clk.now = 0 ∧ t.clk.pll = false ∧ t.med.lines = s.med.lines ∧
      t.fget Reg.RDY_CASTON Fld.RDY_CASTON_KIND = 0) ∧
  (∀ s : State, s.energy.pwrdis = true → s.power = .aux → s.clk.p12v = true →
    ∃ t, exec .pwrdisRelease s = .next t ∧ t.power = .on ∧ t.energy.pwrdis = false ∧ t.clk.now = 0 ∧ t.med.lines = s.med.lines) ∧
  (∀ s : State, s.clk.p12v = true → exec .brownOut s = nextState (s.setReg Reg.GAU_BROWNOUT (s.reg Reg.GAU_BROWNOUT + 1)))) ∧
  (
  ∀ s : State, s.power = .aux ∨ s.power = .none → s.energy.pwrdis = false →
    ∃ t, exec .coldCastOn s = .next t ∧ t.power = .on ∧ t.clk.now = 0 ∧ t.clk.pll = false ∧ t.clk.p12v = true ∧ t.med.lines = s.med.lines ∧
      t.reg Reg.RDY_SKEIN = 0 ∧ t.adm.dl = [] ∧ t.adm.ops = [] ∧ t.tlc.pool = [] ∧ t.cast.l3 = false ∧
      t.fget Reg.RDY_CASTON Fld.RDY_CASTON_KIND = 0) ∧
  (
  (∀ (s : State) (z : Nat), (∀ q ∈ s.tlc.pool, lhnOf q.1 / 96 ≠ z) →
    ∃ t, exec (.dirtyZoneClear z) s = .next t ∧ z ∉ t.energy.zoneMap ∧ (∀ y, y ≠ z → (y ∈ t.energy.zoneMap ↔ y ∈ s.energy.zoneMap)) ∧
      t.energy = { s.energy with zoneMap := t.energy.zoneMap } ∧ Frame s t [.energy] []) ∧
  (∀ s : State, s.cxl.linkUp = true → exec .gpfPhase1 s =
    nextState { s with outbox := .gpf 1 10 (s.fget Reg.PWR_LIMIT Fld.PWR_LIMIT_WATTS) :: s.outbox }) ∧
  (∀ s : State, s.cxl.linkUp = true → s.writesLanded = true →
    exec .gpfPhase2 s = nextState { s with
      outbox := .gpf 2 10 (s.fget Reg.PWR_LIMIT Fld.PWR_LIMIT_WATTS) :: s.outbox, energy := { s.energy with gpf := false } }) ∧
  (∀ s : State, s.cxl.linkUp = true → s.writesLanded = false → exec .gpfPhase2 s = nextState { s with energy := { s.energy with gpf := true } }))

/-! ### Cast-on, resets and the host link -/

/-- The steps of cast-on that set one function ready. Each happens once its own prerequisites hold.

RDY_TIME of a function takes the tick at which its READY bit rises, and no other function's bit changes.

The host link comes up with the width it trained at, of x16 no more than x8 outside lane plan A, and goes down and up with REFCLK in
common-clock mode.

When MLD operation and common-clock mode are taken is as in log 27 and log 29.
(R12, R228, R229, R232, R346, R348) -/
def Obligations.CastOnStepsAndLink : Prop :=
  (
  (∀ s : State, s.power = .on → exec .pllLock s = nextState { s with clk := { s.clk with pll := true } }) ∧
  (∀ (s : State) (b : Bool), s.power = .on → s.ready rFW = false → s.failedBit rFW = false → 2 ≤ (s.plat.cores.filter (· != 2)).length →
    ∃ t, exec (.fwVerified true b) s = .next t ∧ t.ready rFW = true ∧
      t.fget Reg.EFC_STAT Fld.EFC_STAT_ACTIVE = s.fget Reg.EFC_STAT Fld.EFC_STAT_NEXT ∧ t.reg (Reg.RDY_TIME rFW) = BitVec.ofNat 64 s.clk.now ∧
      t.fget Reg.RDY_IDENT Fld.RDY_IDENT_FWMAJ =
        Config.imageMajor (fun k => s.flashWordAt (s.fget Reg.EFC_STAT Fld.EFC_STAT_NEXT * 2 ^ 19 + k % 2 ^ 19)) % 2 ^ fwidth Fld.RDY_IDENT_FWMAJ ∧
      (s.ready rSKEINS = false → Frame s t [] [Reg.EFC_STAT, Reg.RDY_IDENT, Reg.RDY_STATUS, Reg.RDY_TIME rFW])) ∧
  (∀ s : State, s.power = .on → s.ready rFW = false → s.failedBit rFW = false → 2 ≤ (s.plat.cores.filter (· != 2)).length →
    exec (.fwVerified false false) s = nextState (s.setFail rFW)) ∧
  (∀ s : State, s.power = .on → s.clk.pll = true → exec .wmemReady s = nextState (s.setReady rWMEM true)) ∧
  (∀ s : State, s.power = .on → s.ready rFW = true → s.plat.coldHold = false → exec .ringsReady s = nextState (s.setReady rRINGS true)) ∧
  (∀ s : State, s.power = .on → s.ready rDRIFT = true → s.ready rKEYS = true → s.cast.l3 = false → s.plat.coldHold = false →
    exec (.l3LoadDone []) s = nextState { s with cast := { s.cast with l3 := true } }) ∧
  (∀ s : State, s.power = .on → s.fget Reg.RDY_REPLAY Fld.RDY_REPLAY_STATE = 2 → s.cast.replayLeft = [] → s.cast.ctrLeft = [] →
    s.plat.warmWait = false →
    exec .replayDone s = nextState ((s.fset Reg.RDY_REPLAY Fld.RDY_REPLAY_STATE 3).fset Reg.RDY_REPLAY Fld.RDY_REPLAY_LEFT 0)) ∧
  (∀ s : State, s.power = .on → s.fget Reg.RDY_REPLAY Fld.RDY_REPLAY_STATE = 1 → s.plat.warmWait = false →
    ∃ t, exec .replayDone s = .next t ∧ t.tlc.pool = (s.placeItems s.cast.failed).tlc.pool ∧
      t.cast.replayLeft = (s.placeItems s.cast.failed).cast.replayLeft ∧
      t.fget Reg.RDY_REPLAY Fld.RDY_REPLAY_STATE = (if (s.placeItems s.cast.failed).replayIdle then 3 else 2) ∧
      (t.cast.replayLeft.length < 2 ^ fwidth Fld.RDY_REPLAY_LEFT → t.fget Reg.RDY_REPLAY Fld.RDY_REPLAY_LEFT = t.cast.replayLeft.length) ∧
      t.energy = s.energy ∧ t.med = s.med) ∧
  (∀ (s : State) (v : W64), getF v Fld.RDY_CTL_CONFIG_LOCK = 1 → exec (.configLock v) s = nextState (s.fset Reg.RDY_CTL Fld.RDY_CTL_CONFIG_LOCK 1))) ∧
  (
  ∀ (s : State) (n : Nat), n ≤ 16 → s.ready n = false →
    (s.setReady n true).ready n = true ∧ (s.setReady n true).reg (Reg.RDY_TIME n) = BitVec.ofNat 64 s.clk.now ∧
      (∀ m, m ≤ 16 → m ≠ n → (s.setReady n true).ready m = s.ready m)) ∧
  (
  (∀ (s : State) (lanes rate : Nat) (m : Bool), s.cxl.perst = false → s.power = .on ∨ s.power = .bound → s.clk.pll = true →
    s.cxl.common = false ∨ s.cxl.refclk = true →
    ∃ t, exec (.hostLinkTrained lanes rate m) s = .next t ∧ t.cxl.linkUp = true ∧ t.cxl.rate = rate ∧
      t.cxl.lanes = min lanes (if s.fget Reg.RDY_CASTON Fld.RDY_CASTON_PLAN = 1 then 8 else 16) ∧
      t.cxl.cxlOn = ((t.cxl.lanes == 4 || t.cxl.lanes == 8 || t.cxl.lanes == 16) && (rate == 16 || rate == 32)) ∧
      t.cxl.mld = (t.cxl.cxlOn && m) ∧ t.cxl.decoders = s.cxl.decoders ∧ Keeps s t [.regs, .cxl]) ∧
  (∀ s : State, exec .refclkStop s = nextState { s with cxl := { s.cxl with refclk := false, common := true, linkUp := false } }) ∧
  (∀ s : State, s.cxl.common = true → s.cxl.perst = false → s.cxl.lanes ≠ 0 → s.power = .on ∨ s.power = .bound →
    exec .refclkReturn s = nextState { s with cxl := { s.cxl with refclk := true, linkUp := true } }) ∧
  (∀ s : State, s.power = .on → exec .auxLoss s = nextState { s with clk := { s.clk with aux := false } }) ∧
  (∀ s : State, s.power = .on → exec .p3v3AuxReturn s = nextState { s with clk := { s.clk with aux := true } }) ∧
  (∀ s : State, s.power = .aux → s.clk.p12v = false → ∃ t, exec .auxLoss s = .next t ∧ t.power = .none ∧
    t.fget Reg.RDY_STATUS Fld.RDY_STATUS_READY = 0 ∧ Frame s t [.power, .clk] [Reg.RDY_STATUS]) ∧
  (∀ s : State, s.power = .none → ∃ t, exec .p3v3AuxReturn s = .next t ∧ t.power = .aux ∧
    t.fget Reg.RDY_STATUS Fld.RDY_STATUS_READY = 3 ∧ Frame s t [.power, .clk] [Reg.RDY_STATUS]))

/-- Keys, channels, mailboxes and a skein come up.

The maps are restored: MAP is ready and the replay reads its image; an image of the maps that fails its check makes MAP fail.
(R229, R232, R233, R235, R237) -/
def Obligations.CastOnBringsUnitsUp : Prop :=
  (
  (∀ s : State, s.power = .on → s.clk.pll = true → s.ready rKEYS = false → s.failedBit rKEYS = false → s.engineState 0 ≠ 2 →
    ∃ t, exec (.keysReady true true) s = .next t ∧ t.ready rKEYS = true ∧ t.engineState 0 = (if s.engineState 0 = 0 then 1 else s.engineState 0) ∧
      t.crypto.retiring = [] ∧ t.crypto.nodes = s.crypto.nodes ∧ Keeps s t (eventParts ++ [.regs, .crypto])) ∧
  (∀ (s : State) (ch : Nat), s.power = .on → s.clk.pll = true → ch < 34 → s.fget (Reg.MCH_STATE ch) Fld.MCH_STATE_ENGINE = 0 →
    ∃ t, exec (.channelEngineReady ch true) s = .next t ∧ t.fget (Reg.MCH_STATE ch) Fld.MCH_STATE_ENGINE = 1 ∧
      t.fbit Reg.RDY_CHAN Fld.RDY_CHAN_CHAN ch = true ∧
      ((∀ c, c < 34 → c ≠ ch → s.fget (Reg.MCH_STATE c) Fld.MCH_STATE_ENGINE ≠ 0) → t.ready rMEDIA = true) ∧
      Keeps s t (eventParts ++ [.regs])) ∧
  (∀ s : State, s.power = .on → s.ready rFW = true →
    ∃ t, exec .mboxReady s = .next t ∧ t.ready rMBOX = true ∧ Keeps s t (eventParts ++ [.regs, .cxl])) ∧
  (∀ (s : State) (k : Nat), s.power = .on → k < 64 → s.replayDone = true → s.skeinReady k = false → s.failedBit rMAP = false →
    s.failedBit rKEYS = false → s.skeinClear k = true → s.cxl.sanitizing = 0 → s.adm.dl = [] →
    ∃ t, exec (.skeinReady k) s = .next t ∧ t.skeinReady k = true ∧ (∀ m, m < 64 → m ≠ k → t.skeinReady m = s.skeinReady m) ∧
      ((∀ m, m < 64 → m ≠ k → s.skeinReady m = true) → t.ready rSKEINS = true ∧ t.cxl.memActive = true) ∧ t.med = s.med)) ∧
  (
  (∀ (s : State) (okA okB : Bool) (i : Image) (failed : List (Nat × Bool)), s.power = .on → s.ready rWMEM = true → s.ready rKEYS = true →
    s.cast.l3 = true → s.ready rMAP = false → s.failedBit rMAP = false → s.plat.coldHold = false → s.hanks.usableImage okA okB = some i →
    ∃ t, exec (.mapRestoreDone (okA, okB) failed) s = .next t ∧ t.ready rMAP = true ∧ t.fget Reg.RDY_REPLAY Fld.RDY_REPLAY_STATE = 1 ∧
      t.cast.failed = failed ∧ t.hanks.mapsReady = true) ∧
  (∀ (s : State) (okA okB : Bool) (failed : List (Nat × Bool)), s.power = .on → s.ready rWMEM = true → s.ready rKEYS = true → s.cast.l3 = true →
    s.ready rMAP = false → s.failedBit rMAP = false → s.plat.coldHold = false → s.hanks.usableImage okA okB = none →
    ∃ t, exec (.mapRestoreDone (okA, okB) failed) s = .next t ∧ t.failedBit rMAP = true ∧ t.ready rMAP = false ∧ t.hanks = s.hanks ∧ t.med = s.med))

/-- Resets of the attachment. A Function Level Reset empties the rings; PERST# also takes the host link down and discards the decoders and the
IDE keys; a CXL Reset also empties the line cache and discards the mailbox commands. None touches a stored line, a key slot or the pool.

The order within a CXL Reset is as in log 28.
(R238, R239, R240, R278) -/
def Obligations.ResetsKeepTheData : Prop :=
  (∀ s : State, ∃ t, exec .flr s = .next t ∧ t.rings.coal = List.replicate 8 0 ∧
      (∀ n, n < 8 → t.fget (Reg.CRG_CTL n) Fld.CRG_CTL_ENABLE = 0 ∧
        t.fget (Reg.CRG_CTL n) Fld.CRG_CTL_LDMASK = s.fget (Reg.CRG_CTL n) Fld.CRG_CTL_LDMASK) ∧
      (∀ off, off < 0x10000 ∨ 0x20000 ≤ off → quietReg off = true → t.reg off = s.reg off) ∧ Keeps s t [.regs, .rings, .cmds]) ∧
  (∀ s : State, ∃ t, exec .perstAssert s = .next t ∧ t.cxl = { s.cxl with perst := true, linkUp := false, cxlOn := false, decoders := [], hdmErr := [] } ∧
      t.crypto = { s.crypto with ideMem := [], ideIo := [], ideMemSecure := false, ideIoSecure := false, ideMemFailed := false } ∧
      (∀ off, off < 0x10000 ∨ 0x20000 ≤ off → quietReg off = true → t.reg off = s.reg off) ∧
      Keeps s t [.regs, .crypto, .cxl, .rings, .cmds]) ∧
  (∀ s : State, exec .perstRelease s = nextState { s with cxl := { s.cxl with perst := false } }) ∧
  (∀ s : State, s.power = .on → s.adm.dl = [] →
    ∃ t, exec .cxlReset s = .next t ∧ t.power = .on ∧ t.cxl.decoders = [] ∧ t.cxl.mboxBusy = [] ∧ t.tlc.cache = [] ∧ t.plat.coldHold = false ∧
      t.tlc.pool = s.tlc.pool ∧ t.med = s.med ∧ t.crypto = s.crypto ∧ t.hanks = s.hanks)

/-! ### Keys, IDE, SPDM and seals -/

/-- The known-answer check of an engine: an engine that was off and passes is ready.

A retiring slot whose lines have all verified in the medium, with no hank bound to it, is EMPTY; with hanks still bound to it (none of
them two-ply) it is RETIRED. Either way its key is gone, and it retires no more.

CXL IDE: a key programmed in an established session enters its set; a stream with a key in each direction is secure. A MAC failure takes
the stream out of the secure state and discards its keys; on CXL.cachemem the reads accepted return poison.

The SPDM responder, with the firmware's mailboxes up: versions, capabilities, algorithms, digests, certificate, challenge, measurements, a
key exchange, and the work of a session. The codes are those of SPDM 1.2 (assumption log 40).

Published algorithms are uninterpreted (log 11).
(R247, R255, R258, R276, R277, R284) -/
def Obligations.KeysIdeAndSpdm : Prop :=
  (
  (∀ (s : State) (e : Nat), s.power = .on → e < 2 → s.engineState e = 0 → s.cmds = [] →
    ∃ t, exec (.knownAnswerCheck e true) s = .next t ∧ t.engineState e = 1 ∧ t.engineState (1 - e) = s.engineState (1 - e) ∧
      Frame s t [] [Reg.KEY_STAT]) ∧
  (∀ (s : State) (e : Nat), s.power = .on → e < 2 → s.cmds = [] →
    ∃ t, exec (.knownAnswerCheck e false) s = .next t ∧ t.engineState e = 2)) ∧
  (
  ∀ (s : State) (n : Nat), (s.slot n).state = 2 → s.keyDirty n = false → s.power = .on → s.ready rKEYS = true → tget s.crypto.retiring n = some none →
    (∀ l ∈ s.boundHanks n, (s.hostEntry l).ply ≠ 1 ∧ (s.hostEntry l).ply ≠ 2) →
    ∃ t, exec (.keyRetireFlushed n) s = .next t ∧ (t.slot n).wkey = 0 ∧ tget t.crypto.store n = none ∧ (t.slot n).state = (if s.boundHanks n = [] then 0 else 3) ∧
      t.hanks = s.hanks ∧ t.med = s.med ∧ t.tlc.pool = s.tlc.pool) ∧
  (
  (∀ (s : State) (n k : Nat) (rx : Bool) (key : BitVec 256) (x : SpdmSession), tget s.seals.sessions n = some x → x.established = true → k < 2 →
    ∃ t, exec (.ideKeyProg n true rx k key) s = .next t ∧ tget t.crypto.ideMem ((if rx then 2 else 0) + k) = some key ∧
      t.crypto.ideIo = s.crypto.ideIo ∧ (t.crypto.ideMemSecure = true ↔ (∃ a < 2, (tget t.crypto.ideMem a).isSome ∧ (tget t.crypto.ideMem (2 + a)).isSome)) ∧
      Frame s t [.crypto] []) ∧
  (∀ (s : State) (n k : Nat) (rx : Bool) (key : BitVec 256) (x : SpdmSession), tget s.seals.sessions n = some x → x.established = true → k < 2 →
    ∃ t, exec (.ideKeyProg n false rx k key) s = .next t ∧ tget t.crypto.ideIo ((if rx then 2 else 0) + k) = some key ∧
      t.crypto.ideMem = s.crypto.ideMem ∧ Frame s t [.crypto] []) ∧
  (∀ s : State, s.crypto.ideIoSecure = true →
    exec (.ideMacFailure false) s = nextState { s with crypto := { s.crypto with ideIo := [], ideIoSecure := false } }) ∧
  (∀ s : State, s.crypto.ideMemSecure = true →
    ∃ t, exec (.ideMacFailure true) s = .next t ∧
      t.crypto = { s.crypto with ideMem := [], ideMemSecure := false, ideMemFailed := true } ∧
      (∀ q e, tget s.adm.dl q = some e → e.kind = .read → tget t.adm.dl q = none))) ∧
  (
  ∀ s : State, s.power = .on → s.ready rMBOX = true →
    exec .spdmGetVersion s = nextState { s with
      outbox := .spdm 0x04 [0x12] [] :: s.outbox, seals := { s.seals with version := true, caps := false, algs := false, dhe := false } } ∧
    (s.seals.version = true →
      exec .spdmGetCapabilities s = nextState { s with outbox := .spdm 0x61 [] [] :: s.outbox, seals := { s.seals with caps := true } }) ∧
    (∀ a h d e : Nat, s.seals.caps = true → a.testBit 7 = true → h.testBit 1 = true → d.testBit 4 = true → e.testBit 1 = true →
      exec (.spdmNegotiateAlgorithms a h d e) s = nextState { s with
        outbox := .spdm 0x63 [0x80, 0x02, 0x10, 0x02] [] :: s.outbox, seals := { s.seals with algs := true, dhe := true } }) ∧
    (s.seals.algs = true →
      exec .spdmGetDigests s = nextState { s with outbox := .spdm 0x01 [1] (be 48 (Config.sha384 spdmChain).toNat) :: s.outbox }) ∧
    (∀ o n : Nat, s.seals.algs = true → o < spdmChain.length →
      exec (.spdmGetCertificate 0 o n) s = nextState { s with
        outbox := .spdm 0x02 [0, ((spdmChain.drop o).take n).length, spdmChain.length - o - ((spdmChain.drop o).take n).length]
          ((spdmChain.drop o).take n) :: s.outbox }) ∧
    (∀ nonce : BitVec 256, s.seals.algs = true → s.ready rSEAL = true →
      ∃ b, exec (.spdmChallenge 0 nonce) s = nextState { s with freeCtr := s.freeCtr + 1, outbox := .spdm 0x03 [0] b :: s.outbox }) ∧
    (∀ (i : Nat) (nonce : BitVec 256), s.seals.algs = true → s.ready rSEAL = true → 1 ≤ i → i ≤ 6 →
      exec (.spdmGetMeasurements none i false nonce) s = nextState { s with outbox := .spdm 0x60 [i] (s.measure i) :: s.outbox }) ∧
    (∀ q : BitVec 384 × BitVec 384, s.seals.algs = true → s.seals.dhe = true → s.ready rKEYS = true → s.seals.sessions.length < 2 →
      exec (.spdmKeyExchange q) s = nextState (if Config.onCurve q.1 q.2 = true then
        { s with
          outbox := .spdm 0x64 [s.seals.nextSession] [] :: s.outbox
          seals := { s.seals with
            sessions := tput s.seals.sessions s.seals.nextSession { established := false, updates := 0 }, nextSession := s.seals.nextSession + 1 } }
        else { s with outbox := .spdm 0x7F [1] [] :: s.outbox })) ∧
    (∀ (n : Nat) (x : SpdmSession), tget s.seals.sessions n = some x → x.established = false →
      exec (.spdmFinish n true) s = nextState { s with
        outbox := .spdm 0x65 [] [] :: s.outbox, seals := { s.seals with sessions := tput s.seals.sessions n { x with established := true } } }) ∧
    (∀ (n : Nat) (x : SpdmSession), tget s.seals.sessions n = some x → x.established = true →
      exec (.spdmHeartbeat n) s = nextState { s with outbox := .spdm 0x68 [] [] :: s.outbox } ∧
      exec (.spdmKeyUpdate n) s = nextState { s with
        outbox := .spdm 0x69 [] [] :: s.outbox, seals := { s.seals with sessions := tput s.seals.sessions n { x with updates := x.updates + 1 } } } ∧
      exec (.spdmEndSession n) s = nextState { s with
        outbox := .spdm 0x6C [] [] :: s.outbox, seals := { s.seals with sessions := tdel s.seals.sessions n } }))

/-- An extent in progress whose lines all read without poison is sealed when its hash ends: the next record of the ledger, at the tick it is
appended, with the extent's hash and chained to the record before it, is a live seal, and the seal is no longer in progress.

When a line of the extent reads as poison no record is appended, and its hanks are unsealed again.

A VERIFY_EXTENT ends: it answers 1 when the extent still has the hash its seal recorded, and 0 with a SEAL event when it has not, with the
count of lines that read as poison; the hash goes to a buffer of at least 48 bytes. The archive point rises to what is written, never past the
ledger's head. The ledger's check at cast-on makes SEAL ready, and fails it when neither copy is good.

Details of sealing are as in log 31.
(R291, R293, R297, R298, R300) -/
def Obligations.SealsEnterTheLedger : Prop :=
  (
  ∀ (s : State) (n : Nat) (j : SealJob), tget s.seals.jobs n = some j → s.sealMay j = true → s.hashFirst j = false →
    s.seqHeld = false → s.poisonIn j.first j.count = none → s.ratchet 0 + 1 < 2 ^ 64 → s.wm.errs = [] →
    ∃ t r, exec (.sealHashDone n) s = .next t ∧ r.seq = s.ratchet 0 + 1 ∧ r.kind = 1 ∧ r.ld = j.ld ∧ r.keyidx = j.key ∧ r.count = j.count ∧
      r.label = j.label ∧ r.devtime = s.clk.now ∧ r.extentHash = s.extentHash j.first j.count ∧
      r.prevHash = (match tget s.seals.ledger (s.ratchet 0) with | some p => recordHash p | none => 0) ∧
      tget t.seals.ledger r.seq = some r ∧
      tget t.seals.live r.seq = some { seq := r.seq, ld := j.ld, first := j.first, count := j.count, rcd := r } ∧ tget t.seals.jobs n = none ∧
      t.ratchet 0 = s.ratchet 0 + 1 ∧ t.reg Reg.SEL_HEAD = BitVec.ofNat 64 (s.ratchet 0 + 1) ∧ t.hanks = s.hanks ∧ t.tlc = s.tlc) ∧
  (
  ∀ (s : State) (n l : Nat) (j : SealJob), tget s.seals.jobs n = some j → s.sealMay j = true → s.hashFirst j = false → s.journalFull = false →
    s.poisonIn j.first j.count = some l → s.wm.errs = [] →
    ∃ t, exec (.sealHashDone n) s = .next t ∧ t.seals.ledger = s.seals.ledger ∧ t.seals.live = s.seals.live ∧ tget t.seals.jobs n = none ∧
      t.ratchet 0 = s.ratchet 0 ∧ ∀ i, i < j.count → (t.hostEntry (j.first + i)).isSealed = false) ∧
  (
  (∀ (s : State) (id : Nat) (j : SealJob) (v : LiveSeal) (c : Cmd), tget s.seals.verify id = some j → tget s.seals.live j.ref = some v →
    tget s.cmds id = some c → s.hashHeld j = false → s.hashFirst j = false → s.wm.errs = [] → s.extentHash v.first v.count = v.rcd.extentHash →
    ∃ t, exec (.verifyHashDone id) s = .next t ∧
      s.Answered t id c stOK 1 ((extentLines v.first v.count).filter fun l => (s.readNow l).2).length
        (if 48 ≤ c.pkt.buflen then be 48 (s.extentHash v.first v.count).toNat else []) ∧
      tget t.seals.verify id = none ∧ Keeps s t (.regs :: doneParts)) ∧
  (∀ (s : State) (id : Nat) (j : SealJob) (v : LiveSeal) (c : Cmd), tget s.seals.verify id = some j → tget s.seals.live j.ref = some v →
    tget s.cmds id = some c → s.hashHeld j = false → s.hashFirst j = false → s.wm.errs = [] → s.extentHash v.first v.count ≠ v.rcd.extentHash →
    ∃ t, exec (.verifyHashDone id) s = .next t ∧
      s.Answered t id c stOK 0 ((extentLines v.first v.count).filter fun l => (s.readNow l).2).length
        (if 48 ≤ c.pkt.buflen then be 48 (s.extentHash v.first v.count).toNat else []) ∧
      tget t.seals.verify id = none ∧ Keeps s t (.regs :: doneParts)) ∧
  (∀ (s : State) (v : W64), (s.reg Reg.SEL_ARCHIVED).toNat ≤ v.toNat → v.toNat ≤ s.ratchet 0 → s.rwsHeld = false →
    ∃ t, exec (.selArchivedWrite v) s = .next t ∧ t.reg Reg.SEL_ARCHIVED = v ∧ t.seals = s.seals) ∧
  (∀ s : State, s.power = .on → s.ready rMAP = true → s.ready rKEYS = true → s.plat.coldHold = false → s.ready rSEAL = false →
    s.failedBit rSEAL = false → exec (.sealLedgerCheck false false) s = nextState (s.setFail rSEAL)) ∧
  (∀ (s : State) (a b : Bool), s.power = .on → s.ready rMAP = true → s.ready rKEYS = true → s.plat.coldHold = false → s.ready rSEAL = false →
    s.failedBit rSEAL = false → a = true ∨ b = true → s.ledgerHead = s.ratchet 0 →
    ∃ t, exec (.sealLedgerCheck a b) s = .next t ∧ t.ready rSEAL = true ∧ t.seals.ledger = s.seals.ledger ∧ t.seals.live = s.seals.live))

/-! ### Helra, plies and the chain -/

/-- Training of a Helra link and its timers. Training that ends well takes the link to HELLO and queues a HELLO of this module; one that fails
leaves it DOWN with the wait doubled, 1 ms to 1,000 ms, and counted; the wait's end trains again, and nothing before it. 200 ticks after the last CREDIT one is due; a
packet with a bad CRC is counted and answered with a NAK of the sequence expected.

A link in HELLO, AUTH or UP that leaves for a cause of 1 to 7 is DOWN, or OFF when it is disabled, with that cause; silence for 1,000 ticks
is cause 2. Its READY bit falls, and it keeps neither a packet to send nor one to replay.

A HELLO of the right version and product from another module takes the link to AUTH, with this module's certificates queued part by part.
A part of an AUTH that is not its last is kept; the last of KIND 0, whose checks pass for the serial of the HELLO and the pin, is answered with the
confirmation.
(R308, R309, R311, R315, R319, R320) -/
def Obligations.LinksTrainAndLeave : Prop :=
  (
  (∀ (s : State) (k : Nat), k < 2 → s.linkState k = 1 → s.clk.pll = true →
    ∃ t, exec (.linkTrained k true) s = .next t ∧ t.linkState k = 2 ∧ t.freeCtr = s.freeCtr + 1 ∧
      (t.link k).tx = (s.link k).tx ++ [⟨.hello (s.hello k (Config.freeValue 256 s.freeCtr)), s.clk.now⟩] ∧ (t.link k).lastRx = s.clk.now) ∧
  (∀ (s : State) (k : Nat), k < 2 → s.linkState k = 1 → s.clk.pll = true →
    ∃ t, exec (.linkTrained k false) s = .next t ∧ t.linkState k = 0 ∧
      (t.link k).backoff = (if (s.link k).backoff = 0 then 1 else min 1000 (2 * (s.link k).backoff)) ∧ (t.link k).downAt = s.clk.now ∧
      (t.link k).tx = (s.link k).tx) ∧
  (∀ (s : State) (k : Nat), k < 2 → s.linkState k = 0 → s.planB = true → s.linkEn k = true → s.power = .on →
    (s.link k).downAt + 100000 * (s.link k).backoff ≤ s.clk.now → exec (.linkTrainRetry k) s = nextState (s.setLinkState k 1)) ∧
  (∀ (s : State) (k : Nat), s.clk.now < (s.link k).downAt + 100000 * (s.link k).backoff → exec (.linkTrainRetry k) s = nextState s) ∧
  (∀ (s : State) (k : Nat), k < 2 → s.linkUp k = true → (s.link k).lastCredit + 200 ≤ s.clk.now →
    exec (.creditTimer k) s = nextState (s.setLink k { s.link k with creditDue := true })) ∧
  (∀ (s : State) (k : Nat), k < 2 → 2 ≤ s.linkState k → s.linkState k ≤ 4 →
    ∃ t, exec (.packetCrcFailure k) s = .next t ∧ t.link k = { s.link k with nakDue := some (s.link k).rxSeq } ∧
      t.link (1 - k) = s.link (1 - k) ∧ Frame s t [.linkA, .linkB] [Reg.PLK_ERR k])) ∧
  (
  (∀ (s : State) (k c : Nat), k < 2 → 1 ≤ c → c ≤ 7 → 2 ≤ s.linkState k → s.linkState k ≤ 4 →
    ∃ t, exec (.linkDown k c) s = .next t ∧ t.linkState k = (if s.linkEn k then 0 else 5) ∧
      t.fget (Reg.PLK_LINK k) Fld.PLK_LINK_CAUSE = c ∧ (t.link k).tx = [] ∧ (t.link k).replay = [] ∧ (t.link k).mirrorOut = [] ∧
      (s.linkState k = 4 → t.ready (rHLA + k) = false)) ∧
  (∀ (s : State) (k : Nat), k < 2 → (s.link k).lastRx + 1000 ≤ s.clk.now → 2 ≤ s.linkState k → s.linkState k ≤ 4 →
    ∃ t, exec (.linkIdleTimeout k) s = .next t ∧ t.linkState k = (if s.linkEn k then 0 else 5) ∧
      t.fget (Reg.PLK_LINK k) Fld.PLK_LINK_CAUSE = 2 ∧ (t.link k).tx = [])) ∧
  (
  (∀ (s : State) (k : Nat) (hdr : PktHdr) (d : HelloData), s.Accepts k { hdr with tagOk := true } [2] 3 0 → d.version = 1 → d.product = 0x0E6A →
    d.serial ≠ Config.serial % 2 ^ 64 →
    ∃ t, exec (.hello k hdr d) s = .next t ∧ t.linkState k = 3 ∧ (t.link k).peer = some d ∧
      (t.link k).tx = (s.link k).tx ++ (List.range authParts).map fun i => ⟨.auth i (i + 1 == authParts) 0, s.clk.now⟩) ∧
  (∀ (s : State) (k : Nat) (hdr : PktHdr) (a : AuthPart), s.Accepts k { hdr with tagOk := true } [3] 3 0 → a.kind = 0 →
    a.part = (s.link k).authIn.length → a.last = false →
    ∃ t, exec (.auth k hdr a) s = .next t ∧ t.linkState k = 3 ∧ (t.link k).authIn = (s.link k).authIn ++ [a]) ∧
  (∀ (s : State) (k : Nat) (hdr : PktHdr) (a : AuthPart) (d : HelloData), s.Accepts k { hdr with tagOk := true } [3] 3 0 → a.kind = 0 →
    a.part = (s.link k).authIn.length → a.last = true → a.checksOk = true → (s.link k).peer = some d → a.certSerial = d.serial →
    (s.reg (Reg.PLK_PIN k)).toNat = 0 ∨ (s.reg (Reg.PLK_PIN k)).toNat = d.serial → (s.link k).authOk = false →
    ∃ t, exec (.auth k hdr a) s = .next t ∧ t.linkState k = 3 ∧ (t.link k).authOk = true ∧ (t.link k).peerKey = a.peerKey ∧
      (t.link k).tx = (s.link k).tx ++ [⟨.auth 0 true 1, s.clk.now⟩]) ∧
  (∀ (s : State) (k : Nat) (hdr : PktHdr) (a : AuthPart), s.Accepts k { hdr with tagOk := true } [3] 3 0 → a.kind = 1 →
    a.part = (s.link k).authIn.length → a.last = true → a.checksOk = true → (s.link k).authOk = true → (s.link k).confirmSent = true →
    ∃ t, exec (.auth k hdr a) s = .next t ∧ t.linkState k = 4))

/-- A replay starts at the oldest packet not acknowledged: 26 ticks after it was sent, or at a NAK that no running replay covers; a packet that
would be replayed a second time takes the link down with cause 3. A CREDIT brings the credits it names forward, and what it acknowledges leaves
the replay buffer.

What the transmitter sends next. A NAK that is due goes first; a replay goes on before anything new; then a MIRROR_ACK that waits, a CREDIT
that is due, and of what may go the packet with the earliest deadline. With nothing due, no room to ask for and nothing waiting, an IDLE is sent.
(R313, R314, R318) -/
def Obligations.PacketsAreSentAndReplayed : Prop :=
  (
  (∀ (s : State) (k q at' : Nat) (p : TxPkt) (rest : List (Nat × TxPkt × Nat)), k < 2 → (s.link k).replaying = none →
    (s.link k).replay = (q, p, at') :: rest → at' + 26 ≤ s.clk.now →
    (∀ x ∈ (s.link k).replay, x.1 ∉ (s.link k).replays) →
    exec (.replayTimer k) s = nextState (s.setLink k { s.link k with replaying := some q, replays := (s.link k).replay.map Prod.fst })) ∧
  (∀ (s : State) (k q at' : Nat) (p : TxPkt) (rest : List (Nat × TxPkt × Nat)), k < 2 → (s.link k).replaying = none →
    (s.link k).replay = (q, p, at') :: rest → at' + 26 ≤ s.clk.now → 2 ≤ s.linkState k → s.linkState k ≤ 4 →
    (∃ x ∈ (s.link k).replay, x.1 ∈ (s.link k).replays) →
    ∃ t, exec (.replayTimer k) s = .next t ∧ t.linkState k = (if s.linkEn k then 0 else 5) ∧
      t.fget (Reg.PLK_LINK k) Fld.PLK_LINK_CAUSE = 3) ∧
  (∀ (s : State) (k e : Nat) (hdr : PktHdr), s.AcceptsFree k hdr [2, 3, 4] →
    ∃ t, exec (.helraNak k hdr e) s = .next t ∧
      ((∃ g ∈ ((s.acceptedFree k hdr).link k).replaying, seqLe e g = true) ∨ ((s.acceptedFree k hdr).link k).replay = [] →
        exec (.helraNak k hdr e) s = nextState (s.acceptedFree k hdr)) ∧
      ((∀ g ∈ ((s.acceptedFree k hdr).link k).replaying, seqLe e g = false) →
        (∀ x ∈ ((s.acceptedFree k hdr).link k).replay, x.1 ∉ ((s.acceptedFree k hdr).link k).replays) →
        (t.link k).replaying = ((s.acceptedFree k hdr).link k).replay.head?.map Prod.fst ∧
          (t.link k).replay = ((s.acceptedFree k hdr).link k).replay ∧ (t.link k).tx = (s.link k).tx ∧ t.linkState k = s.linkState k)) ∧
  (∀ (s : State) (k m r c : Nat) (hdr : PktHdr), s.AcceptsFree k hdr [4] →
    ∃ t, exec (.helraCredit k hdr m r c) s = .next t ∧ (t.link k).used = (s.link k).used ∧
      (t.link k).replay = (if hdr.ackv then (s.link k).replay.filter (fun p => !seqLe p.1 hdr.ackseq) else (s.link k).replay) ∧
      (∀ i w f, (i, w, f) ∈ [(0, 16, m), (1, 8, r), (2, 8, c)] →
        (s.link k).got.getD i 0 ≤ (t.link k).got.getD i 0 ∧ (t.link k).got.getD i 0 < (s.link k).got.getD i 0 + 2 ^ w))) ∧
  (
  (∀ (s : State) (k e : Nat), k < 2 → 2 ≤ s.linkState k → s.linkState k ≤ 4 → (s.link k).nakDue = some e →
    ∃ t, exec (.packetTransmit k) s = .next t ∧ (t.link k).nakDue = none ∧ Out.helra k (.nak e) 0 (s.link k).ackNow ∈ t.outbox) ∧
  (∀ (s : State) (k q at' : Nat) (p : TxPkt), k < 2 → 2 ≤ s.linkState k → s.linkState k ≤ 4 → (s.link k).nakDue = none →
    (s.link k).replaying = some q → (s.link k).replay.find? (fun x => x.1 == q) = some (q, p, at') →
    ∃ t, exec (.packetTransmit k) s = .next t ∧ Out.helra k p.body q (s.link k).ackNow ∈ t.outbox ∧
      (t.link k).replaying = ((s.link k).replay.dropWhile (fun x => x.1 != q)).tail.head?.map Prod.fst ∧ (t.link k).txSeq = (s.link k).txSeq ∧
      (t.link k).replay.map Prod.fst = (s.link k).replay.map Prod.fst) ∧
  (∀ (s : State) (k i a d : Nat), k < 2 → 2 ≤ s.linkState k → s.linkState k ≤ 4 → (s.link k).nakDue = none → (s.link k).replaying = none →
    (s.link k).replay.length < 1024 → (s.link k).ackIdx = some i → (s.link k).tx[i]? = some ⟨.mirrorAck a, d⟩ →
    ∃ t, exec (.packetTransmit k) s = .next t ∧ Out.helra k (.mirrorAck a) (s.link k).txSeq (s.link k).ackNow ∈ t.outbox ∧
      (t.link k).txSeq = ((s.link k).txSeq + 1) % 4096) ∧
  (∀ (s : State) (k : Nat), k < 2 → s.linkState k = 4 → (s.link k).nakDue = none → (s.link k).replaying = none → (s.link k).ackIdx = none →
    (s.link k).creditDue = true →
    ∃ t, exec (.packetTransmit k) s = .next t ∧ (t.link k).creditDue = false ∧ (t.link k).ackDue = false ∧ (t.link k).lastCredit = s.clk.now ∧
      (t.link k).uctr = (s.link k).uctr + 1 ∧ (t.link k).txSeq = (s.link k).txSeq) ∧
  (∀ (s : State) (k i d : Nat) (p : TxPkt), k < 2 → 2 ≤ s.linkState k → s.linkState k ≤ 4 → (s.link k).nakDue = none →
    (s.link k).replaying = none → (s.link k).ackIdx = none → (s.link k).replay.length < 1024 →
    (let u := (s.topUp k).syncPump k;
     (u.link k).creditDue = false ∧ (u.link k).ackDue = false ∧
      leastBy (fun a b => decide (a.1 < b.1)) (u.choices k) = some (d, .queued i) ∧ (u.link k).tx[i]? = some p) →
    ∃ t, exec (.packetTransmit k) s = .next t ∧ Out.helra k p.body (s.link k).txSeq (s.link k).ackNow ∈ t.outbox ∧
      (t.link k).txSeq = ((s.link k).txSeq + 1) % 4096) ∧
  (∀ (s : State) (k : Nat), k < 2 → s.linkState k = 2 ∨ s.linkState k = 3 → (s.link k).nakDue = none → (s.link k).replaying = none →
    (s.link k).tx = [] → (s.link k).mirrorOut = [] → (s.link k).sync = none →
    exec (.packetTransmit k) s = nextState { s with outbox := .idle k :: s.outbox }) ∧
  (∀ (s : State) (k : Nat) (p : TxPkt), k < 2 → s.linkState k = 2 ∨ s.linkState k = 3 → (s.link k).nakDue = none →
    (s.link k).replaying = none → (s.link k).tx = [p] → p.body.cls = 3 → (s.link k).mirrorOut = [] → (s.link k).sync = none →
    (s.link k).replay.length < 1024 →
    ∃ t, exec (.packetTransmit k) s = .next t ∧ Out.helra k p.body (s.link k).txSeq (s.link k).ackNow ∈ t.outbox ∧
      (t.link k).txSeq = ((s.link k).txSeq + 1) % 4096))

/-- A mirrored write completes at the sender when the holder acknowledges it, and at the holder its lines enter the pool in order and are
acknowledged within 30 ticks; so do the lines of a resync, but for hanks that a neighbour's seal protects.
(R24, R56, R328, R336) -/
def Obligations.MirrorPath : Prop :=
  (∀ (s : State) (k q a r h n seq : Nat) (d : Line) (hdr : PktHdr), s.Accepts k hdr [4] 3 0 →
    (s.link k).unacked = [(a, .mirrorWrite r h n [d] [seq])] → seqLe a (q % 4096) = true → seq < 2 ^ 32 →
    ∃ t, exec (.mirrorAck k hdr q) s = .next t ∧ (t.link k).unacked = [] ∧ tget t.adm.dl seq = none ∧
      (∀ x, x ≠ seq → tget t.adm.dl x = tget s.adm.dl x) ∧ (t.link k).rxSeq = ((s.link k).rxSeq + 1) % 4096 ∧ t.tlc = s.tlc ∧ t.hanks = s.hanks) ∧
  (∀ (s : State) (k q : Nat) (hdr : PktHdr), s.Accepts k hdr [4] 3 0 →
    ∃ t, exec (.mirrorAck k hdr q) s = .next t ∧ (t.link k).unacked = (s.link k).unacked.filter (fun u => !seqLe u.1 (q % 4096)) ∧
      (t.link k).rxSeq = ((s.link k).rxSeq + 1) % 4096) ∧
  (∀ (s : State) (k a : Nat) (hdr : PktHdr) (p : LinesPkt), s.Accepts k hdr [4] 0 p.lines.length → s.linesOk k hdr p = true → p.pmask = 0 →
    s.energy.drained = false → s.areaOf k p.region = some a →
    ∃ t, exec (.mirrorWrite k hdr p) s = .next t ∧ (t.link k).tx = (s.link k).tx ++ [⟨.mirrorAck hdr.seq, s.clk.now + 30⟩] ∧
      (t.link k).rxSeq = ((s.link k).rxSeq + 1) % 4096) ∧
  (∀ (s : State) (k a : Nat) (hdr : PktHdr) (p : LinesPkt) (d : Line) (q : PoolLine), s.Accepts k hdr [4] 0 1 → s.linesOk k hdr p = true →
    p.pmask = 0 → s.energy.drained = false → s.areaOf k p.region = some a → p.lines = [d] → s.poolGet (((s.area k a).2.1 + p.hoff) * 16384 + p.line) = some q →
    ∃ t x, exec (.mirrorWrite k hdr p) s = .next t ∧ t.poolGet (((s.area k a).2.1 + p.hoff) * 16384 + p.line) = some x ∧ x.data = d ∧
      x.poison = false ∧ t.med = s.med) ∧
  (∀ (s : State) (k a : Nat) (hdr : PktHdr) (p : LinesPkt), s.Accepts k hdr [4] 1 1 → s.linesOk k hdr p = true → s.energy.drained = false → s.areaOf k p.region = some a →
    ∃ t, exec (.resyncData k hdr p) s = .next t ∧ (t.link k).tx = (s.link k).tx ∧ (t.link k).rxSeq = ((s.link k).rxSeq + 1) % 4096 ∧
      (s.areaSealed k p.region p.hoff 1 = true → t.tlc = s.tlc ∧ t.med = s.med)) ∧
  (∀ (s : State) (k a : Nat) (hdr : PktHdr) (p : LinesPkt) (d : Line) (q : PoolLine), s.Accepts k hdr [4] 1 1 → s.linesOk k hdr p = true →
    s.energy.drained = false → s.areaOf k p.region = some a → s.areaSealed k p.region p.hoff 1 = false → p.lines = [d] →
    s.poolGet (((s.area k a).2.1 + p.hoff) * 16384 + p.line) = some q →
    ∃ t x, exec (.resyncData k hdr p) s = .next t ∧ t.poolGet (((s.area k a).2.1 + p.hoff) * 16384 + p.line) = some x ∧ x.data = d ∧
      x.poison = p.pmask.testBit 0 ∧ t.med = s.med)

/-- The holder answers each operation of the sender on an area it holds: QUERY with its state, BEGIN makes it open for resync, END makes it
whole, CLOSE frees it unless sealed, RELEASE lifts seals, and SEAL and ERASE that the area does not allow are turned away.

OPEN: with no hank free in the reserve the holder answers NO_SPARE; with a run free, and no area of the region yet, the first free area takes
its first hanks and the answer names the run.
(R322, R324, R326, R334) -/
def Obligations.HolderAnswers : Prop :=
  (
  ∀ (s : State) (k r a : Nat) (hdr : PktHdr), s.Accepts k hdr [4] 1 1 → r < 16 → s.areaOf k r = some a →
    (∃ t, exec (.plyQuery k hdr r) s = .next t ∧
      (t.link k).tx = (s.link k).tx ++ [⟨.resyncReq 2 r 0 true stOK [(s.area k a).1] none, s.bgDeadline 4⟩] ∧
      (∀ b, b < 16 → t.area k b = s.area k b) ∧ Keeps s t [.regs, .linkA, .linkB, .hist]) ∧
    (∃ t, exec (.plyBegin k hdr r) s = .next t ∧
      (t.link k).tx = (s.link k).tx ++ [⟨.resyncReq 3 r 0 true stOK [] none, s.bgDeadline 4⟩] ∧ t.area k a = (1, (s.area k a).2) ∧
      (∀ b, b < 16 → b ≠ a → t.area k b = s.area k b) ∧ Keeps s t [.regs, .linkA, .linkB, .hist]) ∧
    (∃ t, exec (.plyEnd k hdr r) s = .next t ∧
      (t.link k).tx = (s.link k).tx ++ [⟨.resyncReq 4 r 0 true stOK [] none, s.bgDeadline 4⟩] ∧ t.area k a = (2, (s.area k a).2) ∧
      (∀ b, b < 16 → b ≠ a → t.area k b = s.area k b) ∧ Keeps s t [.regs, .linkA, .linkB, .hist]) ∧
    (s.journalFull = false → s.fget (Reg.PLK_AREA k a) Fld.PLK_AREA_SEALS = 0 →
      ∃ t, exec (.plyClose k hdr r) s = .next t ∧ (t.area k a).1 = 0 ∧ tget (t.link k).senders a = none) ∧
    (∀ h n kd : Nat, s.journalFull = false → (s.area k a).2.2 < h + n →
      ∃ t, exec (.plyErase k hdr r h n kd) s = .next t ∧
        (t.link k).tx = (s.link k).tx ++ [⟨.resyncReq 6 r 0 true stBAD_PARAM [] none, s.bgDeadline 4⟩] ∧ t.hanks = s.hanks ∧
        (t.link k).ops = (s.link k).ops) ∧
    (∀ h n kd : Nat, s.journalFull = false → h + n ≤ (s.area k a).2.2 → 0 < n → kd ≤ 1 → s.areaSealed k r h n = false →
      ∃ t, exec (.plyErase k hdr r h n kd) s = .next t ∧
        ∃ o ∈ (t.link k).ops, o.op = 22 ∧ o.region = r ∧ o.args = (List.range n).map fun i => (s.area k a).2.1 + h + i) ∧
    (∀ h n kd : Nat, s.journalFull = false → h + n ≤ (s.area k a).2.2 → 0 < n → kd ≤ 1 → s.areaSealed k r h n = true →
      ∃ t, exec (.plyErase k hdr r h n kd) s = .next t ∧
        (t.link k).tx = (s.link k).tx ++ [⟨.resyncReq 6 r 0 true stSEALED [] none, s.bgDeadline 4⟩] ∧ t.hanks = s.hanks) ∧
    (∀ (rec : LedgerRec) (h n : Nat), ∃ t, exec (.plySeal k hdr r 1 rec h n) s = .next t ∧
      (let whole := (s.link k).seals.filter (·.whole);
       let good := ((s.link k).seals.any fun x => !x.whole && x.region == r && x.rcd == rec) && rec.serial == s.peerSerial k &&
         Config.ecdsaVerify (s.link k).peerKey (sealMessage rec) rec.sig;
       (good = false → (t.link k).seals = whole ∧
         (t.link k).tx = (s.link k).tx ++ [⟨.resyncReq 7 r 0 true stAUTH_FAIL [] none, s.bgDeadline 4⟩]) ∧
       (good = true → (whole.any fun x => x.region == r && x.rcd == rec) = false → whole.length < 64 →
         (t.link k).seals = whole ++ [{ region := r, rcd := rec, hoff := h, count := n, whole := true }] ∧
         (t.link k).tx = (s.link k).tx ++ [⟨.resyncReq 7 r 0 true stOK [] none, s.bgDeadline 4⟩])) ∧ t.hanks = s.hanks) ∧
    (∀ (rec : LedgerRec) (h n : Nat), ∃ t, exec (.plySeal k hdr r 0 rec h n) s = .next t ∧
      (t.link k).seals = ((s.link k).seals.filter (·.whole)) ++ [{ region := r, rcd := rec, hoff := h, count := n, whole := false }] ∧
      (t.link k).tx = (s.link k).tx ∧ t.hanks = s.hanks) ∧
    (∀ (rec : LedgerRec), ∃ t, exec (.plyRelease k hdr r 1 rec) s = .next t ∧
      ((t.link k).seals = (s.link k).seals.filter fun x => !(x.whole && x.region == r && x.rcd.seq == rec.ref)) ∧
      (t.link k).tx = (s.link k).tx ++ [⟨.resyncReq 8 r 0 true stOK [] none, s.bgDeadline 4⟩]) ∧
    (∀ (rec : LedgerRec), ∃ t, exec (.plyRelease k hdr r 0 rec) s = .next t ∧ (t.link k).seals = (s.link k).seals ∧ (t.link k).tx = (s.link k).tx)) ∧
  (
  (∀ (s : State) (k r n : Nat) (hdr : PktHdr), s.Accepts k hdr [4] 1 1 → r < 16 → s.areaOf k r = none → s.journalFull = false → 0 < n →
    s.freeRun n = none →
    ∃ t, exec (.plyOpen k hdr r n) s = .next t ∧
      (t.link k).tx = (s.link k).tx ++ [⟨.resyncReq 1 r 0 true stNO_SPARE [] none, s.bgDeadline 4⟩] ∧ (∀ a, a < 16 → t.area k a = s.area k a) ∧
      t.hanks = s.hanks) ∧
  (∀ (s : State) (k r n a b : Nat) (hdr : PktHdr), s.Accepts k hdr [4] 1 1 → r < 16 → s.areaOf k r = none → s.journalFull = false → 0 < n →
    s.freeRun n = some b → (List.range 16).find? (fun a => (s.area k a).1 == 0) = some a →
    ∃ t, exec (.plyOpen k hdr r n) s = .next t ∧ (t.link k).tx.getLast? = some ⟨.resyncReq 1 r 0 true stOK [b] none, s.bgDeadline 4⟩ ∧
      t.area k a = (1, b, n) ∧ tget (t.link k).senders a = some (s.peerSerial k * 16 + r) ∧
      (∀ c, c < 16 → c ≠ a → t.area k c = s.area k c) ∧ ∀ i, i < n → (t.hostEntry (b + i)).ply = 3))

/-- The answers of a holder. An answer that no operation waits for changes nothing. END answered OK ends the resync: the region is MIRRORED;
BEGIN answered OK goes on with the lines; either answered otherwise breaks the region. QUERY answered OK starts or queues a resync, and answered
otherwise opens the area anew. OPEN answered OK records the area, and for SET_PLY the region; another answer completes the SET_PLY with its status.
CLOSE, ERASE, SEAL and RELEASE end their operation and complete the command that waited. PLY is set ready when the wait for the links ends.
(R325, R331, R332) -/
def Obligations.SenderTakesAnswers : Prop :=
  (∀ (s : State) (k r op st d : Nat) (hdr : PktHdr), s.Accepts k hdr [4] 1 1 → r < 16 → 1 ≤ op → op ≤ 8 →
    (s.link k).ops.findIdx? (fun o => o.op == op && o.region == r && o.sent) = none →
    ∃ t, exec (.resyncReqResponse k hdr op r st d) s = .next t ∧ (t.link k).ops = (s.link k).ops ∧ (t.link k).sync = (s.link k).sync ∧
      t.region k r = s.region k r ∧ Keeps s t [.regs, .linkA, .linkB, .hist]) ∧
  (∀ (s : State) (k r i st d : Nat) (hdr : PktHdr), s.Accepts k hdr [4] 1 1 → r < 16 →
    (s.link k).ops.findIdx? (fun o => o.op == 2 && o.region == r && o.sent) = some i →
    ∃ t, exec (.resyncReqResponse k hdr 2 r st d) s = .next t ∧
      (st = stOK → (s.link k).sync = none → (s.link k).wantSync = [] →
        (t.link k).sync.map (fun y => (y.region, y.full)) = some (r, !(d == 2 && (s.region k r).1 == 3))) ∧
      (st = stOK → (∃ y ∈ (s.link k).sync, y.step = 3) → (t.link k).sync = (s.link k).sync ∧
        (t.link k).wantSync = (s.link k).wantSync ++ [if d == 2 && (s.region k r).1 == 3 then r else 16 + r]) ∧
      (st ≠ stOK → ∃ o ∈ (t.link k).ops, o.op = 1 ∧ o.region = r ∧ o.args = [(s.region k r).2.2] ∧ o.sent = true)) ∧
  (∀ (s : State) (k r i d : Nat) (hdr : PktHdr), s.Accepts k hdr [4] 1 1 → r < 16 → (s.link k).setPly = none → (s.region k r).1 ≠ 0 →
    (s.link k).ops.findIdx? (fun o => o.op == 1 && o.region == r && o.sent) = some i → (s.link k).sync = none → (s.link k).wantSync = [] →
    ∃ t, exec (.resyncReqResponse k hdr 1 r stOK d) s = .next t ∧
      tget (t.link k).holders r = some { serial := s.peerSerial k, base := d } ∧
      (t.link k).sync.map (fun y => (y.region, y.full)) = some (r, true)) ∧
  (∀ (s : State) (k r i d id b n : Nat) (hdr : PktHdr), s.Accepts k hdr [4] 1 1 → r < 16 → (s.link k).setPly = some (id, r, b, n) →
    (s.region k r).1 = 0 → (s.link k).ops.findIdx? (fun o => o.op == 1 && o.region == r && o.sent) = some i →
    b < 2 ^ fwidth Fld.PLK_REGION_BASE → n < 2 ^ fwidth Fld.PLK_REGION_COUNT →
    ∃ t, exec (.resyncReqResponse k hdr 1 r stOK d) s = .next t ∧ t.region k r = (4, b, n) ∧
      tget (t.link k).holders r = some { serial := s.peerSerial k, base := d } ∧ (∀ j, j < n → (t.hostEntry (b + j)).ply = k + 1)) ∧
  (∀ (s : State) (k r i st d id b n : Nat) (c : Cmd) (hdr : PktHdr), s.Accepts k hdr [4] 1 1 → r < 16 → (s.link k).setPly = some (id, r, b, n) →
    (s.region k r).1 = 0 → (s.link k).ops.findIdx? (fun o => o.op == 1 && o.region == r && o.sent) = some i → st ≠ stOK →
    tget s.cmds id = some c →
    ∃ t, exec (.resyncReqResponse k hdr 1 r st d) s = .next t ∧ (t.link k).setPly = none ∧ s.Answered t id c st 0 0 []) ∧
  (∀ (s : State) (k r op i st d : Nat) (o : PlyOp) (hdr : PktHdr), s.Accepts k hdr [4] 1 1 → r < 16 → 5 ≤ op → op ≤ 8 →
    (s.link k).ops.findIdx? (fun o => o.op == op && o.region == r && o.sent) = some i → (s.link k).ops[i]? = some o →
    (∀ x ∈ (s.link k).ops.eraseIdx i, x.sent = true) → (s.link k).sync = none → (s.link k).wantSync = [] →
    ∃ t, exec (.resyncReqResponse k hdr op r st d) s = .next t ∧ (t.link k).ops = (s.link k).ops.eraseIdx i ∧ t.region k r = s.region k r ∧
      (o.cmd = none → t.cmds = s.cmds) ∧
      (∀ id ∈ o.cmd, ∀ c ∈ tget s.cmds id, c.work = [wPly k (opItem op r)] →
        s.Answered t id c (if st = stOK then c.status else stPLY_DEGRADED) c.done c.extra c.output)) ∧
  (∀ (s : State) (k r op i st d : Nat) (hdr : PktHdr), s.Accepts k hdr [4] 1 1 → r < 16 → op = 3 ∨ op = 4 → st ≠ stOK →
    (s.link k).ops.findIdx? (fun o => o.op == op && o.region == r && o.sent) = some i → (s.link k).wantSync = [] →
    ∃ t, exec (.resyncReqResponse k hdr op r st d) s = .next t ∧ (t.region k r).1 = 4 ∧ (t.link k).sync = none) ∧
  (∀ (s : State) (k r i : Nat) (hdr : PktHdr) (d : Nat), s.Accepts k hdr [4] 1 1 → r < 16 →
    (s.link k).ops.findIdx? (fun o => o.op == 4 && o.region == r && o.sent) = some i → (s.link k).wantSync = [] →
    ∃ t, exec (.resyncReqResponse k hdr 4 r stOK d) s = .next t ∧ (t.region k r).1 = 2 ∧ (t.link k).sync = none) ∧
  (∀ (s : State) (k r i : Nat) (hdr : PktHdr) (d : Nat), s.Accepts k hdr [4] 1 1 → r < 16 →
    (s.link k).ops.findIdx? (fun o => o.op == 3 && o.region == r && o.sent) = some i →
    (∀ o ∈ (s.link k).ops.eraseIdx i, o.sent = true) → (s.link k).sync = none → (s.link k).wantSync = [] →
    ∃ t, exec (.resyncReqResponse k hdr 3 r stOK d) s = .next t ∧ (t.link k).ops = (s.link k).ops.eraseIdx i ∧ t.region k r = s.region k r ∧
      (t.link k).tx = (s.link k).tx) ∧
  (∀ s : State, s.power = .on → s.planB = true → s.ready rMAP = true → exec .plyReadyTimeout s = nextState (s.setReady rPLY true)) ∧
  (∀ (s : State) (v : W64), s.rwlLocked = false → (∀ k a, k < 2 → a < 16 → (s.area k a).1 = 0) →
    getF v Fld.PLK_PLYRES_BASE + getF v Fld.PLK_PLYRES_COUNT ≤ hostHanks →
    (∀ l ∈ s.cxl.lds, s.cxl.mld = true → l.base + l.count ≤ getF v Fld.PLK_PLYRES_BASE ∨
      getF v Fld.PLK_PLYRES_BASE + getF v Fld.PLK_PLYRES_COUNT ≤ l.base) →
    ∃ t, exec (.plkPlyresWrite v) s = .next t ∧ t.fget Reg.PLK_PLYRES Fld.PLK_PLYRES_BASE = getF v Fld.PLK_PLYRES_BASE ∧
      t.fget Reg.PLK_PLYRES Fld.PLK_PLYRES_COUNT = getF v Fld.PLK_PLYRES_COUNT ∧ Frame s t [] [Reg.PLK_PLYRES]) ∧
  (∀ (s : State) (v : W64), s.rwlLocked = true ∨ hostHanks < getF v Fld.PLK_PLYRES_BASE + getF v Fld.PLK_PLYRES_COUNT →
    exec (.plkPlyresWrite v) s = nextState s) ∧
  (∀ (s : State) (v : W64), s.rwlLocked = false → (∀ k a, k < 2 → a < 16 → (s.area k a).1 = 0) → getF v Fld.PLK_PLYRES_COUNT = 0 →
    getF v Fld.PLK_PLYRES_BASE ≤ hostHanks →
    exec (.plkPlyresWrite v) s = nextState ((s.fset Reg.PLK_PLYRES Fld.PLK_PLYRES_BASE (getF v Fld.PLK_PLYRES_BASE)).fset Reg.PLK_PLYRES
      Fld.PLK_PLYRES_COUNT 0)) ∧
  (∀ (s : State) (v : W64), s.rwsHeld = false → ∃ t, exec (.plkCtlWrite v) s = .next t ∧
    t.fget Reg.PLK_CTL Fld.PLK_CTL_EN_A = getF v Fld.PLK_CTL_EN_A ∧ t.fget Reg.PLK_CTL Fld.PLK_CTL_EN_B = getF v Fld.PLK_CTL_EN_B)

/-- A CHAIN_MSG that has not been seen is remembered and delivered at a module it is for: by its address, broadcast, or local. A WALK or STATUS_REQ
is answered, and so is a RELAY, which the inbox takes while it has room; a STATUS_REPLY is kept by every walk, a RELAY_ACK completes its relay; a
class outside the table is discarded there. One that is for this module alone goes no further.

A message for another module is passed on over the other link, once, with its TTL one less; a message seen before is discarded.

Unit addresses. A claim that has not been seen is remembered and passed on; one for this module's own address, from another, takes the address
away when it is held and its serial is lower, and is answered otherwise; one that has been seen changes nothing of the chain. When a round ends, an unbeaten candidate takes
its address and CHAIN is ready; without a link the module takes its preferred address at once.
(R337, R338, R339, R341) -/
def Obligations.ChainMessagesTravel : Prop :=
  (
  ∀ (s : State) (k : Nat) (hdr : PktHdr) (m : ChainMsg), s.Accepts k hdr [4] 2 1 → m.data.length ≤ 240 → m.mid < 4096 → m.src < 16384 →
    m.dest < 16384 → m.ttl < 16384 → (m.src, m.mid) ∉ s.chain.seen → s.forMe m = true →
    (m.mclass = 1 → m.src ≠ s.uaddr ∨ s.uaddrValid = false →
      ∃ t, exec (.walk k hdr m) s = .next t ∧ (m.src, m.mid) ∈ t.chain.seen ∧ t.chain.mid = (s.chain.mid + 1) % 4096 ∧
        (let reply : TxPkt := ⟨.chain { mid := s.chain.mid, mclass := 3, bcast := false, isLocal := false, ttl := 16383, src := s.uaddr, dest := m.src, data := s.statusData m.ttl }, s.clk.now + 100⟩;
         reply ∈ (t.link k).tx ∧ (s.onlyMe m = true → (t.link k).tx = (s.link k).tx ++ [reply])) ∧
        (m.bcast = true → m.isLocal = false → 0 < m.ttl → s.linkUp (1 - k) = true →
          ⟨.chain { m with ttl := m.ttl - 1 }, s.clk.now + 100⟩ ∈ (t.link (1 - k)).tx)) ∧
    (m.mclass = 2 → m.src ≠ s.uaddr ∨ s.uaddrValid = false →
      ∃ t, exec (.statusReq k hdr m) s = .next t ∧ (m.src, m.mid) ∈ t.chain.seen ∧ t.chain.mid = (s.chain.mid + 1) % 4096 ∧
        (let reply : TxPkt := ⟨.chain { mid := s.chain.mid, mclass := 3, bcast := false, isLocal := false, ttl := 16383, src := s.uaddr, dest := m.src, data := s.statusData m.ttl }, s.clk.now + 100⟩;
         reply ∈ (t.link k).tx ∧ (s.onlyMe m = true → (t.link k).tx = (s.link k).tx ++ [reply]))) ∧
    (m.mclass = 3 → (s.chain.walks.map Prod.fst).Pairwise (· < ·) → (∀ x ∈ s.chain.walks, x.2.kind ≠ 2) →
      ∃ t, exec (.statusReply k hdr m) s = .next t ∧ (m.src, m.mid) ∈ t.chain.seen ∧
        t.chain.walks = s.chain.walks.map (fun x => if x.2.kind = 1 then (x.1, { x.2 with replies := tput x.2.replies m.src m.data }) else x) ∧
        t.cmds = s.cmds) ∧
    (∀ (id : Nat) (w : Walk) (c : Cmd), m.mclass = 3 → s.chain.walks = [(id, w)] → w.kind = 2 → w.dest = m.src → tget s.cmds w.cmd = some c →
      ∃ t, exec (.statusReply k hdr m) s = .next t ∧ (m.src, m.mid) ∈ t.chain.seen ∧
        s.Answered t w.cmd c stOK (s.reg Reg.PLK_CHAIN).toNat (if c.pkt.buflen = 0 then 0 else 1) (if c.pkt.buflen = 0 then [] else m.data)) ∧
    (m.mclass = 4 → s.chain.inbox.length < 64 →
      ∃ t, exec (.relay k hdr m) s = .next t ∧ t.chain.inbox = s.chain.inbox ++ [(s.clk.now, m)] ∧
        t.fget Reg.PLK_CHAIN Fld.PLK_CHAIN_INBOX = s.chain.inbox.length + 1 ∧ (m.src, m.mid) ∈ t.chain.seen ∧
        (m.src ≠ s.uaddr ∨ s.uaddrValid = false →
          ⟨.chain { mid := s.chain.mid, mclass := 5, bcast := false, isLocal := false, ttl := 16383, src := s.uaddr, dest := m.src, data := le 4 0 }, s.clk.now + 100⟩ ∈ (t.link k).tx)) ∧
    (m.mclass = 4 → 64 ≤ s.chain.inbox.length → m.src ≠ s.uaddr ∨ s.uaddrValid = false →
      ∃ t, exec (.relay k hdr m) s = .next t ∧ t.chain.inbox = s.chain.inbox ∧ (m.src, m.mid) ∈ t.chain.seen ∧
        ⟨.chain { mid := s.chain.mid, mclass := 5, bcast := false, isLocal := false, ttl := 16383, src := s.uaddr, dest := m.src, data := le 4 1 }, s.clk.now + 100⟩ ∈ (t.link k).tx) ∧
    (∀ (id : Nat) (w : Walk) (c : Cmd), m.mclass = 5 → tget s.chain.walks id = some w → w.kind = 4 → w.dest = m.src →
      (∀ x ∈ s.chain.walks, x.2.kind = 4 → x.2.dest = m.src → x = (id, w)) → tget s.cmds w.cmd = some c →
      ∃ t, exec (.relayAck k hdr m) s = .next t ∧ (m.src, m.mid) ∈ t.chain.seen ∧ tget t.chain.walks id = none ∧
        s.Answered t w.cmd c (if ofBytes (m.data.take 4) = 0 then stOK else stBUSY) (ofBytes (m.data.take 4)) 0 []) ∧
    (m.mclass = 0 ∨ 5 < m.mclass →
      ∃ t, exec (.chainMsg k hdr m) s = .next t ∧ t.chain = { s.chain with seen := t.chain.seen } ∧ (m.src, m.mid) ∈ t.chain.seen ∧
        (s.onlyMe m = true → (t.link 0).tx = (s.link 0).tx ∧ (t.link 1).tx = (s.link 1).tx) ∧ Keeps s t [.linkA, .linkB, .hist, .chain])) ∧
  (
  ∀ (s : State) (k : Nat) (hdr : PktHdr) (m : ChainMsg), s.Accepts k hdr [4] 2 1 → m.data.length ≤ 240 → m.mid < 4096 → m.src < 16384 →
    m.dest < 16384 → m.ttl < 16384 → m.mclass = 4 →
    ((m.src, m.mid) ∉ s.chain.seen → m.bcast = false → m.isLocal = false → m.dest ≠ s.uaddr → 0 < m.ttl → s.linkUp (1 - k) = true →
      ∃ t, exec (.relay k hdr m) s = .next t ∧ (t.link (1 - k)).tx = (s.link (1 - k)).tx ++ [⟨.chain { m with ttl := m.ttl - 1 }, s.clk.now + 100⟩] ∧
        t.chain.inbox = s.chain.inbox ∧ (m.src, m.mid) ∈ t.chain.seen) ∧
    ((m.src, m.mid) ∈ s.chain.seen →
      ∃ t, exec (.relay k hdr m) s = .next t ∧ (t.link 0).tx = (s.link 0).tx ∧ (t.link 1).tx = (s.link 1).tx ∧
        Keeps s t [.linkA, .linkB, .hist])) ∧
  (
  (∀ (s : State) (k : Nat) (hdr : PktHdr) (c : ClaimMsg), s.Accepts k hdr [4] 2 1 → c.addr < 16384 → c.ttl < 16384 →
    (c.addr, c.serial, c.round, c.held) ∉ s.chain.seenClaims →
    ∃ t, exec (.claim k hdr c) s = .next t ∧ (c.addr, c.serial, c.round, c.held) ∈ t.chain.seenClaims ∧
      (0 < c.ttl → s.linkUp (1 - k) = true → ⟨.claim { c with ttl := c.ttl - 1 }, s.clk.now + 100⟩ ∈ (t.link (1 - k)).tx) ∧
      (s.uaddrValid = true → s.uaddr = c.addr → c.held = true → c.serial < Config.serial % 2 ^ 64 →
        t.uaddrValid = false ∧ t.ready rCHAIN = false ∧ c.addr ∈ t.chain.taken) ∧
      (s.uaddrValid = true → s.uaddr = c.addr → Config.serial % 2 ^ 64 < c.serial → t.uaddrValid = true ∧
        ⟨.claim { addr := c.addr, held := true, ttl := 16383, round := t.round, serial := Config.serial }, s.clk.now + 100⟩ ∈ (t.link k).tx)) ∧
  (∀ (s : State) (k : Nat) (hdr : PktHdr) (c : ClaimMsg), s.Accepts k hdr [4] 2 1 → c.addr < 16384 → c.ttl < 16384 →
    (c.addr, c.serial, c.round, c.held) ∈ s.chain.seenClaims →
    ∃ t, exec (.claim k hdr c) s = .next t ∧ Keeps s t [.linkA, .linkB, .hist]) ∧
  (∀ (s : State) (k : Nat) (hdr : PktHdr) (c : ClaimMsg), s.Accepts k hdr [4] 2 1 → c.addr < 16384 → c.ttl < 16384 →
    (c.addr, c.serial, c.round, c.held) ∉ s.chain.seenClaims → s.uaddrValid = false → s.chain.cand = none → 0 < c.ttl → s.linkUp (1 - k) = true →
    ∃ t, exec (.claim k hdr c) s = .next t ∧ (c.addr, c.serial, c.round, c.held) ∈ t.chain.seenClaims ∧
      (t.link (1 - k)).tx = (s.link (1 - k)).tx ++ [⟨.claim { c with ttl := c.ttl - 1 }, s.clk.now + 100⟩] ∧
      (c.held = true → c.addr ∈ t.chain.taken) ∧ t.round = (if roundLater c.round s.round then c.round % 2 ^ 32 else s.round)) ∧
  (∀ (s : State) (a : Nat), s.chain.firstUp = true → s.chain.cand = some a → s.chain.beaten = false → a < 16384 →
    ∃ t, exec .claimRoundEnd s = .next t ∧ t.uaddrValid = true ∧ t.uaddr = a ∧ t.ready rCHAIN = true ∧ t.chain.cand = none ∧
      t.round = (s.round + 1) % 2 ^ 32) ∧
  (∀ s : State, s.chain.firstUp = true → s.chain.cand = none →
    ∃ t, exec .claimRoundEnd s = .next t ∧ t.round = (s.round + 1) % 2 ^ 32 ∧ Frame s t [] [Reg.PLK_CHAIN]) ∧
  (∀ s : State, s.power = .on → s.planB = true → s.chain.firstUp = false → s.uaddrValid = false → s.linkUp 0 = false → s.linkUp 1 = false →
    ∃ t, exec .chainLinkTimeout s = .next t ∧ t.uaddrValid = true ∧ t.uaddr = s.fget Reg.PLK_UADDR Fld.PLK_UADDR_PREF ∧
      t.ready rCHAIN = true ∧ t.chain.firstUp = false))

/-! ### The FM API, the mailboxes and sideband -/

/-- Set QoS Allocated BW turns a fraction of 256 into SHARE over the LDs' share of the lane plan, Set QoS BW Limit into LIMIT in 1/256; a request
over 4,096 of all shares is refused as a whole.

Set LD Allocations that asks for what each LD has is answered at once; the LDs take the capacities asked for, and the answer
waits for the hanks removed to be zeroed.

An HDM decoder that passes every check is committed; one that does not is left uncommitted with Error Not Committed; a locked decoder stays
as it is. DOE answers Discovery and Table Access while the firmware runs its mailboxes.

The decode and where a grown LD lands are as in log 24 and log 32, the share of the LDs as in log 33.
(R68, R70, R349, R351, R353) -/
def Obligations.AllocationsAreSet : Prop :=
  (
  (∀ (s : State) (n f : Nat), s.power = .on → s.ready rFW = true → s.cxl.mld = true → n < 16 → f < 256 →
    s.shareSum n (f * s.ldShare / 256) ≤ 4096 →
    ∃ t, exec (.setQosAllocatedBw n [f]) s = .next t ∧ t.fget (Reg.ADM_RESV n) Fld.ADM_RESV_SHARE = f * s.ldShare / 256 ∧
      t.fget (Reg.ADM_RESV n) Fld.ADM_RESV_LIMIT = s.fget (Reg.ADM_RESV n) Fld.ADM_RESV_LIMIT ∧ t.cxl = { s.cxl with qosSet := true } ∧
      t.adm = { s.adm with resvLog := t.adm.resvLog } ∧ Frame s t [.outbox, .cxl, .adm] [Reg.ADM_RESV n]) ∧
  (∀ (s : State) (n f : Nat), s.power = .on → s.ready rFW = true → s.cxl.mld = true → n < 16 → f < 256 →
    s.shareSum n (s.fget (Reg.ADM_RESV n) Fld.ADM_RESV_SHARE) ≤ 4096 →
    ∃ t, exec (.setQosBwLimit n [f]) s = .next t ∧ t.fget (Reg.ADM_RESV n) Fld.ADM_RESV_LIMIT = 16 * f ∧
      t.fget (Reg.ADM_RESV n) Fld.ADM_RESV_SHARE = s.fget (Reg.ADM_RESV n) Fld.ADM_RESV_SHARE ∧ t.cxl = { s.cxl with qosSet := true } ∧
      t.adm = { s.adm with resvLog := t.adm.resvLog } ∧ Frame s t [.outbox, .cxl, .adm] [Reg.ADM_RESV n]) ∧
  (∀ (s : State) (n : Nat) (v : W64), n < 16 → s.adm.resvLog.all (fun y => y.party != n || y.path < 2) = true →
    s.shareSum n (shareOf v) ≤ 4096 →
    ∃ t, exec (.admResvWrite false n v) s = .next t ∧ t.reg (Reg.ADM_RESV n) = v &&& 0x00001FFF00011FFF ∧
      t.adm = { s.adm with resvLog := t.adm.resvLog } ∧ Frame s t [.adm] [Reg.ADM_RESV n]) ∧
  (∀ (s : State) (n : Nat) (v : W64), n < 16 → s.adm.resvLog.all (fun y => y.party != n || y.path < 2) = true →
    4096 < s.shareSum n (shareOf v) →
    ∃ t, exec (.admResvWrite false n v) s = .next t ∧ t.fget Reg.ADM_STATUS Fld.ADM_STATUS_RESV_REFUSED = 1 ∧
      t.adm = { s.adm with resvLog := t.adm.resvLog } ∧ Frame s t [.adm] [Reg.ADM_STATUS]) ∧
  (∀ (s : State) (n : Nat) (v : W64), n < 8 →
    s.adm.resvLog.all (fun y => y.party != 16 + n || y.path < 2) = true → s.shareSum (16 + n) (shareOf v) ≤ 4096 →
    (n = 3 ∨ n = 4 ∨ n = 5 → v.toNat / 2 ^ 32 = (s.reg (Reg.ADM_RESV_INT n)).toNat / 2 ^ 32) →
    ∃ t, exec (.admResvWrite true n v) s = .next t ∧ t.reg (Reg.ADM_RESV_INT n) = v &&& 0xFFFFFFFF00011FFF ∧
      t.adm = { s.adm with resvLog := t.adm.resvLog } ∧ Frame s t [.adm] [Reg.ADM_RESV_INT n])) ∧
  (
  (∀ (s : State) (n c : Nat), s.power = .on → s.ready rFW = true → s.cxl.mld = true → s.hanks.mapsReady = true →
    s.journalFull = false → s.cxl.fmWait = [] → n < 16 → s.cxl.lds.length = 16 → (s.cxl.lds.getD n ⟨0, 0⟩).count = 256 * c →
    ∃ t, exec (.setLdAllocations n 0 [(c, 0)]) s = .next t ∧ t.outbox = .fm 0 [c] :: s.outbox ∧ t.cxl = s.cxl ∧ t.hanks = s.hanks) ∧
  (∀ (s : State) (n : Nat) (a : List (Nat × Nat)) (lds : List LdCap), s.power = .on → s.ready rFW = true → s.cxl.mld = true →
    s.hanks.mapsReady = true → s.journalFull = false → s.cxl.fmWait = [] → n + a.length ≤ 16 → (∀ x ∈ a, x.2 = 0) → s.allocAll n a = some lds →
    ∃ t, exec (.setLdAllocations n 0 a) s = .next t ∧ t.cxl.lds = lds ∧ t.cxl.fmWait = removedHanks s.cxl.lds lds)) ∧
  (
  (∀ (s : State) (ld m b z w g sk p : Nat) (l e : Bool), s.power = .on → ld < 16 → m < 4 → (∀ h, tget s.cxl.decoders (4 * ld + m) = some h → h.locked = false) →
    s.hdmOk ld m b z w g sk = true →
    exec (.hdmDecoderCommit ld m b z w g sk p l e) s = nextState { s with cxl := { s.cxl with
      decoders := tput s.cxl.decoders (4 * ld + m)
        { base := b, size := z, ways := w, gran := g, pos := p, dpa := s.hdmStart ld m + sk, locked := l, poisonErr := e }
      hdmErr := s.cxl.hdmErr.filter (· != 4 * ld + m) } }) ∧
  (∀ (s : State) (ld m b z w g sk p : Nat) (l e : Bool), s.power = .on → ld < 16 → m < 4 → (∀ h, tget s.cxl.decoders (4 * ld + m) = some h → h.locked = false) →
    s.hdmOk ld m b z w g sk = false →
    exec (.hdmDecoderCommit ld m b z w g sk p l e) s = nextState { s with cxl := { s.cxl with
      decoders := tdel s.cxl.decoders (4 * ld + m), hdmErr := (4 * ld + m) :: s.cxl.hdmErr.filter (· != 4 * ld + m) } }) ∧
  (∀ (s : State) (ld m b z w g sk p : Nat) (l e : Bool) (h : Hdm), tget s.cxl.decoders (4 * ld + m) = some h → h.locked = true →
    exec (.hdmDecoderCommit ld m b z w g sk p l e) s = nextState s) ∧
  (∀ s : State, s.power = .on → s.ready rMBOX = true → s.ready rFW = true →
    exec (.doeDiscovery 3) s = nextState { s with outbox := .doe [0x1E98, 2, 0] :: s.outbox } ∧
    (∀ i, 4 ≤ i → exec (.doeDiscovery i) s = nextState { s with outbox := .doe [0xFFFF, 0, 0] :: s.outbox }) ∧
    (s.cxl.mld = false → exec (.tableAccess 0) s = nextState { s with outbox := .doe [1, 136, 1] :: s.outbox } ∧
      exec (.tableAccess 1) s = nextState { s with outbox := .doe [2, 0, 0, 4, 0, s.ldHanks 0 * 2 ^ 20] :: s.outbox })))

/-- What the mailbox commands that read answer, with the firmware running and the mailbox free. The codes and layouts are those of CXL 2.0
(assumption log 41).

The sideband, with D0 powered: ARP assigns an address or answers the UDID, the block reads answer the status and identity blocks, the
status block is refreshed, and MCTP takes an endpoint ID other than the special ones while the firmware runs; SMBRST# changes nothing that is
held.

A packet that fails a check of acceptance completes at once with the status of the first that fails; one that passes waits as a command of
its carrier, under the next number.

The edges of packets are as in log 42, the free percentage and the CDAT as in log 34.
(R354, R355, R356, R357, R369, R371, R372, R381) -/
def Obligations.MailboxReports : Prop :=
  (
  ∀ (s : State) (mb : Mailbox), s.mbUp mb = true → s.ready rFW = true →
    (∀ (n : Nat) (l : Log), s.logs[n]? = some l → exec (.getEventRecords mb n) s = nextState { s with
      outbox := .mailbox mb 0 [if l.ovf = 0 then 0 else 1, l.ovf, l.ovfFirst.toNat, l.ovfLast.toNat, l.recs.length] (l.recs.flatMap Event.bytes) :: s.outbox }) ∧
    exec (.getEventInterruptPolicy mb) s = nextState { s with outbox := .mailbox mb 0 s.cxl.policy [] :: s.outbox } ∧
    exec (.getFwInfo mb) s = nextState { s with
      outbox := .mailbox mb 0 [2, s.activeBank + 1, s.fget Reg.EFC_STAT Fld.EFC_STAT_NEXT + 1, 1, s.fwVersion] [] :: s.outbox } ∧
    exec (.getTimestamp mb) s = nextState { s with
      outbox := .mailbox mb 0 [(s.wallOf s.clk.now).toNat] [] :: s.outbox } ∧
    exec (.getSupportedLogs mb) s = nextState { s with
      outbox := .mailbox mb 0 [uuidCel, celBytes.length, uuidHealth, 2176] [] :: s.outbox } ∧
    (∀ o n : Nat, o + n ≤ celBytes.length → exec (.getLog mb uuidCel o n) s = nextState { s with
      outbox := .mailbox mb 0 [] ((celBytes.drop o).take n) :: s.outbox }) ∧
    (∀ o n : Nat, o + n ≤ ((List.range 34).flatMap s.healthRecord).length → exec (.getLog mb uuidHealth o n) s = nextState { s with
      outbox := .mailbox mb 0 [] ((((List.range 34).flatMap s.healthRecord).drop o).take n) :: s.outbox }) ∧
    exec (.identifyMemoryDevice mb) s = nextState { s with
      outbox := .mailbox mb 0 [s.fwVersion, s.ldHanks mb.ld / 256, s.ldHanks mb.ld / 256, 0, 0, 512, 512, 512, 512, s.lsaSize, 1024, 256, 1, 3] [] :: s.outbox } ∧
    exec (.getPartitionInfo mb) s = nextState { s with outbox := .mailbox mb 0 [0, s.ldHanks mb.ld / 256, 0, 0] [] :: s.outbox } ∧
    exec (.setPartitionInfo mb) s = nextState { s with outbox := .mailbox mb 3 [] [] :: s.outbox } ∧
    (∀ o n : Nat, o + n ≤ s.lsaSize → exec (.getLsa mb o n) s = nextState { s with
      outbox := .mailbox mb 0 [] ((List.range n).map fun i => dget (fun _ => 0) s.cxl.lsa (s.lsaBase mb + o + i)) :: s.outbox }) ∧
    exec (.getHealthInfo mb) s = nextState { s with outbox := .mailbox mb 0 s.healthPayload (healthBytes s.healthPayload) :: s.outbox } ∧
    exec (.getAlertConfiguration mb) s = nextState { s with outbox := .mailbox mb 0 (s.cxl.alertOn :: s.cxl.alerts) [] :: s.outbox } ∧
    exec (.getShutdownState mb) s = nextState { s with outbox := .mailbox mb 0 [dget (fun _ => 0) s.cxl.shutdown mb.ld] [] :: s.outbox } ∧
    (∀ d n : Nat, s.dpaRange mb.ld d (64 * n) = true →
      exec (.getPoisonList mb d n) s = nextState { s with
        outbox := .mailbox mb 0 ([if s.cxl.poisonOvf then 1 else 0, if s.cxl.poisonOvf then s.cxl.poisonOvfTime.toNat else 0,
            (s.cxl.poison.flatMap (cutPoison mb.ld d n)).length] ++
          (s.cxl.poison.flatMap (cutPoison mb.ld d n)).flatMap fun r => [r.dpa, r.lines, if r.injected then 1 else 0]) [] :: s.outbox }) ∧
    (∀ d n : Nat, s.dpaRange mb.ld d (64 * n) = true →
      exec (.getScanMediaCapabilities mb d n) s = nextState { s with outbox := .mailbox mb 0 [scanMs n] [] :: s.outbox }) ∧
    (s.cxl.scan = none → s.cxl.scanMb.map (·.ld) = some mb.ld →
      exec (.getScanMediaResults mb) s = nextState { s with
        outbox := .mailbox mb 0 ([if s.cxl.scanFound.length ≤ 4096 then 0 else 1, min 4096 s.cxl.scanFound.length] ++
          (s.cxl.scanFound.take 4096).flatMap fun r => [r.1, r.2]) [] :: s.outbox
        cxl := { s.cxl with scanFound := s.cxl.scanFound.drop 4096 } }) ∧
    (s.cxl.scan.isSome = true → exec (.getScanMediaResults mb) s = nextState { s with outbox := .mailbox mb 6 [] [] :: s.outbox }) ∧
    exec (.getSecurityState mb) s = nextState { s with
      outbox := .mailbox mb 0 [(if s.cxl.userPass.isSome then 1 else 0) + (if s.cxl.masterSet then 2 else 0) + (if s.cxl.locked then 4 else 0) +
        (if s.cxl.frozen then 8 else 0) + (if 5 ≤ s.cxl.userTries then 16 else 0) + (if 5 ≤ s.cxl.masterTries then 32 else 0)] [] :: s.outbox }) ∧
  (
  ∀ s : State, s.power = .on →
    (∀ a : Nat, exec (.arp (some a)) s = nextState { s with cxl := { s.cxl with smbAddr := some (a % 128) } }) ∧
    exec (.arp none) s = nextState { s with outbox := .smbus (udid ++ bytesOf [2 * s.cxl.smbAddr.getD 0x3D]) :: s.outbox } ∧
    exec .arpResetDevice s = nextState { s with cxl := { s.cxl with smbAddr := none } } ∧
    exec .smbrstAssert s = nextState s ∧
    exec .basicStatusRead s = nextState { s with
      outbox := .smbus (if s.cxl.basic.isEmpty then s.statusBlock else s.cxl.basic) :: s.outbox } ∧
    exec .identityBlockRead s = nextState { s with
      outbox := .smbus (le 8 (s.reg Reg.RDY_SERIAL).toNat ++ le 4 (s.reg Reg.RDY_IDENT).toNat ++ le 4 0) :: s.outbox } ∧
    exec .statusBlockRefresh s = nextState { s with cxl := { s.cxl with basic := s.statusBlock } } ∧
    (∀ e : Nat, s.ready rFW = true → 1 ≤ e → e < 255 → exec (.setEndpointId e) s = nextState { s with
      outbox := .mctp [0, 0, e, 0] :: s.outbox, cxl := { s.cxl with eid := e } }) ∧
    (∀ (p : Packet) (b : List Byte), s.ready rFW = true → s.packetCheck .mctp p [] false = none →
      exec (.mctpVendorMessage p b) s = nextState { s with cmds := tput s.cmds s.nextCmd (s.newCmd .mctp p [] b .ok), nextCmd := s.nextCmd + 1 }) ∧
    (∀ (mb : Mailbox) (p : Packet) (b : List Byte), s.mbUp mb = true → s.ready rFW = true → b.length = inputLen p → mb.secondary = false →
      s.packetCheck (.primary mb.ld) p [] false = none →
      exec (.ethornPassthru mb p b) s = nextState { s with
        cxl := { s.cxl with mboxBusy := s.cxl.mboxBusy ++ [mb] }
        cmds := tput s.cmds s.nextCmd (s.newCmd (.primary mb.ld) p [] b .ok), nextCmd := s.nextCmd + 1 })) ∧
  (
  (∀ (s : State) (c : Carrier) (p : Packet) (g : List SglEntry) (b : List Byte) (st : Nat), s.packetCheck c p g false = some st →
    s.takePacket c p g b .ok =
      State.finish { s with cmds := tput s.cmds s.nextCmd (s.newCmd c p g b .ok), nextCmd := s.nextCmd + 1 } s.nextCmd st 0 0 []) ∧
  (∀ (s : State) (p : Packet) (b : List Byte), s.packetCheck .mctp p [] false = none →
    s.takePacket .mctp p [] b .ok = { s with cmds := tput s.cmds s.nextCmd (s.newCmd .mctp p [] b .ok), nextCmd := s.nextCmd + 1 }) ∧
  (∀ (s : State) (c : Carrier) (p : Packet) (g : List SglEntry), (Config.crc32c (packetBytes p)).toNat ≠ p.check →
    s.packetCheck c p g false = some stBAD_CHECK) ∧
  (∀ (s : State) (c : Carrier) (p : Packet) (g : List SglEntry), (Config.crc32c (packetBytes p)).toNat = p.check → opSpec p.opcode = none →
    s.packetCheck c p g false = some stBAD_OPCODE))

/-- What the mailbox commands that set something do, with the firmware running and the mailbox free: event records leave their log, and a log
left empty forgets its overflow; the policy, wall time, labels, alerts and the shutdown state take their new values.

A mailbox answers nothing while it is down or busy; a command that needs the firmware is answered Retry Required while none runs.

The FM API of an MLD with running firmware: identity, the state of background operations, the LDs and their allocations in units of 256 MiB,
QoS control and status. The codes are those of CXL 2.0 (assumption log 41).

Set QoS Control takes percentages that rise, OPT_LO below the moderate, the moderate below the severe, at most 100; any other request is
answered Invalid Input and changes nothing. The same commands reach an SLD by its mailbox.

Alerts are as in log 36.
(R42, R230, R349, R354, R355, R358) -/
def Obligations.MailboxAndFmSets : Prop :=
  (
  ∀ (s : State) (mb : Mailbox), s.mbUp mb = true → s.ready rFW = true →
    (∀ (n : Nat) (l : Log) (hs : List Nat), s.logs[n]? = some l → exec (.clearEventRecords mb n true hs) s = nextState { s with
      outbox := .mailbox mb 0 [] [] :: s.outbox
      logs := lset s.logs n { l with recs := [], ovf := 0, ovfFirst := 0, ovfLast := 0 } }) ∧
    (∀ (n : Nat) (l : Log) (hs : List Nat), s.logs[n]? = some l → (∀ h ∈ hs, ∃ e ∈ l.recs, e.handle = h) →
      ∃ t, exec (.clearEventRecords mb n false hs) s = .next t ∧ t.outbox = .mailbox mb 0 [] [] :: s.outbox ∧
        (t.logs[n]?).map Log.recs = some (l.recs.filter fun e => !(hs.contains e.handle)) ∧ (∀ m, m ≠ n → t.logs[m]? = s.logs[m]?) ∧
        Keeps s t [.outbox, .logs, .regs]) ∧
    (∀ a b c d : Nat, a % 4 ≤ 1 → b % 4 ≤ 1 → c % 4 ≤ 1 → d % 4 ≤ 1 → exec (.setEventInterruptPolicy mb a b c d) s = nextState { s with
      outbox := .mailbox mb 0 [] [] :: s.outbox, cxl := { s.cxl with policy := [a, b, c, d] } }) ∧
    (∀ ns : Nat, ∃ t, exec (.setTimestamp mb ns) s = .next t ∧ t.outbox.head? = some (.mailbox mb 0 [] []) ∧
      t.clk = { s.clk with
        nextOffset := some ((ns : Int) - (s.clk.now : Int) * 10), wallSet := true, timeSet := true
        firstOffset := if s.clk.timeSet then s.clk.firstOffset else (ns : Int) - (s.clk.now : Int) * 10 } ∧ t.hanks = s.hanks ∧ t.tlc = s.tlc) ∧
    (∀ (o : Nat) (b : List Byte), o + b.length ≤ s.lsaSize →
      ∃ t, exec (.setLsa mb o b) s = .next t ∧ t.outbox = .mailbox mb 0 [] [] :: s.outbox ∧
        (∀ i, i < b.length → dget (fun _ => (0 : Byte)) t.cxl.lsa (s.lsaBase mb + o + i) = b.getD i 0) ∧
        (∀ a, a < s.lsaBase mb + o ∨ s.lsaBase mb + o + b.length ≤ a →
          dget (fun _ => (0 : Byte)) t.cxl.lsa a = dget (fun _ => 0) s.cxl.lsa a) ∧ Frame s t [.outbox, .cxl] []) ∧
    (∀ v e l o u a b : Nat, v.testBit 0 = true → l ≤ 100 →
      ∃ t, exec (.setAlertConfiguration mb v e l o u a b) s = .next t ∧ t.outbox = .mailbox mb 0 [] [] :: s.outbox ∧
        t.cxl.alerts.getD 0 0 = l ∧ t.cxl.alertOn.testBit 0 = e.testBit 0 ∧ Frame s t [.outbox, .cxl] []) ∧
    (∀ v : Nat, exec (.setShutdownState mb v) s = nextState { s with
      outbox := .mailbox mb 0 [] [] :: s.outbox, cxl := { s.cxl with shutdown := dput (fun _ => 0) s.cxl.shutdown mb.ld (v % 2) } })) ∧
  (
  (∀ (s : State) (mb : Mailbox), s.mbUp mb = false → exec (.getTimestamp mb) s = nextState s ∧ exec (.sanitize mb) s = nextState s) ∧
  (∀ (s : State) (mb : Mailbox), s.mbUp mb = true → s.ready rFW = false →
    exec (.getTimestamp mb) s = nextState { s with outbox := .mailbox mb 5 [] [] :: s.outbox } ∧
    exec (.getHealthInfo mb) s = nextState { s with outbox := .mailbox mb 0 s.healthPayload (healthBytes s.healthPayload) :: s.outbox })) ∧
  (
  ∀ s : State, s.power = .on → s.ready rFW = true → s.cxl.mld = true →
    exec .fmIdentify s = nextState { s with outbox := .fm 0 [Config.vendorId, 0x0E6A, (s.reg Reg.RDY_SERIAL).toNat] :: s.outbox } ∧
    (s.bgRuns = false → exec .backgroundOperationStatus s = nextState { s with outbox := .fm 0 [0, 0, s.cxl.bgOp, s.cxl.bgDone] :: s.outbox }) ∧
    (s.bgRuns = true → exec .backgroundOperationStatus s = nextState { s with
      outbox := .fm 0 [1, (Config.freeValue 7 s.freeCtr).toNat, s.cxl.bgOp, 0] :: s.outbox, freeCtr := s.freeCtr + 1 }) ∧
    exec .getLdInfo s = nextState { s with outbox := .fm 0 [6291456 * 2 ^ 20, 16, 3] :: s.outbox } ∧
    (∀ a n : Nat, a < 16 → exec (.getLdAllocations a n) s = nextState { s with
      outbox := .fm 0 ([16, 0, a, (((s.cxl.lds.drop a).take n).map fun c => c.count / 256).length] ++
        ((s.cxl.lds.drop a).take n).map fun c => c.count / 256) :: s.outbox }) ∧
    exec .getQosControl s = nextState { s with outbox := .fm 0 s.qosControl :: s.outbox } ∧
    exec .getQosStatus s = nextState { s with outbox := .fm 0 [s.meanOcc] :: s.outbox } ∧
    (∀ a n : Nat, a < 16 → exec (.getQosAllocatedBw a n) s = nextState { s with
      outbox := .fm 0 ([(s.bwFrom a n).length, a] ++ s.bwFrom a n) :: s.outbox }) ∧
    (∀ a n : Nat, a < 16 → exec (.getQosBwLimit a n) s = nextState { s with
      outbox := .fm 0 ([(s.limitFrom a n).length, a] ++ s.limitFrom a n) :: s.outbox })) ∧
  (
  (∀ (s : State) (tl m v iv : Nat), s.power = .on → s.ready rFW = true → s.cxl.mld = true → s.fget Reg.ADM_DEVLOAD Fld.ADM_DEVLOAD_OPT_LO < m →
    m < v → v ≤ 100 →
    ∃ t, exec (.setQosControl tl m v iv) s = .next t ∧ t.outbox = .fm 0 [tl, m, v, iv] :: s.outbox ∧ t.qosControl = [tl, m, v, iv] ∧
      Frame s t [.outbox, .cxl] [Reg.ADM_DEVLOAD]) ∧
  (∀ (s : State) (tl m v iv : Nat), s.power = .on → s.ready rFW = true → s.cxl.mld = true → v ≤ m →
    exec (.setQosControl tl m v iv) s = nextState { s with outbox := .fm 2 [] :: s.outbox }) ∧
  (∀ (s : State) (mb : Mailbox), s.mbUp mb = true → s.ready rFW = true → s.cxl.mld = false →
    exec (.getSldQosControl mb) s = nextState { s with outbox := .mailbox mb 0 s.qosControl [] :: s.outbox } ∧
    exec (.getSldQosStatus mb) s = nextState { s with outbox := .mailbox mb 0 [s.meanOcc] [] :: s.outbox } ∧
    (∀ tl m v iv : Nat, s.fget Reg.ADM_DEVLOAD Fld.ADM_DEVLOAD_OPT_LO < m → m < v → v ≤ 100 →
      ∃ t, exec (.setSldQosControl mb tl m v iv) s = .next t ∧ t.outbox = .mailbox mb 0 [tl, m, v, iv] [] :: s.outbox ∧
        t.qosControl = [tl, m, v, iv] ∧ Frame s t [.outbox, .cxl] [Reg.ADM_DEVLOAD])))

/-- Firmware. A transfer that begins erases the flash bank that is not running and programs its first part there; a part that follows goes
on where the last ended; the whole image, or its last part, fills the slot when signature and product code verify, and is answered FW Authentication
Failed otherwise; an abort ends the transfer. Activating a slot that holds an image names it for the next cold cast-on, or, online with the replay
done, restarts the firmware into it: the mailboxes and rings are not ready until they come up again; before, it waits for the replay.

The unlock sequence: the two keys one after the other unlock; any other key sets LOCKERR; after CONFIG_LOCK nothing changes. READ answers the
word that EFC_ADDR names.

Program and erase. Unlocked, with no operation running, no core fetching and the bank not the active one, the operation starts; without the
unlock it is refused with LOCKERR. A program that ends well leaves the word; a third program of a word, or one that turns a 0 into a 1, sets
PGMERR and leaves it; an erase that ends well leaves every word of its sector all ones.

Corners of the flash are as in log 39, the wait of a warm restart as in log 38.
(R366, R420, R421, R422, R423, R424) -/
def Obligations.FirmwareIsTransferred : Prop :=
  (
  (∀ (s : State) (mb : Mailbox) (b : List Byte) (x y : Bool), s.mbUp mb = true → s.ready rFW = true → s.cxl.fwStage = none → s.plat.flashOp = none → b.length ≤ 2 ^ 22 →
    ∃ t, exec (.transferFw mb 1 (2 - s.activeBank) 0 b x y) s = .next t ∧ t.outbox = .mailbox mb 0 [] [] :: s.outbox ∧
      t.cxl.fwStage = some (1 - s.activeBank, b.length) ∧ t.plat.slotEmpty = lset s.plat.slotEmpty (1 - s.activeBank) true ∧
      Frame s t [.outbox, .cxl, .plat] []) ∧
  (∀ (s : State) (mb : Mailbox) (k n : Nat) (b : List Byte) (x y : Bool), s.mbUp mb = true → s.ready rFW = true → s.cxl.fwStage = some (k, n) →
    n % 128 = 0 → n + b.length ≤ 2 ^ 22 →
    ∃ t, exec (.transferFw mb 2 (k + 1) n b x y) s = .next t ∧ t.outbox = .mailbox mb 0 [] [] :: s.outbox ∧
      t.cxl.fwStage = some (k, n + b.length) ∧ Frame s t [.outbox, .cxl, .plat] []) ∧
  (∀ (s : State) (mb : Mailbox) (b : List Byte) (x y : Bool), s.mbUp mb = true → s.ready rFW = true → s.activeBank ≤ 1 →
    s.cxl.fwStage = none → s.plat.flashOp = none → s.plat.slotEmpty.length = 2 → b.length ≤ 2 ^ 22 →
    ∃ t, exec (.transferFw mb 0 (2 - s.activeBank) 0 b x y) s = .next t ∧
      t.outbox = .mailbox mb (if x && y then 0 else 0xA) [] [] :: s.outbox ∧ t.cxl.fwStage = none ∧
      t.plat.slotEmpty.getD (1 - s.activeBank) true = !(x && y) ∧ Frame s t [.outbox, .cxl, .plat] []) ∧
  (∀ (s : State) (mb : Mailbox) (k n : Nat) (b : List Byte) (x y : Bool), s.mbUp mb = true → s.ready rFW = true →
    s.cxl.fwStage = some (k, n) → k < s.plat.slotEmpty.length → n % 128 = 0 → n + b.length ≤ 2 ^ 22 →
    ∃ t, exec (.transferFw mb 3 (k + 1) n b x y) s = .next t ∧ t.outbox = .mailbox mb (if x && y then 0 else 0xA) [] [] :: s.outbox ∧
      t.cxl.fwStage = none ∧ t.plat.slotEmpty.getD k true = !(x && y) ∧ Frame s t [.outbox, .cxl, .plat] []) ∧
  (∀ (s : State) (mb : Mailbox) (k n j o : Nat) (b : List Byte) (x y : Bool), s.mbUp mb = true → s.ready rFW = true →
    s.cxl.fwStage = some (k, n) →
    exec (.transferFw mb 4 j o b x y) s = nextState { s with outbox := .mailbox mb 0 [] [] :: s.outbox, cxl := { s.cxl with fwStage := none } }) ∧
  (∀ (s : State) (mb : Mailbox) (n : Nat), s.mbUp mb = true → s.ready rFW = true → n = 1 ∨ n = 2 → s.plat.slotEmpty.getD (n - 1) true = false →
    exec (.activateFw mb false n) s =
      nextState { s.fset Reg.EFC_STAT Fld.EFC_STAT_NEXT (n - 1) with outbox := .mailbox mb 0 [] [] :: s.outbox }) ∧
  (∀ (s : State) (mb : Mailbox) (n : Nat), s.mbUp mb = true → s.ready rFW = true → n = 1 ∨ n = 2 → s.plat.slotEmpty.getD (n - 1) true = false →
    s.replayDone = true →
    ∃ t, exec (.activateFw mb true n) s = .next t ∧ t.activeBank = n - 1 ∧ t.ready rMBOX = false ∧ t.ready rRINGS = false ∧ t.med = s.med) ∧
  (∀ (s : State) (mb : Mailbox), s.mbUp mb = true → s.ready rFW = true → s.replayDone = true →
    ∃ t, exec (.ethornWarmRestart mb) s = .next t ∧ t.activeBank = s.activeBank ∧ t.ready rMBOX = false ∧ t.ready rRINGS = false ∧ t.med = s.med) ∧
  (∀ (s : State) (mb : Mailbox), s.mbUp mb = true → s.ready rFW = true → s.replayDone = false →
    exec (.ethornWarmRestart mb) s = nextState { s with
      cxl := { s.cxl with mboxBusy := s.cxl.mboxBusy ++ [mb] }, plat := { s.plat with warmWait := true, fwNext := s.activeBank } }) ∧
  (∀ (s : State) (mb : Mailbox) (n : Nat), s.mbUp mb = true → s.ready rFW = true → s.replayDone = false → n = 1 ∨ n = 2 →
    s.plat.slotEmpty.getD (n - 1) true = false →
    ∃ t, exec (.activateFw mb true n) s = .next t ∧ mb ∈ t.cxl.mboxBusy ∧ t.plat.warmWait = true ∧ t.plat.fwNext = n - 1 ∧
      t.fget Reg.EFC_STAT Fld.EFC_STAT_NEXT = n - 1 ∧ Frame s t [.cxl, .plat] [Reg.EFC_STAT])) ∧
  (
  (∀ (s : State) (v : W64), s.rwlLocked = false → getF v Fld.EFC_UNLOCK_KEY = 0xC3A5 →
    ∃ t, exec (.efcUnlock v) s = .next t ∧ t.plat.unlockStep = 1 ∧ t.fget Reg.EFC_STAT Fld.EFC_STAT_UNLOCKED = 0 ∧
      Frame s t [.plat] [Reg.EFC_STAT]) ∧
  (∀ (s : State) (v : W64), s.rwlLocked = false → getF v Fld.EFC_UNLOCK_KEY = 0x3C5A → s.plat.unlockStep = 1 →
    ∃ t, exec (.efcUnlock v) s = .next t ∧ t.fget Reg.EFC_STAT Fld.EFC_STAT_UNLOCKED = 1 ∧ t.plat.unlockStep = 0 ∧ Frame s t [.plat] [Reg.EFC_STAT]) ∧
  (∀ (s : State) (v : W64), s.rwlLocked = false → getF v Fld.EFC_UNLOCK_KEY ≠ 0xC3A5 → getF v Fld.EFC_UNLOCK_KEY ≠ 0x3C5A →
    ∃ t, exec (.efcUnlock v) s = .next t ∧ t.fget Reg.EFC_STAT Fld.EFC_STAT_UNLOCKED = 0 ∧ t.fget Reg.EFC_STAT Fld.EFC_STAT_LOCKERR = 1 ∧
      t.plat.unlockStep = 0) ∧
  (∀ (s : State) (v : W64), s.rwlLocked = true → exec (.efcUnlock v) s = nextState s) ∧
  (∀ s : State, s.cxl.fwStage = none → s.flashBusy (s.efcWord / 2 ^ 19) = false →
    ∃ t, exec .efcRead s = .next t ∧ t.reg Reg.EFC_DATA = s.flashWordAt s.efcWord ∧ Frame s t [.plat] [Reg.EFC_DATA])) ∧
  (
  (∀ (s : State) (b : Bool), s.cxl.fwStage = none → s.plat.flashOp = none → s.fget Reg.EFC_STAT Fld.EFC_STAT_UNLOCKED = 1 →
    s.efcWord / 2 ^ 19 ≠ s.fget Reg.EFC_STAT Fld.EFC_STAT_ACTIVE →
    (∃ t, exec (.efcProgram b false) s = .next t ∧ t.plat.flashOp = some (2, s.efcWord) ∧ t.plat.flashWord = s.reg Reg.EFC_DATA ∧
      t.plat.flash = s.plat.flash ∧ t.fget Reg.EFC_STAT Fld.EFC_STAT_UNLOCKED = 0 ∧ Frame s t [.plat] [Reg.EFC_STAT]) ∧
    (∃ t, exec (.efcEraseSector b false) s = .next t ∧ t.plat.flashOp = some (3, s.efcWord) ∧ t.plat.flash = s.plat.flash ∧
      Frame s t [.plat] [Reg.EFC_STAT]) ∧
    (∃ t, exec (.efcEraseBank b false) s = .next t ∧ t.plat.flashOp = some (4, s.efcWord) ∧ t.plat.flash = s.plat.flash ∧
      Frame s t [.plat] [Reg.EFC_STAT])) ∧
  (∀ (s : State) (b f : Bool), s.plat.flashOp = none → s.fget Reg.EFC_STAT Fld.EFC_STAT_UNLOCKED = 0 →
    ∃ t, exec (.efcProgram b f) s = .next t ∧ t.plat.flashOp = none ∧ t.fget Reg.EFC_STAT Fld.EFC_STAT_LOCKERR = 1 ∧ t.plat.flash = s.plat.flash) ∧
  (∀ (s : State) (w : Nat), s.plat.flashOp = some (2, w) → s.mayProgram w s.plat.flashWord = true →
    ∃ t, exec (.flashProgramDone true) s = .next t ∧ t.flashWordAt w = s.plat.flashWord ∧ t.flashCount w = s.flashCount w + 1 ∧
      (∀ x, x ≠ w → t.flashWordAt x = s.flashWordAt x) ∧ t.plat.flashOp = none ∧ t.fget Reg.EFC_STAT Fld.EFC_STAT_DONE = 1) ∧
  (∀ (s : State) (w : Nat), s.plat.flashOp = some (2, w) → s.mayProgram w s.plat.flashWord = false →
    ∃ t, exec (.flashProgramDone true) s = .next t ∧ t.plat.flash = s.plat.flash ∧ t.plat.flashOp = none ∧
      t.fget Reg.EFC_STAT Fld.EFC_STAT_PGMERR = 1 ∧ t.fget Reg.EFC_STAT Fld.EFC_STAT_DONE = 1) ∧
  (∀ (s : State) (w x : Nat), s.plat.flashOp = some (3, w) → x / 2048 = w / 2048 →
    ∃ t, exec (.flashEraseDone true true) s = .next t ∧ t.flashWordAt x = BitVec.allOnes 64 ∧ t.flashCount x = 0 ∧ t.plat.flashOp = none ∧
      t.fget Reg.EFC_STAT Fld.EFC_STAT_DONE = 1))

/-- Poison and scans. Inject Poison poisons a line that may be written, in place, without sending anything to a neighbour; Clear Poison writes it;
a scan runs in the background over its range until it ends.

What a scan finds is an operand (log 37).
(R363, R364, R365) -/
def Obligations.PoisonIsManaged : Prop :=
  (∀ (s : State) (mb : Mailbox) (d : Nat) (p : PoolLine), s.mbUp mb = true → s.ready rFW = true → s.poisonReady mb.ld d = true →
    s.dpaRange mb.ld d 64 = true → s.sealedOrBusy (lhnOf (s.lineOfDpa mb.ld d)) = false → s.injectedRecs < 256 →
    s.poolGet (s.lineOfDpa mb.ld d) = some p → s.regionOf (lhnOf (s.lineOfDpa mb.ld d)) = none →
    ∃ t q, exec (.injectPoison mb d) s = .next t ∧ t.outbox.head? = some (.mailbox mb 0 [] []) ∧
      t.poolGet (s.lineOfDpa mb.ld d) = some q ∧ q.poison = true ∧ t.med = s.med) ∧
  (∀ (s : State) (mb : Mailbox) (d : Nat) (x : Line) (p : PoolLine), s.mbUp mb = true → s.ready rFW = true → s.poisonReady mb.ld d = true →
    s.dpaRange mb.ld d 64 = true → s.sealedOrBusy (lhnOf (s.lineOfDpa mb.ld d)) = false → s.writeFate (s.lineOfDpa mb.ld d) = .apply →
    s.poolGet (s.lineOfDpa mb.ld d) = some p → s.regionOf (lhnOf (s.lineOfDpa mb.ld d)) = none →
    ∃ t q, exec (.clearPoison mb d x) s = .next t ∧ t.outbox.head? = some (.mailbox mb 0 [] []) ∧
      t.poolGet (s.lineOfDpa mb.ld d) = some q ∧ q.poison = false ∧ q.data = x ∧ t.med = s.med) ∧
  (∀ (s : State) (mb : Mailbox) (d : Nat) (x : Line), s.mbUp mb = true → s.ready rFW = true → s.poisonReady mb.ld d = true →
    s.dpaRange mb.ld d 64 = true → s.sealedOrBusy (lhnOf (s.lineOfDpa mb.ld d)) = false →
    ∃ t, exec (.clearPoison mb d x) s = .next t ∧ (t.outbox.head? = some (.mailbox mb 0 [] []) ∨ mb ∈ t.cxl.mboxBusy)) ∧
  (∀ (s : State) (mb : Mailbox) (d : Nat), s.mbUp mb = true → s.ready rFW = true → s.poisonReady mb.ld d = true →
    s.dpaRange mb.ld d 64 = true → s.sealedOrBusy (lhnOf (s.lineOfDpa mb.ld d)) = false →
    ∃ t, exec (.injectPoison mb d) s = .next t ∧
      (if s.injectedRecs < 256 then t.outbox.head? = some (.mailbox mb 0 [] []) ∨ mb ∈ t.cxl.mboxBusy
       else t.outbox = .mailbox mb 0x10 [] [] :: s.outbox)) ∧
  (∀ (s : State) (mb : Mailbox) (d n : Nat) (q : Bool), s.mbUp mb = true → s.ready rFW = true → s.skeinsOf mb.ld d n = true → s.bgRuns = false →
    0 < n → s.dpaRange mb.ld d (64 * n) = true →
    exec (.scanMedia mb d n q) s = nextState { s with
      outbox := .mailbox mb 1 [] [] :: s.outbox
      cxl := { s.cxl with scan := some (mb.ld, d, n, q), scanFound := [], scanMb := some mb, bgOp := 0x4304, bgDone := 0 } }) ∧
  (∀ (s : State) (ld d n : Nat) (q : Bool) (found : List (Nat × Nat)), s.cxl.scan = some (ld, d, n, q) → s.power = .on →
    s.adm.held.getD 16 false = false →
    ∃ t, exec (.scanMediaDone found) s = .next t ∧ t.cxl.scan = none ∧ (found = [] → t.cxl.scanFound = [] ∧ t.med = s.med) ∧
      t.cxl.scanFound = (found.flatMap fun g => cutPoison ld d n { ld := ld, dpa := g.1 / 64 * 64, lines := g.2, injected := false }).map
        fun r => (r.dpa, r.lines))

/-- Sanitize and Secure Erase start a background operation: all lines held on chip are dropped, every slot but 0 is EMPTY, slot 0 takes the next
key, every hank is bound to it, and the counters start anew above every major count; they are refused while a seal is in force or in progress.
When the operation ends no erase is in progress, and a Sanitize leaves every page blank.

Passphrases. With none set, or when the old one matches, the new one is stored as its hash; a mismatch is answered Incorrect Passphrase and
counted; the right user passphrase unlocks; freezing refuses every change until cast-on; a passphrase secure erase erases, and removes the user
passphrase.

When the erase happens and how attempts count is as in log 37.
(R275, R367, R368) -/
def Obligations.ErasesAndPassphrases : Prop :=
  (
  (∀ (s : State) (mb : Mailbox), s.mbUp mb = true → s.ready rFW = true → s.eraseReady = true → s.bgRuns = false → s.cxl.locked = false →
    s.cxl.frozen = false → s.seals.live = [] → s.seals.jobs = [] → s.adm.dl = [] →
    ∃ t, exec (.sanitize mb) s = .next t ∧ t.cxl.sanitizing = 2 ∧ t.tlc.pool = [] ∧ t.tlc.cache = [] ∧ t.tlc.mb = [] ∧ t.crypto.nodes = [] ∧
      (∀ n, n ≠ 0 → (t.slot n).state = 0) ∧ (∀ e ∈ t.hanks.host, e.2.key = 0 ∨ e ∈ s.hanks.host) ∧ t.med.lines = s.med.lines) ∧
  (∀ (s : State) (mb : Mailbox), s.mbUp mb = true → s.ready rFW = true → s.eraseReady = true → s.bgRuns = false → s.cxl.locked = false →
    s.cxl.frozen = false → s.seals.live = [] → s.seals.jobs = [] → s.adm.dl = [] →
    ∃ t, exec (.secureErase mb) s = .next t ∧ t.cxl.sanitizing = 1 ∧ t.tlc.pool = [] ∧ t.tlc.cache = [] ∧ t.crypto.nodes = [] ∧
      (∀ n, n ≠ 0 → (t.slot n).state = 0)) ∧
  (∀ (s : State) (mb : Mailbox), s.mbUp mb = true → s.ready rFW = true → s.eraseReady = true → s.bgRuns = false → s.sealsHeld = true →
    exec (.sanitize mb) s = nextState { s with outbox := .mailbox mb 0x13 [] [] :: s.outbox } ∧
    exec (.secureErase mb) s = nextState { s with outbox := .mailbox mb 0x13 [] [] :: s.outbox }) ∧
  (∀ s : State, s.cxl.sanitizing ≠ 0 → s.power = .on → s.ready rMAP = true → s.replayDone = true → s.eraseWaits = false →
    ∃ t, exec .sanitizeDone s = .next t ∧ t.cxl.sanitizing = 0 ∧ (s.cxl.sanitizing = 2 → ∀ phn st d j, t.medGet phn st d j = blankStored) ∧
      (s.cxl.sanitizing = 1 → t.med = s.med))) ∧
  (
  ∀ (s : State) (mb : Mailbox), s.mbUp mb = true → s.ready rFW = true → s.cxl.frozen = false →
    (∀ o n : List Byte, s.cxl.locked = false → n.length = 32 → s.cxl.userTries < 5 → s.cxl.userPass = none →
      exec (.setPassphrase mb false o n) s = nextState { s with
        outbox := .mailbox mb 0 [] [] :: s.outbox, cxl := { s.cxl with userPass := some (Config.passHash n) } }) ∧
    (∀ (o n : List Byte) (h : BitVec 384), s.cxl.locked = false → n.length = 32 → s.cxl.userTries < 5 → s.cxl.userPass = some h →
      Config.passHash o ≠ h → exec (.setPassphrase mb false o n) s = nextState { s with
        outbox := .mailbox mb 0x14 [] [] :: s.outbox, cxl := { s.cxl with userTries := s.cxl.userTries + 1 } }) ∧
    (∀ (o n : List Byte) (h : BitVec 384), s.cxl.locked = false → n.length = 32 → s.cxl.userTries < 5 → s.cxl.userPass = some h →
      Config.passHash o = h → exec (.setPassphrase mb false o n) s = nextState { s with
        outbox := .mailbox mb 0 [] [] :: s.outbox, cxl := { s.cxl with userPass := some (Config.passHash n) } }) ∧
    (∀ (o : List Byte) (h : BitVec 384), s.cxl.locked = false → s.cxl.userTries < 5 → s.cxl.userPass = some h → Config.passHash o = h →
      exec (.disablePassphrase mb false o) s = nextState { s with
        outbox := .mailbox mb 0 [] [] :: s.outbox, cxl := { s.cxl with userPass := none } }) ∧
    (∀ (o : List Byte) (h : BitVec 384), s.cxl.locked = true → s.cxl.userTries < 5 → s.cxl.userPass = some h → Config.passHash o = h →
      exec (.unlock mb o) s = nextState { s with outbox := .mailbox mb 0 [] [] :: s.outbox, cxl := { s.cxl with locked := false } }) ∧
    exec (.freezeSecurityState mb) s = nextState { s with outbox := .mailbox mb 0 [] [] :: s.outbox, cxl := { s.cxl with frozen := true } } ∧
    (∀ (o : List Byte) (h : BitVec 384), s.eraseReady = true → s.bgRuns = false → s.sealsHeld = false → s.cxl.userTries < 5 → s.cxl.userPass = some h →
      Config.passHash o = h → ∃ t, exec (.passphraseSecureErase mb false o) s = .next t ∧ t.cxl.userPass = none ∧ t.cxl.locked = false ∧
        t.cxl.sanitizing = 1 ∧ t.tlc.pool = [] ∧ t.crypto.nodes = []))

/-! ### Rings and their commands -/

/-- The ring registers. A doorbell sets the tail, and one of the size or more halts the ring with cause 1; a CQ head below the size is taken;
enabling starts a ring with its pointers at 0, or halts it with cause 4 where its queues may not stand; stopping it ends its commands that have changed
nothing. An entry fetched is accepted, or completes at once with what it fails; a command expires at once, or after the hank in progress.

The completion of a ring command that was neither stopped nor in error: its entry goes to the tail of the completion queue with the phase
in force, the tail advances and the phase flips when it wraps, CRG_DONE counts it, and the command is gone.
(R375, R376, R377, R387, R393) -/
def Obligations.RingsRun : Prop :=
  (
  (∀ (s : State) (n : Nat) (v : W64), n < 8 → getF v Fld.CRG_SQ_TAIL_TAIL < s.ringSize n →
    exec (.ringDoorbell n v) s = nextState (s.fset (Reg.CRG_SQ_TAIL n) Fld.CRG_SQ_TAIL_TAIL (getF v Fld.CRG_SQ_TAIL_TAIL))) ∧
  (∀ (s : State) (n : Nat) (v : W64), n < 8 → s.ringOn n = true → s.ringSize n ≤ getF v Fld.CRG_SQ_TAIL_TAIL →
    ∃ t, exec (.ringDoorbell n v) s = .next t ∧ t.fget (Reg.CRG_STAT n) Fld.CRG_STAT_HALTED = 1 ∧ t.fget (Reg.CRG_STAT n) Fld.CRG_STAT_CAUSE = 1) ∧
  (∀ (s : State) (n : Nat) (v : W64), n < 8 → getF v Fld.CRG_CQ_HEAD_HEAD < s.ringSize n →
    exec (.cqHeadWrite n v) s = nextState (s.fset (Reg.CRG_CQ_HEAD n) Fld.CRG_CQ_HEAD_HEAD (getF v Fld.CRG_CQ_HEAD_HEAD))) ∧
  (∀ (s : State) (n : Nat) (v : W64), s.ringSize n ≤ getF v Fld.CRG_CQ_HEAD_HEAD → exec (.cqHeadWrite n v) s = nextState s) ∧
  (∀ (s : State) (n : Nat) (v : W64), n < 8 → getF v Fld.CRG_CTL_ENABLE = 1 → s.fget (Reg.CRG_CTL n) Fld.CRG_CTL_ENABLE = 0 → s.basesOk n = false →
    ∃ t, exec (.ringEnable n v) s = .next t ∧ t.fget (Reg.CRG_CTL n) Fld.CRG_CTL_ENABLE = 1 ∧ t.fget (Reg.CRG_STAT n) Fld.CRG_STAT_HALTED = 1 ∧
      t.fget (Reg.CRG_STAT n) Fld.CRG_STAT_CAUSE = 4) ∧
  (∀ (s : State) (n : Nat) (v : W64), n < 8 → getF v Fld.CRG_CTL_ENABLE = 1 → s.fget (Reg.CRG_CTL n) Fld.CRG_CTL_ENABLE = 0 → s.basesOk n = true →
    ∃ t, exec (.ringEnable n v) s = .next t ∧ t.fget (Reg.CRG_CTL n) Fld.CRG_CTL_ENABLE = 1 ∧ t.fget (Reg.CRG_STAT n) Fld.CRG_STAT_RUNNING = 1 ∧
      t.fget (Reg.CRG_STAT n) Fld.CRG_STAT_HALTED = 0 ∧ t.reg (Reg.CRG_SQ_HEAD n) = 0 ∧ t.reg (Reg.CRG_SQ_TAIL n) = 0 ∧ t.cmds = s.cmds) ∧
  (∀ (s : State) (n : Nat) (v : W64), n < 8 → getF v Fld.CRG_CTL_ENABLE = 0 → s.fget (Reg.CRG_CTL n) Fld.CRG_CTL_ENABLE = 1 →
    s.cmds.Pairwise (fun a b => a.1 < b.1) →
    ∃ t, exec (.ringStop n v) s = .next t ∧ t.fget (Reg.CRG_CTL n) Fld.CRG_CTL_ENABLE = 0 ∧
      (s.ringCmds n = [] → n < s.rings.stopping.length → t.fget (Reg.CRG_STAT n) Fld.CRG_STAT_RUNNING = 0 ∧ t.cmds = s.cmds) ∧
      (∀ e ∈ s.ringCmds n, if e.2.running = true ∧ e.2.started = true ∧ atGap e.2 = false
        then (tget t.cmds e.1).map Cmd.endWith = some (some stABORTED) else tget t.cmds e.1 = none)) ∧
  (∀ (s : State) (n : Nat), n < 8 → s.coalPassed n = true → s.fget (Reg.CRG_MSIX n) Fld.CRG_MSIX_EN = 1 →
    s.fget (Reg.CRG_MSIX n) Fld.CRG_MSIX_COAL_TIME ≠ 0 →
    exec (.msixCoalesceTimer n) s = nextState { s with
      outbox := .msix (s.fget (Reg.CRG_MSIX n) Fld.CRG_MSIX_VECTOR) :: s.outbox
      rings := { s.rings with coal := lset s.rings.coal n 0, coalOn := lset s.rings.coalOn n none } }) ∧
  (∀ (s : State) (n : Nat) (p : Packet) (g : List SglEntry) (b : List Byte) (h : HostMem), s.canFetch n = true →
    s.packetCheck (.ring n) p g false = none → s.rings.stopping.getD n false = false → h ≠ .sqRead → h ≠ .input →
    exec (.commandFetch n h p g b) s = nextState { s.fset (Reg.CRG_SQ_HEAD n) Fld.CRG_SQ_HEAD_HEAD
        ((s.fget (Reg.CRG_SQ_HEAD n) Fld.CRG_SQ_HEAD_HEAD + 1) % s.ringSize n) with
      cmds := tput s.cmds s.nextCmd (s.newCmd (.ring n) p g b h), nextCmd := s.nextCmd + 1 }) ∧
  (∀ (s : State) (n : Nat) (p : Packet) (g : List SglEntry) (b : List Byte) (h : HostMem), s.canFetch n = true → h ≠ .sqRead →
    ∃ t, exec (.commandFetch n h p g b) s = .next t ∧ t.nextCmd = s.nextCmd + 1 ∧
      t.fget (Reg.CRG_SQ_HEAD n) Fld.CRG_SQ_HEAD_HEAD = (s.fget (Reg.CRG_SQ_HEAD n) Fld.CRG_SQ_HEAD_HEAD + 1) % s.ringSize n % 2 ^ fwidth Fld.CRG_SQ_HEAD_HEAD ∧
      (s.packetCheck (.ring n) p g (h == .input) ≠ none → tget t.cmds s.nextCmd = none)) ∧
  (∀ (s : State) (n : Nat) (p : Packet) (g : List SglEntry) (b : List Byte), s.canFetch n = true →
    ∃ t, exec (.commandFetch n .sqRead p g b) s = .next t ∧ t.fget (Reg.CRG_STAT n) Fld.CRG_STAT_HALTED = 1 ∧
      t.fget (Reg.CRG_STAT n) Fld.CRG_STAT_CAUSE = 2) ∧
  (∀ (s : State) (id d : Nat) (c : Cmd), tget s.cmds id = some c → c.expiry = some d → d ≤ s.clk.now → neverStops c = false →
    ∃ t, exec (.commandExpiry id) s = .next t ∧
      (if c.started = true ∧ atGap c = false ∧ endsByHank c.pkt.opcode = true then tget t.cmds id = some { c with endWith := some stTIMEOUT }
        else tget t.cmds id = none)) ∧
  (∀ (s : State) (id d : Nat) (c : Cmd), tget s.cmds id = some c → c.expiry = some d → d ≤ s.clk.now → neverStops c = false → c.started = false →
    c.running = false → changesMap c.pkt.opcode = false → atGap c = false → c.pkt.opcode ≠ 0x0203 →
    ∃ t, exec (.commandExpiry id) s = .next t ∧ s.Answered t id c stTIMEOUT c.done 0 [] ∧ Keeps s t (.regs :: doneParts))) ∧
  (
  ∀ (s : State) (id n st r0 r1 : Nat) (c : Cmd), n < 8 → tget s.cmds id = some c → c.carrier = .ring n → c.stopping = false → c.endWith = none →
    c.host = .ok → s.cqDead n = false → r0 < 2 ^ 64 → r1 < 2 ^ 64 →
    Out.cqe n (s.fget (Reg.CRG_CQ_TAIL n) Fld.CRG_CQ_TAIL_TAIL) c.pkt.tag st (s.fget (Reg.CRG_CQ_TAIL n) Fld.CRG_CQ_TAIL_PHASE) r0 r1 s.clk.now ∈
        (s.finish id st r0 r1 []).outbox ∧
      (s.finish id st r0 r1 []).fget (Reg.CRG_CQ_TAIL n) Fld.CRG_CQ_TAIL_TAIL =
        (s.fget (Reg.CRG_CQ_TAIL n) Fld.CRG_CQ_TAIL_TAIL + 1) % s.ringSize n % 2 ^ fwidth Fld.CRG_CQ_TAIL_TAIL ∧
      (s.finish id st r0 r1 []).reg (Reg.CRG_DONE n) = s.reg (Reg.CRG_DONE n) + 1 ∧
      tget (s.finish id st r0 r1 []).cmds id = none ∧
      (∀ j, j ≠ id → tget (s.finish id st r0 r1 []).cmds j = tget s.cmds j) ∧ (s.finish id st r0 r1 []).med = s.med)

/-- Commands that only report complete at once with their registers and structures; a structure is written when the command asks for one.
(R158, R283, R285, R388) -/
def Obligations.ReportsComplete : Prop :=
  ∀ (s : State) (id : Nat) (c : Cmd),
    (s.CmdReady id 0x0101 c → ∃ t, exec (.identifyUnit id) s = .next t ∧ s.Answered t id c stOK
      (s.reg Reg.RDY_SERIAL).toNat (s.reg Reg.RDY_IDENT).toNat (whenAsked c (s.identity c.pkt.ld)) ∧ Keeps s t (.regs :: doneParts)) ∧
    (s.CmdReady id 0x0102 c → ∃ t, exec (.getReadiness id) s = .next t ∧ s.Answered t id c stOK
      (s.reg Reg.RDY_STATUS).toNat (s.reg Reg.RDY_SKEIN).toNat (whenAsked c s.readiness) ∧ Keeps s t (.regs :: doneParts)) ∧
    (s.CmdReady id 0x0103 c → c.pkt.arg0 = 0 → c.pkt.arg1 ≤ certChain.length →
      ∃ t, exec (.getCertChain id) s = .next t ∧ s.Answered t id c (if c.pkt.arg1 + c.pkt.buflen < certChain.length then stPARTIAL else stOK)
        (if c.pkt.arg1 + c.pkt.buflen < certChain.length then c.pkt.arg1 + c.pkt.buflen else 0) certChain.length
        ((certChain.drop c.pkt.arg1).take c.pkt.buflen) ∧ Keeps s t (.regs :: doneParts)) ∧
    (s.CmdReady id 0x0103 c → c.pkt.arg0 = 1 → c.pkt.arg1 ≤ (certBytes 3).length →
      ∃ t, exec (.getCertChain id) s = .next t ∧ s.Answered t id c (if c.pkt.arg1 + c.pkt.buflen < (certBytes 3).length then stPARTIAL else stOK)
        (if c.pkt.arg1 + c.pkt.buflen < (certBytes 3).length then c.pkt.arg1 + c.pkt.buflen else 0) (certBytes 3).length
        (((certBytes 3).drop c.pkt.arg1).take c.pkt.buflen) ∧ Keeps s t (.regs :: doneParts)) ∧
    (s.CmdReady id 0x0901 c → c.pkt.arg0 ≤ 33 →
      ∃ t, exec (.getHealthExt id) s = .next t ∧ s.Answered t id c (if c.pkt.buflen / 64 < 34 - c.pkt.arg0 then stPARTIAL else stOK)
        (if c.pkt.buflen / 64 < 34 - c.pkt.arg0 then c.pkt.arg0 + c.pkt.buflen / 64 else s.lifeUsed) (min (34 - c.pkt.arg0) (c.pkt.buflen / 64))
        ((List.range (min (34 - c.pkt.arg0) (c.pkt.buflen / 64))).flatMap fun i => s.healthRecord (c.pkt.arg0 + i)) ∧
        Keeps s t (.regs :: doneParts)) ∧
    (s.CmdReady id 0x0A01 c → ∃ t, exec (.gaugeStatus id) s = .next t ∧ s.Answered t id c stOK
      (s.reg Reg.GAU_CAP_LINES).toNat (s.reg Reg.GAU_E_USABLE).toNat (whenAsked c
        ((List.range 10).flatMap (fun i => le 8 (s.reg (0x050000 + 8 * i)).toNat) ++
          (List.range 12).flatMap fun b => le 8 (s.reg (Reg.GAU_BANK b)).toNat)) ∧ Keeps s t (.regs :: doneParts)) ∧
    (s.CmdReady id 0x0702 c → ∃ t, exec (.getContract id) s = .next t ∧ s.Answered t id c stOK
      (s.reg Reg.ADM_STATUS).toNat (s.reg Reg.ADM_OCC).toNat (whenAsked c (contractRegs.flatMap fun o => le 8 (s.reg o).toNat)) ∧ Keeps s t (.regs :: doneParts)) ∧
    (s.CmdReady id 0x0404 c → c.pkt.keyidx ≤ 4095 → ∃ t, exec (.keyQuery id) s = .next t ∧ s.Answered t id c stOK
      (s.slotWord c.pkt.keyidx).toNat (s.slot c.pkt.keyidx).gen
        (whenAsked c (be 48 (Config.publicKey 1).1.toNat ++ be 48 (Config.publicKey 1).2.toNat)) ∧ Keeps s t (.regs :: doneParts)) ∧
    (s.CmdReady id 0x0C04 c → c.pkt.arg0 ≤ 63 → ∃ t, exec (.ratchetRead id) s = .next t ∧ s.Answered t id c stOK (s.ratchet c.pkt.arg0) 0
      (whenAsked c (be 96 (Config.ecdsaSign (ratchetMessage c.pkt.arg0 (s.ratchet c.pkt.arg0) c.pkt.arg1)).toNat)) ∧ Keeps s t (.regs :: doneParts))

/-- Commands of the reserve and the contract. GAUGE_TEST starts the test of its bank and waits for its end; PREPARE_POWER_LOSS starts a bind-off
that completes it, and completes at once in BOUND; SET_RESERVATION writes a reservation that fits, and answers it.

Keys and ratchets. KEY_LOAD that passes its checks makes its EMPTY slot LOADING, and then LOADED: the record holds the wrapped key, the generation one
higher, and the key stands in the store; KEY_RETIRE of a LOADED slot makes it RETIRING and waits;
RATCHET_ADVANCE raises a host ratchet.

Statuses of out-of-range operands are as in log 42, of bank tests as in log 46.
(R68, R197, R206, R250, R256, R286) -/
def Obligations.ReserveAndKeyCommands : Prop :=
  (
  (∀ (s : State) (id : Nat) (c : Cmd), s.CmdReady id 0x0A02 c → c.pkt.arg0 ≤ 11 → s.bankState c.pkt.arg0 < 2 → s.canTest = true →
    ∃ t, exec (.gaugeTest id) s = .next t ∧ t.energy.test = some (c.pkt.arg0, some id) ∧ t.bankState c.pkt.arg0 = 2 ∧
      (t.bank c.pkt.arg0).own = 33000 ∧ tget t.cmds id = some { c with running := true, started := true } ∧
      Frame s t [.energy, .cmds] [Reg.GAU_BANK c.pkt.arg0, Reg.GAU_TEST_CTL]) ∧
  (∀ (s : State) (id : Nat) (c : Cmd), s.CmdReady id 0x0A03 c → s.power = .on → s.energy.prepareCmd = none →
    ∃ t, exec (.preparePowerLoss id) s = .next t ∧ t.power = .bindoff ∧ t.energy.prepareCmd = some id ∧ t.clk = s.clk ∧
      t.fget Reg.GAU_STAT Fld.GAU_STAT_STATE = 2 ∧ t.fget Reg.GAU_STAT Fld.GAU_STAT_TRIG = 3 ∧ t.tlc = s.tlc ∧ t.med = s.med) ∧
  (∀ (s : State) (id : Nat) (c : Cmd), s.CmdReady id 0x0A03 c → s.power = .bound →
    ∃ t, exec (.preparePowerLoss id) s = .next t ∧ s.Answered t id c stOK (s.reg Reg.GAU_SEQ).toNat
      (if s.energy.rcd.noImage then 0 else s.energy.rcd.total) [] ∧ Keeps s t (.regs :: doneParts)) ∧
  (∀ (s : State) (id : Nat) (c : Cmd), s.CmdReady id 0x0701 c → c.pkt.arg0 < 16 → c.pkt.flags % 8 = 1 → c.pkt.arg1 ≤ 4096 →
    s.shareSum c.pkt.arg0 c.pkt.arg1 ≤ 4096 →
    ∃ t, exec (.setReservation id) s = .next t ∧ t.fget (Reg.ADM_RESV c.pkt.arg0) Fld.ADM_RESV_SHARE = c.pkt.arg1 ∧
      t.fget (Reg.ADM_RESV c.pkt.arg0) Fld.ADM_RESV_LIMIT = s.fget (Reg.ADM_RESV c.pkt.arg0) Fld.ADM_RESV_LIMIT ∧
      (∀ n, n < 16 → n ≠ c.pkt.arg0 → t.reg (Reg.ADM_RESV n) = s.reg (Reg.ADM_RESV n)))) ∧
  (
  (∀ (s : State) (id : Nat) (c : Cmd), s.CmdReady id 0x0401 c →
    ∃ t, exec (.keyLoad id) s = .next t ∧ (∀ n, n ≠ c.pkt.keyidx → t.slot n = s.slot n) ∧ t.crypto.store = s.crypto.store ∧
      (∀ k, s.keyLoad c = .inr k → t.slot c.pkt.keyidx = { s.slot c.pkt.keyidx with state := 4 } ∧
        (tget t.cmds id).map (fun d => (d.running, d.work)) = some (true, [wKey c.pkt.keyidx])) ∧
      (∀ st, s.keyLoad c = .inl st → s.Answered t id c st 0 0 [] ∧ t.crypto = s.crypto)) ∧
  (∀ (s : State) (id : Nat) (c : Cmd), tget s.cmds id = some c → c.pkt.opcode = 0x0401 → c.running = true →
    c.work = [wKey c.pkt.keyidx] → s.cmdsRun = true →
    ∃ t, exec (.keyLoad id) s = .next t ∧ (∀ n, n ≠ c.pkt.keyidx → t.slot n = s.slot n) ∧
      (∀ k, (s.setSlot c.pkt.keyidx { s.slot c.pkt.keyidx with state := 0 }).keyLoad c = .inr k →
        t.slot c.pkt.keyidx = loadedSlot c.pkt.keyidx k (((s.slot c.pkt.keyidx).gen + 1) % 2 ^ 32) ∧
        tget t.crypto.store c.pkt.keyidx = some (KeyMat.of k) ∧ tget t.cmds id = none)) ∧
  (∀ (s : State) (id : Nat) (c : Cmd), s.CmdReady id 0x0403 c → s.retireCheck c.pkt.keyidx = none →
    ∃ t, exec (.keyRetire id) s = .next t ∧ t.slot c.pkt.keyidx = { s.slot c.pkt.keyidx with state := 2 } ∧
      (∀ n, n ≠ c.pkt.keyidx → t.slot n = s.slot n) ∧ tget t.crypto.retiring c.pkt.keyidx = some (some id) ∧ (tget t.cmds id).isSome = true) ∧
  (∀ (s : State) (id : Nat) (c : Cmd), s.CmdReady id 0x0C03 c → 16 ≤ c.pkt.arg0 → c.pkt.arg0 ≤ 63 → 1 ≤ c.pkt.arg1 → c.pkt.arg1 ≤ 2 ^ 32 →
    s.ratchet c.pkt.arg0 + c.pkt.arg1 < 2 ^ 64 →
    ∃ t, exec (.ratchetAdvance id) s = .next t ∧ t.ratchet c.pkt.arg0 = s.ratchet c.pkt.arg0 + c.pkt.arg1 ∧
      (∀ n, n ≠ c.pkt.arg0 → t.ratchet n = s.ratchet n) ∧ s.Answered t id c stOK (s.ratchet c.pkt.arg0 + c.pkt.arg1) 0 []))

/-- Sealing. SEAL_EXTENT that passes its checks, with no hint on its hanks and room in the map journal, enters a seal in progress over its hanks
and seals each; GET_SEAL_RECORD of a live seal answers its record; VERIFY_EXTENT starts a hash of a live seal's extent; RELEASE_SEAL with an
accepted enrolment token sets the owner, spends the token and appends its record.

Details of sealing are as in log 31.
(R288, R289, R290, R291, R299, R300, R301) -/
def Obligations.SealCommands : Prop :=
  (∀ (s : State) (id : Nat) (c : Cmd), s.CmdReady id 0x0501 c → s.sealCheck c.pkt = none → s.journalFull = false →
    (∀ i, i < c.pkt.arg1 → (s.hostEntry (s.ldBase c.pkt.ld + c.pkt.arg0 + i)).hint = false) →
    ∃ t j, exec (.sealExtent id) s = .next t ∧ tget t.seals.jobs s.seals.nextJob = some j ∧ j.cmd = id ∧ j.ld = c.pkt.ld ∧
      j.first = s.ldBase c.pkt.ld + c.pkt.arg0 ∧ j.count = c.pkt.arg1 ∧ j.label = c.pkt.arg2 ∧
      (∀ i, i < c.pkt.arg1 → (t.hostEntry (s.ldBase c.pkt.ld + c.pkt.arg0 + i)).isSealed = true) ∧ t.seals.ledger = s.seals.ledger) ∧
  (∀ (s : State) (id : Nat) (c : Cmd) (n : Nat) (v : LiveSeal), s.CmdReady id 0x0502 c → 256 ≤ c.pkt.buflen → c.pkt.flags.testBit 0 = true →
    c.pkt.arg0 < s.ldHanks c.pkt.ld →
    tfind s.seals.live (fun _ v => decide (v.first ≤ s.ldBase c.pkt.ld + c.pkt.arg0 ∧ s.ldBase c.pkt.ld + c.pkt.arg0 < v.first + v.count)) = some (n, v) →
    ∃ t, exec (.getSealRecord id) s = .next t ∧ s.Answered t id c stOK 0 1 (recordBytes v.rcd) ∧ Keeps s t (.regs :: doneParts)) ∧
  (∀ (s : State) (id : Nat) (c : Cmd) (v : LiveSeal), s.CmdReady id 0x0504 c → tget s.seals.live c.pkt.arg0 = some v →
    ∃ t, exec (.verifyExtent id) s = .next t ∧
      tget t.seals.verify id = some {
        cmd := id, ld := v.ld, key := 0, first := v.first, count := v.count, flags := 0, label := 0, ref := v.seq
        due := c.expiry.getD (s.bgDeadline 6), timed := c.expiry.isSome } ∧
      tget t.cmds id = some { c with running := true } ∧ t.seals.live = s.seals.live ∧ Frame s t [.seals, .cmds] []) ∧
  (∀ (s : State) (id : Nat) (c : Cmd), s.CmdReady id 0x0503 c → (tokenOf c.input).kind = 3 → s.ratchet 1 + 1 < 2 ^ 64 →
    ∃ t, exec (.releaseSeal id) s = .next t ∧ tget t.cmds id = none ∧
      (s.tokenCheck c (tokenOf c.input) = none → t.seals.owner = some (tokenOf c.input).newKey ∧ t.ratchet 1 = s.ratchet 1 + 1 ∧
        t.ledgerHead = max s.ledgerHead (if s.seqHeld then s.ratchet 0 else s.ratchet 0 + 1)) ∧
      (s.tokenCheck c (tokenOf c.input) ≠ none → t.seals.owner = s.seals.owner ∧ t.ratchet 1 = s.ratchet 1))

/-- Line commands. A range that fails a check answers it; once the map entries of its hanks stand, READ_VIA_RING answers, and the others end or wait
for what their lines still need. While working memory stores no error, a read gives what each line reads as, zeros for poison; lines that the pool
holds in a one-ply hank are overwritten there. A fence ends when nothing of its LD is left to wait for, and else brings its lines due.

A line command runs as one (log 14), and waits as in log 43.
(R382, R389) -/
def Obligations.LineCommands : Prop :=
  (∀ (s : State) (id st : Nat) (c : Cmd), s.CmdReady id 0x0204 c → s.readFrom c.pkt = .inr st →
    ∃ t, exec (.readViaRing id) s = .next t ∧ s.Answered t id c st 0 0 [] ∧ Keeps s t (.regs :: doneParts)) ∧
  (∀ (s : State) (id l : Nat) (c : Cmd), s.CmdReady id 0x0204 c → s.readFrom c.pkt = .inl l → s.badHanks l (c.pkt.buflen / 64) = [] →
    ∃ t, exec (.readViaRing id) s = .next t ∧ tget t.cmds id = none) ∧
  (∀ (s : State) (id l : Nat) (c : Cmd), s.CmdReady id 0x0204 c → s.readFrom c.pkt = .inl l → s.badHanks l (c.pkt.buflen / 64) = [] →
    (∀ i, i < c.pkt.buflen / 64 → s.readStop c.pkt.keyidx (l + i) = none) → s.wm.errs = [] →
    ∃ t, exec (.readViaRing id) s = .next t ∧
      s.Answered t id c (if ∀ i, i < c.pkt.buflen / 64 → (s.readNow (l + i)).2 = false then stOK else stPOISONED) (c.pkt.buflen / 64)
        ((List.range (c.pkt.buflen / 64)).filter fun i => (s.readNow (l + i)).2).length
        ((List.range (c.pkt.buflen / 64)).flatMap fun i => lineBytes (if (s.readNow (l + i)).2 then 0 else (s.readNow (l + i)).1)) ∧
      t.tlc = s.tlc ∧ t.med = s.med) ∧
  (∀ (s : State) (id l : Nat) (c : Cmd), s.CmdReady id 0x0202 c → s.lineCheck c.pkt.ld c.pkt.arg1 [c.pkt.arg0] = none →
    l = s.lineOfDpa c.pkt.ld c.pkt.arg0 → s.badHanks l c.pkt.arg1 = [] →
    ∃ t, exec (.fillLines id) s = .next t ∧ (∀ d, tget t.cmds id = some d → d.started = true ∧ d.work ≠ []) ∧
      ((∀ i, i < c.pkt.arg1 → s.overwrites c.pkt.keyidx (l + i) = true) → tget t.cmds id = none ∧
        ∀ i, i < c.pkt.arg1 → (t.poolGet (l + i)).map (fun q => (q.data, q.poison)) =
          some (lineOfBytes ((List.replicate 8 (le 8 c.pkt.arg2)).flatten), false))) ∧
  (∀ (s : State) (id l : Nat) (c : Cmd), s.CmdReady id 0x0205 c → c.pkt.buflen % 64 = 0 → s.lineCheck c.pkt.ld (c.pkt.buflen / 64) [c.pkt.arg0] = none →
    l = s.lineOfDpa c.pkt.ld c.pkt.arg0 → s.badHanks l (c.pkt.buflen / 64) = [] →
    ∃ t, exec (.writeViaRing id) s = .next t ∧ (∀ d, tget t.cmds id = some d → d.started = true ∧ d.work ≠ []) ∧
      ((∀ i, i < c.pkt.buflen / 64 → s.overwrites c.pkt.keyidx (l + i) = true) → tget t.cmds id = none ∧
        ∀ i, i < c.pkt.buflen / 64 → (t.poolGet (l + i)).map (fun q => (q.data, q.poison)) =
          some (lineOfBytes ((c.input.drop (64 * i)).take 64), false))) ∧
  (∀ (s : State) (id l m : Nat) (c : Cmd), s.CmdReady id 0x0201 c → c.pkt.arg0 + 64 * c.pkt.arg2 ≤ c.pkt.arg1 ∨ c.pkt.arg1 + 64 * c.pkt.arg2 ≤ c.pkt.arg0 →
    s.lineCheck c.pkt.ld c.pkt.arg2 [c.pkt.arg0, c.pkt.arg1] = none → l = s.lineOfDpa c.pkt.ld c.pkt.arg0 → m = s.lineOfDpa c.pkt.ld c.pkt.arg1 →
    s.badHanks l c.pkt.arg2 = [] → s.badHanks m c.pkt.arg2 = [] →
    ∃ t, exec (.copyLines id) s = .next t ∧ (∀ d, tget t.cmds id = some d → d.started = true ∧ d.work ≠ []) ∧
      ((∀ i, i < c.pkt.arg2 → s.readStop c.pkt.keyidx (l + i) = none ∧ s.overwrites c.pkt.keyidx (m + i) = true) → s.wm.errs = [] →
        tget t.cmds id = none ∧
        ∀ i, i < c.pkt.arg2 → (t.poolGet (m + i)).map (fun q => (q.data, q.poison)) = some (s.readNow (l + i)))) ∧
  (∀ (s : State) (id : Nat) (c : Cmd), s.CmdReady id 0x0203 c → s.writesComing c.pkt.ld c.accept = false → s.fenceLines c.pkt.ld c.accept = [] →
    ∃ t, exec (.persistFence id) s = .next t ∧ s.Answered t id c stOK 0 0 [] ∧ Keeps s t (.regs :: doneParts)) ∧
  (∀ (s : State) (id : Nat) (c : Cmd), s.CmdReady id 0x0203 c → s.writesComing c.pkt.ld c.accept = false → s.fenceLines c.pkt.ld c.accept ≠ [] →
    ∃ t, exec (.persistFence id) s = .next t ∧ tget t.cmds id = some { c with
        running := true, work := (s.fenceLines c.pkt.ld c.accept).eraseDups.map wLine, done := (s.fenceLines c.pkt.ld c.accept).eraseDups.length } ∧
      (∀ q ∈ t.tlc.pool, q.1 ∈ s.fenceLines c.pkt.ld c.accept → q.2.due ≤ c.expiry.getD (s.bgDeadline 3)) ∧ Keeps s t [.tlc, .cmds])

/-- The commands on hanks, whose first hank is MAPPED and not sealed, with room in the map journal: a hint discard marks it; a secure discard, a
zeroing and a binding begin their work on it, which the command waits for. A hint discard of one hank completes.

Progress hank by hank is as in log 14 and log 30.
(R152, R153, R154, R254, R385) -/
def Obligations.HankCommands : Prop :=
  ∀ (s : State) (id l : Nat) (c : Cmd), 0 < c.pkt.arg1 → c.done = 0 → s.hanksInLd c.pkt = true → l = s.ldBase c.pkt.ld + c.pkt.arg0 →
    s.sealedOrBusy l = false → s.journalFull = false → (s.hostEntry l).state = 1 →
    (s.CmdReady id 0x0301 c → s.isSecure c l = false →
      ∃ t, exec (.discard id) s = .next t ∧ (t.hostEntry l).hint = true ∧ (t.hostEntry l).state = 1 ∧
        (tget s.hanks.work l = none → tget t.hanks.work l = some .hint) ∧ (c.pkt.arg1 = 1 → tget t.cmds id = none)) ∧
    (s.CmdReady id 0x0301 c → s.isSecure c l = true →
      ∃ t, exec (.discard id) s = .next t ∧ (t.hostEntry l).state = 4 ∧ tget t.hanks.work l = some (.secure (some id))) ∧
    (s.CmdReady id 0x0302 c →
      ∃ t, exec (.zeroHanks id) s = .next t ∧ (t.hostEntry l).state = 3 ∧ (t.hostEntry l).key = (s.hostEntry l).key ∧
        tget t.hanks.work l = some (.zero (some id))) ∧
    (s.CmdReady id 0x0402 c → c.pkt.keyidx < 4096 → (s.slot c.pkt.keyidx).state = 1 → (s.hostEntry l).key ≠ c.pkt.keyidx → s.migOf false l = none →
      ∃ t, exec (.keyBind id) s = .next t ∧ (t.hostEntry l).state = 3 ∧ (t.hostEntry l).key = c.pkt.keyidx ∧
        tget t.hanks.work l = some (.zero (some id)))

/-- Ply commands. SET_PLY of hanks in no region asks the holder to open an area for the lowest free region; to one-ply it takes a whole region back,
and it frees an area that keeps no seal. GET_PLY_STATE answers the regions and areas of a link. RESYNC_PLY puts its region among the resyncs to
come, or answers that the link is down or the region OFF.

Chain commands. A walk is sent and takes this module's own entry at once; when its wait ends each address of its range has its slot, as far as the
buffer goes; a relay is sent to its address and waits, and one to this module goes to its inbox; CHAIN_STATUS answers this module's own entry, asks
another module for its own, or hands over the oldest messages of the inbox.

Edges of the chain commands are as in log 44.
(R322, R331, R338, R388, R390) -/
def Obligations.PlyAndChainCommands : Prop :=
  (
  (∀ (s : State) (id k r : Nat) (c : Cmd), s.CmdReady id 0x0601 c → s.journalFull = false → c.pkt.flags.testBit 0 = false → k < 2 →
    c.pkt.arg2 = k + 1 → (s.link k).setPly = none → s.hanksInLd c.pkt = true → s.linkUp k = true →
    s.regionMeets (s.ldBase c.pkt.ld + c.pkt.arg0) c.pkt.arg1 = false → s.anySealed (s.ldBase c.pkt.ld + c.pkt.arg0) c.pkt.arg1 = false →
    s.freeRegion k = some r →
    ∃ t, exec (.setPly id) s = .next t ∧ (t.link k).setPly = some (id, r, s.ldBase c.pkt.ld + c.pkt.arg0, c.pkt.arg1) ∧
      (∃ o ∈ (t.link k).ops, o.op = 1 ∧ o.region = r ∧ o.args = [c.pkt.arg1]) ∧ (tget t.cmds id).isSome = true ∧ t.hanks = s.hanks) ∧
  (∀ (s : State) (id k r : Nat) (c : Cmd), s.CmdReady id 0x0601 c → s.journalFull = false → c.pkt.flags.testBit 0 = false → c.pkt.arg2 = 0 →
    s.hanksInLd c.pkt = true → s.regionExact (s.ldBase c.pkt.ld + c.pkt.arg0) c.pkt.arg1 = some (k, r) →
    s.anySealed (s.ldBase c.pkt.ld + c.pkt.arg0) c.pkt.arg1 = false →
    ∃ t, exec (.setPly id) s = .next t ∧ tget t.cmds id = none ∧ t.region k r = (0, 0, 0) ∧
      ∀ i, i < c.pkt.arg1 → (t.hostEntry (s.ldBase c.pkt.ld + c.pkt.arg0 + i)).ply = 0) ∧
  (∀ (s : State) (id : Nat) (c : Cmd), s.CmdReady id 0x0601 c → s.journalFull = false → c.pkt.flags.testBit 0 = true → c.pkt.arg2 < 2 →
    c.pkt.arg3 < 16 → (s.area c.pkt.arg2 c.pkt.arg3).1 ≠ 0 → s.fget (Reg.PLK_AREA c.pkt.arg2 c.pkt.arg3) Fld.PLK_AREA_SEALS = 0 →
    ∃ t, exec (.setPly id) s = .next t ∧ tget t.cmds id = none ∧ (t.area c.pkt.arg2 c.pkt.arg3).1 = 0) ∧
  (∀ (s : State) (id : Nat) (c : Cmd), s.CmdReady id 0x0602 c → c.pkt.arg0 < 2 →
    ∃ t, exec (.getPlyState id) s = .next t ∧ s.Answered t id c stOK (s.reg (Reg.PLK_LINK c.pkt.arg0)).toNat
      (s.reg (Reg.PLK_SYNC c.pkt.arg0)).toNat (whenAsked c
        (((List.range 16).flatMap fun i => le 8 (s.reg (Reg.PLK_REGION c.pkt.arg0 i)).toNat) ++
          (List.range 16).flatMap fun i => le 8 (s.reg (Reg.PLK_AREA c.pkt.arg0 i)).toNat)) ∧ Keeps s t (.regs :: doneParts)) ∧
  (∀ (s : State) (id : Nat) (c : Cmd) (y : Sync), s.CmdReady id 0x0603 c → c.pkt.arg0 < 2 → c.pkt.arg1 < 16 → s.linkUp c.pkt.arg0 = true →
    (s.region c.pkt.arg0 c.pkt.arg1).1 ≠ 0 → (s.link c.pkt.arg0).sync = some y → 0 < y.step → y.step ≠ 2 →
    (16 + c.pkt.arg1) ∉ (s.link c.pkt.arg0).wantSync → c.pkt.arg1 ∉ (s.link c.pkt.arg0).wantSync →
    ∃ t, exec (.resyncPly id) s = .next t ∧ (t.link c.pkt.arg0).wantSync = (s.link c.pkt.arg0).wantSync ++
        [if c.pkt.flags.testBit 0 ∨ (s.region c.pkt.arg0 c.pkt.arg1).1 = 4 then 16 + c.pkt.arg1 else c.pkt.arg1] ∧ (tget t.cmds id).isSome = true) ∧
  (∀ (s : State) (id : Nat) (c : Cmd), s.CmdReady id 0x0603 c → c.pkt.arg0 < 2 → c.pkt.arg1 < 16 → s.linkUp c.pkt.arg0 = true →
    (s.region c.pkt.arg0 c.pkt.arg1).1 ≠ 0 →
    ∃ t, exec (.resyncPly id) s = .next t ∧ (tget t.cmds id).isSome = true ∧
      ((t.link c.pkt.arg0).sync.isSome = true ∨ (t.link c.pkt.arg0).wantSync ≠ [])) ∧
  (∀ (s : State) (id : Nat) (c : Cmd), s.CmdReady id 0x0603 c → c.pkt.arg0 < 2 → c.pkt.arg1 < 16 →
    (s.region c.pkt.arg0 c.pkt.arg1).1 = 0 ∨ s.linkUp c.pkt.arg0 = false →
    ∃ t, exec (.resyncPly id) s = .next t ∧
      s.Answered t id c (if (s.region c.pkt.arg0 c.pkt.arg1).1 = 0 then stRANGE else stPLY_DEGRADED) 0 0 [] ∧ Keeps s t (.regs :: doneParts))) ∧
  (
  (∀ (s : State) (id : Nat) (c : Cmd), s.CmdReady id 0x0B01 c → c.pkt.arg1 ≤ c.pkt.arg2 → c.pkt.arg2 < 16384 → 64 ≤ c.pkt.buflen →
    ∃ t, exec (.chainWalk id) s = .next t ∧
      tget t.chain.walks id = some { cmd := id, mid := s.chain.mid, kind := 1, dest := 0, replies := [(s.uaddr, s.statusData 16384)] } ∧
      t.chain.mid = (s.chain.mid + 1) % 4096 ∧ (tget t.cmds id).isSome = true) ∧
  (∀ (s : State) (id n : Nat) (c : Cmd) (w : Walk), tget s.chain.walks id = some w → tget s.cmds id = some c → w.kind = 1 →
    c.extra + walkWait c.pkt ≤ s.clk.now → n = walkLast c.pkt + 1 - c.pkt.arg1 →
    ∃ t, exec (.chainWalkWaitEnd id) s = .next t ∧ tget t.chain.walks id = none ∧
      s.Answered t id c (if walkLast c.pkt < c.pkt.arg2 then stPARTIAL else stOK) (if walkLast c.pkt < c.pkt.arg2 then walkLast c.pkt + 1 else 0)
        ((List.range n).filter fun i => (tget w.replies (c.pkt.arg1 + i)).isSome).length
        ((List.range n).flatMap fun i => (((tget w.replies (c.pkt.arg1 + i)).getD []) ++ List.replicate 64 0).take 64)) ∧
  (∀ (s : State) (id : Nat) (c : Cmd), s.CmdReady id 0x0B02 c → c.pkt.arg0 < 16384 → 0 < c.pkt.buflen → c.pkt.buflen ≤ 240 → c.pkt.buflen % 4 = 0 →
    c.pkt.arg0 ≠ s.uaddr →
    ∃ t, exec (.chainRelay id) s = .next t ∧
      tget t.chain.walks id = some { cmd := id, mid := s.chain.mid, kind := 4, dest := c.pkt.arg0, replies := [] } ∧
      (∀ k, k < 2 → s.linkUp k = true → ∃ p ∈ (t.link k).tx, p.body = .chain {
        mid := s.chain.mid, mclass := 4, bcast := false, isLocal := false, ttl := 16383, src := s.uaddr, dest := c.pkt.arg0, data := c.input })) ∧
  (∀ (s : State) (id : Nat) (c : Cmd), s.CmdReady id 0x0B02 c → c.pkt.arg0 < 16384 → 0 < c.pkt.buflen → c.pkt.buflen ≤ 240 → c.pkt.buflen % 4 = 0 →
    c.pkt.arg0 = s.uaddr → s.uaddrValid = true → (∀ w ∈ s.chain.walks, w.2.kind ≠ 4) →
    ∃ t, exec (.chainRelay id) s = .next t ∧
      s.Answered t id c (if s.chain.inbox.length < 64 then stOK else stBUSY) (if s.chain.inbox.length < 64 then 0 else 1) 0 [] ∧
      (s.chain.inbox.length < 64 → t.chain.inbox.length = s.chain.inbox.length + 1)) ∧
  (∀ (s : State) (id : Nat) (c : Cmd), s.CmdReady id 0x0B03 c → c.pkt.arg0 = 1 → c.pkt.arg1 < 16384 → c.pkt.arg1 ≠ s.uaddr →
    c.pkt.buflen = 0 ∨ 64 ≤ c.pkt.buflen →
    ∃ t, exec (.chainStatus id) s = .next t ∧
      tget t.chain.walks id = some { cmd := id, mid := s.chain.mid, kind := 2, dest := c.pkt.arg1, replies := [] } ∧ (tget t.cmds id).isSome = true ∧
      (∀ k, k < 2 → s.linkUp k = true → ∃ p ∈ (t.link k).tx, p.body = .chain {
        mid := s.chain.mid, mclass := 2, bcast := false, isLocal := false, ttl := 16383, src := s.uaddr, dest := c.pkt.arg1, data := [] })) ∧
  (∀ (s : State) (id : Nat) (c : Cmd), s.CmdReady id 0x0B03 c → c.pkt.arg0 = 2 → c.pkt.arg1 = 0 →
    ∃ t, exec (.chainStatus id) s = .next t ∧ t.chain.inbox = s.chain.inbox.drop (c.pkt.buflen / 256) ∧
      s.Answered t id c stOK (t.reg Reg.PLK_CHAIN).toNat (min (c.pkt.buflen / 256) s.chain.inbox.length)
        ((s.chain.inbox.take (c.pkt.buflen / 256)).flatMap inboxRecord)) ∧
  (∀ (s : State) (id : Nat) (c : Cmd), s.CmdReady id 0x0B03 c → c.pkt.arg0 = 0 → c.pkt.arg1 = 0 → c.pkt.buflen = 0 ∨ 64 ≤ c.pkt.buflen →
    ∃ t, exec (.chainStatus id) s = .next t ∧ s.Answered t id c stOK (s.reg Reg.PLK_CHAIN).toNat (if c.pkt.buflen = 0 then 0 else 1)
      (whenAsked c (s.statusData 16384)) ∧ Keeps s t (.regs :: doneParts)))

/-- Maintenance commands, whose scope stands and with no other under way. A clean with no dirty line in its scope completes at once, and so does an
invalidation that is not of the whole cache, which drops what its scope covers; with dirty lines, and for the whole cache, the command waits for
its operation. The scrubber's, refresh and migration settings take their values when they are in range, and are answered as they stand.

Stash and test commands. A stash read inside 2 MiB that touches nothing hidden answers its bytes; a record that the host may write is written and
answers its SEQ, the lane plan's under the next one. A fault is injected only on a ring that allows it, and answers the check it fails; injected,
it is handled at once or waited for. A self-test without items passes, one with items waits for them and ends with what they found.

Edges of the scope, of self-tests and of injected faults are as in log 42, log 46 and log 47; bytes of private Stash layouts are free (log 48).
(R182, R388, R391, R415, R418) -/
def Obligations.MaintenanceAndTestCommands : Prop :=
  (
  (∀ (s : State) (id : Nat) (c : Cmd), s.CmdReady id 0x0801 c → s.maintCheck c.pkt = none → s.tlc.maint = none →
    ∃ t, exec (.cacheClean id) s = .next t ∧ t.tlc.cache = s.tlc.cache ∧
      (if ∀ q ∈ s.tlc.pool, (s.maintOf 1 id c.pkt).covers q.1 = false then tget t.cmds id = none ∧ t.tlc.maint = none
        else (tget t.cmds id).isSome = true ∧ t.tlc.maint.map Maint.cmd = some (some id))) ∧
  (∀ (s : State) (id : Nat) (c : Cmd), s.CmdReady id 0x0802 c → s.maintCheck c.pkt = none → s.tlc.maint = none → c.pkt.arg0 ≠ 0 →
    ∃ t, exec (.cacheInvalidate id) s = .next t ∧ tget t.cmds id = none ∧ t.tlc.pool = s.tlc.pool ∧ t.tlc.maint = none ∧
      (c.pkt.arg0 = 2 → t.tlc.cache = tdel s.tlc.cache (16 * c.pkt.arg1 + c.pkt.arg2)) ∧
      (c.pkt.arg0 ≠ 2 → ∀ e ∈ t.tlc.cache, (s.maintOf 2 id c.pkt).covers e.2.line = false)) ∧
  (∀ (s : State) (id : Nat) (c : Cmd), s.CmdReady id 0x0802 c → s.tlc.maint = none → c.pkt.arg0 = 0 →
    ∃ t, exec (.cacheInvalidate id) s = .next t ∧ (tget t.cmds id).isSome = true ∧ t.tlc.pool = s.tlc.pool ∧
      t.tlc.maint.map (fun m => (m.cmd, m.inval)) = some (some id, true)) ∧
  (∀ (s : State) (id : Nat) (c : Cmd), s.CmdReady id 0x0803 c → s.maintCheck c.pkt = none → s.tlc.maint = none →
    (∀ q ∈ s.tlc.pool, (s.maintOf 3 id c.pkt).covers q.1 = false) → c.pkt.arg0 ≠ 0 →
    ∃ t, exec (.cacheCleanInvalidate id) s = .next t ∧ tget t.cmds id = none ∧ t.tlc.maint = none ∧
      (c.pkt.arg0 = 2 → t.tlc.cache = tdel s.tlc.cache (16 * c.pkt.arg1 + c.pkt.arg2)) ∧
      (c.pkt.arg0 ≠ 2 → ∀ e ∈ t.tlc.cache, (s.maintOf 3 id c.pkt).covers e.2.line = false)) ∧
  (∀ (s : State) (id : Nat) (c : Cmd), s.CmdReady id 0x0803 c → s.maintCheck c.pkt = none → s.tlc.maint = none →
    (∃ q ∈ s.tlc.pool, (s.maintOf 3 id c.pkt).covers q.1 = true) ∨ c.pkt.arg0 = 0 →
    ∃ t, exec (.cacheCleanInvalidate id) s = .next t ∧ (tget t.cmds id).isSome = true ∧ t.tlc.maint.map Maint.cmd = some (some id)) ∧
  (∀ (s : State) (id : Nat) (c : Cmd), s.CmdReady id 0x0804 c → c.pkt.arg0 ≤ 1 →
    ∃ t, exec (.scrubControl id) s = .next t ∧
      s.Answered t id c stOK (t.reg (if c.pkt.arg0 = 0 then Reg.WME_SCRUB_CTL else Reg.MCH_REFRESH)).toNat 0 [] ∧
      (c.pkt.arg1 % 2 = 0 → t.reg Reg.WME_SCRUB_CTL = s.reg Reg.WME_SCRUB_CTL ∧ t.reg Reg.MCH_REFRESH = s.reg Reg.MCH_REFRESH) ∧
      (c.pkt.arg0 = 1 → c.pkt.arg1 = 1 → 24 ≤ c.pkt.arg2 → c.pkt.arg2 ≤ 32 → s.rwsHeld = false →
        t.fget Reg.MCH_REFRESH Fld.MCH_REFRESH_REFRESH_AGE = c.pkt.arg2)) ∧
  (∀ (s : State) (id : Nat) (c : Cmd), s.CmdReady id 0x0804 c → c.pkt.arg0 = 0 → c.pkt.arg1 = 1 → 60 ≤ c.pkt.arg2 / 2 → c.pkt.arg2 / 2 ≤ 86400 →
    ∃ t, exec (.scrubControl id) s = .next t ∧ t.fget Reg.WME_SCRUB_CTL Fld.WME_SCRUB_CTL_EN = c.pkt.arg2 % 2 ∧
      t.fget Reg.WME_SCRUB_CTL Fld.WME_SCRUB_CTL_PERIOD = c.pkt.arg2 / 2 ∧ tget t.cmds id = none) ∧
  (∀ (s : State) (id : Nat) (c : Cmd), s.CmdReady id 0x0805 c →
    ∃ t, exec (.migrationControl id) s = .next t ∧ s.Answered t id c stOK (t.reg Reg.TLC_MIG_CTL).toNat 0 []) ∧
  (∀ (s : State) (id : Nat) (c : Cmd), s.CmdReady id 0x0805 c → c.pkt.arg0 = 1 → s.rwlLocked = false →
    256 ≤ getF (BitVec.ofNat 64 c.pkt.arg1) Fld.TLC_MIG_CTL_HEAT_THR →
    ∃ t, exec (.migrationControl id) s = .next t ∧
      t.fget Reg.TLC_MIG_CTL Fld.TLC_MIG_CTL_HEAT_THR = getF (BitVec.ofNat 64 c.pkt.arg1) Fld.TLC_MIG_CTL_HEAT_THR ∧
      t.fget Reg.TLC_MIG_CTL Fld.TLC_MIG_CTL_STATIC_DAYS = s.fget Reg.TLC_MIG_CTL Fld.TLC_MIG_CTL_STATIC_DAYS ∧ tget t.cmds id = none)) ∧
  (
  (∀ (s : State) (id : Nat) (c : Cmd), s.CmdReady id 0x0C01 c → c.pkt.arg0 % 8 = 0 → c.pkt.buflen % 8 = 0 → 0 < c.pkt.buflen →
    stashHidden c.pkt.arg0 c.pkt.buflen = false → c.pkt.arg0 + c.pkt.buflen ≤ 2 ^ 21 →
    ∃ t, exec (.stashRead id) s = .next t ∧ s.Answered t id c stOK 0 0 ((s.begun id c).stashBytes c.pkt.arg0 c.pkt.buflen).1 ∧
      t.plat.recs = s.plat.recs ∧ t.med = s.med ∧ t.tlc = s.tlc) ∧
  (∀ (s : State) (id n : Nat) (c : Cmd), s.CmdReady id 0x0C02 c → c.pkt.arg0 = 1 → hostRecordLen 1 = some n → c.pkt.buflen = n → ofBytes c.input < 2 →
    ∃ t, exec (.stashWrite id) s = .next t ∧ t.recSeq 1 = (s.recSeq 1 + 1) % 2 ^ 32 ∧ t.recBytes 1 = c.input ∧
      t.fget Reg.RDY_CASTON Fld.RDY_CASTON_PLAN = s.fget Reg.RDY_CASTON Fld.RDY_CASTON_PLAN ∧ tget t.cmds id = none) ∧
  (∀ (s : State) (id n : Nat) (c : Cmd), s.CmdReady id 0x0C02 c → hostRecordLen c.pkt.arg0 = some n → c.pkt.buflen = n →
    (c.pkt.arg0 = 1 → lanePlanOk c.input = true) → (c.pkt.arg0 = 2 → s.imageOk c.input = true) →
    ∃ t, exec (.stashWrite id) s = .next t ∧ s.Answered t id c stOK (t.recSeq c.pkt.arg0) 0 [] ∧ t.recBytes c.pkt.arg0 = c.input) ∧
  (∀ (s : State) (id : Nat) (c : Cmd), s.CmdReady id 0x0C02 c → hostRecordLen c.pkt.arg0 = none ∨ hostRecordLen c.pkt.arg0 ≠ some c.pkt.buflen →
    ∃ t, exec (.stashWrite id) s = .next t ∧ s.Answered t id c stBAD_PARAM 0 0 [] ∧ Keeps s t (.regs :: doneParts)) ∧
  (∀ (s : State) (id : Nat) (c : Cmd), s.CmdReady id 0x0D01 c → s.testEnabled c.carrier = true → s.adm.faults = [] → 1 ≤ c.pkt.arg0 →
    c.pkt.arg0 ≤ 8 → s.injectCheck c.pkt = none →
    ∃ t, exec (.injectFault id) s = .next t ∧ (tget t.cmds id).isSome = (c.pkt.arg0 == 2 || c.pkt.arg0 == 5 && (s.activeCore c.pkt.arg1).isSome) ∧
      (c.pkt.arg0 = 4 → t.engineState c.pkt.arg1 = 2) ∧ (c.pkt.arg0 = 7 → t.bankState c.pkt.arg1 = 5) ∧
      (c.pkt.arg0 = 8 → s.medKeyOf (s.lineOfDpa c.pkt.ld c.pkt.arg1) ∈ t.med.corrupt)) ∧
  (∀ (s : State) (id st : Nat) (c : Cmd), s.CmdReady id 0x0D01 c → s.testEnabled c.carrier = true → s.adm.faults = [] → 1 ≤ c.pkt.arg0 →
    c.pkt.arg0 ≤ 8 → s.injectCheck c.pkt = some st →
    ∃ t, exec (.injectFault id) s = .next t ∧ s.Answered t id c st 0 0 [] ∧ Keeps s t (.regs :: doneParts)) ∧
  (∀ (s : State) (id : Nat) (c : Cmd), s.CmdReady id 0x0D01 c → s.testEnabled c.carrier = true → s.adm.faults ≠ [] → 1 ≤ c.pkt.arg0 → c.pkt.arg0 ≤ 8 →
    ∃ t, exec (.injectFault id) s = .next t ∧ s.Answered t id c stBUSY 0 0 [] ∧ Keeps s t (.regs :: doneParts)) ∧
  (∀ (s : State) (id : Nat) (c : Cmd), s.CmdReady id 0x0D01 c → s.testEnabled c.carrier = false →
    ∃ t, exec (.injectFault id) s = .next t ∧ s.Answered t id c stAUTH_FAIL 0 0 [] ∧ Keeps s t (.regs :: doneParts)) ∧
  (∀ (s : State) (id : Nat) (c : Cmd), s.CmdReady id 0x0D01 c → s.testEnabled c.carrier = true → s.adm.faults = [] → c.pkt.arg0 = 6 → c.pkt.arg1 < 2 →
    s.linkUp c.pkt.arg1 = true →
    ∃ t, exec (.injectFault id) s = .next t ∧ t.linkUp c.pkt.arg1 = false ∧ t.fget (Reg.PLK_LINK c.pkt.arg1) Fld.PLK_LINK_CAUSE = 1 ∧
      tget t.cmds id = none) ∧
  (∀ (s : State) (id : Nat) (c : Cmd), s.CmdReady id 0x0D02 c → 1 ≤ c.pkt.arg0 → c.pkt.arg0 ≤ 5 → s.sameTest id c.pkt.arg0 = false →
    s.testReady c.pkt.arg0 = true →
    ∃ t, exec (.selfTest id) s = .next t ∧ (s.testItems c.pkt.arg0 = [] → s.Answered t id c stOK 0 0 []) ∧
      (s.testItems c.pkt.arg0 ≠ [] → (tget t.cmds id).map (fun d => (d.started, d.work)) = some (true, s.testItems c.pkt.arg0))) ∧
  (∀ (s : State) (id : Nat) (c : Cmd), s.CmdReady id 0x0D02 c → 1 ≤ c.pkt.arg0 → c.pkt.arg0 ≤ 5 →
    s.sameTest id c.pkt.arg0 = true ∨ s.testReady c.pkt.arg0 = false →
    ∃ t, exec (.selfTest id) s = .next t ∧ s.Answered t id c (if s.sameTest id c.pkt.arg0 = true then stBUSY else stNOT_READY) 0 0 [] ∧
      Keeps s t (.regs :: doneParts)) ∧
  (∀ (s : State) (k f n : Nat), k = 2 ∨ k = 4 →
    ∃ t, exec (.selfTestDone k f n) s = .next t ∧
      (∀ e ∈ s.cmds, e.2.running = true → e.2.work.contains (wOther (800000 + 1000 * k)) = true → tget t.cmds e.1 = none) ∧
      Keeps s t (.regs :: .adm :: doneParts)) ∧
  (∀ (s : State) (id k f n : Nat) (c : Cmd), k = 2 ∨ k = 4 → tget s.cmds id = some c →
    (tkeys s.cmds fun c => c.running && c.work.contains (wOther (800000 + 1000 * k))) = [id] →
    ∃ t, exec (.selfTestDone k f n) s = .next t ∧ s.Answered t id c stOK f n [] ∧ Keeps s t (.regs :: .adm :: doneParts)))

/-! ### Counting, registers, the platform -/

/-- The counters of the PMC: GEN starts and stops them all, CLEAR clears each of what it held as the tick
began, since the clear applies before the events of its tick, and a counter whose EN is 0 takes a preload, one whose
EN is 1 none. A length of the bandwidth windows in range discards the window in progress; a window that ends leaves its bytes and its number,
and what the boundary tick has counted stays for the new one.

The history. A record that leaves the ingest queue for an empty ring is written at the next RSEQ; one that repeats the newest is merged with
it. The flush stores the bins counted on chip, so that a read finds them; a read answers the words of the header, the blocks of
bins or the records that fit its buffer; a reset empties what it names, the bins naming its tick and the records leaving a marker.

The numbering at a flush and of markers is as in log 56.
(R396, R398, R402, R403, R404, R406) -/
def Obligations.CountersAndHistory : Prop :=
  (
  (∀ (s : State) (v : W64), getF v Fld.PMC_GCTL_CLEAR = 0 →
    ∃ t, exec (.pmcGen v) s = .next t ∧ t.fget Reg.PMC_GCTL Fld.PMC_GCTL_GEN = getF v Fld.PMC_GCTL_GEN ∧
      (∀ n, n < 8 → t.reg (Reg.PMC_CNT n) = s.reg (Reg.PMC_CNT n)) ∧ Frame s t [.hist] [Reg.PMC_GCTL]) ∧
  (∀ (s : State) (v : W64), ∃ t, exec (.pmcClear v) s = .next t ∧ t.fget Reg.PMC_GCTL Fld.PMC_GCTL_GEN = getF v Fld.PMC_GCTL_GEN ∧
    ∀ n, n < 8 → t.reg (Reg.PMC_CNT n) = s.reg (Reg.PMC_CNT n) - s.cntBefore n) ∧
  (∀ (s : State) (n : Nat) (v : W64), n < 8 → s.fget (Reg.PMC_CTL n) Fld.PMC_CTL_EN = 0 →
    exec (.pmcCntWrite n v) s = nextState ((s.setReg (Reg.PMC_CNT n) v).setBefore n v)) ∧
  (∀ (s : State) (n : Nat) (v : W64), s.fget (Reg.PMC_CTL n) Fld.PMC_CTL_EN = 1 → exec (.pmcCntWrite n v) s = nextState s) ∧
  (∀ (s : State) (v : W64), 1000 ≤ getF v Fld.PMC_BWW_CTL_LEN → getF v Fld.PMC_BWW_CTL_LEN ≤ 100000000 →
    ∃ t, exec (.bwwLenWrite v) s = .next t ∧ t.fget Reg.PMC_BWW_CTL Fld.PMC_BWW_CTL_LEN = getF v Fld.PMC_BWW_CTL_LEN ∧
      t.hist = { s.hist with winLive := false, bytes := List.replicate 6 0, bytes0 := List.replicate 6 0 } ∧ Frame s t [.hist] [Reg.PMC_BWW_CTL]) ∧
  (∀ s : State, s.power = .on → 0 < s.clk.now → s.clk.now % s.fget Reg.PMC_BWW_CTL Fld.PMC_BWW_CTL_LEN = 0 → s.hist.winLive = true →
    s.hist.winAt ≠ some s.clk.now →
    ∃ t, exec .bandwidthWindowEnd s = .next t ∧ t.hist = { s.hist with
        winAt := some s.clk.now, bytes0 := List.replicate 6 0, bytes := (List.range 6).map fun i => s.hist.bytes.getD i 0 - s.hist.bytes0.getD i 0 } ∧
      (∀ i, i < 6 → t.fget (Reg.PMC_BWW i) Fld.PMC_BWW_BYTES = s.hist.bytes0.getD i 0 % 2 ^ fwidth Fld.PMC_BWW_BYTES) ∧
      Frame s t [.hist] ((List.range 6).map Reg.PMC_BWW))) ∧
  (
  (∀ (s : State) (r : HistRec) (rest : List HistRec), s.power = .on → s.hist.ingest = r :: rest → s.recCount = 0 →
    ∃ t, exec .historyIngest s = .next t ∧ t.hist.ingest = rest ∧ tget t.hist.ring (s.recNext % 2432) = some { r with rseq := s.recNext } ∧
      t.recNext = (s.recNext + 1) % 2 ^ 32 ∧ t.recOldest = s.recOldest ∧ Frame s t [.hist] [Reg.HST_RSEQ]) ∧
  (∀ (s : State) (r old : HistRec) (rest : List HistRec), s.power = .on → s.hist.ingest = r :: rest → s.newestRec = some old → sameRec old r = true →
    ∃ t, exec .historyIngest s = .next t ∧ t.hist.ingest = rest ∧ t.recNext = s.recNext ∧
      tget t.hist.ring s.newestSlot = some { old with ev := { old.ev with rep := min (old.ev.rep + r.ev.rep) (2 ^ 32 - 1), last := r.ev.last } } ∧
      Frame s t [.hist] []) ∧
  (∀ s : State, s.power = .on → s.hist.dirty = true →
    ∃ t, exec .historyFlush s = .next t ∧ t.hist.bins = [] ∧ t.hist.dirty = false ∧ t.hist.flushes = s.hist.flushes + 1 ∧
      t.reg Reg.HST_SEQ = s.reg Reg.HST_SEQ + 2 ∧ t.hist.ring = s.hist.ring ∧ Frame s t [.hist] [Reg.HST_SEQ]) ∧
  (∀ (s : State) (id n : Nat) (c : Cmd), s.CmdReady id 0x0902 c → s.histDenied c = false → c.pkt.arg0 = 0 → c.pkt.arg1 % 8 = 0 → c.pkt.arg1 < 4096 →
    n = min (512 - c.pkt.arg1 / 8) (c.pkt.buflen / 8) →
    ∃ t, exec (.readHistory id) s = .next t ∧ s.Answered t id c (if n < 512 - c.pkt.arg1 / 8 then stPARTIAL else stOK) (c.pkt.arg1 + 8 * n) n
        ((List.range n).flatMap fun i => s.histHeader (c.pkt.arg1 / 8 + i)) ∧ Keeps s t (.regs :: doneParts)) ∧
  (∀ (s : State) (id n : Nat) (c : Cmd), s.CmdReady id 0x0902 c → s.histDenied c = false → c.pkt.arg0 = 1 → c.pkt.arg1 ≤ 127 →
    n = min (128 - c.pkt.arg1) (c.pkt.buflen / 264) →
    ∃ t, exec (.readHistory id) s = .next t ∧ s.Answered t id c (if n < 128 - c.pkt.arg1 then stPARTIAL else stOK) (c.pkt.arg1 + n) n
        ((List.range n).flatMap fun i => s.histBlock (c.pkt.arg1 + i)) ∧ Keeps s t (.regs :: doneParts)) ∧
  (∀ (s : State) (id n k : Nat) (c : Cmd), s.CmdReady id 0x0902 c → s.histDenied c = false → c.pkt.arg0 = 2 → c.pkt.arg1 < 2 ^ 32 →
    k = (c.pkt.arg1 + 2 ^ 32 - s.recOldest) % 2 ^ 32 → k ≤ s.recCount → n = min (s.recCount - k) (c.pkt.buflen / 64) →
    ∃ t, exec (.readHistory id) s = .next t ∧ s.Answered t id c (if n < s.recCount - k then stPARTIAL else stOK) ((c.pkt.arg1 + n) % 2 ^ 32) n
        ((List.range n).flatMap fun i => s.histRecord ((c.pkt.arg1 + i) % 2 ^ 32)) ∧ Keeps s t (.regs :: doneParts)) ∧
  (∀ (s : State) (id : Nat) (c : Cmd), s.CmdReady id 0x0902 c → s.histDenied c = true →
    ∃ t, exec (.readHistory id) s = .next t ∧ s.Answered t id c stAUTH_FAIL 0 0 [] ∧ Keeps s t (.regs :: doneParts)) ∧
  (∀ (s : State) (id : Nat) (c : Cmd), s.CmdReady id 0x0903 c → s.histDenied c = false → s.fget Reg.HST_CTL Fld.HST_CTL_NORESET = 0 →
    1 ≤ c.pkt.arg0 → c.pkt.arg0 < 8 →
    ∃ t, exec (.resetHistory id) s = .next t ∧ s.Answered t id c stOK 0 0 [] ∧ t.reg Reg.HST_SEQ = s.reg Reg.HST_SEQ + 2 ∧
      (if c.pkt.arg0.testBit 0 then t.hist.bins = [] ∧ t.hist.flushed = [] ∧ t.fget Reg.HST_STAT Fld.HST_STAT_INCOMPLETE = 0 else t.hist.bins = s.hist.bins) ∧
      t.hist.ext = (if c.pkt.arg0.testBit 1 then [] else s.hist.ext) ∧ (c.pkt.arg0.testBit 2 = false → t.hist.ring = s.hist.ring) ∧
      (c.pkt.arg0.testBit 2 = true → t.recCount = 1 ∧ t.recOldest = s.recNext)) ∧
  (∀ (s : State) (id : Nat) (c : Cmd), s.CmdReady id 0x0903 c → s.histDenied c = false → s.fget Reg.HST_CTL Fld.HST_CTL_NORESET = 0 →
    c.pkt.arg0 = 1 → 0 < s.hist.resetTick.length →
    ∃ t, exec (.resetHistory id) s = .next t ∧ t.hist.resetTick.getD 0 0 = s.clk.now))

/-- A reserved offset of BAR2/3, outside the Stash windows, reads as zero, and a write to it is ignored.
(R15) -/
def Obligations.ReservedOffsets : Prop :=
  ∀ (s : State) (ld off width : Nat) (v : W64), off < 2 ^ 24 → specOf (off / 8 * 8) = none → off < 0x100000 ∨ 0x340000 ≤ off →
    s.barRead ld off width = 0 ∧ exec (.registerWrite ld off width v) s = nextState s

/-- A register write that is not denied by PRIV, whole and aligned, has the effect of its register's own row; one that is misaligned, or of 32
bits to a counter or a time value, is ignored.

Once CONFIG_LOCK is set, no register write changes an RWL field of the register it is made to.

That a register write has its register's own row's effect, and what a misaligned one does, is as in log 20.
(R14, R18, R399) -/
def Obligations.RegisterWritesReachTheirRow : Prop :=
  (
  (∀ (s : State) (ld : Nat) (v : W64), exec (.registerWrite ld Reg.PWR_LIMIT 64 v) s = exec (.pwrLimitWrite v) s) ∧
  (∀ (s : State) (ld : Nat) (v : W64), exec (.registerWrite ld Reg.SEL_ARCHIVED 64 v) s = exec (.selArchivedWrite v) s) ∧
  (∀ (s : State) (ld n : Nat) (v : W64), n < 8 → exec (.registerWrite ld (Reg.CRG_CQ_HEAD n) 64 v) s = exec (.cqHeadWrite n v) s) ∧
  (∀ (s : State) (ld : Nat) (v : W64), getF v Fld.TLC_LFSR_STATE ≠ 0 →
    ∃ t, exec (.registerWrite ld Reg.TLC_LFSR 64 v) s = .next t ∧ t.fget Reg.TLC_LFSR Fld.TLC_LFSR_STATE = getF v Fld.TLC_LFSR_STATE ∧
      Frame s t [] [Reg.TLC_LFSR]) ∧
  (∀ (s : State) (ld k : Nat) (v : W64), k < 2 → s.rwsHeld = false →
    ∃ t, exec (.registerWrite ld (Reg.PLK_PIN k) 64 v) s = .next t ∧ t.reg (Reg.PLK_PIN k) = v ∧ Keeps s t [.regs, .plat]) ∧
  (∀ (s : State) (ld off width : Nat) (v : W64), off < 2 ^ 24 → width ≠ 32 → width ≠ 64 → exec (.registerWrite ld off width v) s = nextState s) ∧
  (∀ (s : State) (ld off : Nat) (v : W64), off < 2 ^ 24 → off % 8 ≠ 0 → exec (.registerWrite ld off 64 v) s = nextState s) ∧
  (∀ (s : State) (ld off : Nat) (v : W64), off < 2 ^ 24 → isWide (off / 8 * 8) = true → exec (.registerWrite ld off 32 v) s = nextState s)) ∧
  (
  ∀ (s t : State) (ld off width : Nat) (v : W64), s.rwlLocked = true → exec (.registerWrite ld off width v) s = .next t →
    t.reg (off / 8 * 8) &&& accMask (off / 8 * 8) (fun a => a == .rwl) = s.reg (off / 8 * 8) &&& accMask (off / 8 * 8) fun a => a == .rwl)

/-- Sensors. A sample leaves each sensor at its reading, a broken one at 150 °C; a sensor that fails its self-check is broken, and its zone's
free spare takes its place; it may be excluded once another of its zone is active. Cooled for 10 s a held cast-on goes on.

Power requests, power limit, SRAM tests, queue pointers, cores, powered life, free bitmap.

Counts of samples are as in log 45, cores and banks as in log 50, queue numbers as in log 51, the power reading is a free draw (log 53).
(R32, R33, R34, R427, R428, R429, R431, R434, R435, R440, R447, R453) -/
def Obligations.PlatformEvents : Prop :=
  (
  (∀ (s : State) (r : List Int) (k : Nat), s.power = .on → k < 58 → s.fget (Reg.THM_SENSOR k) Fld.THM_SENSOR_BROKEN = 0 →
    ∃ t, exec (.sensorSample r) s = .next t ∧ t.fget (Reg.THM_SENSOR k) Fld.THM_SENSOR_TEMP = word16 (r.getD k 25) ∧ t.tlc = s.tlc ∧ t.med = s.med) ∧
  (∀ (s : State) (k : Nat) (ok : Bool), s.power ≠ .none → k < 58 → s.fget (Reg.THM_SENSOR k) Fld.THM_SENSOR_BROKEN = 0 →
    s.fget (Reg.THM_ZONE (zoneOf k)) Fld.THM_ZONE_SPARE_USED = 1 →
    exec (.sensorSelfCheck k false ok) s = nextState ((s.fset (Reg.THM_SENSOR k) Fld.THM_SENSOR_BROKEN 1).fset (Reg.THM_SENSOR k)
      Fld.THM_SENSOR_TEMP 150)) ∧
  (∀ (s : State) (k sp : Nat), s.power ≠ .none → k < 58 → s.fget (Reg.THM_SENSOR k) Fld.THM_SENSOR_BROKEN = 0 →
    s.fget (Reg.THM_ZONE (zoneOf k)) Fld.THM_ZONE_SPARE_USED = 0 → s.fget (Reg.THM_ZONE (zoneOf k)) Fld.THM_ZONE_SPARE = sp → sp ≠ k → sp < 58 →
    s.fget (Reg.THM_SENSOR sp) Fld.THM_SENSOR_BROKEN = 0 →
    ∃ t, exec (.sensorSelfCheck k false true) s = .next t ∧ t.fget (Reg.THM_SENSOR sp) Fld.THM_SENSOR_ACTIVE = 1 ∧
      t.fget (Reg.THM_SENSOR sp) Fld.THM_SENSOR_REPLACES = k ∧ t.fget (Reg.THM_SENSOR k) Fld.THM_SENSOR_ACTIVE = 0 ∧
      t.fget (Reg.THM_ZONE (zoneOf k)) Fld.THM_ZONE_SPARE_USED = 1) ∧
  (∀ (s : State) (k : Nat) (v : W64), k < 58 → s.rwsHeld = false → s.exclOk k (getF v Fld.THM_SENSOR_EXCL) = true →
    ∃ t, exec (.sensorExclude k v) s = .next t ∧ t.fget (Reg.THM_SENSOR k) Fld.THM_SENSOR_EXCL = getF v Fld.THM_SENSOR_EXCL) ∧
  (∀ s : State, s.fget Reg.THM_AUTO_RESUME Fld.THM_AUTO_RESUME_EN = 1 → 10000 ≤ s.plat.belowCnt → s.plat.coldHold = true → s.power = .on →
    exec .thermalAutoResume s = nextState { s with plat := { s.plat with belowCnt := 0, coldHold := false } }) ∧
  (∀ s : State, s.fget Reg.THM_AUTO_RESUME Fld.THM_AUTO_RESUME_EN = 1 → 10000 ≤ s.plat.belowCnt → s.power = .bound → s.energy.trig = 4 →
    ∃ t, exec .thermalAutoResume s = .next t ∧ t.power = .on ∧ t.med.lines = s.med.lines)) ∧
  (
  (∀ (s : State) (v : W64), s.planB = false →
    exec (.pwrReqWrite v) s = nextState (s.fset Reg.PWR_REQ Fld.PWR_REQ_D11_OFF (getF v Fld.PWR_REQ_D11_OFF))) ∧
  (∀ (s : State) (v : W64), getF v Fld.PWR_LIMIT_SEL ≠ 3 → s.rwsHeld = false →
    ∃ t, exec (.pwrLimitWrite v) s = .next t ∧ t.fget Reg.PWR_LIMIT Fld.PWR_LIMIT_SEL = getF v Fld.PWR_LIMIT_SEL ∧
      t.fget Reg.PWR_LIMIT Fld.PWR_LIMIT_WATTS = limitWatts (getF v Fld.PWR_LIMIT_SEL)) ∧
  (∀ (s : State) (b : Nat) (m a : Bool), b < 8 → s.sramMasked b = true → s.sramRuns = true → s.testHeld = false →
    s.plat.sramRow.getD b 0 < sramWords b → b < s.plat.sramRow.length →
    ∃ t, exec (.sramTest b m a) s = .next t ∧ t.fget Reg.SRB_TEST_CTL Fld.SRB_TEST_CTL_BANK = b ∧
      (s.plat.sramRow.getD b 0 + 1 < sramWords b → t.plat.sramRow.getD b 0 = s.plat.sramRow.getD b 0 + 1) ∧
      t.fget (Reg.SRB_BANK b) Fld.SRB_BANK_SPARE_LEFT =
        s.fget (Reg.SRB_BANK b) Fld.SRB_BANK_SPARE_LEFT - (if a = true ∨ m = true then 0 else 1)) ∧
  (∀ (s : State) (q : Nat) (l : Log), s.power = .on → q < 4 → s.logs[q]? = some l → s.logs.length = 4 →
    ∃ t m rest, exec (.pointerMismatch q) s = .next t ∧ (t.logs[q]?).map Log.recs = some (m :: rest) ∧ m.cls = evGAP ∧
      m.rep = min (lostItems l.recs) (2 ^ 32 - 1) ∧ m.handle = l.nextHandle) ∧
  (∀ (s : State) (n : Nat), s.power = .on → 8 ≤ n → n < 16 → s.ringOn (n - 8) = true →
    ∃ t, exec (.pointerMismatch n) s = .next t ∧ t.fget (Reg.CRG_STAT (n - 8)) Fld.CRG_STAT_HALTED = 1 ∧
      t.fget (Reg.CRG_STAT (n - 8)) Fld.CRG_STAT_CAUSE = 5) ∧
  (∀ (s : State) (n sp : Nat), s.power = .on ∨ s.power = .bindoff ∨ s.power = .bound → s.plat.cores.getD n 2 = 0 →
    (List.range 4).find? (fun c => s.plat.cores.getD c 2 == 1) = some sp →
    ∃ t, exec (.coreHeartbeatTimeout n) s = .next t ∧ t.plat.cores = lset (lset s.plat.cores n 2) sp 3 ∧ t.plat.takeover = true) ∧
  (∀ (s : State) (n : Nat), s.power = .on ∨ s.power = .bindoff ∨ s.power = .bound → s.plat.cores.getD n 2 = 0 →
    (List.range 4).find? (fun c => s.plat.cores.getD c 2 == 1) = none →
    ∃ t, exec (.coreHeartbeatTimeout n) s = .next t ∧ t.plat.cores = lset s.plat.cores n 2 ∧ t.plat.takeover = s.plat.takeover) ∧
  (∀ s : State, s.plat.takeover = true →
    ∃ t, exec .coreTakeoverDone s = .next t ∧ t.plat.cores = s.plat.cores.map (fun c => if c = 3 then 0 else c) ∧ t.plat.takeover = false) ∧
  (∀ s : State, 78894000000000000 ≤ s.hanks.poweredTicks → s.plat.lifeEnd = false →
    ∃ t, exec .poweredLifeEnd s = .next t ∧ t.plat = { s.plat with lifeEnd := true } ∧ Keeps s t (eventParts ++ [.regs, .plat])) ∧
  (∀ s : State, s.hanks.fillRebuild = true → exec .freeBitmapRebuilt s = nextState { s with hanks := { s.hanks with fillRebuild := false } }))
end

