-- ==== Sys2Proof/Laws/Table.lean ====
section
/-! SUPPORT. Sparse tables: a read after a write, and the canonical form that every operation keeps. -/

namespace Sys2Proof.Machine

variable {α : Type}

@[simp] theorem tget_tput_same (t : Tbl α) (k : Nat) (v : α) : tget (tput t k v) k = some v := by
  induction t with
  | nil => simp [tput, tget]
  | cons e t ih =>
    obtain ⟨i, w⟩ := e
    unfold tput
    split
    · simp [tget]
    · split
      · simp [tget]
      · rename_i _ hne
        have : i ≠ k := fun h => hne h.symm
        simp [tget, this, ih]

theorem tget_tput_other (t : Tbl α) {k j : Nat} (v : α) (h : j ≠ k) : tget (tput t k v) j = tget t j := by
  induction t with
  | nil => simp [tput, tget, Ne.symm h]
  | cons e t ih =>
    obtain ⟨i, w⟩ := e
    unfold tput
    split
    · simp [tget, Ne.symm h]
    · split
      · rename_i _ hk
        subst hk
        simp [tget, Ne.symm h]
      · by_cases hij : i = j
        · simp [tget, hij]
        · simp [tget, hij, ih]

@[simp] theorem tget_tdel_same (t : Tbl α) (k : Nat) : tget (tdel t k) k = none := by
  induction t with
  | nil => rfl
  | cons e t ih =>
    obtain ⟨i, w⟩ := e
    by_cases h : i = k
    · simpa [tdel, h] using ih
    · simpa [tdel, h, tget] using ih

theorem tget_tdel_other (t : Tbl α) {k j : Nat} (h : j ≠ k) : tget (tdel t k) j = tget t j := by
  induction t with
  | nil => rfl
  | cons e t ih =>
    obtain ⟨i, w⟩ := e
    by_cases hi : i = k
    · simpa [tdel, hi, tget, Ne.symm h] using ih
    · by_cases hij : i = j
      · subst hij
        simp [tdel, hi, tget]
      · simpa [tdel, hi, tget, hij] using ih

theorem mem_tput {t : Tbl α} {k : Nat} {v : α} {e : Nat × α} (h : e ∈ tput t k v) : e = (k, v) ∨ e ∈ t := by
  induction t with
  | nil => simpa [tput] using h
  | cons a t ih =>
    obtain ⟨i, w⟩ := a
    unfold tput at h
    split at h
    · rcases List.mem_cons.1 h with h | h <;> simp [h]
    · split at h
      · rcases List.mem_cons.1 h with h | h <;> simp [h]
      · rcases List.mem_cons.1 h with h | h
        · simp [h]
        · rcases ih h with h | h <;> simp [h]

theorem tdel_sorted {t : Tbl α} (k : Nat) (h : TSorted t) : TSorted (tdel t k) := h.filter _

theorem tput_sorted {t : Tbl α} (k : Nat) (v : α) (h : TSorted t) : TSorted (tput t k v) := by
  induction t with
  | nil => simp [tput]
  | cons a t ih =>
    obtain ⟨i, w⟩ := a
    obtain ⟨hlt, hs⟩ := List.pairwise_cons.1 h
    unfold tput
    split
    · rename_i hki
      refine List.pairwise_cons.2 ⟨fun e he => ?_, h⟩
      rcases List.mem_cons.1 he with he | he
      · simp [he, hki]
      · exact Nat.lt_trans hki (hlt e he)
    · split
      · rename_i _ hk
        subst hk
        exact List.pairwise_cons.2 ⟨fun e he => hlt e he, hs⟩
      · refine List.pairwise_cons.2 ⟨fun e he => ?_, ih hs⟩
        rcases mem_tput he with he | he
        · subst he; dsimp only; omega
        · exact hlt e he

@[simp] theorem dget_dput_same [DecidableEq α] (d : Nat → α) (t : Tbl α) (k : Nat) (v : α) : dget d (dput d t k v) k = v := by
  unfold dget dput
  split
  · rename_i h; simp [h]
  · simp

theorem dget_dput_other [DecidableEq α] (d : Nat → α) (t : Tbl α) {k j : Nat} (v : α) (h : j ≠ k) : dget d (dput d t k v) j = dget d t j := by
  unfold dget dput
  split
  · rw [tget_tdel_other _ h]
  · rw [tget_tput_other _ _ h]

/-- A write keeps the canonical form. -/
theorem dput_canon [DecidableEq α] {d : Nat → α} {t : Tbl α} (k : Nat) (v : α) (h : TCanon d t) : TCanon d (dput d t k v) := by
  unfold dput
  split
  · exact ⟨tdel_sorted k h.1, fun e he => h.2 e (List.mem_filter.1 he).1⟩
  · rename_i hv
    refine ⟨tput_sorted k v h.1, fun e he => ?_⟩
    rcases mem_tput he with he | he
    · subst he; exact hv
    · exact h.2 e he

/-- Leaving entries out keeps the canonical form. -/
theorem filter_canon {d : Nat → α} {t : Tbl α} (p : Nat × α → Bool) (h : TCanon d t) : TCanon d (t.filter p) :=
  ⟨h.1.filter _, fun e he => h.2 e (List.mem_filter.1 he).1⟩

theorem nil_canon (d : Nat → α) : TCanon d ([] : Tbl α) := ⟨List.Pairwise.nil, fun _ h => nomatch h⟩

end Sys2Proof.Machine
end

