-- ==== Sys2Proof/Laws/Reg.lean ====
section
/-! SUPPORT. Fields and registers: a read after a write of the same field, of another field, of another register; the canonical form. -/

namespace Sys2Proof

/-- A field lies in a word of 64 bits. -/
abbrev Field.Fits (f : Field) : Prop := f.lo ≤ f.hi ∧ f.hi < 64

end Sys2Proof

namespace Sys2Proof.Machine

theorem getLsbD_maskF (f : Field) (i : Nat) : (maskF f).getLsbD i = (decide (i < 64) && decide (f.lo ≤ i) && decide (i < f.lo + fwidth f)) := by
  simp only [maskF, BitVec.getLsbD_ofNat, Nat.testBit_mul_two_pow, Nat.testBit_two_pow_sub_one]
  by_cases h1 : i < 64 <;> by_cases h2 : f.lo ≤ i <;> by_cases h3 : i < f.lo + fwidth f <;> simp [h1, h2, h3] <;> omega

/-- Bit `i` of a word with a field replaced. -/
theorem getLsbD_setF (w : W64) (f : Field) (v i : Nat) (hi : i < 64) :
    (setF w f v).getLsbD i = if f.lo ≤ i ∧ i < f.lo + fwidth f then v.testBit (i - f.lo) else w.getLsbD i := by
  simp only [setF, BitVec.getLsbD_or, BitVec.getLsbD_and, BitVec.getLsbD_not, getLsbD_maskF, BitVec.getLsbD_ofNat, Nat.testBit_mul_two_pow,
    Nat.testBit_mod_two_pow]
  by_cases h2 : f.lo ≤ i <;> by_cases h3 : i < f.lo + fwidth f <;> simp [hi, h2, h3] <;> omega

/-- Bit `i` of a field's value. -/
theorem testBit_getF (w : W64) (f : Field) (i : Nat) : (getF w f).testBit i = (decide (i < fwidth f) && w.getLsbD (f.lo + i)) := by
  simp [getF, Nat.testBit_mod_two_pow, Nat.testBit_div_two_pow, BitVec.getLsbD, Nat.add_comm]

/-- A field reads what was written, cut to its width. -/
theorem getF_setF_mod (w : W64) (f : Field) (v : Nat) (h : f.Fits) : getF (setF w f v) f = v % 2 ^ fwidth f := by
  apply Nat.eq_of_testBit_eq
  intro i
  rw [testBit_getF, Nat.testBit_mod_two_pow]
  by_cases hi : i < fwidth f
  · have : f.lo + i < 64 := by unfold fwidth at hi; omega
    simp [hi, getLsbD_setF _ _ _ _ this]
  · simp [hi]

theorem getF_setF_same (w : W64) (f : Field) (v : Nat) (h : f.Fits) (hv : v < 2 ^ fwidth f) : getF (setF w f v) f = v := by
  rw [getF_setF_mod w f v h, Nat.mod_eq_of_lt hv]

/-- Fields that share no bit do not disturb each other. -/
theorem getF_setF_apart (w : W64) (f g : Field) (v : Nat) (hg : g.Fits) (hf : f.Fits) (h : f.hi < g.lo ∨ g.hi < f.lo) :
    getF (setF w f v) g = getF w g := by
  apply Nat.eq_of_testBit_eq
  intro i
  rw [testBit_getF, testBit_getF]
  by_cases hi : i < fwidth g
  · have h64 : g.lo + i < 64 := by unfold fwidth at hi; omega
    have : ¬(f.lo ≤ g.lo + i ∧ g.lo + i < f.lo + fwidth f) := by unfold fwidth at hi ⊢; omega
    rw [getLsbD_setF _ _ _ _ h64, if_neg this]
  · simp [hi]

theorem getF_lt (w : W64) (f : Field) : getF w f < 2 ^ fwidth f := Nat.mod_lt _ (Nat.two_pow_pos _)

/-! ### Registers -/

variable (s : State) (off : Nat) (f : Field) (v : Nat)

@[simp] theorem State.reg_setReg_same (w : W64) : (s.setReg off w).reg off = w := dget_dput_same _ _ _ _

theorem State.reg_setReg_other {o : Nat} (w : W64) (h : o ≠ off) : (s.setReg off w).reg o = s.reg o := dget_dput_other _ _ _ h

@[simp] theorem State.reg_fset_same : (s.fset off f v).reg off = setF (s.reg off) f v := State.reg_setReg_same _ _ _

theorem State.reg_fset_other {o : Nat} (h : o ≠ off) : (s.fset off f v).reg o = s.reg o := State.reg_setReg_other _ _ _ h

theorem State.fget_fset_same (h : f.Fits) (hv : v < 2 ^ fwidth f) : (s.fset off f v).fget off f = v := by
  simp [State.fget, getF_setF_same _ _ _ h hv]

theorem State.fget_fset_mod (h : f.Fits) : (s.fset off f v).fget off f = v % 2 ^ fwidth f := by
  simp [State.fget, getF_setF_mod _ _ _ h]

theorem State.fget_fset_apart {g : Field} (hg : g.Fits) (hf : f.Fits) (h : f.hi < g.lo ∨ g.hi < f.lo) :
    (s.fset off f v).fget off g = s.fget off g := by
  simp [State.fget, getF_setF_apart _ _ _ _ hg hf h]

theorem State.fget_fset_other {o : Nat} {g : Field} (h : o ≠ off) : (s.fset off f v).fget o g = s.fget o g := by
  simp [State.fget, State.reg_fset_other _ _ _ _ h]

theorem State.fget_fsetSat_same (h : f.Fits) : (s.fsetSat off f v).fget off f = min v (2 ^ fwidth f - 1) :=
  State.fget_fset_same _ _ _ _ h (by have := Nat.two_pow_pos (fwidth f); omega)

/-- What reads a register through its table only sees the table. -/
theorem State.reg_congr {s t : State} (h : t.regs = s.regs) : t.reg off = s.reg off := by unfold State.reg; rw [h]

theorem State.fget_congr {s t : State} (h : t.regs = s.regs) : t.fget off f = s.fget off f := by unfold State.fget; rw [State.reg_congr _ h]

/-- A write of a register keeps the registers' canonical form. -/
theorem State.setReg_regs_canon {s : State} (w : W64) (h : TCanon regReset s.regs) : TCanon regReset (s.setReg off w).regs := dput_canon _ _ h

/-- A write of a stored line keeps the medium's canonical form. -/
theorem State.medPut_canon {s : State} (phn st d j : Nat) (x : Stored) (h : TCanon s.med.blank s.med.lines) :
    TCanon s.med.blank (s.medPut phn st d j x).med.lines := dput_canon _ _ h

end Sys2Proof.Machine
end

