-- ==== Sys2Proof/Laws/State.lean ====
section
/-! SUPPORT. What each shared update leaves in each field of State, one lemma for each field: no proof unfolds a record update. -/

namespace Sys2Proof.Machine

variable (s : State) (off id k w : Nat) (f : Field) (v : Nat)

/-! ### A register -/

@[simp] theorem State.setReg_pending (x : W64) : (s.setReg off x).pending = s.pending := rfl
@[simp] theorem State.setReg_outbox (x : W64) : (s.setReg off x).outbox = s.outbox := rfl
@[simp] theorem State.setReg_freeCtr (x : W64) : (s.setReg off x).freeCtr = s.freeCtr := rfl
@[simp] theorem State.setReg_hwSet (x : W64) : (s.setReg off x).hwSet = s.hwSet := rfl
@[simp] theorem State.setReg_power (x : W64) : (s.setReg off x).power = s.power := rfl
@[simp] theorem State.setReg_clk (x : W64) : (s.setReg off x).clk = s.clk := rfl
@[simp] theorem State.setReg_adm (x : W64) : (s.setReg off x).adm = s.adm := rfl
@[simp] theorem State.setReg_hanks (x : W64) : (s.setReg off x).hanks = s.hanks := rfl
@[simp] theorem State.setReg_med (x : W64) : (s.setReg off x).med = s.med := rfl
@[simp] theorem State.setReg_crypto (x : W64) : (s.setReg off x).crypto = s.crypto := rfl
@[simp] theorem State.setReg_tlc (x : W64) : (s.setReg off x).tlc = s.tlc := rfl
@[simp] theorem State.setReg_wm (x : W64) : (s.setReg off x).wm = s.wm := rfl
@[simp] theorem State.setReg_energy (x : W64) : (s.setReg off x).energy = s.energy := rfl
@[simp] theorem State.setReg_cast (x : W64) : (s.setReg off x).cast = s.cast := rfl
@[simp] theorem State.setReg_linkA (x : W64) : (s.setReg off x).linkA = s.linkA := rfl
@[simp] theorem State.setReg_linkB (x : W64) : (s.setReg off x).linkB = s.linkB := rfl
@[simp] theorem State.setReg_chain (x : W64) : (s.setReg off x).chain = s.chain := rfl
@[simp] theorem State.setReg_cxl (x : W64) : (s.setReg off x).cxl = s.cxl := rfl
@[simp] theorem State.setReg_rings (x : W64) : (s.setReg off x).rings = s.rings := rfl
@[simp] theorem State.setReg_cmds (x : W64) : (s.setReg off x).cmds = s.cmds := rfl
@[simp] theorem State.setReg_nextCmd (x : W64) : (s.setReg off x).nextCmd = s.nextCmd := rfl
@[simp] theorem State.setReg_seals (x : W64) : (s.setReg off x).seals = s.seals := rfl
@[simp] theorem State.setReg_logs (x : W64) : (s.setReg off x).logs = s.logs := rfl
@[simp] theorem State.setReg_hist (x : W64) : (s.setReg off x).hist = s.hist := rfl
@[simp] theorem State.setReg_plat (x : W64) : (s.setReg off x).plat = s.plat := rfl

/-! ### A field -/

@[simp] theorem State.fset_pending : (s.fset off f v).pending = s.pending := rfl
@[simp] theorem State.fset_outbox : (s.fset off f v).outbox = s.outbox := rfl
@[simp] theorem State.fset_freeCtr : (s.fset off f v).freeCtr = s.freeCtr := rfl
@[simp] theorem State.fset_hwSet : (s.fset off f v).hwSet = s.hwSet := rfl
@[simp] theorem State.fset_power : (s.fset off f v).power = s.power := rfl
@[simp] theorem State.fset_clk : (s.fset off f v).clk = s.clk := rfl
@[simp] theorem State.fset_adm : (s.fset off f v).adm = s.adm := rfl
@[simp] theorem State.fset_hanks : (s.fset off f v).hanks = s.hanks := rfl
@[simp] theorem State.fset_med : (s.fset off f v).med = s.med := rfl
@[simp] theorem State.fset_crypto : (s.fset off f v).crypto = s.crypto := rfl
@[simp] theorem State.fset_tlc : (s.fset off f v).tlc = s.tlc := rfl
@[simp] theorem State.fset_wm : (s.fset off f v).wm = s.wm := rfl
@[simp] theorem State.fset_energy : (s.fset off f v).energy = s.energy := rfl
@[simp] theorem State.fset_cast : (s.fset off f v).cast = s.cast := rfl
@[simp] theorem State.fset_linkA : (s.fset off f v).linkA = s.linkA := rfl
@[simp] theorem State.fset_linkB : (s.fset off f v).linkB = s.linkB := rfl
@[simp] theorem State.fset_chain : (s.fset off f v).chain = s.chain := rfl
@[simp] theorem State.fset_cxl : (s.fset off f v).cxl = s.cxl := rfl
@[simp] theorem State.fset_rings : (s.fset off f v).rings = s.rings := rfl
@[simp] theorem State.fset_cmds : (s.fset off f v).cmds = s.cmds := rfl
@[simp] theorem State.fset_nextCmd : (s.fset off f v).nextCmd = s.nextCmd := rfl
@[simp] theorem State.fset_seals : (s.fset off f v).seals = s.seals := rfl
@[simp] theorem State.fset_logs : (s.fset off f v).logs = s.logs := rfl
@[simp] theorem State.fset_hist : (s.fset off f v).hist = s.hist := rfl
@[simp] theorem State.fset_plat : (s.fset off f v).plat = s.plat := rfl

/-! ### A saturating field -/

@[simp] theorem State.fsetSat_pending : (s.fsetSat off f v).pending = s.pending := rfl
@[simp] theorem State.fsetSat_outbox : (s.fsetSat off f v).outbox = s.outbox := rfl
@[simp] theorem State.fsetSat_freeCtr : (s.fsetSat off f v).freeCtr = s.freeCtr := rfl
@[simp] theorem State.fsetSat_hwSet : (s.fsetSat off f v).hwSet = s.hwSet := rfl
@[simp] theorem State.fsetSat_power : (s.fsetSat off f v).power = s.power := rfl
@[simp] theorem State.fsetSat_clk : (s.fsetSat off f v).clk = s.clk := rfl
@[simp] theorem State.fsetSat_adm : (s.fsetSat off f v).adm = s.adm := rfl
@[simp] theorem State.fsetSat_hanks : (s.fsetSat off f v).hanks = s.hanks := rfl
@[simp] theorem State.fsetSat_med : (s.fsetSat off f v).med = s.med := rfl
@[simp] theorem State.fsetSat_crypto : (s.fsetSat off f v).crypto = s.crypto := rfl
@[simp] theorem State.fsetSat_tlc : (s.fsetSat off f v).tlc = s.tlc := rfl
@[simp] theorem State.fsetSat_wm : (s.fsetSat off f v).wm = s.wm := rfl
@[simp] theorem State.fsetSat_energy : (s.fsetSat off f v).energy = s.energy := rfl
@[simp] theorem State.fsetSat_cast : (s.fsetSat off f v).cast = s.cast := rfl
@[simp] theorem State.fsetSat_linkA : (s.fsetSat off f v).linkA = s.linkA := rfl
@[simp] theorem State.fsetSat_linkB : (s.fsetSat off f v).linkB = s.linkB := rfl
@[simp] theorem State.fsetSat_chain : (s.fsetSat off f v).chain = s.chain := rfl
@[simp] theorem State.fsetSat_cxl : (s.fsetSat off f v).cxl = s.cxl := rfl
@[simp] theorem State.fsetSat_rings : (s.fsetSat off f v).rings = s.rings := rfl
@[simp] theorem State.fsetSat_cmds : (s.fsetSat off f v).cmds = s.cmds := rfl
@[simp] theorem State.fsetSat_nextCmd : (s.fsetSat off f v).nextCmd = s.nextCmd := rfl
@[simp] theorem State.fsetSat_seals : (s.fsetSat off f v).seals = s.seals := rfl
@[simp] theorem State.fsetSat_logs : (s.fsetSat off f v).logs = s.logs := rfl
@[simp] theorem State.fsetSat_hist : (s.fsetSat off f v).hist = s.hist := rfl
@[simp] theorem State.fsetSat_plat : (s.fsetSat off f v).plat = s.plat := rfl

/-! ### A count -/

@[simp] theorem State.fadd_pending : (s.fadd off f v).pending = s.pending := rfl
@[simp] theorem State.fadd_outbox : (s.fadd off f v).outbox = s.outbox := rfl
@[simp] theorem State.fadd_freeCtr : (s.fadd off f v).freeCtr = s.freeCtr := rfl
@[simp] theorem State.fadd_hwSet : (s.fadd off f v).hwSet = s.hwSet := rfl
@[simp] theorem State.fadd_power : (s.fadd off f v).power = s.power := rfl
@[simp] theorem State.fadd_clk : (s.fadd off f v).clk = s.clk := rfl
@[simp] theorem State.fadd_adm : (s.fadd off f v).adm = s.adm := rfl
@[simp] theorem State.fadd_hanks : (s.fadd off f v).hanks = s.hanks := rfl
@[simp] theorem State.fadd_med : (s.fadd off f v).med = s.med := rfl
@[simp] theorem State.fadd_crypto : (s.fadd off f v).crypto = s.crypto := rfl
@[simp] theorem State.fadd_tlc : (s.fadd off f v).tlc = s.tlc := rfl
@[simp] theorem State.fadd_wm : (s.fadd off f v).wm = s.wm := rfl
@[simp] theorem State.fadd_energy : (s.fadd off f v).energy = s.energy := rfl
@[simp] theorem State.fadd_cast : (s.fadd off f v).cast = s.cast := rfl
@[simp] theorem State.fadd_linkA : (s.fadd off f v).linkA = s.linkA := rfl
@[simp] theorem State.fadd_linkB : (s.fadd off f v).linkB = s.linkB := rfl
@[simp] theorem State.fadd_chain : (s.fadd off f v).chain = s.chain := rfl
@[simp] theorem State.fadd_cxl : (s.fadd off f v).cxl = s.cxl := rfl
@[simp] theorem State.fadd_rings : (s.fadd off f v).rings = s.rings := rfl
@[simp] theorem State.fadd_cmds : (s.fadd off f v).cmds = s.cmds := rfl
@[simp] theorem State.fadd_nextCmd : (s.fadd off f v).nextCmd = s.nextCmd := rfl
@[simp] theorem State.fadd_seals : (s.fadd off f v).seals = s.seals := rfl
@[simp] theorem State.fadd_logs : (s.fadd off f v).logs = s.logs := rfl
@[simp] theorem State.fadd_hist : (s.fadd off f v).hist = s.hist := rfl
@[simp] theorem State.fadd_plat : (s.fadd off f v).plat = s.plat := rfl

/-! ### A bit of a field -/

@[simp] theorem State.fsetBit_pending (b : Nat) (x : Bool) : (s.fsetBit off f b x).pending = s.pending := by unfold State.fsetBit; dsimp only; split <;> rfl
@[simp] theorem State.fsetBit_outbox (b : Nat) (x : Bool) : (s.fsetBit off f b x).outbox = s.outbox := by unfold State.fsetBit; dsimp only; split <;> rfl
@[simp] theorem State.fsetBit_freeCtr (b : Nat) (x : Bool) : (s.fsetBit off f b x).freeCtr = s.freeCtr := by unfold State.fsetBit; dsimp only; split <;> rfl
@[simp] theorem State.fsetBit_hwSet (b : Nat) (x : Bool) : (s.fsetBit off f b x).hwSet = s.hwSet := by unfold State.fsetBit; dsimp only; split <;> rfl
@[simp] theorem State.fsetBit_power (b : Nat) (x : Bool) : (s.fsetBit off f b x).power = s.power := by unfold State.fsetBit; dsimp only; split <;> rfl
@[simp] theorem State.fsetBit_clk (b : Nat) (x : Bool) : (s.fsetBit off f b x).clk = s.clk := by unfold State.fsetBit; dsimp only; split <;> rfl
@[simp] theorem State.fsetBit_adm (b : Nat) (x : Bool) : (s.fsetBit off f b x).adm = s.adm := by unfold State.fsetBit; dsimp only; split <;> rfl
@[simp] theorem State.fsetBit_hanks (b : Nat) (x : Bool) : (s.fsetBit off f b x).hanks = s.hanks := by unfold State.fsetBit; dsimp only; split <;> rfl
@[simp] theorem State.fsetBit_med (b : Nat) (x : Bool) : (s.fsetBit off f b x).med = s.med := by unfold State.fsetBit; dsimp only; split <;> rfl
@[simp] theorem State.fsetBit_crypto (b : Nat) (x : Bool) : (s.fsetBit off f b x).crypto = s.crypto := by unfold State.fsetBit; dsimp only; split <;> rfl
@[simp] theorem State.fsetBit_tlc (b : Nat) (x : Bool) : (s.fsetBit off f b x).tlc = s.tlc := by unfold State.fsetBit; dsimp only; split <;> rfl
@[simp] theorem State.fsetBit_wm (b : Nat) (x : Bool) : (s.fsetBit off f b x).wm = s.wm := by unfold State.fsetBit; dsimp only; split <;> rfl
@[simp] theorem State.fsetBit_energy (b : Nat) (x : Bool) : (s.fsetBit off f b x).energy = s.energy := by unfold State.fsetBit; dsimp only; split <;> rfl
@[simp] theorem State.fsetBit_cast (b : Nat) (x : Bool) : (s.fsetBit off f b x).cast = s.cast := by unfold State.fsetBit; dsimp only; split <;> rfl
@[simp] theorem State.fsetBit_linkA (b : Nat) (x : Bool) : (s.fsetBit off f b x).linkA = s.linkA := by unfold State.fsetBit; dsimp only; split <;> rfl
@[simp] theorem State.fsetBit_linkB (b : Nat) (x : Bool) : (s.fsetBit off f b x).linkB = s.linkB := by unfold State.fsetBit; dsimp only; split <;> rfl
@[simp] theorem State.fsetBit_chain (b : Nat) (x : Bool) : (s.fsetBit off f b x).chain = s.chain := by unfold State.fsetBit; dsimp only; split <;> rfl
@[simp] theorem State.fsetBit_cxl (b : Nat) (x : Bool) : (s.fsetBit off f b x).cxl = s.cxl := by unfold State.fsetBit; dsimp only; split <;> rfl
@[simp] theorem State.fsetBit_rings (b : Nat) (x : Bool) : (s.fsetBit off f b x).rings = s.rings := by unfold State.fsetBit; dsimp only; split <;> rfl
@[simp] theorem State.fsetBit_cmds (b : Nat) (x : Bool) : (s.fsetBit off f b x).cmds = s.cmds := by unfold State.fsetBit; dsimp only; split <;> rfl
@[simp] theorem State.fsetBit_nextCmd (b : Nat) (x : Bool) : (s.fsetBit off f b x).nextCmd = s.nextCmd := by unfold State.fsetBit; dsimp only; split <;> rfl
@[simp] theorem State.fsetBit_seals (b : Nat) (x : Bool) : (s.fsetBit off f b x).seals = s.seals := by unfold State.fsetBit; dsimp only; split <;> rfl
@[simp] theorem State.fsetBit_logs (b : Nat) (x : Bool) : (s.fsetBit off f b x).logs = s.logs := by unfold State.fsetBit; dsimp only; split <;> rfl
@[simp] theorem State.fsetBit_hist (b : Nat) (x : Bool) : (s.fsetBit off f b x).hist = s.hist := by unfold State.fsetBit; dsimp only; split <;> rfl
@[simp] theorem State.fsetBit_plat (b : Nat) (x : Bool) : (s.fsetBit off f b x).plat = s.plat := by unfold State.fsetBit; dsimp only; split <;> rfl

/-! ### Something sent -/

@[simp] theorem State.out_pending (o : Out) : (s.out o).pending = s.pending := rfl
@[simp] theorem State.out_freeCtr (o : Out) : (s.out o).freeCtr = s.freeCtr := rfl
@[simp] theorem State.out_regs (o : Out) : (s.out o).regs = s.regs := rfl
@[simp] theorem State.out_hwSet (o : Out) : (s.out o).hwSet = s.hwSet := rfl
@[simp] theorem State.out_power (o : Out) : (s.out o).power = s.power := rfl
@[simp] theorem State.out_clk (o : Out) : (s.out o).clk = s.clk := rfl
@[simp] theorem State.out_adm (o : Out) : (s.out o).adm = s.adm := rfl
@[simp] theorem State.out_hanks (o : Out) : (s.out o).hanks = s.hanks := rfl
@[simp] theorem State.out_med (o : Out) : (s.out o).med = s.med := rfl
@[simp] theorem State.out_crypto (o : Out) : (s.out o).crypto = s.crypto := rfl
@[simp] theorem State.out_tlc (o : Out) : (s.out o).tlc = s.tlc := rfl
@[simp] theorem State.out_wm (o : Out) : (s.out o).wm = s.wm := rfl
@[simp] theorem State.out_energy (o : Out) : (s.out o).energy = s.energy := rfl
@[simp] theorem State.out_cast (o : Out) : (s.out o).cast = s.cast := rfl
@[simp] theorem State.out_linkA (o : Out) : (s.out o).linkA = s.linkA := rfl
@[simp] theorem State.out_linkB (o : Out) : (s.out o).linkB = s.linkB := rfl
@[simp] theorem State.out_chain (o : Out) : (s.out o).chain = s.chain := rfl
@[simp] theorem State.out_cxl (o : Out) : (s.out o).cxl = s.cxl := rfl
@[simp] theorem State.out_rings (o : Out) : (s.out o).rings = s.rings := rfl
@[simp] theorem State.out_cmds (o : Out) : (s.out o).cmds = s.cmds := rfl
@[simp] theorem State.out_nextCmd (o : Out) : (s.out o).nextCmd = s.nextCmd := rfl
@[simp] theorem State.out_seals (o : Out) : (s.out o).seals = s.seals := rfl
@[simp] theorem State.out_logs (o : Out) : (s.out o).logs = s.logs := rfl
@[simp] theorem State.out_hist (o : Out) : (s.out o).hist = s.hist := rfl
@[simp] theorem State.out_plat (o : Out) : (s.out o).plat = s.plat := rfl

@[simp] theorem State.out_outbox (o : Out) : (s.out o).outbox = o :: s.outbox := rfl

/-! ### A free value drawn -/

@[simp] theorem State.draw_pending : ((s.draw w).2).pending = s.pending := rfl
@[simp] theorem State.draw_outbox : ((s.draw w).2).outbox = s.outbox := rfl
@[simp] theorem State.draw_regs : ((s.draw w).2).regs = s.regs := rfl
@[simp] theorem State.draw_hwSet : ((s.draw w).2).hwSet = s.hwSet := rfl
@[simp] theorem State.draw_power : ((s.draw w).2).power = s.power := rfl
@[simp] theorem State.draw_clk : ((s.draw w).2).clk = s.clk := rfl
@[simp] theorem State.draw_adm : ((s.draw w).2).adm = s.adm := rfl
@[simp] theorem State.draw_hanks : ((s.draw w).2).hanks = s.hanks := rfl
@[simp] theorem State.draw_med : ((s.draw w).2).med = s.med := rfl
@[simp] theorem State.draw_crypto : ((s.draw w).2).crypto = s.crypto := rfl
@[simp] theorem State.draw_tlc : ((s.draw w).2).tlc = s.tlc := rfl
@[simp] theorem State.draw_wm : ((s.draw w).2).wm = s.wm := rfl
@[simp] theorem State.draw_energy : ((s.draw w).2).energy = s.energy := rfl
@[simp] theorem State.draw_cast : ((s.draw w).2).cast = s.cast := rfl
@[simp] theorem State.draw_linkA : ((s.draw w).2).linkA = s.linkA := rfl
@[simp] theorem State.draw_linkB : ((s.draw w).2).linkB = s.linkB := rfl
@[simp] theorem State.draw_chain : ((s.draw w).2).chain = s.chain := rfl
@[simp] theorem State.draw_cxl : ((s.draw w).2).cxl = s.cxl := rfl
@[simp] theorem State.draw_rings : ((s.draw w).2).rings = s.rings := rfl
@[simp] theorem State.draw_cmds : ((s.draw w).2).cmds = s.cmds := rfl
@[simp] theorem State.draw_nextCmd : ((s.draw w).2).nextCmd = s.nextCmd := rfl
@[simp] theorem State.draw_seals : ((s.draw w).2).seals = s.seals := rfl
@[simp] theorem State.draw_logs : ((s.draw w).2).logs = s.logs := rfl
@[simp] theorem State.draw_hist : ((s.draw w).2).hist = s.hist := rfl
@[simp] theorem State.draw_plat : ((s.draw w).2).plat = s.plat := rfl

@[simp] theorem State.draw_freeCtr : (s.draw w).2.freeCtr = s.freeCtr + 1 := rfl

/-! ### A random number drawn -/

@[simp] theorem State.random_pending : (s.random.2).pending = s.pending := rfl
@[simp] theorem State.random_outbox : (s.random.2).outbox = s.outbox := rfl
@[simp] theorem State.random_regs : (s.random.2).regs = s.regs := rfl
@[simp] theorem State.random_hwSet : (s.random.2).hwSet = s.hwSet := rfl
@[simp] theorem State.random_power : (s.random.2).power = s.power := rfl
@[simp] theorem State.random_clk : (s.random.2).clk = s.clk := rfl
@[simp] theorem State.random_adm : (s.random.2).adm = s.adm := rfl
@[simp] theorem State.random_hanks : (s.random.2).hanks = s.hanks := rfl
@[simp] theorem State.random_med : (s.random.2).med = s.med := rfl
@[simp] theorem State.random_crypto : (s.random.2).crypto = s.crypto := rfl
@[simp] theorem State.random_tlc : (s.random.2).tlc = s.tlc := rfl
@[simp] theorem State.random_wm : (s.random.2).wm = s.wm := rfl
@[simp] theorem State.random_energy : (s.random.2).energy = s.energy := rfl
@[simp] theorem State.random_cast : (s.random.2).cast = s.cast := rfl
@[simp] theorem State.random_linkA : (s.random.2).linkA = s.linkA := rfl
@[simp] theorem State.random_linkB : (s.random.2).linkB = s.linkB := rfl
@[simp] theorem State.random_chain : (s.random.2).chain = s.chain := rfl
@[simp] theorem State.random_cxl : (s.random.2).cxl = s.cxl := rfl
@[simp] theorem State.random_rings : (s.random.2).rings = s.rings := rfl
@[simp] theorem State.random_cmds : (s.random.2).cmds = s.cmds := rfl
@[simp] theorem State.random_nextCmd : (s.random.2).nextCmd = s.nextCmd := rfl
@[simp] theorem State.random_seals : (s.random.2).seals = s.seals := rfl
@[simp] theorem State.random_logs : (s.random.2).logs = s.logs := rfl
@[simp] theorem State.random_hist : (s.random.2).hist = s.hist := rfl
@[simp] theorem State.random_plat : (s.random.2).plat = s.plat := rfl

/-! ### A command changed -/

@[simp] theorem State.setCmd_pending (c : Cmd) : (s.setCmd id c).pending = s.pending := rfl
@[simp] theorem State.setCmd_outbox (c : Cmd) : (s.setCmd id c).outbox = s.outbox := rfl
@[simp] theorem State.setCmd_freeCtr (c : Cmd) : (s.setCmd id c).freeCtr = s.freeCtr := rfl
@[simp] theorem State.setCmd_regs (c : Cmd) : (s.setCmd id c).regs = s.regs := rfl
@[simp] theorem State.setCmd_hwSet (c : Cmd) : (s.setCmd id c).hwSet = s.hwSet := rfl
@[simp] theorem State.setCmd_power (c : Cmd) : (s.setCmd id c).power = s.power := rfl
@[simp] theorem State.setCmd_clk (c : Cmd) : (s.setCmd id c).clk = s.clk := rfl
@[simp] theorem State.setCmd_adm (c : Cmd) : (s.setCmd id c).adm = s.adm := rfl
@[simp] theorem State.setCmd_hanks (c : Cmd) : (s.setCmd id c).hanks = s.hanks := rfl
@[simp] theorem State.setCmd_med (c : Cmd) : (s.setCmd id c).med = s.med := rfl
@[simp] theorem State.setCmd_crypto (c : Cmd) : (s.setCmd id c).crypto = s.crypto := rfl
@[simp] theorem State.setCmd_tlc (c : Cmd) : (s.setCmd id c).tlc = s.tlc := rfl
@[simp] theorem State.setCmd_wm (c : Cmd) : (s.setCmd id c).wm = s.wm := rfl
@[simp] theorem State.setCmd_energy (c : Cmd) : (s.setCmd id c).energy = s.energy := rfl
@[simp] theorem State.setCmd_cast (c : Cmd) : (s.setCmd id c).cast = s.cast := rfl
@[simp] theorem State.setCmd_linkA (c : Cmd) : (s.setCmd id c).linkA = s.linkA := rfl
@[simp] theorem State.setCmd_linkB (c : Cmd) : (s.setCmd id c).linkB = s.linkB := rfl
@[simp] theorem State.setCmd_chain (c : Cmd) : (s.setCmd id c).chain = s.chain := rfl
@[simp] theorem State.setCmd_cxl (c : Cmd) : (s.setCmd id c).cxl = s.cxl := rfl
@[simp] theorem State.setCmd_rings (c : Cmd) : (s.setCmd id c).rings = s.rings := rfl
@[simp] theorem State.setCmd_nextCmd (c : Cmd) : (s.setCmd id c).nextCmd = s.nextCmd := rfl
@[simp] theorem State.setCmd_seals (c : Cmd) : (s.setCmd id c).seals = s.seals := rfl
@[simp] theorem State.setCmd_logs (c : Cmd) : (s.setCmd id c).logs = s.logs := rfl
@[simp] theorem State.setCmd_hist (c : Cmd) : (s.setCmd id c).hist = s.hist := rfl
@[simp] theorem State.setCmd_plat (c : Cmd) : (s.setCmd id c).plat = s.plat := rfl

@[simp] theorem State.setCmd_cmds (c : Cmd) : (s.setCmd id c).cmds = tput s.cmds id c := rfl

/-! ### An operation changed -/

@[simp] theorem State.setOp_pending (o : Op) : (s.setOp id o).pending = s.pending := rfl
@[simp] theorem State.setOp_outbox (o : Op) : (s.setOp id o).outbox = s.outbox := rfl
@[simp] theorem State.setOp_freeCtr (o : Op) : (s.setOp id o).freeCtr = s.freeCtr := rfl
@[simp] theorem State.setOp_regs (o : Op) : (s.setOp id o).regs = s.regs := rfl
@[simp] theorem State.setOp_hwSet (o : Op) : (s.setOp id o).hwSet = s.hwSet := rfl
@[simp] theorem State.setOp_power (o : Op) : (s.setOp id o).power = s.power := rfl
@[simp] theorem State.setOp_clk (o : Op) : (s.setOp id o).clk = s.clk := rfl
@[simp] theorem State.setOp_hanks (o : Op) : (s.setOp id o).hanks = s.hanks := rfl
@[simp] theorem State.setOp_med (o : Op) : (s.setOp id o).med = s.med := rfl
@[simp] theorem State.setOp_crypto (o : Op) : (s.setOp id o).crypto = s.crypto := rfl
@[simp] theorem State.setOp_tlc (o : Op) : (s.setOp id o).tlc = s.tlc := rfl
@[simp] theorem State.setOp_wm (o : Op) : (s.setOp id o).wm = s.wm := rfl
@[simp] theorem State.setOp_energy (o : Op) : (s.setOp id o).energy = s.energy := rfl
@[simp] theorem State.setOp_cast (o : Op) : (s.setOp id o).cast = s.cast := rfl
@[simp] theorem State.setOp_linkA (o : Op) : (s.setOp id o).linkA = s.linkA := rfl
@[simp] theorem State.setOp_linkB (o : Op) : (s.setOp id o).linkB = s.linkB := rfl
@[simp] theorem State.setOp_chain (o : Op) : (s.setOp id o).chain = s.chain := rfl
@[simp] theorem State.setOp_cxl (o : Op) : (s.setOp id o).cxl = s.cxl := rfl
@[simp] theorem State.setOp_rings (o : Op) : (s.setOp id o).rings = s.rings := rfl
@[simp] theorem State.setOp_cmds (o : Op) : (s.setOp id o).cmds = s.cmds := rfl
@[simp] theorem State.setOp_nextCmd (o : Op) : (s.setOp id o).nextCmd = s.nextCmd := rfl
@[simp] theorem State.setOp_seals (o : Op) : (s.setOp id o).seals = s.seals := rfl
@[simp] theorem State.setOp_logs (o : Op) : (s.setOp id o).logs = s.logs := rfl
@[simp] theorem State.setOp_hist (o : Op) : (s.setOp id o).hist = s.hist := rfl
@[simp] theorem State.setOp_plat (o : Op) : (s.setOp id o).plat = s.plat := rfl

/-! ### An operation freed -/

@[simp] theorem State.freeOp_pending : (s.freeOp id).pending = s.pending := rfl
@[simp] theorem State.freeOp_outbox : (s.freeOp id).outbox = s.outbox := rfl
@[simp] theorem State.freeOp_freeCtr : (s.freeOp id).freeCtr = s.freeCtr := rfl
@[simp] theorem State.freeOp_regs : (s.freeOp id).regs = s.regs := rfl
@[simp] theorem State.freeOp_hwSet : (s.freeOp id).hwSet = s.hwSet := rfl
@[simp] theorem State.freeOp_power : (s.freeOp id).power = s.power := rfl
@[simp] theorem State.freeOp_clk : (s.freeOp id).clk = s.clk := rfl
@[simp] theorem State.freeOp_hanks : (s.freeOp id).hanks = s.hanks := rfl
@[simp] theorem State.freeOp_med : (s.freeOp id).med = s.med := rfl
@[simp] theorem State.freeOp_crypto : (s.freeOp id).crypto = s.crypto := rfl
@[simp] theorem State.freeOp_tlc : (s.freeOp id).tlc = s.tlc := rfl
@[simp] theorem State.freeOp_wm : (s.freeOp id).wm = s.wm := rfl
@[simp] theorem State.freeOp_energy : (s.freeOp id).energy = s.energy := rfl
@[simp] theorem State.freeOp_cast : (s.freeOp id).cast = s.cast := rfl
@[simp] theorem State.freeOp_linkA : (s.freeOp id).linkA = s.linkA := rfl
@[simp] theorem State.freeOp_linkB : (s.freeOp id).linkB = s.linkB := rfl
@[simp] theorem State.freeOp_chain : (s.freeOp id).chain = s.chain := rfl
@[simp] theorem State.freeOp_cxl : (s.freeOp id).cxl = s.cxl := rfl
@[simp] theorem State.freeOp_rings : (s.freeOp id).rings = s.rings := rfl
@[simp] theorem State.freeOp_cmds : (s.freeOp id).cmds = s.cmds := rfl
@[simp] theorem State.freeOp_nextCmd : (s.freeOp id).nextCmd = s.nextCmd := rfl
@[simp] theorem State.freeOp_seals : (s.freeOp id).seals = s.seals := rfl
@[simp] theorem State.freeOp_logs : (s.freeOp id).logs = s.logs := rfl
@[simp] theorem State.freeOp_hist : (s.freeOp id).hist = s.hist := rfl
@[simp] theorem State.freeOp_plat : (s.freeOp id).plat = s.plat := rfl

/-! ### A map entry -/

@[simp] theorem State.putEntry_pending (sys : Bool) (e : MapEntry) : (s.putEntry sys id e).pending = s.pending := by unfold State.putEntry; split <;> rfl
@[simp] theorem State.putEntry_outbox (sys : Bool) (e : MapEntry) : (s.putEntry sys id e).outbox = s.outbox := by unfold State.putEntry; split <;> rfl
@[simp] theorem State.putEntry_freeCtr (sys : Bool) (e : MapEntry) : (s.putEntry sys id e).freeCtr = s.freeCtr := by unfold State.putEntry; split <;> rfl
@[simp] theorem State.putEntry_regs (sys : Bool) (e : MapEntry) : (s.putEntry sys id e).regs = s.regs := by unfold State.putEntry; split <;> rfl
@[simp] theorem State.putEntry_hwSet (sys : Bool) (e : MapEntry) : (s.putEntry sys id e).hwSet = s.hwSet := by unfold State.putEntry; split <;> rfl
@[simp] theorem State.putEntry_power (sys : Bool) (e : MapEntry) : (s.putEntry sys id e).power = s.power := by unfold State.putEntry; split <;> rfl
@[simp] theorem State.putEntry_clk (sys : Bool) (e : MapEntry) : (s.putEntry sys id e).clk = s.clk := by unfold State.putEntry; split <;> rfl
@[simp] theorem State.putEntry_adm (sys : Bool) (e : MapEntry) : (s.putEntry sys id e).adm = s.adm := by unfold State.putEntry; split <;> rfl
@[simp] theorem State.putEntry_med (sys : Bool) (e : MapEntry) : (s.putEntry sys id e).med = s.med := by unfold State.putEntry; split <;> rfl
@[simp] theorem State.putEntry_crypto (sys : Bool) (e : MapEntry) : (s.putEntry sys id e).crypto = s.crypto := by unfold State.putEntry; split <;> rfl
@[simp] theorem State.putEntry_tlc (sys : Bool) (e : MapEntry) : (s.putEntry sys id e).tlc = s.tlc := by unfold State.putEntry; split <;> rfl
@[simp] theorem State.putEntry_wm (sys : Bool) (e : MapEntry) : (s.putEntry sys id e).wm = s.wm := by unfold State.putEntry; split <;> rfl
@[simp] theorem State.putEntry_energy (sys : Bool) (e : MapEntry) : (s.putEntry sys id e).energy = s.energy := by unfold State.putEntry; split <;> rfl
@[simp] theorem State.putEntry_cast (sys : Bool) (e : MapEntry) : (s.putEntry sys id e).cast = s.cast := by unfold State.putEntry; split <;> rfl
@[simp] theorem State.putEntry_linkA (sys : Bool) (e : MapEntry) : (s.putEntry sys id e).linkA = s.linkA := by unfold State.putEntry; split <;> rfl
@[simp] theorem State.putEntry_linkB (sys : Bool) (e : MapEntry) : (s.putEntry sys id e).linkB = s.linkB := by unfold State.putEntry; split <;> rfl
@[simp] theorem State.putEntry_chain (sys : Bool) (e : MapEntry) : (s.putEntry sys id e).chain = s.chain := by unfold State.putEntry; split <;> rfl
@[simp] theorem State.putEntry_cxl (sys : Bool) (e : MapEntry) : (s.putEntry sys id e).cxl = s.cxl := by unfold State.putEntry; split <;> rfl
@[simp] theorem State.putEntry_rings (sys : Bool) (e : MapEntry) : (s.putEntry sys id e).rings = s.rings := by unfold State.putEntry; split <;> rfl
@[simp] theorem State.putEntry_cmds (sys : Bool) (e : MapEntry) : (s.putEntry sys id e).cmds = s.cmds := by unfold State.putEntry; split <;> rfl
@[simp] theorem State.putEntry_nextCmd (sys : Bool) (e : MapEntry) : (s.putEntry sys id e).nextCmd = s.nextCmd := by unfold State.putEntry; split <;> rfl
@[simp] theorem State.putEntry_seals (sys : Bool) (e : MapEntry) : (s.putEntry sys id e).seals = s.seals := by unfold State.putEntry; split <;> rfl
@[simp] theorem State.putEntry_logs (sys : Bool) (e : MapEntry) : (s.putEntry sys id e).logs = s.logs := by unfold State.putEntry; split <;> rfl
@[simp] theorem State.putEntry_hist (sys : Bool) (e : MapEntry) : (s.putEntry sys id e).hist = s.hist := by unfold State.putEntry; split <;> rfl
@[simp] theorem State.putEntry_plat (sys : Bool) (e : MapEntry) : (s.putEntry sys id e).plat = s.plat := by unfold State.putEntry; split <;> rfl

/-! ### A link -/

@[simp] theorem State.setLink_pending (l : Link) : (s.setLink k l).pending = s.pending := by unfold State.setLink; split <;> rfl
@[simp] theorem State.setLink_outbox (l : Link) : (s.setLink k l).outbox = s.outbox := by unfold State.setLink; split <;> rfl
@[simp] theorem State.setLink_freeCtr (l : Link) : (s.setLink k l).freeCtr = s.freeCtr := by unfold State.setLink; split <;> rfl
@[simp] theorem State.setLink_regs (l : Link) : (s.setLink k l).regs = s.regs := by unfold State.setLink; split <;> rfl
@[simp] theorem State.setLink_hwSet (l : Link) : (s.setLink k l).hwSet = s.hwSet := by unfold State.setLink; split <;> rfl
@[simp] theorem State.setLink_power (l : Link) : (s.setLink k l).power = s.power := by unfold State.setLink; split <;> rfl
@[simp] theorem State.setLink_clk (l : Link) : (s.setLink k l).clk = s.clk := by unfold State.setLink; split <;> rfl
@[simp] theorem State.setLink_adm (l : Link) : (s.setLink k l).adm = s.adm := by unfold State.setLink; split <;> rfl
@[simp] theorem State.setLink_hanks (l : Link) : (s.setLink k l).hanks = s.hanks := by unfold State.setLink; split <;> rfl
@[simp] theorem State.setLink_med (l : Link) : (s.setLink k l).med = s.med := by unfold State.setLink; split <;> rfl
@[simp] theorem State.setLink_crypto (l : Link) : (s.setLink k l).crypto = s.crypto := by unfold State.setLink; split <;> rfl
@[simp] theorem State.setLink_tlc (l : Link) : (s.setLink k l).tlc = s.tlc := by unfold State.setLink; split <;> rfl
@[simp] theorem State.setLink_wm (l : Link) : (s.setLink k l).wm = s.wm := by unfold State.setLink; split <;> rfl
@[simp] theorem State.setLink_energy (l : Link) : (s.setLink k l).energy = s.energy := by unfold State.setLink; split <;> rfl
@[simp] theorem State.setLink_cast (l : Link) : (s.setLink k l).cast = s.cast := by unfold State.setLink; split <;> rfl
@[simp] theorem State.setLink_chain (l : Link) : (s.setLink k l).chain = s.chain := by unfold State.setLink; split <;> rfl
@[simp] theorem State.setLink_cxl (l : Link) : (s.setLink k l).cxl = s.cxl := by unfold State.setLink; split <;> rfl
@[simp] theorem State.setLink_rings (l : Link) : (s.setLink k l).rings = s.rings := by unfold State.setLink; split <;> rfl
@[simp] theorem State.setLink_cmds (l : Link) : (s.setLink k l).cmds = s.cmds := by unfold State.setLink; split <;> rfl
@[simp] theorem State.setLink_nextCmd (l : Link) : (s.setLink k l).nextCmd = s.nextCmd := by unfold State.setLink; split <;> rfl
@[simp] theorem State.setLink_seals (l : Link) : (s.setLink k l).seals = s.seals := by unfold State.setLink; split <;> rfl
@[simp] theorem State.setLink_logs (l : Link) : (s.setLink k l).logs = s.logs := by unfold State.setLink; split <;> rfl
@[simp] theorem State.setLink_hist (l : Link) : (s.setLink k l).hist = s.hist := by unfold State.setLink; split <;> rfl
@[simp] theorem State.setLink_plat (l : Link) : (s.setLink k l).plat = s.plat := by unfold State.setLink; split <;> rfl

end Sys2Proof.Machine
end

