-- ==== Sys2Proof/Laws/Settle.lean ====
section
/-! SUPPORT. What the settling of the live fields can do: nothing but to the live fields, and each of those shows what it reports. -/

namespace Sys2Proof.Machine

variable (s : State)

theorem State.settleFrom_eq (l : List (Nat × Field × (State → Nat))) (s0 : State) :
    s.settleFrom l s0 = { s with regs := (s.settleFrom l s0).regs } := by
  induction l generalizing s with
  | nil => rfl
  | cons x l ih =>
    have h : s.settleFrom (x :: l) s0 = (s.fset x.1 x.2.1 (liveValue x.2.1 (x.2.2 s0))).settleFrom l s0 := rfl
    rw [h, ih]
    rfl

theorem State.settle_eq : s.settle = { s with regs := s.settle.regs } := State.settleFrom_eq s liveFields s

@[simp] theorem State.settle_pending : s.settle.pending = s.pending := by rw [State.settle_eq]
@[simp] theorem State.settle_outbox : s.settle.outbox = s.outbox := by rw [State.settle_eq]
@[simp] theorem State.settle_freeCtr : s.settle.freeCtr = s.freeCtr := by rw [State.settle_eq]
@[simp] theorem State.settle_hwSet : s.settle.hwSet = s.hwSet := by rw [State.settle_eq]
@[simp] theorem State.settle_power : s.settle.power = s.power := by rw [State.settle_eq]
@[simp] theorem State.settle_clk : s.settle.clk = s.clk := by rw [State.settle_eq]
@[simp] theorem State.settle_adm : s.settle.adm = s.adm := by rw [State.settle_eq]
@[simp] theorem State.settle_hanks : s.settle.hanks = s.hanks := by rw [State.settle_eq]
@[simp] theorem State.settle_med : s.settle.med = s.med := by rw [State.settle_eq]
@[simp] theorem State.settle_crypto : s.settle.crypto = s.crypto := by rw [State.settle_eq]
@[simp] theorem State.settle_tlc : s.settle.tlc = s.tlc := by rw [State.settle_eq]
@[simp] theorem State.settle_wm : s.settle.wm = s.wm := by rw [State.settle_eq]
@[simp] theorem State.settle_energy : s.settle.energy = s.energy := by rw [State.settle_eq]
@[simp] theorem State.settle_cast : s.settle.cast = s.cast := by rw [State.settle_eq]
@[simp] theorem State.settle_linkA : s.settle.linkA = s.linkA := by rw [State.settle_eq]
@[simp] theorem State.settle_linkB : s.settle.linkB = s.linkB := by rw [State.settle_eq]
@[simp] theorem State.settle_chain : s.settle.chain = s.chain := by rw [State.settle_eq]
@[simp] theorem State.settle_cxl : s.settle.cxl = s.cxl := by rw [State.settle_eq]
@[simp] theorem State.settle_rings : s.settle.rings = s.rings := by rw [State.settle_eq]
@[simp] theorem State.settle_cmds : s.settle.cmds = s.cmds := by rw [State.settle_eq]
@[simp] theorem State.settle_nextCmd : s.settle.nextCmd = s.nextCmd := by rw [State.settle_eq]
@[simp] theorem State.settle_seals : s.settle.seals = s.seals := by rw [State.settle_eq]
@[simp] theorem State.settle_logs : s.settle.logs = s.logs := by rw [State.settle_eq]
@[simp] theorem State.settle_hist : s.settle.hist = s.hist := by rw [State.settle_eq]
@[simp] theorem State.settle_plat : s.settle.plat = s.plat := by rw [State.settle_eq]

/-- The live fields lie in their words. -/
theorem liveFields_fit : ∀ x ∈ liveFields, x.2.1.Fits := by
  simp only [liveFields, List.mem_append, List.mem_cons, List.not_mem_nil, or_false, List.mem_map, List.mem_range]
  rintro x ((rfl | rfl | rfl | rfl | rfl | rfl | rfl | rfl | rfl | rfl | rfl | rfl | rfl | rfl) | ⟨n, -, rfl⟩)
  all_goals first | decide | exact (by decide : Fld.CRG_STAT_INFLIGHT.Fits)

/-- No live field rests on a register. -/
theorem liveFields_regs : ∀ x ∈ liveFields, ∀ (s : State) (r : Tbl W64), x.2.2 { s with regs := r } = x.2.2 s := by
  simp only [liveFields, List.mem_append, List.mem_cons, List.not_mem_nil, or_false, List.mem_map, List.mem_range]
  rintro x ((rfl | rfl | rfl | rfl | rfl | rfl | rfl | rfl | rfl | rfl | rfl | rfl | rfl | rfl) | ⟨n, -, rfl⟩) <;> intros <;> rfl

/-- Live fields share no bit. -/
theorem liveFields_apart : liveFields.Pairwise fun x y => x.1 ≠ y.1 ∨ apart x.2.1 y.2.1 = true := by
  have h : (liveFields.map fun x => (x.1, x.2.1)).Pairwise fun x y => x.1 ≠ y.1 ∨ apart x.2 y.2 = true := by decide
  exact List.pairwise_map.1 h

theorem apart_iff (f g : Field) : apart f g = true ↔ f.hi < g.lo ∨ g.hi < f.lo := by simp [apart]

theorem State.settleFrom_reg (l : List (Nat × Field × (State → Nat))) (s0 : State) (off : Nat) (h : ∀ x ∈ l, x.1 ≠ off) :
    (s.settleFrom l s0).reg off = s.reg off := by
  induction l generalizing s with
  | nil => rfl
  | cons x l ih =>
    have e : s.settleFrom (x :: l) s0 = (s.fset x.1 x.2.1 (liveValue x.2.1 (x.2.2 s0))).settleFrom l s0 := rfl
    rw [e, ih _ fun y hy => h y (List.mem_cons_of_mem _ hy), State.reg_fset_other _ _ _ _ (h x (List.mem_cons_self ..)).symm]

theorem State.settleFrom_fget (l : List (Nat × Field × (State → Nat))) (s0 : State) (off : Nat) (f : Field) (hf : f.Fits)
    (hl : ∀ x ∈ l, x.2.1.Fits) (h : ∀ x ∈ l, x.1 ≠ off ∨ apart x.2.1 f = true) : (s.settleFrom l s0).fget off f = s.fget off f := by
  induction l generalizing s with
  | nil => rfl
  | cons x l ih =>
    have e : s.settleFrom (x :: l) s0 = (s.fset x.1 x.2.1 (liveValue x.2.1 (x.2.2 s0))).settleFrom l s0 := rfl
    rw [e, ih _ (fun y hy => hl y (List.mem_cons_of_mem _ hy)) fun y hy => h y (List.mem_cons_of_mem _ hy)]
    rcases h x (List.mem_cons_self ..) with hx | hx
    · exact State.fget_fset_other _ _ _ _ (Ne.symm hx)
    · by_cases ho : x.1 = off
      · subst ho
        exact State.fget_fset_apart _ _ _ _ hf (hl x (List.mem_cons_self ..)) ((apart_iff _ _).1 hx)
      · exact State.fget_fset_other _ _ _ _ (Ne.symm ho)

/-- A register without a live field is left as it was. -/
theorem State.settle_reg {off : Nat} (h : quietReg off = true) : s.settle.reg off = s.reg off :=
  State.settleFrom_reg s liveFields s off fun x hx => by simpa using List.all_eq_true.1 h x hx

/-- A field that shares no bit with a live field is left as it was. -/
theorem State.settle_fget {off : Nat} {f : Field} (h : quietField off f = true) (hf : f.Fits) : s.settle.fget off f = s.fget off f :=
  State.settleFrom_fget s liveFields s off f hf liveFields_fit fun x hx => by simpa using List.all_eq_true.1 h x hx

theorem State.settleFrom_live (l : List (Nat × Field × (State → Nat))) (s0 : State) (hl : ∀ x ∈ l, x.2.1.Fits)
    (hp : l.Pairwise fun x y => x.1 ≠ y.1 ∨ apart x.2.1 y.2.1 = true) :
    ∀ x ∈ l, (s.settleFrom l s0).fget x.1 x.2.1 = liveValue x.2.1 (x.2.2 s0) := by
  induction l generalizing s with
  | nil => simp
  | cons a l ih =>
    have e : s.settleFrom (a :: l) s0 = (s.fset a.1 a.2.1 (liveValue a.2.1 (a.2.2 s0))).settleFrom l s0 := rfl
    obtain ⟨ha, hp⟩ := List.pairwise_cons.1 hp
    have hl' : ∀ y ∈ l, y.2.1.Fits := fun y hy => hl y (List.mem_cons_of_mem _ hy)
    intro x hx
    rw [e]
    rcases List.mem_cons.1 hx with rfl | hx
    · have hf : x.2.1.Fits := hl x (List.mem_cons_self ..)
      rw [State.settleFrom_fget _ l s0 x.1 x.2.1 hf hl' fun y hy => ?_]
      · exact State.fget_fset_same _ _ _ _ hf (by have := Nat.two_pow_pos (fwidth x.2.1); unfold liveValue; omega)
      · rcases ha y hy with h | h
        · exact .inl h.symm
        · exact .inr ((apart_iff _ _).2 ((apart_iff _ _).1 h).symm)
    · exact ih _ hl' hp x hx

/-- After settling, every live field shows what it reports. -/
theorem State.settle_live : s.settle.Live := fun x hx => by
  have h := State.settleFrom_live s liveFields s liveFields_fit liveFields_apart x hx
  have e : x.2.2 s.settle = x.2.2 s := by rw [State.settle_eq]; exact liveFields_regs x hx s _
  rw [e]
  exact h

/-- What `nextState` answers. -/
theorem nextState_next {t : State} (h : nextState s = .next t) : t = s.settle := by
  injection h with h
  exact h.symm

end Sys2Proof.Machine
end

