-- ==== Sys2Proof/Laws/Ops.lean ====
section
/-! SUPPORT. What the shared operations over State can do: raising an event, readiness, faults, the start and the end of a command. -/

namespace Sys2Proof.Machine

variable (s : State)

/-! ### Events touch the logs, the history, what is sent, and HST_STAT -/

theorem State.ingest_eq (log : Nat) (e : Event) : s.ingest log e = { s with hist := (s.ingest log e).hist, regs := (s.ingest log e).regs, hwSet := (s.ingest log e).hwSet } := by
  unfold State.ingest
  dsimp only
  split
  · rfl
  · split
    · rfl
    · split
      · split <;> rfl
      · rfl

theorem State.ingest_reg (log : Nat) (e : Event) {off : Nat} (h : off ≠ Reg.HST_STAT) : (s.ingest log e).reg off = s.reg off := by
  unfold State.ingest
  dsimp only
  split
  · rfl
  · split
    · exact State.reg_fset_other _ _ _ _ h
    · split
      · split <;> rfl
      · rfl

theorem State.record_eq (log : Nat) (e : Event) : s.record log e =
    { s with
      logs := (s.record log e).logs, outbox := (s.record log e).outbox, hist := (s.record log e).hist, regs := (s.record log e).regs
      hwSet := (s.record log e).hwSet } := by
  unfold State.record
  split
  · rfl
  · dsimp only
    rw [State.ingest_eq]
    split <;> rfl

theorem State.record_reg (log : Nat) (e : Event) {off : Nat} (h : off ≠ Reg.HST_STAT) : (s.record log e).reg off = s.reg off := by
  unfold State.record
  split
  · rfl
  · dsimp only
    rw [State.ingest_reg _ _ _ h]
    split <;> rfl

theorem State.eventSev_reg (cls sev akind ld addr : Nat) (args : List Nat) {off : Nat} (h : off ≠ Reg.HST_STAT) :
    (s.eventSev cls sev akind ld addr args).reg off = s.reg off := State.record_reg _ _ _ h

theorem State.event_reg (cls akind ld addr : Nat) (args : List Nat) {off : Nat} (h : off ≠ Reg.HST_STAT) :
    (s.event cls akind ld addr args).reg off = s.reg off := State.record_reg _ _ _ h

@[simp] theorem State.eventSev_pending (cls sev akind ld addr : Nat) (args : List Nat) : (s.eventSev cls sev akind ld addr args).pending = s.pending := by
  unfold State.eventSev; rw [State.record_eq]
@[simp] theorem State.event_pending (cls akind ld addr : Nat) (args : List Nat) : (s.event cls akind ld addr args).pending = s.pending := State.eventSev_pending ..
@[simp] theorem State.eventSev_freeCtr (cls sev akind ld addr : Nat) (args : List Nat) : (s.eventSev cls sev akind ld addr args).freeCtr = s.freeCtr := by
  unfold State.eventSev; rw [State.record_eq]
@[simp] theorem State.event_freeCtr (cls akind ld addr : Nat) (args : List Nat) : (s.event cls akind ld addr args).freeCtr = s.freeCtr := State.eventSev_freeCtr ..
@[simp] theorem State.eventSev_power (cls sev akind ld addr : Nat) (args : List Nat) : (s.eventSev cls sev akind ld addr args).power = s.power := by
  unfold State.eventSev; rw [State.record_eq]
@[simp] theorem State.event_power (cls akind ld addr : Nat) (args : List Nat) : (s.event cls akind ld addr args).power = s.power := State.eventSev_power ..
@[simp] theorem State.eventSev_clk (cls sev akind ld addr : Nat) (args : List Nat) : (s.eventSev cls sev akind ld addr args).clk = s.clk := by
  unfold State.eventSev; rw [State.record_eq]
@[simp] theorem State.event_clk (cls akind ld addr : Nat) (args : List Nat) : (s.event cls akind ld addr args).clk = s.clk := State.eventSev_clk ..
@[simp] theorem State.eventSev_adm (cls sev akind ld addr : Nat) (args : List Nat) : (s.eventSev cls sev akind ld addr args).adm = s.adm := by
  unfold State.eventSev; rw [State.record_eq]
@[simp] theorem State.event_adm (cls akind ld addr : Nat) (args : List Nat) : (s.event cls akind ld addr args).adm = s.adm := State.eventSev_adm ..
@[simp] theorem State.eventSev_hanks (cls sev akind ld addr : Nat) (args : List Nat) : (s.eventSev cls sev akind ld addr args).hanks = s.hanks := by
  unfold State.eventSev; rw [State.record_eq]
@[simp] theorem State.event_hanks (cls akind ld addr : Nat) (args : List Nat) : (s.event cls akind ld addr args).hanks = s.hanks := State.eventSev_hanks ..
@[simp] theorem State.eventSev_med (cls sev akind ld addr : Nat) (args : List Nat) : (s.eventSev cls sev akind ld addr args).med = s.med := by
  unfold State.eventSev; rw [State.record_eq]
@[simp] theorem State.event_med (cls akind ld addr : Nat) (args : List Nat) : (s.event cls akind ld addr args).med = s.med := State.eventSev_med ..
@[simp] theorem State.eventSev_crypto (cls sev akind ld addr : Nat) (args : List Nat) : (s.eventSev cls sev akind ld addr args).crypto = s.crypto := by
  unfold State.eventSev; rw [State.record_eq]
@[simp] theorem State.event_crypto (cls akind ld addr : Nat) (args : List Nat) : (s.event cls akind ld addr args).crypto = s.crypto := State.eventSev_crypto ..
@[simp] theorem State.eventSev_tlc (cls sev akind ld addr : Nat) (args : List Nat) : (s.eventSev cls sev akind ld addr args).tlc = s.tlc := by
  unfold State.eventSev; rw [State.record_eq]
@[simp] theorem State.event_tlc (cls akind ld addr : Nat) (args : List Nat) : (s.event cls akind ld addr args).tlc = s.tlc := State.eventSev_tlc ..
@[simp] theorem State.eventSev_wm (cls sev akind ld addr : Nat) (args : List Nat) : (s.eventSev cls sev akind ld addr args).wm = s.wm := by
  unfold State.eventSev; rw [State.record_eq]
@[simp] theorem State.event_wm (cls akind ld addr : Nat) (args : List Nat) : (s.event cls akind ld addr args).wm = s.wm := State.eventSev_wm ..
@[simp] theorem State.eventSev_energy (cls sev akind ld addr : Nat) (args : List Nat) : (s.eventSev cls sev akind ld addr args).energy = s.energy := by
  unfold State.eventSev; rw [State.record_eq]
@[simp] theorem State.event_energy (cls akind ld addr : Nat) (args : List Nat) : (s.event cls akind ld addr args).energy = s.energy := State.eventSev_energy ..
@[simp] theorem State.eventSev_cast (cls sev akind ld addr : Nat) (args : List Nat) : (s.eventSev cls sev akind ld addr args).cast = s.cast := by
  unfold State.eventSev; rw [State.record_eq]
@[simp] theorem State.event_cast (cls akind ld addr : Nat) (args : List Nat) : (s.event cls akind ld addr args).cast = s.cast := State.eventSev_cast ..
@[simp] theorem State.eventSev_linkA (cls sev akind ld addr : Nat) (args : List Nat) : (s.eventSev cls sev akind ld addr args).linkA = s.linkA := by
  unfold State.eventSev; rw [State.record_eq]
@[simp] theorem State.event_linkA (cls akind ld addr : Nat) (args : List Nat) : (s.event cls akind ld addr args).linkA = s.linkA := State.eventSev_linkA ..
@[simp] theorem State.eventSev_linkB (cls sev akind ld addr : Nat) (args : List Nat) : (s.eventSev cls sev akind ld addr args).linkB = s.linkB := by
  unfold State.eventSev; rw [State.record_eq]
@[simp] theorem State.event_linkB (cls akind ld addr : Nat) (args : List Nat) : (s.event cls akind ld addr args).linkB = s.linkB := State.eventSev_linkB ..
@[simp] theorem State.eventSev_chain (cls sev akind ld addr : Nat) (args : List Nat) : (s.eventSev cls sev akind ld addr args).chain = s.chain := by
  unfold State.eventSev; rw [State.record_eq]
@[simp] theorem State.event_chain (cls akind ld addr : Nat) (args : List Nat) : (s.event cls akind ld addr args).chain = s.chain := State.eventSev_chain ..
@[simp] theorem State.eventSev_cxl (cls sev akind ld addr : Nat) (args : List Nat) : (s.eventSev cls sev akind ld addr args).cxl = s.cxl := by
  unfold State.eventSev; rw [State.record_eq]
@[simp] theorem State.event_cxl (cls akind ld addr : Nat) (args : List Nat) : (s.event cls akind ld addr args).cxl = s.cxl := State.eventSev_cxl ..
@[simp] theorem State.eventSev_rings (cls sev akind ld addr : Nat) (args : List Nat) : (s.eventSev cls sev akind ld addr args).rings = s.rings := by
  unfold State.eventSev; rw [State.record_eq]
@[simp] theorem State.event_rings (cls akind ld addr : Nat) (args : List Nat) : (s.event cls akind ld addr args).rings = s.rings := State.eventSev_rings ..
@[simp] theorem State.eventSev_cmds (cls sev akind ld addr : Nat) (args : List Nat) : (s.eventSev cls sev akind ld addr args).cmds = s.cmds := by
  unfold State.eventSev; rw [State.record_eq]
@[simp] theorem State.event_cmds (cls akind ld addr : Nat) (args : List Nat) : (s.event cls akind ld addr args).cmds = s.cmds := State.eventSev_cmds ..
@[simp] theorem State.eventSev_nextCmd (cls sev akind ld addr : Nat) (args : List Nat) : (s.eventSev cls sev akind ld addr args).nextCmd = s.nextCmd := by
  unfold State.eventSev; rw [State.record_eq]
@[simp] theorem State.event_nextCmd (cls akind ld addr : Nat) (args : List Nat) : (s.event cls akind ld addr args).nextCmd = s.nextCmd := State.eventSev_nextCmd ..
@[simp] theorem State.eventSev_seals (cls sev akind ld addr : Nat) (args : List Nat) : (s.eventSev cls sev akind ld addr args).seals = s.seals := by
  unfold State.eventSev; rw [State.record_eq]
@[simp] theorem State.event_seals (cls akind ld addr : Nat) (args : List Nat) : (s.event cls akind ld addr args).seals = s.seals := State.eventSev_seals ..
@[simp] theorem State.eventSev_plat (cls sev akind ld addr : Nat) (args : List Nat) : (s.eventSev cls sev akind ld addr args).plat = s.plat := by
  unfold State.eventSev; rw [State.record_eq]
@[simp] theorem State.event_plat (cls akind ld addr : Nat) (args : List Nat) : (s.event cls akind ld addr args).plat = s.plat := State.eventSev_plat ..

/-! ### Readiness -/

@[simp] theorem State.setReady_pending (n : Nat) (v : Bool) : (s.setReady n v).pending = s.pending := by
  unfold State.setReady; dsimp only; (repeat' split) <;> simp
@[simp] theorem State.setReady_freeCtr (n : Nat) (v : Bool) : (s.setReady n v).freeCtr = s.freeCtr := by
  unfold State.setReady; dsimp only; (repeat' split) <;> simp
@[simp] theorem State.setReady_power (n : Nat) (v : Bool) : (s.setReady n v).power = s.power := by
  unfold State.setReady; dsimp only; (repeat' split) <;> simp
@[simp] theorem State.setReady_clk (n : Nat) (v : Bool) : (s.setReady n v).clk = s.clk := by
  unfold State.setReady; dsimp only; (repeat' split) <;> simp
@[simp] theorem State.setReady_adm (n : Nat) (v : Bool) : (s.setReady n v).adm = s.adm := by
  unfold State.setReady; dsimp only; (repeat' split) <;> simp
@[simp] theorem State.setReady_hanks (n : Nat) (v : Bool) : (s.setReady n v).hanks = s.hanks := by
  unfold State.setReady; dsimp only; (repeat' split) <;> simp
@[simp] theorem State.setReady_med (n : Nat) (v : Bool) : (s.setReady n v).med = s.med := by
  unfold State.setReady; dsimp only; (repeat' split) <;> simp
@[simp] theorem State.setReady_crypto (n : Nat) (v : Bool) : (s.setReady n v).crypto = s.crypto := by
  unfold State.setReady; dsimp only; (repeat' split) <;> simp
@[simp] theorem State.setReady_tlc (n : Nat) (v : Bool) : (s.setReady n v).tlc = s.tlc := by
  unfold State.setReady; dsimp only; (repeat' split) <;> simp
@[simp] theorem State.setReady_wm (n : Nat) (v : Bool) : (s.setReady n v).wm = s.wm := by
  unfold State.setReady; dsimp only; (repeat' split) <;> simp
@[simp] theorem State.setReady_energy (n : Nat) (v : Bool) : (s.setReady n v).energy = s.energy := by
  unfold State.setReady; dsimp only; (repeat' split) <;> simp
@[simp] theorem State.setReady_cast (n : Nat) (v : Bool) : (s.setReady n v).cast = s.cast := by
  unfold State.setReady; dsimp only; (repeat' split) <;> simp
@[simp] theorem State.setReady_linkA (n : Nat) (v : Bool) : (s.setReady n v).linkA = s.linkA := by
  unfold State.setReady; dsimp only; (repeat' split) <;> simp
@[simp] theorem State.setReady_linkB (n : Nat) (v : Bool) : (s.setReady n v).linkB = s.linkB := by
  unfold State.setReady; dsimp only; (repeat' split) <;> simp
@[simp] theorem State.setReady_chain (n : Nat) (v : Bool) : (s.setReady n v).chain = s.chain := by
  unfold State.setReady; dsimp only; (repeat' split) <;> simp
@[simp] theorem State.setReady_cxl (n : Nat) (v : Bool) : (s.setReady n v).cxl = s.cxl := by
  unfold State.setReady; dsimp only; (repeat' split) <;> simp
@[simp] theorem State.setReady_rings (n : Nat) (v : Bool) : (s.setReady n v).rings = s.rings := by
  unfold State.setReady; dsimp only; (repeat' split) <;> simp
@[simp] theorem State.setReady_cmds (n : Nat) (v : Bool) : (s.setReady n v).cmds = s.cmds := by
  unfold State.setReady; dsimp only; (repeat' split) <;> simp
@[simp] theorem State.setReady_nextCmd (n : Nat) (v : Bool) : (s.setReady n v).nextCmd = s.nextCmd := by
  unfold State.setReady; dsimp only; (repeat' split) <;> simp
@[simp] theorem State.setReady_seals (n : Nat) (v : Bool) : (s.setReady n v).seals = s.seals := by
  unfold State.setReady; dsimp only; (repeat' split) <;> simp
@[simp] theorem State.setReady_plat (n : Nat) (v : Bool) : (s.setReady n v).plat = s.plat := by
  unfold State.setReady; dsimp only; (repeat' split) <;> simp

/-! ### Counting touches the eight counters and, for a byte, the history -/

theorem State.count_step_eq (l : List Nat) (p : State → Nat → Prop) [∀ s i, Decidable (p s i)] (n : Nat) : l.foldl (fun s i =>
      if p s i then s.setReg (Reg.PMC_CNT i) (s.reg (Reg.PMC_CNT i) + BitVec.ofNat 64 n) else s) s =
    { s with regs := (l.foldl (fun s i =>
      if p s i then s.setReg (Reg.PMC_CNT i) (s.reg (Reg.PMC_CNT i) + BitVec.ofNat 64 n) else s) s).regs } := by
  induction l generalizing s with
  | nil => rfl
  | cons a l ih =>
    simp only [List.foldl_cons]
    rw [ih]
    split <;> rfl

theorem State.count_step_reg (l : List Nat) (p : State → Nat → Prop) [∀ s i, Decidable (p s i)] (n : Nat) {off : Nat} (h : ∀ i ∈ l, off ≠ Reg.PMC_CNT i) :
    (l.foldl (fun s i => if p s i then s.setReg (Reg.PMC_CNT i) (s.reg (Reg.PMC_CNT i) + BitVec.ofNat 64 n) else s) s).reg off = s.reg off := by
  induction l generalizing s with
  | nil => rfl
  | cons a l ih =>
    simp only [List.foldl_cons]
    rw [ih _ fun i hi => h i (List.mem_cons_of_mem _ hi)]
    split
    · exact State.reg_setReg_other _ _ _ (h a (List.mem_cons_self ..))
    · rfl

/-- Whether counter `i` counts an occurrence (Table 13-1). -/
theorem State.count_eq (ev inst n cls master : Nat) (lhn : Option Nat) : s.count ev inst n cls master lhn =
    { s with regs := (s.count ev inst n cls master lhn).regs } := by
  unfold State.count
  split
  · rfl
  · exact State.count_step_eq ..

theorem State.count_reg (ev inst n cls master : Nat) (lhn : Option Nat) {off : Nat} (h : off ∉ (List.range 8).map Reg.PMC_CNT) :
    (s.count ev inst n cls master lhn).reg off = s.reg off := by
  unfold State.count
  split
  · rfl
  · exact State.count_step_reg _ _ _ _ fun i hi e => h (e ▸ List.mem_map_of_mem hi)

@[simp] theorem State.count_pending (ev inst n cls master : Nat) (lhn : Option Nat) : (s.count ev inst n cls master lhn).pending = s.pending := by rw [State.count_eq]
@[simp] theorem State.count_outbox (ev inst n cls master : Nat) (lhn : Option Nat) : (s.count ev inst n cls master lhn).outbox = s.outbox := by rw [State.count_eq]
@[simp] theorem State.count_freeCtr (ev inst n cls master : Nat) (lhn : Option Nat) : (s.count ev inst n cls master lhn).freeCtr = s.freeCtr := by rw [State.count_eq]
@[simp] theorem State.count_hwSet (ev inst n cls master : Nat) (lhn : Option Nat) : (s.count ev inst n cls master lhn).hwSet = s.hwSet := by rw [State.count_eq]
@[simp] theorem State.count_power (ev inst n cls master : Nat) (lhn : Option Nat) : (s.count ev inst n cls master lhn).power = s.power := by rw [State.count_eq]
@[simp] theorem State.count_clk (ev inst n cls master : Nat) (lhn : Option Nat) : (s.count ev inst n cls master lhn).clk = s.clk := by rw [State.count_eq]
@[simp] theorem State.count_adm (ev inst n cls master : Nat) (lhn : Option Nat) : (s.count ev inst n cls master lhn).adm = s.adm := by rw [State.count_eq]
@[simp] theorem State.count_hanks (ev inst n cls master : Nat) (lhn : Option Nat) : (s.count ev inst n cls master lhn).hanks = s.hanks := by rw [State.count_eq]
@[simp] theorem State.count_med (ev inst n cls master : Nat) (lhn : Option Nat) : (s.count ev inst n cls master lhn).med = s.med := by rw [State.count_eq]
@[simp] theorem State.count_crypto (ev inst n cls master : Nat) (lhn : Option Nat) : (s.count ev inst n cls master lhn).crypto = s.crypto := by rw [State.count_eq]
@[simp] theorem State.count_tlc (ev inst n cls master : Nat) (lhn : Option Nat) : (s.count ev inst n cls master lhn).tlc = s.tlc := by rw [State.count_eq]
@[simp] theorem State.count_wm (ev inst n cls master : Nat) (lhn : Option Nat) : (s.count ev inst n cls master lhn).wm = s.wm := by rw [State.count_eq]
@[simp] theorem State.count_energy (ev inst n cls master : Nat) (lhn : Option Nat) : (s.count ev inst n cls master lhn).energy = s.energy := by rw [State.count_eq]
@[simp] theorem State.count_cast (ev inst n cls master : Nat) (lhn : Option Nat) : (s.count ev inst n cls master lhn).cast = s.cast := by rw [State.count_eq]
@[simp] theorem State.count_linkA (ev inst n cls master : Nat) (lhn : Option Nat) : (s.count ev inst n cls master lhn).linkA = s.linkA := by rw [State.count_eq]
@[simp] theorem State.count_linkB (ev inst n cls master : Nat) (lhn : Option Nat) : (s.count ev inst n cls master lhn).linkB = s.linkB := by rw [State.count_eq]
@[simp] theorem State.count_chain (ev inst n cls master : Nat) (lhn : Option Nat) : (s.count ev inst n cls master lhn).chain = s.chain := by rw [State.count_eq]
@[simp] theorem State.count_cxl (ev inst n cls master : Nat) (lhn : Option Nat) : (s.count ev inst n cls master lhn).cxl = s.cxl := by rw [State.count_eq]
@[simp] theorem State.count_rings (ev inst n cls master : Nat) (lhn : Option Nat) : (s.count ev inst n cls master lhn).rings = s.rings := by rw [State.count_eq]
@[simp] theorem State.count_cmds (ev inst n cls master : Nat) (lhn : Option Nat) : (s.count ev inst n cls master lhn).cmds = s.cmds := by rw [State.count_eq]
@[simp] theorem State.count_nextCmd (ev inst n cls master : Nat) (lhn : Option Nat) : (s.count ev inst n cls master lhn).nextCmd = s.nextCmd := by rw [State.count_eq]
@[simp] theorem State.count_seals (ev inst n cls master : Nat) (lhn : Option Nat) : (s.count ev inst n cls master lhn).seals = s.seals := by rw [State.count_eq]
@[simp] theorem State.count_logs (ev inst n cls master : Nat) (lhn : Option Nat) : (s.count ev inst n cls master lhn).logs = s.logs := by rw [State.count_eq]
@[simp] theorem State.count_hist (ev inst n cls master : Nat) (lhn : Option Nat) : (s.count ev inst n cls master lhn).hist = s.hist := by rw [State.count_eq]
@[simp] theorem State.count_plat (ev inst n cls master : Nat) (lhn : Option Nat) : (s.count ev inst n cls master lhn).plat = s.plat := by rw [State.count_eq]
@[simp] theorem State.bytes_pending (i n : Nat) : (s.bytes i n).pending = s.pending := rfl
@[simp] theorem State.bytes_outbox (i n : Nat) : (s.bytes i n).outbox = s.outbox := rfl
@[simp] theorem State.bytes_freeCtr (i n : Nat) : (s.bytes i n).freeCtr = s.freeCtr := rfl
@[simp] theorem State.bytes_regs (i n : Nat) : (s.bytes i n).regs = s.regs := rfl
@[simp] theorem State.bytes_hwSet (i n : Nat) : (s.bytes i n).hwSet = s.hwSet := rfl
@[simp] theorem State.bytes_power (i n : Nat) : (s.bytes i n).power = s.power := rfl
@[simp] theorem State.bytes_clk (i n : Nat) : (s.bytes i n).clk = s.clk := rfl
@[simp] theorem State.bytes_adm (i n : Nat) : (s.bytes i n).adm = s.adm := rfl
@[simp] theorem State.bytes_hanks (i n : Nat) : (s.bytes i n).hanks = s.hanks := rfl
@[simp] theorem State.bytes_med (i n : Nat) : (s.bytes i n).med = s.med := rfl
@[simp] theorem State.bytes_crypto (i n : Nat) : (s.bytes i n).crypto = s.crypto := rfl
@[simp] theorem State.bytes_tlc (i n : Nat) : (s.bytes i n).tlc = s.tlc := rfl
@[simp] theorem State.bytes_wm (i n : Nat) : (s.bytes i n).wm = s.wm := rfl
@[simp] theorem State.bytes_energy (i n : Nat) : (s.bytes i n).energy = s.energy := rfl
@[simp] theorem State.bytes_cast (i n : Nat) : (s.bytes i n).cast = s.cast := rfl
@[simp] theorem State.bytes_linkA (i n : Nat) : (s.bytes i n).linkA = s.linkA := rfl
@[simp] theorem State.bytes_linkB (i n : Nat) : (s.bytes i n).linkB = s.linkB := rfl
@[simp] theorem State.bytes_chain (i n : Nat) : (s.bytes i n).chain = s.chain := rfl
@[simp] theorem State.bytes_cxl (i n : Nat) : (s.bytes i n).cxl = s.cxl := rfl
@[simp] theorem State.bytes_rings (i n : Nat) : (s.bytes i n).rings = s.rings := rfl
@[simp] theorem State.bytes_cmds (i n : Nat) : (s.bytes i n).cmds = s.cmds := rfl
@[simp] theorem State.bytes_nextCmd (i n : Nat) : (s.bytes i n).nextCmd = s.nextCmd := rfl
@[simp] theorem State.bytes_seals (i n : Nat) : (s.bytes i n).seals = s.seals := rfl
@[simp] theorem State.bytes_logs (i n : Nat) : (s.bytes i n).logs = s.logs := rfl
@[simp] theorem State.bytes_plat (i n : Nat) : (s.bytes i n).plat = s.plat := rfl
@[simp] theorem State.charge_pending (p n : Nat) : (s.charge p n).pending = s.pending := rfl
@[simp] theorem State.charge_outbox (p n : Nat) : (s.charge p n).outbox = s.outbox := rfl
@[simp] theorem State.charge_freeCtr (p n : Nat) : (s.charge p n).freeCtr = s.freeCtr := rfl
@[simp] theorem State.charge_regs (p n : Nat) : (s.charge p n).regs = s.regs := rfl
@[simp] theorem State.charge_hwSet (p n : Nat) : (s.charge p n).hwSet = s.hwSet := rfl
@[simp] theorem State.charge_power (p n : Nat) : (s.charge p n).power = s.power := rfl
@[simp] theorem State.charge_clk (p n : Nat) : (s.charge p n).clk = s.clk := rfl
@[simp] theorem State.charge_hanks (p n : Nat) : (s.charge p n).hanks = s.hanks := rfl
@[simp] theorem State.charge_med (p n : Nat) : (s.charge p n).med = s.med := rfl
@[simp] theorem State.charge_crypto (p n : Nat) : (s.charge p n).crypto = s.crypto := rfl
@[simp] theorem State.charge_tlc (p n : Nat) : (s.charge p n).tlc = s.tlc := rfl
@[simp] theorem State.charge_wm (p n : Nat) : (s.charge p n).wm = s.wm := rfl
@[simp] theorem State.charge_energy (p n : Nat) : (s.charge p n).energy = s.energy := rfl
@[simp] theorem State.charge_cast (p n : Nat) : (s.charge p n).cast = s.cast := rfl
@[simp] theorem State.charge_linkA (p n : Nat) : (s.charge p n).linkA = s.linkA := rfl
@[simp] theorem State.charge_linkB (p n : Nat) : (s.charge p n).linkB = s.linkB := rfl
@[simp] theorem State.charge_chain (p n : Nat) : (s.charge p n).chain = s.chain := rfl
@[simp] theorem State.charge_cxl (p n : Nat) : (s.charge p n).cxl = s.cxl := rfl
@[simp] theorem State.charge_rings (p n : Nat) : (s.charge p n).rings = s.rings := rfl
@[simp] theorem State.charge_cmds (p n : Nat) : (s.charge p n).cmds = s.cmds := rfl
@[simp] theorem State.charge_nextCmd (p n : Nat) : (s.charge p n).nextCmd = s.nextCmd := rfl
@[simp] theorem State.charge_seals (p n : Nat) : (s.charge p n).seals = s.seals := rfl
@[simp] theorem State.charge_logs (p n : Nat) : (s.charge p n).logs = s.logs := rfl
@[simp] theorem State.charge_hist (p n : Nat) : (s.charge p n).hist = s.hist := rfl
@[simp] theorem State.charge_plat (p n : Nat) : (s.charge p n).plat = s.plat := rfl
@[simp] theorem State.wmAccess_pending (n cls master : Nat) (lhn : Option Nat) : (s.wmAccess n cls master lhn).pending = s.pending := State.count_pending ..
@[simp] theorem State.wmAccess_outbox (n cls master : Nat) (lhn : Option Nat) : (s.wmAccess n cls master lhn).outbox = s.outbox := State.count_outbox ..
@[simp] theorem State.wmAccess_freeCtr (n cls master : Nat) (lhn : Option Nat) : (s.wmAccess n cls master lhn).freeCtr = s.freeCtr := State.count_freeCtr ..
@[simp] theorem State.wmAccess_hwSet (n cls master : Nat) (lhn : Option Nat) : (s.wmAccess n cls master lhn).hwSet = s.hwSet := State.count_hwSet ..
@[simp] theorem State.wmAccess_power (n cls master : Nat) (lhn : Option Nat) : (s.wmAccess n cls master lhn).power = s.power := State.count_power ..
@[simp] theorem State.wmAccess_clk (n cls master : Nat) (lhn : Option Nat) : (s.wmAccess n cls master lhn).clk = s.clk := State.count_clk ..
@[simp] theorem State.wmAccess_adm (n cls master : Nat) (lhn : Option Nat) : (s.wmAccess n cls master lhn).adm = s.adm := State.count_adm ..
@[simp] theorem State.wmAccess_hanks (n cls master : Nat) (lhn : Option Nat) : (s.wmAccess n cls master lhn).hanks = s.hanks := State.count_hanks ..
@[simp] theorem State.wmAccess_med (n cls master : Nat) (lhn : Option Nat) : (s.wmAccess n cls master lhn).med = s.med := State.count_med ..
@[simp] theorem State.wmAccess_crypto (n cls master : Nat) (lhn : Option Nat) : (s.wmAccess n cls master lhn).crypto = s.crypto := State.count_crypto ..
@[simp] theorem State.wmAccess_tlc (n cls master : Nat) (lhn : Option Nat) : (s.wmAccess n cls master lhn).tlc = s.tlc := State.count_tlc ..
@[simp] theorem State.wmAccess_wm (n cls master : Nat) (lhn : Option Nat) : (s.wmAccess n cls master lhn).wm = s.wm := State.count_wm ..
@[simp] theorem State.wmAccess_energy (n cls master : Nat) (lhn : Option Nat) : (s.wmAccess n cls master lhn).energy = s.energy := State.count_energy ..
@[simp] theorem State.wmAccess_cast (n cls master : Nat) (lhn : Option Nat) : (s.wmAccess n cls master lhn).cast = s.cast := State.count_cast ..
@[simp] theorem State.wmAccess_linkA (n cls master : Nat) (lhn : Option Nat) : (s.wmAccess n cls master lhn).linkA = s.linkA := State.count_linkA ..
@[simp] theorem State.wmAccess_linkB (n cls master : Nat) (lhn : Option Nat) : (s.wmAccess n cls master lhn).linkB = s.linkB := State.count_linkB ..
@[simp] theorem State.wmAccess_chain (n cls master : Nat) (lhn : Option Nat) : (s.wmAccess n cls master lhn).chain = s.chain := State.count_chain ..
@[simp] theorem State.wmAccess_cxl (n cls master : Nat) (lhn : Option Nat) : (s.wmAccess n cls master lhn).cxl = s.cxl := State.count_cxl ..
@[simp] theorem State.wmAccess_rings (n cls master : Nat) (lhn : Option Nat) : (s.wmAccess n cls master lhn).rings = s.rings := State.count_rings ..
@[simp] theorem State.wmAccess_cmds (n cls master : Nat) (lhn : Option Nat) : (s.wmAccess n cls master lhn).cmds = s.cmds := State.count_cmds ..
@[simp] theorem State.wmAccess_nextCmd (n cls master : Nat) (lhn : Option Nat) : (s.wmAccess n cls master lhn).nextCmd = s.nextCmd := State.count_nextCmd ..
@[simp] theorem State.wmAccess_seals (n cls master : Nat) (lhn : Option Nat) : (s.wmAccess n cls master lhn).seals = s.seals := State.count_seals ..
@[simp] theorem State.wmAccess_logs (n cls master : Nat) (lhn : Option Nat) : (s.wmAccess n cls master lhn).logs = s.logs := State.count_logs ..
@[simp] theorem State.wmAccess_plat (n cls master : Nat) (lhn : Option Nat) : (s.wmAccess n cls master lhn).plat = s.plat := State.count_plat ..

/-- An access of working memory counts in the counters and in window 3. -/
theorem State.wmAccess_reg (n cls master : Nat) (lhn : Option Nat) {off : Nat} (h : off ∉ (List.range 8).map Reg.PMC_CNT) :
    (s.wmAccess n cls master lhn).reg off = s.reg off := State.count_reg _ _ _ _ _ _ _ h

/-! ### Commands -/

/-- A command that may start runs its meaning. -/
theorem State.start_ready {id op : Nat} {c : Cmd} (f : Cmd → State → State) (h : s.CmdReady id op c) :
    s.start id op f = nextState (f { c with running := true } (s.begun id c)) := by
  obtain ⟨h1, h2, h3⟩ := h
  simp [State.start, h1, h2, h3, State.begun]

/-- A command that ends at once. -/
theorem State.answer_ready {id op : Nat} {c : Cmd} (f : Cmd → State → Nat × Nat × Nat × List Byte × State) (h : s.CmdReady id op c) :
    s.answer id op f = nextState ((f { c with running := true } (s.begun id c)).2.2.2.2.finish id (f { c with running := true } (s.begun id c)).1
      (f { c with running := true } (s.begun id c)).2.1 (f { c with running := true } (s.begun id c)).2.2.1
      (f { c with running := true } (s.begun id c)).2.2.2.1) := by
  unfold State.answer
  rw [State.start_ready s _ h]

end Sys2Proof.Machine
end

