-- ==== Sys2Proof/Laws/Links.lean ====
section
/-! SUPPORT. What the receiver of a Helra link does with a packet that passes every check. -/

namespace Sys2Proof.Machine

theorem link_setLink_same (s : State) (k : Nat) (l : Link) : (s.setLink k l).link k = l := by
  unfold State.setLink State.link
  by_cases h : k = 0 <;> simp [h]

theorem linkBytes_link (s : State) (k n j : Nat) : (s.linkBytes k n).link j = s.link j := by
  simp [State.linkBytes, State.link]

theorem linkBytes_reg (s : State) (k n off : Nat) : (s.linkBytes k n).reg off = s.reg off := by
  simp [State.linkBytes, State.reg]

/-- A sequenced packet that passes every check is accepted. -/
theorem rx_accepts (s : State) (k : Nat) (hdr : PktHdr) (states : List Nat) (cls cost : Nat) (h : s.Accepts k hdr states cls cost) :
    s.rx k hdr states cls true cost = .go (s.accepted k hdr cls cost) := by
  obtain ⟨-, h1, h2, h3, h4, h5⟩ := h
  have e : states.contains (s.linkState k) = true := by simpa using h1
  unfold State.rx State.accepted
  simp only [e, State.updLink, linkBytes_link, link_setLink_same]
  simpa [h2, h3, h4] using h5

theorem linkBytes_linkUp (s : State) (k n j : Nat) : (s.linkBytes k n).linkUp j = s.linkUp j := by
  simp [State.linkBytes, State.linkUp, State.fget, State.reg]

theorem setLink_linkUp (s : State) (k j : Nat) (l : Link) : (s.setLink k l).linkUp j = s.linkUp j := by
  unfold State.setLink
  split <;> rfl

/-- A CREDIT or NAK that passes every check is accepted. -/
theorem rxFree_accepts (s : State) (k : Nat) (hdr : PktHdr) (states : List Nat) (h : s.AcceptsFree k hdr states) :
    s.rxFree k hdr states = .go (s.acceptedFree k hdr) := by
  obtain ⟨-, h1, h2, h3⟩ := h
  have e : states.contains (s.linkState k) = true := by simpa using h1
  unfold State.rxFree State.acceptedFree
  simp [h1, State.updLink, linkBytes_link, link_setLink_same, linkBytes_linkUp, setLink_linkUp, h2, h3]

/-! ### What acceptance leaves unchanged -/

theorem accepted_linkState (s : State) (k j : Nat) (hdr : PktHdr) (c n : Nat) : (s.accepted k hdr c n).linkState j = s.linkState j := by
  unfold State.accepted State.linkState State.fget State.reg State.setLink State.updLink State.setLink State.linkBytes State.bytes
  dsimp only; repeat' split <;> try rfl

theorem accepted_reg (s : State) (k : Nat) (hdr : PktHdr) (c n o : Nat) : (s.accepted k hdr c n).reg o = s.reg o := by
  unfold State.accepted State.reg State.setLink State.updLink State.setLink State.linkBytes State.bytes
  dsimp only; repeat' split <;> try rfl

theorem accepted_senders (s : State) (k : Nat) (hdr : PktHdr) (c n j: Nat) : ((s.accepted k hdr c n).link j).senders = (s.link j).senders := by
  unfold State.accepted State.setLink State.updLink State.setLink State.linkBytes State.bytes State.link Link.acked
  by_cases hk : k = 0 <;> by_cases hj : j = 0 <;> simp [hk, hj] <;> split <;> simp

theorem accepted_areaOf (s : State) (k : Nat) (hdr : PktHdr) (c n j r : Nat) : (s.accepted k hdr c n).areaOf j r = s.areaOf j r := by
  unfold State.areaOf State.area State.peerSerial State.fget
  simp only [accepted_reg, accepted_senders]

theorem accepted_area (s : State) (k : Nat) (hdr : PktHdr) (c n j r : Nat) : (s.accepted k hdr c n).area j r = s.area j r := by
  unfold State.area State.fget
  simp only [accepted_reg]

end Sys2Proof.Machine
end

