-- ==== Sys2Proof/WellFormed.lean ====
section
/-! DEFINITION. When a command is well formed: every operand fits the field that carries it, and names a part that exists. A command that is
not well formed cannot be sent; `exec` is defined on it all the same. -/

namespace Sys2Proof

/-- Every number of a list lies below its bound. -/
def below (l : List (Nat × Nat)) : Bool := l.all fun x => decide (x.1 < x.2)

/-- A word error names one of 9 slots and one of 72 bits (Table 5-1). -/
def WordErr.wf (e : WordErr) : Bool := below [(e.slot, 9), (e.bit.getD 0, 72)]

/-- The widths of Table 12-1. -/
def Packet.wf (p : Packet) : Bool :=
  below ([p.opcode, p.flags, p.keyidx].map (·, 2 ^ 16)) && below ([p.tag, p.timeout, p.buflen, p.check].map (·, 2 ^ 32)) &&
    below ([p.arg0, p.arg1, p.arg2, p.arg3, p.bufptr].map (·, 2 ^ 64)) && decide (p.ld < 16)

/-- A scatter list entry is an address, a length and a pad (R384). -/
def SglEntry.wf (e : SglEntry) : Bool := below [(e.addr, 2 ^ 64), (e.len, 2 ^ 32), (e.pad, 2 ^ 32)]

def Mailbox.wf (m : Mailbox) : Bool := decide (m.ld < 16)

/-- The widths of Table 10-2. -/
def PktHdr.wf (h : PktHdr) : Bool := below [(h.uctr, 2 ^ 20), (h.ackseq, 4096), (h.seq, 4096), (h.len, 241), (h.cls, 4)]

/-- One to three lines of a hank (Table 10-5). -/
def LinesPkt.wf (p : LinesPkt) : Bool :=
  below [(p.hoff, 2 ^ 23), (p.region, 16), (p.pmask, 8), (p.line + p.lines.length, 16385)] && [1, 2, 3].contains p.lines.length

/-- The widths of Table 10-10, and at most 240 bytes of DATA. -/
def ChainMsg.wf (m : ChainMsg) : Bool :=
  below ((m.mid, 4096) :: (m.mclass, 256) :: (m.data.length, 241) :: [m.ttl, m.src, m.dest].map (·, 2 ^ 14))

/-- The widths of a CLAIM (Table 10-3). -/
def ClaimMsg.wf (c : ClaimMsg) : Bool := below [(c.addr, 2 ^ 14), (c.ttl, 2 ^ 14), (c.round, 2 ^ 32), (c.serial, 2 ^ 64)]

/-- The widths of Table 10-6. -/
def HelloData.wf (d : HelloData) : Bool :=
  below [(d.version, 2 ^ 16), (d.product, 2 ^ 16), (d.link, 2), (d.uaddr, 2 ^ 14), (d.serial, 2 ^ 64)]

/-- The widths of the TSW of AUTH (Table 10-3). -/
def AuthPart.wf (a : AuthPart) : Bool := below [(a.part, 256), (a.kind, 2), (a.certSerial, 2 ^ 64)]

/-- The widths of Table 9-6. -/
def LedgerRec.wf (r : LedgerRec) : Bool :=
  below [(r.kind, 5), (r.ld, 16), (r.keyidx, 4096), (r.flags, 2 ^ 16), (r.seq, 2 ^ 64), (r.first, 2 ^ 32), (r.count, 2 ^ 32), (r.serial, 2 ^ 64)]

/-- Well-formed commands. -/
def Instr.wf : Instr → Bool
  | .memRd ld hpa => below [(ld, 16), (hpa, 2 ^ 52)] && hpa % 64 == 0
  | .memWr ld hpa _ => below [(ld, 16), (hpa, 2 ^ 52)] && hpa % 64 == 0
  | .memWrPtl ld hpa _ _ => below [(ld, 16), (hpa, 2 ^ 52)] && hpa % 64 == 0
  | .creditIssue _ => true
  | .rowBoundary => true
  | .transferSlot ch slot => below [(ch, 34), (slot, 12)]
  | .senseComplete _ _ => true
  | .valleySenseComplete _ _ => true
  | .stripeRebuildComplete _ _ => true
  | .stitchEnd _ _ => true
  | .lineDecryptDone _ _ => true
  | .counterFetchDone _ nodes => decide (nodes.length ≤ 6)
  | .counterWriteBack level _ => below [(level, 4)]
  | .writeBack line => below [(line, 2 ^ 37)]
  | .writeBackDone _ => true
  | .mirrorAck link hdr aseq => below [(link, 2), (aseq, 4096)] && hdr.wf
  | .mergeBufferReadsDone entry => below [(entry, 2 ^ 16)]
  | .driftStep codes => codes.all fun x => below [(x.1, 34), (x.2.1, 9)] && below (x.2.2.map fun y => (y.1, 64))
  | .driftClock valleys => below (valleys.flatMap fun v => [(v.1, 34), (v.2.1, 9)])
  | .refreshVisit phn stripe page => below [(phn, 2 ^ 23), (stripe, 128), (page, 17)]
  | .dieFailure ch die => below [(ch, 34), (die, 9)]
  | .dieRebuildDone ch => below [(ch, 34)]
  | .channelWatchdog ch => below [(ch, 34)]
  | .engineRestartDone ch => below [(ch, 34)]
  | .rowplanWrite ch _ => below [(ch, 34)]
  | .mapCheckpoint => true
  | .mapCheckpointDone => true
  | .mapEntryRestore _ _ => true
  | .staticSweepVisit => true
  | .migrationCopyDone _ => true
  | .migrationVerifyDone _ found => below (found.map (·, 128))
  | .migrationCommit _ => true
  | .migrationRelease _ => true
  | .hintZero lhn => below [(lhn, 6291456)]
  | .hankZeroDone lhn => below [(lhn, 6291456)]
  | .secureOverwriteDone lhn => below [(lhn, 6291456)]
  | .scrubLine errs => errs.all WordErr.wf
  | .qdrRebuildDone => true
  | .narrowWriteDrain wma => below [(wma, 2 ^ 22)]
  | .wmeCeLogFree n _ => below [(n, 16)]
  | .wmeCeLogClear _ => true
  | .flipArm _ => true
  | .fullInvalidationDone => true
  | .tlcMaintClean _ => true
  | .tlcMaintInvalidate _ => true
  | .tlcMaintCleanInvalidate _ => true
  | .tlcAttrWrite n _ => below [(n, 16)]
  | .gaugeRecompute _ _ phases => below [(phases, 4)]
  | .reserveCharged => true
  | .bankTest => true
  | .bankTestDone _ _ _ => true
  | .gauTestForce _ => true
  | .bankFailure bank => below [(bank, 12)]
  | .spareBankConnect bank => below [(bank, 12)]
  | .powerFail => true
  | .brownOut => true
  | .pwrdisAssert => true
  | .pwrdisRelease => true
  | .thermalBindoff => true
  | .bindoffFreeze => true
  | .bindoffFrozen => true
  | .bindoffIndexed => true
  | .bindoffSections => true
  | .bindoffComplete => true
  | .reserveLow watermark => below [(watermark, 2 ^ 32)]
  | .p12vReturn => true
  | .p12vStable => true
  | .dirtyZoneClear zone => below [(zone, 65536)]
  | .gpfPhase1 => true
  | .gpfPhase2 => true
  | .coldCastOn => true
  | .pllLock => true
  | .fwVerified _ _ => true
  | .keysReady _ _ => true
  | .wmemReady => true
  | .channelEngineReady ch _ => below [(ch, 34)]
  | .mboxReady => true
  | .ringsReady => true
  | .l3LoadDone _ => true
  | .mapRestoreDone _ _ => true
  | .replayDone => true
  | .sealLedgerCheck _ _ => true
  | .skeinReady k => below [(k, 64)]
  | .perstAssert => true
  | .perstRelease => true
  | .cxlReset => true
  | .flr => true
  | .configLock _ => true
  | .hostLinkTrained _ rate _ => below [(rate, 2 ^ 8)]
  | .refclkStop => true
  | .auxLoss => true
  | .knownAnswerCheck engine _ => below [(engine, 2)]
  | .keyRetireFlushed slot => below [(slot, 4096)]
  | .ideMacFailure _ => true
  | .ideKeyProg _ _ _ keySet _ => below [(keySet, 2)]
  | .spdmGetVersion => true
  | .spdmGetCapabilities => true
  | .spdmNegotiateAlgorithms asym hash dhe aead => below [(asym, 2 ^ 32), (hash, 2 ^ 32), (dhe, 2 ^ 16), (aead, 2 ^ 16)]
  | .spdmGetDigests => true
  | .spdmGetCertificate slot offset length => below [(slot, 16), (offset, 2 ^ 16), (length, 2 ^ 16)]
  | .spdmChallenge slot _ => below [(slot, 16)]
  | .spdmGetMeasurements _ index _ _ => below [(index, 2 ^ 8)]
  | .spdmKeyExchange _ => true
  | .spdmFinish _ _ => true
  | .spdmHeartbeat _ => true
  | .spdmKeyUpdate _ => true
  | .spdmEndSession _ => true
  | .sealHashDone _ => true
  | .verifyHashDone _ => true
  | .selArchivedWrite _ => true
  | .linkTrained k _ => below [(k, 2)]
  | .linkTrainRetry k => below [(k, 2)]
  | .linkDown k cause => below [(k, 2), (cause, 8)]
  | .linkIdleTimeout k => below [(k, 2)]
  | .creditTimer k => below [(k, 2)]
  | .replayTimer k => below [(k, 2)]
  | .packetTransmit k => below [(k, 2)]
  | .hello k hdr d => below [(k, 2)] && hdr.wf && d.wf
  | .auth k hdr a => below [(k, 2)] && hdr.wf && a.wf
  | .mirrorWrite k hdr p => below [(k, 2)] && hdr.wf && p.wf
  | .resyncData k hdr p => below [(k, 2)] && hdr.wf && p.wf
  | .helraCredit k hdr mirror resync chain => below [(k, 2), (mirror, 2 ^ 16), (resync, 2 ^ 8), (chain, 2 ^ 8)] && hdr.wf
  | .helraNak k hdr expseq => below [(k, 2), (expseq, 4096)] && hdr.wf
  | .plyOpen k hdr region count => below [(k, 2), (region, 16), (count, 2 ^ 24)] && hdr.wf
  | .plyQuery k hdr region => below [(k, 2), (region, 16)] && hdr.wf
  | .plyBegin k hdr region => below [(k, 2), (region, 16)] && hdr.wf
  | .plyEnd k hdr region => below [(k, 2), (region, 16)] && hdr.wf
  | .plyClose k hdr region => below [(k, 2), (region, 16)] && hdr.wf
  | .plyErase k hdr region hoff count kind => below [(k, 2), (region, 16), (hoff, 2 ^ 23), (count, 2 ^ 24), (kind, 2)] && hdr.wf
  | .plySeal k hdr region part rec hoff count => below [(k, 2), (region, 16), (part, 4), (hoff, 2 ^ 23), (count, 2 ^ 24)] && hdr.wf && rec.wf
  | .plyRelease k hdr region part rec => below [(k, 2), (region, 16), (part, 4)] && hdr.wf && rec.wf
  | .resyncReqResponse k hdr op region status data => below [(k, 2), (op, 16), (region, 16), (status, 2 ^ 16), (data, 2 ^ 64)] && hdr.wf
  | .walk k hdr m => below [(k, 2)] && hdr.wf && m.wf
  | .statusReq k hdr m => below [(k, 2)] && hdr.wf && m.wf
  | .statusReply k hdr m => below [(k, 2)] && hdr.wf && m.wf
  | .relay k hdr m => below [(k, 2)] && hdr.wf && m.wf
  | .relayAck k hdr m => below [(k, 2)] && hdr.wf && m.wf
  | .claim k hdr c => below [(k, 2)] && hdr.wf && c.wf
  | .claimRoundEnd => true
  | .chainLinkTimeout => true
  | .plyReadyTimeout => true
  | .plkPlyresWrite _ => true
  | .plkCtlWrite _ => true
  | .fmIdentify => true
  | .backgroundOperationStatus => true
  | .getLdInfo => true
  | .getLdAllocations start count => below [(start, 2 ^ 16), (count, 2 ^ 8)]
  | .setLdAllocations start granularity _ => below [(start, 2 ^ 16), (granularity, 2 ^ 8)]
  | .getQosControl => true
  | .setQosControl telemetry modPct sevPct interval => below [(telemetry, 2 ^ 8), (modPct, 2 ^ 8), (sevPct, 2 ^ 8), (interval, 2 ^ 8)]
  | .getQosStatus => true
  | .getQosAllocatedBw start count => below [(start, 2 ^ 16), (count, 2 ^ 8)]
  | .setQosAllocatedBw start fractions => below [(start, 2 ^ 16)] && (fractions.all fun f => decide (f < 256))
  | .getQosBwLimit start count => below [(start, 2 ^ 16), (count, 2 ^ 8)]
  | .setQosBwLimit start fractions => below [(start, 2 ^ 16)] && (fractions.all fun f => decide (f < 256))
  | .getSldQosControl mb => mb.wf
  | .setSldQosControl mb telemetry modPct sevPct interval => below [(telemetry, 2 ^ 8), (modPct, 2 ^ 8), (sevPct, 2 ^ 8), (interval, 2 ^ 8)] && mb.wf
  | .getSldQosStatus mb => mb.wf
  | .hdmDecoderCommit ld m base size ways gran skip _ _ _ => below [(ld, 16), (m, 4), (base, 2 ^ 64), (size, 2 ^ 64), (ways, 2 ^ 8), (gran, 2 ^ 8), (skip, 2 ^ 64)]
  | .doeDiscovery index => below [(index, 2 ^ 8)]
  | .tableAccess entry => below [(entry, 2 ^ 16)]
  | .getEventRecords mb log => below [(log, 4)] && mb.wf
  | .clearEventRecords mb log _ handles => below [(log, 4)] && mb.wf && (handles.all fun h => decide (h < 2 ^ 16))
  | .getEventInterruptPolicy mb => mb.wf
  | .setEventInterruptPolicy mb info warn fail fatal => below [(info, 2 ^ 8), (warn, 2 ^ 8), (fail, 2 ^ 8), (fatal, 2 ^ 8)] && mb.wf
  | .getFwInfo mb => mb.wf
  | .transferFw mb action slot offset _ _ _ => below [(action, 2 ^ 8), (slot, 2 ^ 8), (offset, 2 ^ 32)] && mb.wf
  | .activateFw mb _ slot => below [(slot, 2 ^ 8)] && mb.wf
  | .getTimestamp mb => mb.wf
  | .setTimestamp mb ns => below [(ns, 2 ^ 64)] && mb.wf
  | .getSupportedLogs mb => mb.wf
  | .getLog mb uuid offset length => below [(uuid, 2 ^ 128), (offset, 2 ^ 32), (length, 2 ^ 32)] && mb.wf
  | .identifyMemoryDevice mb => mb.wf
  | .getPartitionInfo mb => mb.wf
  | .setPartitionInfo mb => mb.wf
  | .getLsa mb offset length => below [(offset, 2 ^ 32), (length, 2 ^ 32)] && mb.wf
  | .setLsa mb offset _ => below [(offset, 2 ^ 32)] && mb.wf
  | .getHealthInfo mb => mb.wf
  | .getAlertConfiguration mb => mb.wf
  | .setAlertConfiguration mb valid enable life overT underT volErr persErr => below [(valid, 2 ^ 8), (enable, 2 ^ 8), (life, 2 ^ 8), (overT, 2 ^ 16), (underT, 2 ^ 16), (volErr, 2 ^ 16), (persErr, 2 ^ 16)] && mb.wf
  | .getShutdownState mb => mb.wf
  | .setShutdownState mb val => below [(val, 2 ^ 8)] && mb.wf
  | .getPoisonList mb dpa len => below [(dpa, 2 ^ 64), (len, 2 ^ 64)] && mb.wf
  | .injectPoison mb dpa => below [(dpa, 2 ^ 64)] && mb.wf
  | .clearPoison mb dpa _ => below [(dpa, 2 ^ 64)] && mb.wf
  | .getScanMediaCapabilities mb dpa len => below [(dpa, 2 ^ 64), (len, 2 ^ 64)] && mb.wf
  | .scanMedia mb dpa len _ => below [(dpa, 2 ^ 64), (len, 2 ^ 64)] && mb.wf
  | .scanMediaDone _ => true
  | .getScanMediaResults mb => mb.wf
  | .sanitize mb => mb.wf
  | .secureErase mb => mb.wf
  | .sanitizeDone => true
  | .getSecurityState mb => mb.wf
  | .setPassphrase mb _ old new => mb.wf && decide (old.length = 32) && decide (new.length = 32)
  | .disablePassphrase mb _ old => mb.wf && decide (old.length = 32)
  | .unlock mb pass => mb.wf && decide (pass.length = 32)
  | .freezeSecurityState mb => mb.wf
  | .passphraseSecureErase mb _ pass => mb.wf && decide (pass.length = 32)
  | .ethornPassthru mb p _ => mb.wf && p.wf
  | .ethornWarmRestart mb => mb.wf
  | .arp assign => decide (assign.getD 0 < 128)
  | .arpResetDevice => true
  | .smbrstAssert => true
  | .basicStatusRead => true
  | .identityBlockRead => true
  | .statusBlockRefresh => true
  | .setEndpointId eid => below [(eid, 256)]
  | .mctpVendorMessage p _ => p.wf
  | .ringDoorbell ring _ => below [(ring, 8)]
  | .commandFetch ring _ p sgl _ => below [(ring, 8)] && p.wf && (sgl.all SglEntry.wf)
  | .cqHeadWrite ring _ => below [(ring, 8)]
  | .ringEnable ring _ => below [(ring, 8)]
  | .ringStop ring _ => below [(ring, 8)]
  | .msixCoalesceTimer ring => below [(ring, 8)]
  | .commandExpiry _ => true
  | .identifyUnit _ => true
  | .getReadiness _ => true
  | .getCertChain _ => true
  | .getHealthExt _ => true
  | .readHistory _ => true
  | .resetHistory _ => true
  | .gaugeStatus _ => true
  | .gaugeTest _ => true
  | .preparePowerLoss _ => true
  | .setReservation _ => true
  | .getContract _ => true
  | .copyLines _ => true
  | .fillLines _ => true
  | .persistFence _ => true
  | .readViaRing _ => true
  | .writeViaRing _ => true
  | .discard _ => true
  | .zeroHanks _ => true
  | .keyLoad _ => true
  | .keyBind _ => true
  | .keyRetire _ => true
  | .keyQuery _ => true
  | .sealExtent _ => true
  | .getSealRecord _ => true
  | .releaseSeal _ => true
  | .verifyExtent _ => true
  | .setPly _ => true
  | .getPlyState _ => true
  | .resyncPly _ => true
  | .chainWalk _ => true
  | .chainWalkWaitEnd _ => true
  | .chainRelay _ => true
  | .chainStatus _ => true
  | .cacheClean _ => true
  | .cacheInvalidate _ => true
  | .cacheCleanInvalidate _ => true
  | .scrubControl _ => true
  | .migrationControl _ => true
  | .stashRead _ => true
  | .stashWrite _ => true
  | .ratchetAdvance _ => true
  | .ratchetRead _ => true
  | .injectFault _ => true
  | .selfTest _ => true
  | .pmcGen _ => true
  | .pmcClear _ => true
  | .pmcCntWrite n _ => below [(n, 8)]
  | .bwwLenWrite _ => true
  | .bandwidthWindowEnd => true
  | .historyIngest => true
  | .historyFlush => true
  | .efcUnlock _ => true
  | .efcRead => true
  | .efcProgram _ _ => true
  | .efcEraseSector _ _ => true
  | .efcEraseBank _ _ => true
  | .flashProgramDone _ => true
  | .flashEraseDone _ _ => true
  | .sensorSample readings => decide (readings.length = 58)
  | .sensorSelfCheck s _ _ => below [(s, 58)]
  | .sensorExclude s _ => below [(s, 58)]
  | .thermalAutoResume => true
  | .pwrReqWrite _ => true
  | .pwrLimitWrite _ => true
  | .sramTest bank _ _ => below [(bank, 8)]
  | .pointerMismatch _ => true
  | .coreHeartbeatTimeout core => below [(core, 4)]
  | .coreTakeoverDone => true
  | .poweredLifeEnd => true
  | .admResvWrite _ n _ => below [(n, 24)]
  | .registerWrite ld _ width _ => below [(ld, 16)] && (width == 32 || width == 64)
  | .spareBankTest bank _ _ _ => below [(bank, 12)]
  | .p3v3AuxReturn => true
  | .refclkReturn => true
  | .chainMsg k hdr m => below [(k, 2)] && hdr.wf && m.wf
  | .packetCrcFailure k => below [(k, 2)]
  | .selfTestDone _ _ _ => true
  | .freeBitmapRebuilt => true

end Sys2Proof
end

