-- ==== Sys2Proof/Tests/Slice0.lean ====
section
/-!
SUPPORT. Tests of the model: ill-formed terms that well-formedness refuses, the worked examples of the spec, and, for every statement with
hypotheses, a state and operands that meet the hypotheses of each of its clauses together.
-/

section
set_option Elab.async false
set_option maxRecDepth 100000
set_option linter.unusedVariables false
set_option linter.unusedTactic false
set_option linter.unreachableTactic false

open Sys2Proof Sys2Proof.Machine

namespace Sys2Proof.Tests

/-! ### Small states to test on -/

/-- A register value from fields. -/
def word (l : List (Field × Nat)) : W64 := l.foldl (fun w f => setF w f.1 f.2) 0

/-- A state with some registers set. -/
def regs (s : State) (l : List (Nat × W64)) : State := l.foldl (fun s r => s.setReg r.1 r.2) s

/-- The module right after it has been switched on, at tick 1,000, with the PLL locked. -/
def on : State :=
  { State.reset with
    power := .on, clk := { State.reset.clk with now := 1000, p12v := true, pll := true }
    energy := { State.reset.energy with vbus := 33000, charged := true } }

/-- A map entry of hank `lhn`, MAPPED at `phn`, with its check. -/
def entry (lhn phn : Nat) : MapEntry :=
  MapEntry.sealChk { phn := phn, key := 0, state := 1, isSealed := false, ply := 0, hint := false, heat := 0, chk := 0 } lhn

/-- A dirty pool line of slot 0. -/
def dirty : PoolLine :=
  { data := 7, key := 0, poison := false, kind := .credit, accept := 10, due := 5000, master := 0, slot := 0, bucket := none, op := none,
    again := false }

/-- A module that serves its host: the link is up, hanks 0 and 1 stand in the map, line 0 is dirty in the pool. -/
def live : State :=
  regs { on with
    adm := { on.adm with reqOut := 1, covers := [true], rwdOn := true }
    hanks := { on.hanks with host := [(0, entry 0 5), (1, entry 1 6)], free := [(5, false), (6, false), (9, true)], mapsReady := true }
    tlc := { on.tlc with inval := false, pool := [(0, dirty)] }
    cxl := { on.cxl with
      perst := false, linkUp := true, cxlOn := true, lanes := 16, rate := 32, memActive := true
      decoders := [(0, { base := 0, size := 2 ^ 30, ways := 1, gran := 256, pos := 0, dpa := 0, locked := false, poisonErr := false })] } }
    [(Reg.RDY_STATUS, 0x1FFFF), (Reg.RDY_SKEIN, BitVec.allOnes 64), (Reg.RDY_REPLAY, word [(Fld.RDY_REPLAY_STATE, 3)]),
     (Reg.GAU_STAT, word [(Fld.GAU_STAT_STATE, 1)]), (Reg.KEY_STAT, word [(Fld.KEY_STAT_ENG0, 1), (Fld.KEY_STAT_ENG1, 1)])]

/-- The same with all channel engines running. -/
def media : State := regs live ((List.range 34).map fun ch => (Reg.MCH_STATE ch, word [(Fld.MCH_STATE_ENGINE, 1)]))

/-- A stored line that is not blank. -/
def line1 : Stored := { ct := 9, tag := 3, poison := false, role := true, wep := 0 }

/-- A read of line 64 of hank 0 and its operation. -/
def read1 (st : RStage) : ReadOp :=
  { line := 64, phn := 5, s := 0, d := 2, j := 1, stage := st, stored := line1, key := 0, nodes := [], engine := 0, onset := none,
    purpose := .serve [.host 3] false, busy := false, thr := 0, need := 0, bad := [] }
def opOf (k : OpKind) : Op := { kind := k, deadline := 500, rank := 0, ld := 0, seq := 3, cls := 0, master := 0 }
def readOp1 (st : RStage) : Op := opOf (.read (read1 st))

/-- A deadline entry of a routed read of line 64. -/
def entryDl : DlEntry :=
  { kind := .read, ld := 0, dpa := 4096, line := 64, accept := 900, base := 900, deadline := some 1140, routed := true, data := 0, mask := 0,
    cover := false, mirror := none, stuck := false, merged := false, wpol := none, key := none }

/-- The media with a read in a stage. -/
def reading (st : RStage) : State := { media with adm := { media.adm with ops := [(0, readOp1 st)], nextOp := 1, dl := [(3, entryDl)] } }

/-- The same with its sense under way. -/
def senseOf (st : RStage) : ReadOp := { read1 st with busy := true }
def sensing (st : RStage) : State := { reading st with adm := { (reading st).adm with ops := [(0, opOf (.read (senseOf st)))] } }

/-- A merge buffer entry whose old pages are being read, a line of them, and its read in a slot. -/
def entry1 (need : Nat) : MbEntry :=
  { state := .read, phn := 6, s := 1, d := 0, lines := [], due := 2000, rank := 1, ld := 0, held := false, op := none, need := need, stuck := false }
def pageRead : ReadOp := { read1 .latched with purpose := .page 0 true }
def paging : State :=
  { media with
    adm := { media.adm with ops := [(0, opOf (.read pageRead))], nextOp := 1 }
    tlc := { media.tlc with mb := [(0, entry1 16)] } }

/-- A write-back of line 0 whose programs have verified. -/
def sline0 : SLine := { line := 0, d := 0, j := 0, data := 7, key := 0, poison := false }
def back1 : StripeOp :=
  { kind := .writeBack, phn := 5, s := 0, lines := [sline0], need := 0, olds := [], nodes := [], full := false, started := true, left := [],
    failed := [], reparity := false, pages := 0 }
def writing : State :=
  { media with
    adm := { media.adm with ops := [(0, opOf (.stripe back1))], nextOp := 1 }
    tlc := { media.tlc with pool := [(0, { dirty with op := some 0 })] } }

/-- A read in a crypto engine whose line verifies under key 5 and the leaf `leaf1`. -/
def leaf1 : CBlock := { z := false, lost := false, maj := 1, min := [] }
def mat5 : KeyMat := { key := 5, h := 3 }
def verified : ReadOp := { read1 .crypto with stored := { line1 with tag := lineTag mat5 leaf1.word (leaf1.minor 0) 64 0 9 } }
def decrypting : State :=
  let s := reading .crypto
  { s with
    crypto := { s.crypto with
      slots := [(0, { state := 2, wkey := 0, gen := 0, kcv := 0, crc := 0 })], store := [(0, mat5)], nodes := [(nodeKey 0 1, leaf1)] }
    adm := { s.adm with ops := [(0, opOf (.read verified))] } }

/-- A program of one page. -/
def prog1 : Program :=
  { kind := .page, ch := 0, die := 0, part := 0, phn := 5, s := 0, d := 2, lines := [(0, line1)], toMove := 8, stitches := 0, deferrals := 0, start := none,
    running := false, op := none, deadline := 4000 }

/-- The media with one program. -/
def programming (p : Program) : State := { media with med := { media.med with progs := [(0, p)], nextProg := 1 } }

/-- The media with program 0, the last of the stripe operation that it belongs to. -/
def ending (p : Program) (r : StripeOp) : State :=
  { programming p with adm := { media.adm with ops := [(0, opOf (.stripe { r with left := [0] }))], nextOp := 1 } }

/-- A migration of hank 0 (or of a system hank) from 5 to 9. -/
def mig1 (sys : Bool) (st : MigState) : Mig :=
  { sys := sys, idx := 0, src := 5, dst := 9, kind := .wear, state := st, bitmap := 0, again := 0, digest := 0, due := 9000, bad := false }

/-- A module with hank 0 under work or migration. -/
def copied1 : Program := { prog1 with kind := .copy 5, phn := 9, running := true, stitches := 1, op := some 0 }
def migrating (sys : Bool) (st : MigState) : State := { media with hanks := { media.hanks with migs := [(0, mig1 sys st)], nextMig := 1 } }
def working (w : HankWork) : State := { live with hanks := { live.hanks with work := [(0, w)] } }

/-- A module whose static sweep stands at hank 0, with a free hank on another position. -/
def swept : State :=
  { regs live [(Reg.TLC_MIG_CTL, word [(Fld.TLC_MIG_CTL_STATIC_EN, 1)])] with
    hanks := { live.hanks with free := [(2 ^ 19 + 9, true)], cursor := 2 ^ 19 + 9 } }

/-- The live module whose configuration was locked before the present tick. -/
def lockedBefore : State :=
  let s := regs live [(Reg.RDY_CTL, word [(Fld.RDY_CTL_CONFIG_LOCK, 1)])]
  { s with clk := { s.clk with regs0 := s.regs } }

/-- A packet of an opcode, and the command it waits as on ring 0. -/
def packet (op : Nat) (f : Packet → Packet) : Packet :=
  f { opcode := op, flags := 0, tag := 5, ld := 0, keyidx := 0, timeout := 0, arg0 := 0, arg1 := 0, arg2 := 0, arg3 := 0, bufptr := 0,
      buflen := 0, check := 0 }
def cmd (op : Nat) (f : Packet → Packet := id) (input : List Byte := []) : Cmd :=
  { carrier := .ring 0, pkt := packet op f, sgl := [], accept := 990, expiry := none, input := input, running := false, started := false,
    stopping := false, work := [], done := 0, bad := 0, extra := 0, status := 0, lines := [], output := [], endWith := none, host := .ok }

/-- The live module with ring 0 on and one command waiting under number 4. -/
def ring : State :=
  regs live [(Reg.CRG_CTL 0, word [(Fld.CRG_CTL_ENABLE, 1), (Fld.CRG_CTL_LDMASK, 0xFFFF)]), (Reg.CRG_SQ_SIZE 0, 4), (Reg.CRG_STAT 0, word [(Fld.CRG_STAT_RUNNING, 1)])]
def asked (c : Cmd) (s : State := ring) : State := { s with cmds := [(4, c)], nextCmd := 5 }

/-- A state with PLK_UADDR at a value (its reset value is the unit's own, so it is put in plainly). -/
def withUaddr (s : State) (w : W64) : State := { s with regs := tput s.regs Reg.PLK_UADDR w }

/-- A module in lane plan B with link 0 in a state, without an address. -/
def linked (st : Nat) (l : Link := Link.init) : State :=
  withUaddr (regs { live with linkA := l } [(Reg.RDY_CASTON, word [(Fld.RDY_CASTON_PLAN, 1)]), (Reg.PLK_CTL, 3), (Reg.PLK_LINK 0, word [(Fld.PLK_LINK_STATE, st)])]) 0
def bothUp (l : Link := Link.init) : State := regs (linked 4 l) [(Reg.PLK_LINK 1, word [(Fld.PLK_LINK_STATE, 4)])]

/-- A neighbour's HELLO, and a link that has one, with credits given. -/
def peer : HelloData := { version := 1, product := 0x0E6A, link := 0, uaddrValid := false, uaddr := 0, serial := Config.serial % 2 ^ 64 + 1, nonce := 0 }
def peered : Link := { Link.init with peer := some { peer with serial := 12 }, given := [8, 8, 8], got := [8, 8, 8] }

/-- A packet header of a class and length. -/
def header (cls len : Nat) : PktHdr := { uctr := 0, ackseq := 0, seq := 0, ackv := false, len := len, cls := cls, tagOk := true }

/-- A record of the seal ledger. -/
def record (kind seq : Nat) : LedgerRec :=
  { kind := kind, ld := 0, keyidx := 0, flags := 0, seq := seq, first := 0, count := 1, devtime := 5, walltime := 0, serial := 0, label := 0, ref := 0,
    extentHash := 0, prevHash := 0, sig := 0 }

/-- A holder of hank 20 as area 2 for region 3 of its neighbour. -/
def holding (l : Link := peered) : State :=
  regs (linked 4 { l with senders := [(2, 12 * 16 + 3)] })
    [(Reg.PLK_PEER 0, 12), (Reg.PLK_AREA 0 2, word [(Fld.PLK_AREA_STATE, 2), (Fld.PLK_AREA_BASE, 20), (Fld.PLK_AREA_COUNT, 4)])]

/-- A seal in progress over hank 0, and one in force over it. -/
def job1 (count : Nat) : SealJob := { cmd := 4, ld := 0, key := 0, first := 0, count := count, flags := 0, label := 8, ref := 1, due := 2000, timed := false }
def seal1 : LiveSeal := { seq := 1, ld := 0, first := 0, count := 0, rcd := { record 1 1 with count := 0 } }
def sealing (count : Nat) : State := { live with seals := { live.seals with jobs := [(0, job1 count)], nextJob := 1 } }

/-- A module that verifies the seal of no hank at all, asked under number 4. -/
def verifying (h : BitVec 384) : State :=
  { asked (cmd 0x0504) live with
    seals := { live.seals with verify := [(4, job1 0)], live := [(1, { seal1 with rcd := { seal1.rcd with extentHash := h } })] } }

/-- A message of a class on the chain, and the module at address 5 with both links up. -/
def message (cls : Nat) : ChainMsg := { mid := 4095, mclass := cls, bcast := false, isLocal := false, ttl := 16383, src := 16383, dest := 5, data := [] }
def chained : State := withUaddr (bothUp peered) (word [(Fld.PLK_UADDR_VALID, 1), (Fld.PLK_UADDR_ADDR, 5)])

/-- An MLD with running firmware, and its first device's mailbox. -/
def mld : State := { live with cxl := { live.cxl with mld := true } }
def mb0 : Mailbox := ⟨0, false⟩

/-- A packet for MCTP whose check is right: IDENTIFY_UNIT. -/
def goodPacket : Packet := let p := packet 0x0101 id; { p with check := (Config.crc32c (packetBytes p)).toNat }

/-- A history record of an event. -/
def event1 : Event :=
  { cls := 1, sev := 0, akind := 0, ld := 0, addr := 0, rep := 1, first := 5, last := 5, wall := 0, args := [], handle := 1, pair := 0 }
def hist1 : HistRec := { ev := event1, log := 0, caston := 0, rseq := 0 }

/-- The next state of an outcome. -/
def nextOf : Res → State
  | .next t => t
  | _ => on

/-- The shipped image can be used. -/
theorem live_usableImage : live.hanks.usableImage true true = some live.hanks.imgA := by
  have h : usable live.hanks.imgA true = true := beq_self_eq_true (imageDigest [] [])
  have h2 : usable live.hanks.imgB true = false := rfl
  rw [Hanks.usableImage, h, h2]

/-! ### Well-formedness: one ill-formed term for each check, and the same terms put right -/

def h0 : PktHdr := { uctr := 0, ackseq := 0, seq := 0, ackv := false, len := 240, cls := 3, tagOk := true }
def p0 : Packet :=
  { opcode := 0, flags := 0, tag := 0, ld := 15, keyidx := 0, timeout := 0, arg0 := 0, arg1 := 0, arg2 := 0, arg3 := 0, bufptr := 0, buflen := 0, check := 0 }
def l0 : LinesPkt := { hoff := 0, line := 16383, pmask := 7, region := 15, lines := [0] }
def m0 : ChainMsg := { mid := 0, mclass := 255, bcast := false, isLocal := false, ttl := 0, src := 0, dest := 0, data := [] }
def c0 : ClaimMsg := { addr := 0, held := false, ttl := 0, round := 0, serial := 0 }
def d0 : HelloData := { version := 1, product := 0x0E6A, link := 1, uaddrValid := false, uaddr := 0, serial := 0, nonce := 0 }
def a0 : AuthPart := { part := 0, last := true, kind := 1, checksOk := true, certSerial := 0, peerKey := (0, 0) }
def r0 : LedgerRec :=
  { kind := 4, ld := 15, keyidx := 0, flags := 0, seq := 0, first := 0, count := 0, devtime := 0, walltime := 0, serial := 0, label := 0, ref := 0,
    extentHash := 0, prevHash := 0, sig := 0 }

theorem test_wf_refuses_cxl_mem_admission_and_the_read_path_0 : List.all (α := Instr) [
    .memRd 16 0, .memRd 0 (2 ^ 52), .memRd 0 32, .memWr 16 0 0, .memWr 0 (2 ^ 52) 0, .memWr 0 32 0, .memWrPtl 16 0 0 0,
    .memWrPtl 0 (2 ^ 52) 0 0, .memWrPtl 0 32 0 0, .transferSlot 34 0, .transferSlot 0 12,
    .counterFetchDone 0 (List.replicate 7 .good), .counterWriteBack 4 0, .writeBack (2 ^ 37),
    .mirrorAck 2 h0 0, .mirrorAck 0 { h0 with uctr := 2 ^ 20 } 0, .mirrorAck 0 { h0 with ackseq := 4096 } 0,
    .mirrorAck 0 { h0 with seq := 4096 } 0, .mirrorAck 0 { h0 with len := 241 } 0, .mirrorAck 0 { h0 with cls := 4 } 0,
    .mirrorAck 0 h0 4096, .mergeBufferReadsDone (2 ^ 16)] (fun i => !i.wf) = true := by decide +kernel

theorem test_wf_accepts_cxl_mem_admission_and_the_read_path_0 : List.all (α := Instr) [
    .memRd 0 0, .memWr 0 0 0, .memWrPtl 0 0 0 0, .transferSlot 0 0, .senseComplete 0 0, .valleySenseComplete 0 0,
    .counterFetchDone 0 [], .counterWriteBack 0 0, .writeBack 0, .mirrorAck 0 h0 0, .mergeBufferReadsDone 0] Instr.wf = true := by decide +kernel

theorem test_wf_refuses_drift_refresh_dies_and_channels_0 : List.all (α := Instr) [
    .refreshVisit (2 ^ 23) 0 0, .refreshVisit 0 128 0, .refreshVisit 0 0 17, .dieFailure 34 0, .dieFailure 0 9, .dieRebuildDone 34,
    .driftClock [(34, 0, 0)], .driftClock [(0, 9, 0)], .driftStep [(34, 0, [])], .driftStep [(0, 9, [])], .driftStep [(0, 0, [(64, 0)])],
    .channelWatchdog 34, .engineRestartDone 34, .rowplanWrite 34 0] (fun i => !i.wf) = true := by decide +kernel

theorem test_wf_accepts_drift_refresh_dies_and_channels_0 : List.all (α := Instr) [
    .refreshVisit 0 0 0, .driftClock [(33, 8, 0)], .driftStep [(33, 8, [(63, 0)])], .dieFailure 0 0, .dieRebuildDone 0, .channelWatchdog 0, .engineRestartDone 0, .rowplanWrite 0 0] Instr.wf = true := by decide +kernel

theorem test_wf_refuses_map_migration_discard_0 : List.all (α := Instr) [
    .hintZero 6291456, .hankZeroDone 6291456, .secureOverwriteDone 6291456, .migrationVerifyDone 0 [128]] (fun i => !i.wf) = true := by decide +kernel

theorem test_wf_accepts_map_migration_discard_0 : List.all (α := Instr) [
    .hintZero 0, .hankZeroDone 0, .secureOverwriteDone 0, .migrationVerifyDone 0 [127]] Instr.wf = true := by decide +kernel

theorem test_wf_refuses_working_memory_and_line_cache_0 : List.all (α := Instr) [
    .scrubLine [⟨9, none, false, false⟩], .scrubLine [⟨0, some 72, false, false⟩], .narrowWriteDrain (2 ^ 22), .wmeCeLogFree 16 0, .tlcAttrWrite 64 0] (fun i => !i.wf) = true := by decide +kernel

theorem test_wf_accepts_working_memory_and_line_cache_0 : List.all (α := Instr) [
    .scrubLine [], .narrowWriteDrain 0, .wmeCeLogFree 0 0, .tlcAttrWrite 0 0] Instr.wf = true := by decide +kernel

theorem test_wf_refuses_the_gauge_and_bind_off_0 : List.all (α := Instr) [
    .gaugeRecompute 0 0 (4 + 1), .bankFailure 12, .spareBankConnect 12, .reserveLow (2 ^ 32), .dirtyZoneClear 65536] (fun i => !i.wf) = true := by decide +kernel

theorem test_wf_accepts_the_gauge_and_bind_off_0 : List.all (α := Instr) [
    .gaugeRecompute 0 0 0, .bankFailure 0, .spareBankConnect 0, .reserveLow 0, .dirtyZoneClear 0] Instr.wf = true := by decide +kernel

theorem test_wf_refuses_cast_on_and_resets_0 : List.all (α := Instr) [
    .channelEngineReady 34 false, .skeinReady 64, .hostLinkTrained 0 (2 ^ 8) false] (fun i => !i.wf) = true := by decide +kernel

theorem test_wf_accepts_cast_on_and_resets_0 : List.all (α := Instr) [
    .channelEngineReady 0 false, .skeinReady 0, .hostLinkTrained 0 0 false] Instr.wf = true := by decide +kernel

theorem test_wf_refuses_keys_ide_and_spdm_0 : List.all (α := Instr) [
    .knownAnswerCheck 2 false, .keyRetireFlushed 4096, .ideKeyProg 0 false false 2 0, .spdmNegotiateAlgorithms (2 ^ 32) 0 0 0,
    .spdmNegotiateAlgorithms 0 (2 ^ 32) 0 0, .spdmNegotiateAlgorithms 0 0 (2 ^ 16) 0, .spdmNegotiateAlgorithms 0 0 0 (2 ^ 16),
    .spdmGetCertificate 16 0 0, .spdmGetCertificate 0 (2 ^ 16) 0, .spdmGetCertificate 0 0 (2 ^ 16), .spdmChallenge 16 0,
    .spdmGetMeasurements none (2 ^ 8) false 0] (fun i => !i.wf) = true := by decide +kernel

theorem test_wf_accepts_keys_ide_and_spdm_0 : List.all (α := Instr) [
    .knownAnswerCheck 0 false, .keyRetireFlushed 0, .ideKeyProg 0 false false 0 0, .spdmNegotiateAlgorithms 0 0 0 0,
    .spdmGetCertificate 0 0 0, .spdmChallenge 0 0, .spdmGetMeasurements none 0 false 0] Instr.wf = true := by decide +kernel

theorem test_wf_refuses_helra_links_two_ply_and_the_chain_0 : List.all (α := Instr) [
    .linkTrained 2 false, .linkTrainRetry 2, .linkDown 2 0, .linkDown 0 8, .linkIdleTimeout 2, .creditTimer 2, .replayTimer 2,
    .packetTransmit 2, .hello 2 h0 d0, .hello 0 { h0 with uctr := 2 ^ 20 } d0, .hello 0 h0 { d0 with version := 2 ^ 16 },
    .hello 0 h0 { d0 with product := 2 ^ 16 }, .hello 0 h0 { d0 with link := 2 }, .hello 0 h0 { d0 with uaddr := 2 ^ 14 },
    .hello 0 h0 { d0 with serial := 2 ^ 64 }, .auth 2 h0 a0, .auth 0 { h0 with uctr := 2 ^ 20 } a0, .auth 0 h0 { a0 with part := 256 },
    .auth 0 h0 { a0 with kind := 2 }, .auth 0 h0 { a0 with certSerial := 2 ^ 64 }, .mirrorWrite 2 h0 l0,
    .mirrorWrite 0 { h0 with uctr := 2 ^ 20 } l0, .mirrorWrite 0 h0 { l0 with hoff := 2 ^ 23 }, .mirrorWrite 0 h0 { l0 with region := 16 },
    .mirrorWrite 0 h0 { l0 with pmask := 8 }, .mirrorWrite 0 h0 { l0 with lines := [] }, .mirrorWrite 0 h0 { l0 with line := 16384 },
    .resyncData 2 h0 l0, .resyncData 0 { h0 with uctr := 2 ^ 20 } l0, .resyncData 0 h0 { l0 with hoff := 2 ^ 23 }, .helraCredit 2 h0 0 0 0,
    .helraCredit 0 { h0 with uctr := 2 ^ 20 } 0 0 0, .helraCredit 0 h0 (2 ^ 16) 0 0, .helraCredit 0 h0 0 (2 ^ 8) 0,
    .helraCredit 0 h0 0 0 (2 ^ 8), .helraNak 2 h0 0, .helraNak 0 { h0 with uctr := 2 ^ 20 } 0, .helraNak 0 h0 4096, .plyOpen 2 h0 0 0,
    .plyOpen 0 { h0 with uctr := 2 ^ 20 } 0 0, .plyOpen 0 h0 16 0, .plyOpen 0 h0 0 (2 ^ 24), .plyQuery 2 h0 0,
    .plyQuery 0 { h0 with uctr := 2 ^ 20 } 0, .plyQuery 0 h0 16, .plyBegin 2 h0 0, .plyBegin 0 { h0 with uctr := 2 ^ 20 } 0,
    .plyBegin 0 h0 16, .plyEnd 2 h0 0, .plyEnd 0 { h0 with uctr := 2 ^ 20 } 0, .plyEnd 0 h0 16, .plyClose 2 h0 0,
    .plyClose 0 { h0 with uctr := 2 ^ 20 } 0, .plyClose 0 h0 16, .plyErase 2 h0 0 0 0 0, .plyErase 0 { h0 with uctr := 2 ^ 20 } 0 0 0 0,
    .plyErase 0 h0 16 0 0 0, .plyErase 0 h0 0 (2 ^ 23) 0 0, .plyErase 0 h0 0 0 (2 ^ 24) 0, .plyErase 0 h0 0 0 0 2] (fun i => !i.wf) = true := by decide +kernel

theorem test_wf_refuses_helra_links_two_ply_and_the_chain_1 : List.all (α := Instr) [
    .plySeal 2 h0 0 0 r0 0 0, .plySeal 0 { h0 with uctr := 2 ^ 20 } 0 0 r0 0 0, .plySeal 0 h0 16 0 r0 0 0, .plySeal 0 h0 0 4 r0 0 0,
    .plySeal 0 h0 0 0 { r0 with kind := 5 } 0 0, .plySeal 0 h0 0 0 { r0 with ld := 16 } 0 0,
    .plySeal 0 h0 0 0 { r0 with keyidx := 4096 } 0 0, .plySeal 0 h0 0 0 { r0 with flags := 2 ^ 16 } 0 0,
    .plySeal 0 h0 0 0 { r0 with seq := 2 ^ 64 } 0 0, .plySeal 0 h0 0 0 { r0 with first := 2 ^ 32 } 0 0,
    .plySeal 0 h0 0 0 { r0 with count := 2 ^ 32 } 0 0, .plySeal 0 h0 0 0 { r0 with serial := 2 ^ 64 } 0 0, .plySeal 0 h0 0 0 r0 (2 ^ 23) 0,
    .plySeal 0 h0 0 0 r0 0 (2 ^ 24), .plyRelease 2 h0 0 0 r0, .plyRelease 0 { h0 with uctr := 2 ^ 20 } 0 0 r0, .plyRelease 0 h0 16 0 r0,
    .plyRelease 0 h0 0 4 r0, .plyRelease 0 h0 0 0 { r0 with kind := 5 }, .resyncReqResponse 2 h0 0 0 0 0,
    .resyncReqResponse 0 { h0 with uctr := 2 ^ 20 } 0 0 0 0, .resyncReqResponse 0 h0 16 0 0 0, .resyncReqResponse 0 h0 0 16 0 0,
    .resyncReqResponse 0 h0 0 0 (2 ^ 16) 0, .resyncReqResponse 0 h0 0 0 0 (2 ^ 64), .walk 2 h0 m0, .walk 0 { h0 with uctr := 2 ^ 20 } m0,
    .walk 0 h0 { m0 with mid := 4096 }, .walk 0 h0 { m0 with mclass := 256 }, .walk 0 h0 { m0 with ttl := 2 ^ 14 },
    .walk 0 h0 { m0 with src := 2 ^ 14 }, .walk 0 h0 { m0 with dest := 2 ^ 14 }, .walk 0 h0 { m0 with data := List.replicate 241 0 },
    .statusReq 2 h0 m0, .statusReq 0 { h0 with uctr := 2 ^ 20 } m0, .statusReq 0 h0 { m0 with mid := 4096 }, .statusReply 2 h0 m0,
    .statusReply 0 { h0 with uctr := 2 ^ 20 } m0, .statusReply 0 h0 { m0 with mid := 4096 }, .relay 2 h0 m0,
    .relay 0 { h0 with uctr := 2 ^ 20 } m0, .relay 0 h0 { m0 with mid := 4096 }, .relayAck 2 h0 m0,
    .relayAck 0 { h0 with uctr := 2 ^ 20 } m0, .relayAck 0 h0 { m0 with mid := 4096 }, .claim 2 h0 c0,
    .claim 0 { h0 with uctr := 2 ^ 20 } c0, .claim 0 h0 { c0 with addr := 2 ^ 14 }, .claim 0 h0 { c0 with ttl := 2 ^ 14 },
    .claim 0 h0 { c0 with round := 2 ^ 32 }, .claim 0 h0 { c0 with serial := 2 ^ 64 }] (fun i => !i.wf) = true := by decide +kernel

theorem test_wf_accepts_helra_links_two_ply_and_the_chain_0 : List.all (α := Instr) [
    .linkTrained 0 false, .linkTrainRetry 0, .linkDown 0 0, .linkIdleTimeout 0, .creditTimer 0, .replayTimer 0, .packetTransmit 0,
    .hello 0 h0 d0, .auth 0 h0 a0, .mirrorWrite 0 h0 l0, .resyncData 0 h0 l0, .helraCredit 0 h0 0 0 0, .helraNak 0 h0 0, .plyOpen 0 h0 0 0,
    .plyQuery 0 h0 0, .plyBegin 0 h0 0, .plyEnd 0 h0 0, .plyClose 0 h0 0, .plyErase 0 h0 0 0 0 0, .plySeal 0 h0 0 0 r0 0 0,
    .plyRelease 0 h0 0 0 r0, .resyncReqResponse 0 h0 0 0 0 0, .walk 0 h0 m0, .statusReq 0 h0 m0, .statusReply 0 h0 m0, .relay 0 h0 m0,
    .relayAck 0 h0 m0, .claim 0 h0 c0] Instr.wf = true := by decide +kernel

theorem test_wf_refuses_fm_api_and_mailbox_qos_0 : List.all (α := Instr) [
    .getLdAllocations (2 ^ 16) 0, .getLdAllocations 0 (2 ^ 8), .setLdAllocations (2 ^ 16) 0 [], .setLdAllocations 0 (2 ^ 8) [],
    .setQosControl (2 ^ 8) 0 0 0, .setQosControl 0 (2 ^ 8) 0 0, .setQosControl 0 0 (2 ^ 8) 0, .setQosControl 0 0 0 (2 ^ 8),
    .getQosAllocatedBw (2 ^ 16) 0, .getQosAllocatedBw 0 (2 ^ 8), .setQosAllocatedBw (2 ^ 16) [], .setQosAllocatedBw 0 [256],
    .getQosBwLimit (2 ^ 16) 0, .getQosBwLimit 0 (2 ^ 8), .setQosBwLimit (2 ^ 16) [], .setQosBwLimit 0 [256], .getSldQosControl ⟨16, false⟩,
    .setSldQosControl ⟨16, false⟩ 0 0 0 0, .setSldQosControl ⟨0, false⟩ (2 ^ 8) 0 0 0, .setSldQosControl ⟨0, false⟩ 0 (2 ^ 8) 0 0,
    .setSldQosControl ⟨0, false⟩ 0 0 (2 ^ 8) 0, .setSldQosControl ⟨0, false⟩ 0 0 0 (2 ^ 8), .getSldQosStatus ⟨16, false⟩,
    .hdmDecoderCommit 16 0 0 0 0 0 0 0 false false, .hdmDecoderCommit 0 4 0 0 0 0 0 0 false false,
    .hdmDecoderCommit 0 0 (2 ^ 64) 0 0 0 0 0 false false, .hdmDecoderCommit 0 0 0 (2 ^ 64) 0 0 0 0 false false,
    .hdmDecoderCommit 0 0 0 0 (2 ^ 8) 0 0 0 false false, .hdmDecoderCommit 0 0 0 0 0 (2 ^ 16) 0 0 false false,
    .hdmDecoderCommit 0 0 0 0 0 0 (2 ^ 64) 0 false false, .doeDiscovery (2 ^ 8), .tableAccess (2 ^ 16)] (fun i => !i.wf) = true := by decide +kernel

theorem test_wf_accepts_fm_api_and_mailbox_qos_0 : List.all (α := Instr) [
    .getLdAllocations 0 0, .setLdAllocations 0 0 [], .setQosControl 0 0 0 0, .getQosAllocatedBw 0 0, .setQosAllocatedBw 0 [],
    .getQosBwLimit 0 0, .setQosBwLimit 0 [], .getSldQosControl ⟨0, false⟩, .setSldQosControl ⟨0, false⟩ 0 0 0 0,
    .getSldQosStatus ⟨0, false⟩, .hdmDecoderCommit 0 0 0 0 0 0 0 0 false false, .doeDiscovery 0, .tableAccess 0] Instr.wf = true := by decide +kernel

theorem test_wf_refuses_mailbox_commands_0 : List.all (α := Instr) [
    .getEventRecords ⟨16, false⟩ 0, .getEventRecords ⟨0, false⟩ 4, .clearEventRecords ⟨16, false⟩ 0 false [],
    .clearEventRecords ⟨0, false⟩ 4 false [], .clearEventRecords ⟨0, false⟩ 0 false [65536], .getEventInterruptPolicy ⟨16, false⟩,
    .setEventInterruptPolicy ⟨16, false⟩ 0 0 0 0, .setEventInterruptPolicy ⟨0, false⟩ (2 ^ 8) 0 0 0,
    .setEventInterruptPolicy ⟨0, false⟩ 0 (2 ^ 8) 0 0, .setEventInterruptPolicy ⟨0, false⟩ 0 0 (2 ^ 8) 0,
    .setEventInterruptPolicy ⟨0, false⟩ 0 0 0 (2 ^ 8), .getFwInfo ⟨16, false⟩, .transferFw ⟨16, false⟩ 0 0 0 [] false false,
    .transferFw ⟨0, false⟩ (2 ^ 8) 0 0 [] false false, .transferFw ⟨0, false⟩ 0 (2 ^ 8) 0 [] false false,
    .transferFw ⟨0, false⟩ 0 0 (2 ^ 32) [] false false, .activateFw ⟨16, false⟩ false 0, .activateFw ⟨0, false⟩ false (2 ^ 8),
    .getTimestamp ⟨16, false⟩, .setTimestamp ⟨16, false⟩ 0, .setTimestamp ⟨0, false⟩ (2 ^ 64), .getSupportedLogs ⟨16, false⟩,
    .getLog ⟨16, false⟩ 0 0 0, .getLog ⟨0, false⟩ (2 ^ 128) 0 0, .getLog ⟨0, false⟩ 0 (2 ^ 32) 0, .getLog ⟨0, false⟩ 0 0 (2 ^ 32),
    .identifyMemoryDevice ⟨16, false⟩, .getPartitionInfo ⟨16, false⟩, .setPartitionInfo ⟨16, false⟩, .getLsa ⟨16, false⟩ 0 0,
    .getLsa ⟨0, false⟩ (2 ^ 32) 0, .getLsa ⟨0, false⟩ 0 (2 ^ 32), .setLsa ⟨16, false⟩ 0 [], .setLsa ⟨0, false⟩ (2 ^ 32) [],
    .getHealthInfo ⟨16, false⟩, .getAlertConfiguration ⟨16, false⟩, .setAlertConfiguration ⟨16, false⟩ 0 0 0 0 0 0 0,
    .setAlertConfiguration ⟨0, false⟩ (2 ^ 8) 0 0 0 0 0 0, .setAlertConfiguration ⟨0, false⟩ 0 (2 ^ 8) 0 0 0 0 0,
    .setAlertConfiguration ⟨0, false⟩ 0 0 (2 ^ 8) 0 0 0 0, .setAlertConfiguration ⟨0, false⟩ 0 0 0 (2 ^ 16) 0 0 0,
    .setAlertConfiguration ⟨0, false⟩ 0 0 0 0 (2 ^ 16) 0 0, .setAlertConfiguration ⟨0, false⟩ 0 0 0 0 0 (2 ^ 16) 0,
    .setAlertConfiguration ⟨0, false⟩ 0 0 0 0 0 0 (2 ^ 16), .getShutdownState ⟨16, false⟩, .setShutdownState ⟨16, false⟩ 0,
    .setShutdownState ⟨0, false⟩ (2 ^ 8), .getPoisonList ⟨16, false⟩ 0 0, .getPoisonList ⟨0, false⟩ (2 ^ 64) 0,
    .getPoisonList ⟨0, false⟩ 0 (2 ^ 64), .injectPoison ⟨16, false⟩ 0, .injectPoison ⟨0, false⟩ (2 ^ 64), .clearPoison ⟨16, false⟩ 0 0,
    .clearPoison ⟨0, false⟩ (2 ^ 64) 0, .getScanMediaCapabilities ⟨16, false⟩ 0 0, .getScanMediaCapabilities ⟨0, false⟩ (2 ^ 64) 0,
    .getScanMediaCapabilities ⟨0, false⟩ 0 (2 ^ 64), .scanMedia ⟨16, false⟩ 0 0 false, .scanMedia ⟨0, false⟩ (2 ^ 64) 0 false,
    .scanMedia ⟨0, false⟩ 0 (2 ^ 64) false] (fun i => !i.wf) = true := by decide +kernel

theorem test_wf_refuses_mailbox_commands_1 : List.all (α := Instr) [
    .getScanMediaResults ⟨16, false⟩, .sanitize ⟨16, false⟩, .secureErase ⟨16, false⟩, .getSecurityState ⟨16, false⟩,
    .setPassphrase ⟨16, false⟩ false (List.replicate 32 0) (List.replicate 32 0), .setPassphrase ⟨0, false⟩ false [] (List.replicate 32 0),
    .setPassphrase ⟨0, false⟩ false (List.replicate 32 0) [], .disablePassphrase ⟨16, false⟩ false (List.replicate 32 0),
    .disablePassphrase ⟨0, false⟩ false [], .unlock ⟨16, false⟩ (List.replicate 32 0), .unlock ⟨0, false⟩ [],
    .freezeSecurityState ⟨16, false⟩, .passphraseSecureErase ⟨16, false⟩ false (List.replicate 32 0),
    .passphraseSecureErase ⟨0, false⟩ false [], .ethornPassthru ⟨16, false⟩ p0 [],
    .ethornPassthru ⟨0, false⟩ { p0 with opcode := 2 ^ 16 } [], .ethornPassthru ⟨0, false⟩ { p0 with flags := 2 ^ 16 } [],
    .ethornPassthru ⟨0, false⟩ { p0 with tag := 2 ^ 32 } [], .ethornPassthru ⟨0, false⟩ { p0 with ld := 16 } [],
    .ethornPassthru ⟨0, false⟩ { p0 with keyidx := 2 ^ 16 } [], .ethornPassthru ⟨0, false⟩ { p0 with timeout := 2 ^ 32 } [],
    .ethornPassthru ⟨0, false⟩ { p0 with arg0 := 2 ^ 64 } [], .ethornPassthru ⟨0, false⟩ { p0 with arg1 := 2 ^ 64 } [],
    .ethornPassthru ⟨0, false⟩ { p0 with arg2 := 2 ^ 64 } [], .ethornPassthru ⟨0, false⟩ { p0 with arg3 := 2 ^ 64 } [],
    .ethornPassthru ⟨0, false⟩ { p0 with bufptr := 2 ^ 64 } [], .ethornPassthru ⟨0, false⟩ { p0 with buflen := 2 ^ 32 } [],
    .ethornPassthru ⟨0, false⟩ { p0 with check := 2 ^ 32 } [], .ethornWarmRestart ⟨16, false⟩] (fun i => !i.wf) = true := by decide +kernel

theorem test_wf_accepts_mailbox_commands_0 : List.all (α := Instr) [
    .getEventRecords ⟨0, false⟩ 0, .clearEventRecords ⟨0, false⟩ 0 false [], .getEventInterruptPolicy ⟨0, false⟩,
    .setEventInterruptPolicy ⟨0, false⟩ 0 0 0 0, .getFwInfo ⟨0, false⟩, .transferFw ⟨0, false⟩ 0 0 0 [] false false,
    .activateFw ⟨0, false⟩ false 0, .getTimestamp ⟨0, false⟩, .setTimestamp ⟨0, false⟩ 0, .getSupportedLogs ⟨0, false⟩,
    .getLog ⟨0, false⟩ 0 0 0, .identifyMemoryDevice ⟨0, false⟩, .getPartitionInfo ⟨0, false⟩, .setPartitionInfo ⟨0, false⟩,
    .getLsa ⟨0, false⟩ 0 0, .setLsa ⟨0, false⟩ 0 [], .getHealthInfo ⟨0, false⟩, .getAlertConfiguration ⟨0, false⟩,
    .setAlertConfiguration ⟨0, false⟩ 0 0 0 0 0 0 0, .getShutdownState ⟨0, false⟩, .setShutdownState ⟨0, false⟩ 0,
    .getPoisonList ⟨0, false⟩ 0 0, .injectPoison ⟨0, false⟩ 0, .clearPoison ⟨0, false⟩ 0 0, .getScanMediaCapabilities ⟨0, false⟩ 0 0,
    .scanMedia ⟨0, false⟩ 0 0 false, .getScanMediaResults ⟨0, false⟩, .sanitize ⟨0, false⟩, .secureErase ⟨0, false⟩,
    .getSecurityState ⟨0, false⟩, .setPassphrase ⟨0, false⟩ false (List.replicate 32 0) (List.replicate 32 0),
    .disablePassphrase ⟨0, false⟩ false (List.replicate 32 0), .unlock ⟨0, false⟩ (List.replicate 32 0), .freezeSecurityState ⟨0, false⟩,
    .passphraseSecureErase ⟨0, false⟩ false (List.replicate 32 0), .ethornPassthru ⟨0, false⟩ p0 [], .ethornWarmRestart ⟨0, false⟩] Instr.wf = true := by decide +kernel

theorem test_wf_refuses_sideband_0 : List.all (α := Instr) [
    .arp (some 128), .setEndpointId 256, .mctpVendorMessage { p0 with opcode := 2 ^ 16 } []] (fun i => !i.wf) = true := by decide +kernel

theorem test_wf_accepts_sideband_0 : List.all (α := Instr) [
    .arp none, .setEndpointId 0, .mctpVendorMessage p0 []] Instr.wf = true := by decide +kernel

theorem test_wf_refuses_rings_0 : List.all (α := Instr) [
    .ringDoorbell 8 0, .commandFetch 8 .ok p0 [] [], .commandFetch 0 .ok { p0 with opcode := 2 ^ 16 } [] [],
    .commandFetch 0 .ok p0 [⟨2 ^ 64, 0, 0⟩] [], .commandFetch 0 .ok p0 [⟨0, 2 ^ 32, 0⟩] [], .commandFetch 0 .ok p0 [⟨0, 0, 2 ^ 32⟩] [],
    .cqHeadWrite 8 0, .ringEnable 8 0, .ringStop 8 0, .msixCoalesceTimer 8] (fun i => !i.wf) = true := by decide +kernel

theorem test_wf_accepts_rings_0 : List.all (α := Instr) [
    .ringDoorbell 0 0, .commandFetch 0 .ok p0 [] [], .cqHeadWrite 0 0, .ringEnable 0 0, .ringStop 0 0, .msixCoalesceTimer 0] Instr.wf = true := by decide +kernel

theorem test_wf_refuses_counting_and_remembering_0 : List.all (α := Instr) [
    .pmcCntWrite 8 0] (fun i => !i.wf) = true := by decide +kernel

theorem test_wf_accepts_counting_and_remembering_0 : List.all (α := Instr) [
    .pmcCntWrite 0 0] Instr.wf = true := by decide +kernel

theorem test_wf_refuses_platform_services_0 : List.all (α := Instr) [
    .sensorSample [], .sensorSelfCheck 58 false false, .sensorExclude 58 0, .sramTest 8 false false, .coreHeartbeatTimeout 4,
    .admResvWrite false 24 0, .registerWrite 16 0 64 0, .registerWrite 0 0 16 0, .spareBankTest 12 false 0 0, .chainMsg 2 h0 m0,
    .chainMsg 0 { h0 with uctr := 2 ^ 20 } m0, .chainMsg 0 h0 { m0 with mid := 4096 }, .packetCrcFailure 2] (fun i => !i.wf) = true := by decide +kernel

theorem test_wf_accepts_platform_services_0 : List.all (α := Instr) [
    .sensorSample (List.replicate 58 0), .sensorSelfCheck 0 false false, .sensorExclude 0 0, .sramTest 0 false false,
    .coreHeartbeatTimeout 0, .admResvWrite false 0 0, .registerWrite 0 0 64 0, .spareBankTest 0 false 0 0, .chainMsg 0 h0 m0,
    .packetCrcFailure 0] Instr.wf = true := by decide +kernel

/-! ### Worked examples of the spec -/

/-- LD 3 with base hank 196,608 (chapter 1). -/
def ld3 : State := { on with cxl := { on.cxl with lds := [⟨0, 0⟩, ⟨0, 0⟩, ⟨0, 0⟩, ⟨196608, 65536⟩] } }

/-- Chapter 1: DPA 0x2_5A3C_F2C0 of LD 3 is in LHN 206,243, stripe 103, page 9, line 3 of skein 2; its line number is that of chapter 8. -/
theorem test_address_of_a_read :
    let l := ld3.lineOfDpa 3 0x25A3CF2C0
    l = 3379098571 ∧ lhnOf l = 206243 ∧ stripeOf l = 103 ∧ pageOf l = 9 ∧ lineOf l = 3 ∧ skeinOf (lhnOf l) = 2 := by decide +kernel

/-- Chapter 1: that line on PHN 0x6D84D2 is on channel 33, its parity on channel 23, and its MLOC is 0x60_B613_4B3B. -/
theorem test_medium_location :
    chanOf 0x6D84D2 103 9 = 33 ∧ chanOf 0x6D84D2 103 16 = 23 ∧ State.reset.mlocOf 0x6D84D2 103 9 3 = 0x60B6134B3B := by decide +kernel

/-- Chapter 1: on spare position 8 the MLOC reads 0x61_1613_4B3B. -/
theorem test_medium_location_on_the_spare :
    (regs on [(Reg.MCH_DIESUB 33, word [(Fld.MCH_DIESUB_MAP, 0x76843210)])]).mlocOf 0x6D84D2 103 9 3 = 0x6116134B3B := by decide +kernel

/-- Chapter 5: the set of that line in the line cache is 24,857. -/
theorem test_cache_set : cacheSet 3379098571 = 24857 := by decide +kernel

/-- Chapter 3: die 2 of channel 5 whose valley measures 108.0 gives a gap of 4,055 drift steps. -/
theorem test_drift_gap : root16 192 = 4096 ∧ on.dieGap 5 2 (108 * 16) 64000 64040 = some 4055 := by decide +kernel

/-- Chapter 6: at 501,116 µJ the uncapped count is 5,075,506 lines. -/
theorem test_gauge_count : capOf 501116 54000 = 5075506 := by decide +kernel

/-- Chapter 13: t = 62 of a read goes to bin 8, 45 of a write to bin 31, 801 of a write-through to bin 32. -/
theorem test_histogram_bins : histBin 62 240 = 8 ∧ histBin 45 45 = 31 ∧ histBin 801 800 = 32 := by decide +kernel

/-- Chapter 11: position 2 of four modules at 4 KiB decodes HPA 0x20_0001_2345 to DPA 0x4345. -/
theorem test_hdm_decode :
    State.decodeHpa { on with cxl := { on.cxl with decoders := [(0, { base := 0x2000000000, size := 2 ^ 40, ways := 4, gran := 4096, pos := 2, dpa := 0, locked := false, poisonErr := false })] } }
      0 0x2000012345 = some 0x4345 := by decide +kernel

/-- The register of the next state. -/
def regAfter (r : Res) (off : Nat) : Option W64 := match r with | .next t => some (t.reg off) | _ => none

/-- Chapter 5: the scrubber corrects bit 5 of device 3 at WMA 0x20_0B20 and logs 0x8021_4C00_0020_0B20. -/
theorem test_correction_log :
    regAfter (exec (.scrubLine [⟨3, some 5, false, false⟩]) (regs live [(Reg.WME_SCRUB_CTL, word [(Fld.WME_SCRUB_CTL_EN, 1), (Fld.WME_SCRUB_CTL_CURSOR, 0x200B20)])]))
      (Reg.WME_CE_LOG 0) = some 0x80214C0000200B20 := by decide +kernel

/-- The flash of chapter 14's example: unlocked, word 0x1F80 of bank 1 named. -/
def flashing (n : Nat) (op : Option (Nat × Nat)) (v : W64) : State :=
  let s := regs live [(Reg.EFC_STAT, word [(Fld.EFC_STAT_SPARE_B, 8), (Fld.EFC_STAT_SPARE_A, 8), (Fld.EFC_STAT_UNLOCKED, 1)]),
    (Reg.EFC_ADDR, 0x401F80), (Reg.EFC_DATA, v)]
  { s with plat := { s.plat with flash := [(2 ^ 19 + 0x3F0, v)], flashPgm := [(2 ^ 19 + 0x3F0, n)], flashOp := op, flashWord := v } }

/-- Chapter 14: while the program runs EFC_STAT is 0x8800_0201. -/
theorem test_flash_program_runs :
    regAfter (exec (.efcProgram true false) (flashing 0 none 0xFFFFFFFFFFFFFF00)) Reg.EFC_STAT = some 0x88000201 := by decide +kernel

/-- Chapter 14: a third program of the word ends with PGMERR and DONE, 0x8800_000A once unlocking has ended. -/
theorem test_flash_third_program :
    regAfter (exec (.flashProgramDone true) ((flashing 2 (some (2, 2 ^ 19 + 0x3F0)) 0xFFFFFFFFFFFF0000).fset Reg.EFC_STAT Fld.EFC_STAT_UNLOCKED 0)) Reg.EFC_STAT =
      some 0x8800000A := by decide +kernel

/-- Chapter 12: with BUFLEN 1,000 GET_HEALTH_EXT writes 15 records and ends PARTIAL with RESULT0 = RESULT1 = 15. -/
theorem test_health_ext_partial :
    (match exec (.getHealthExt 4) (asked (cmd 0x0901 fun p => { p with buflen := 1000 })) with
     | .next t => match t.outbox with
       | .cqe _ _ _ st _ r0 r1 _ :: _ => (decide (st = stPARTIAL) && decide (r0 = 15) && decide (r1 = 15))
       | _ => false
     | _ => false) = true := by decide +kernel

/-- R467's CRC-8 over no byte is its initial register; over the byte 0xFF it is 0. -/
theorem test_crc8 : crc8 [] = 0xFF ∧ crc8 [0xFF] = 0 := by decide +kernel

/-- The table gives no row any bits, so no word spells a command, and none is put into the queue. -/
theorem test_no_word_spells_a_command : decodeTableWord 64 0xFFFFFFFFFFFFFFFF = none ∧ (State.reset.withFetchWord 64 1).pending = [] := by decide +kernel

/-! ### Hypotheses that are met together -/

/-- A word is not its successor. -/
theorem ne_add_one (x : BitVec 384) : x ≠ x + 1 := by simp

/-- The first swatch page of die 0 of channel 0 stands as it was shipped, and checks, so that its valley code gives a point. -/
theorem media_fitPoints : media.fitPoints 0 0 (media.medTime + 1) [(0, 192)] ≠ [] := by
  have h1 : dget swatchReset media.med.swatch 0 = some (swatchPage 0 0) := rfl
  have h2 : (swatchPage 0 0).checks = true := beq_self_eq_true _
  have h3 : (swatchPage 0 0).epoch * 64 + (swatchPage 0 0).step ≤ media.medTime + 1 := by decide +kernel
  simp [State.fitPoints, h1, h2, h3]

/-- The line of `decrypting` verifies. -/
theorem decrypting_tagOk : decrypting.tagOk verified.line verified.key verified.stored = true := by
  have h1 : decrypting.keyMat verified.key = mat5 := by decide +kernel
  have h2 : decrypting.nodeNow 0 (verified.line / 64) = leaf1 := by decide +kernel
  simp only [State.tagOk, h1, h2]
  exact beq_self_eq_true _

/-- The hypotheses of StepRunsTheFrontCommand. -/
theorem witness_StepRunsTheFrontCommand :
    (∃ (c : Instr) (rest : List Instr) (s : State), (s.pending = c :: rest)) :=
  ⟨.rowBoundary, [], { on with pending := [.rowBoundary] }, by decide +kernel⟩

/-- The hypotheses of EmptyQueueIsATick. -/
theorem witness_EmptyQueueIsATick :
    (∃ (s : State), (s.pending = []) ∧ (s.timeRuns = true)) ∧
    (∃ (s : State), (s.pending = []) ∧ (s.timeRuns = false)) :=
  ⟨⟨on, by decide +kernel⟩,
   ⟨State.reset, by decide +kernel⟩⟩

/-- The hypotheses of StepKeepsLiveFields. -/
theorem witness_StepKeepsLiveFields :
    (∃ (s : State) (t : State), (step s = .next t)) :=
  ⟨on, nextOf (step on), rfl⟩

/-- The hypotheses of CommandsAnswer. -/
theorem witness_CommandsAnswer :
    (∃ (i : Instr) (s : State), ((∀ ld off w v, i = .registerWrite ld off w v → off < 2 ^ 24))) ∧
    (∃ (s : State) (ld : Nat) (off : Nat) (w : Nat) (v : W64), (2 ^ 24 ≤ off)) :=
  ⟨⟨.rowBoundary, on, fun _ _ _ _ h => by cases h⟩,
   ⟨on, 0, 2 ^ 24, 64, 0, by decide +kernel⟩⟩

/-- A command that answers a next state. -/
theorem witness_EveryCommandKeepsItsFootprint : ∃ (i : Instr) (s t : State), exec i s = .next t :=
  ⟨.rowBoundary, on, nextOf (exec .rowBoundary on), rfl⟩

/-- The hypotheses of MemRdAnswersFromThePool. -/
theorem witness_MemRdAnswersFromThePool :
    (∃ (s : State) (ld : Nat) (hpa : Nat) (dpa : Nat) (p : PoolLine), (s.canTake false ld = true) ∧ (s.decodeHpa ld hpa = some dpa) ∧
     (s.skeinReady (skeinOf (lhnOf (s.lineOfDpa ld dpa))) = true) ∧ (s.cxl.locked = false) ∧ (s.readDenied (s.lineOfDpa ld dpa) = false) ∧
     (s.patchWaits (s.lineOfDpa ld dpa) = false) ∧ (s.transRoom = true) ∧ (s.wm.errs = []) ∧ (s.poolGet (s.lineOfDpa ld dpa) = some p)) :=
  ⟨live, 0, 0, 0, dirty, by decide +kernel⟩

/-- The hypotheses of HostRequestsThatWaitOrMiss. -/
theorem witness_HostRequestsThatWaitOrMiss :
    (∃ (s : State) (ld : Nat) (hpa : Nat) (dpa : Nat), (s.canTake false ld = true) ∧ (s.decodeHpa ld hpa = some dpa) ∧
     (s.skeinReady (skeinOf (lhnOf (s.lineOfDpa ld dpa))) = false)) ∧
    (∃ (s : State) (ld : Nat) (hpa : Nat) (dpa : Nat) (data : Line), (s.canTake true ld = true) ∧ (s.decodeHpa ld hpa = some dpa) ∧
     (s.skeinReady (skeinOf (lhnOf (s.lineOfDpa ld dpa))) = false)) ∧
    (∃ (s : State) (ld : Nat) (hpa : Nat) (dpa : Nat) (data : Line) (mask : BitVec 64), (s.canTake true ld = true) ∧ (s.decodeHpa ld hpa = some dpa) ∧
     (s.skeinReady (skeinOf (lhnOf (s.lineOfDpa ld dpa))) = false)) ∧
    (∃ (s : State) (ld : Nat) (hpa : Nat), (s.canTake false ld = true) ∧ (s.decodeHpa ld hpa = none)) ∧
    (∃ (s : State) (ld : Nat) (hpa : Nat) (data : Line), (s.canTake true ld = true) ∧ (s.decodeHpa ld hpa = none)) :=
  ⟨⟨(live.setReg Reg.RDY_SKEIN 0), 0, 64, 64, by decide +kernel⟩,
   ⟨(live.setReg Reg.RDY_SKEIN 0), 0, 64, 64, 5, by decide +kernel⟩,
   ⟨(live.setReg Reg.RDY_SKEIN 0), 0, 64, 64, 5, 1, by decide +kernel⟩,
   ⟨live, 0, 2 ^ 31, by decide +kernel⟩,
   ⟨live, 0, 2 ^ 31, 5, by decide +kernel⟩⟩

/-- The hypotheses of MemWrOverwritesThePoolLine. -/
theorem witness_MemWrOverwritesThePoolLine :
    (∃ (s : State) (ld : Nat) (hpa : Nat) (dpa : Nat) (data : Line) (p : PoolLine), (s.canTake true ld = true) ∧ (s.decodeHpa ld hpa = some dpa) ∧
     (s.skeinReady (skeinOf (lhnOf (s.lineOfDpa ld dpa))) = true) ∧ (s.cxl.locked = false) ∧ (s.writeFate (s.lineOfDpa ld dpa) = .apply) ∧
     (s.patchWaits (s.lineOfDpa ld dpa) = false) ∧ (s.transRoom = true) ∧ (s.wm.errs = []) ∧ (s.regionOf (lhnOf (s.lineOfDpa ld dpa)) = none) ∧
     (s.poolGet (s.lineOfDpa ld dpa) = some p)) ∧
    (∃ (s : State) (ld : Nat) (hpa : Nat) (dpa : Nat) (data : Line) (mask : BitVec 64) (p : PoolLine), (s.canTake true ld = true) ∧
     (s.decodeHpa ld hpa = some dpa) ∧ (s.skeinReady (skeinOf (lhnOf (s.lineOfDpa ld dpa))) = true) ∧ (s.cxl.locked = false) ∧
     (s.writeFate (s.lineOfDpa ld dpa) = .apply) ∧ (s.patchWaits (s.lineOfDpa ld dpa) = false) ∧ (s.transRoom = true) ∧ (s.wm.errs = []) ∧
     (s.regionOf (lhnOf (s.lineOfDpa ld dpa)) = none) ∧ (s.poolGet (s.lineOfDpa ld dpa) = some p) ∧ (p.poison = false)) :=
  ⟨⟨live, 0, 0, 0, 5, dirty, by decide +kernel⟩,
   ⟨live, 0, 0, 0, 5, 1, dirty, by decide +kernel⟩⟩

/-- The hypotheses of CreditIssueGivesCredit. -/
theorem witness_CreditIssueGivesCredit :
    (∃ (s : State) (rwd : Bool) (i : Nat), (s.creditRuns rwd = true) ∧ (s.guardFails rwd = 0) ∧ (s.owedIdx rwd = some i)) ∧
    (∃ (s : State) (rwd : Bool), (s.creditRuns rwd = true) ∧ (s.guardFails rwd = 0) ∧ ((∀ o ∈ s.adm.owed, o.rwd ≠ rwd))) ∧
    (∃ (s : State) (rwd : Bool), (s.creditRuns rwd = true) ∧ (s.guardFails rwd ≠ 0)) :=
  ⟨⟨{ media with adm := { media.adm with reqOut := 0, covers := [], owed := [⟨false, 0⟩] } }, false, 0, by decide +kernel⟩,
   ⟨{ regs media [(Reg.GAU_CAP_LINES, 4096)] with adm := { media.adm with reqOut := 0, covers := [] }, tlc := { media.tlc with pool := [] } }, true,
     by decide +kernel⟩,
   ⟨{ live with adm := { live.adm with issued := 300 } }, true, by decide +kernel⟩⟩

/-- The hypotheses of RowBoundaryStartsARow. -/
theorem witness_RowBoundaryStartsARow :
    (∃ (s : State), (s.clk.now % 40 = 0) ∧ (s.adm.rowAt ≠ s.clk.now + 1) ∧ (s.power = .on ∨ s.power = .bindoff)) ∧
    (∃ (s : State) (p : Nat), (s.clk.now % 40 = 0) ∧ (s.adm.rowAt ≠ s.clk.now + 1) ∧ (s.power = .on) ∧ (p = 18 ∨ p = 19 ∨ p = 21)) :=
  ⟨⟨live, by decide +kernel⟩,
   ⟨live, 19, by decide +kernel⟩⟩

/-- The hypotheses of LimitHoldsItsDevice. -/
theorem witness_LimitHoldsItsDevice :
    (∃ (s : State) (n : Nat), (s.clk.now % 40 = 0) ∧ (s.adm.rowAt ≠ s.clk.now + 1) ∧ (s.power = .on) ∧ (n < 16) ∧
     (limitOf (s.reg (Reg.ADM_RESV n)) ≠ 0) ∧ (s.tokens * limitOf (s.reg (Reg.ADM_RESV n)) < s.adm.charged.getD n 0 * 4096)) :=
  ⟨(regs { live with adm := { live.adm with charged := [300] } } [(Reg.ADM_RESV 0, word [(Fld.ADM_RESV_LIMIT, 4095)])]), 0, by decide +kernel⟩

/-- The hypotheses of TransfersAndStitches. -/
theorem witness_TransfersAndStitches :
    (∃ (s : State) (ch : Nat) (slot : Nat) (id : Nat) (o : Op) (r : ReadOp) (ws : List Waiter) (fill : Bool), (ch < 34) ∧ (slot < 12) ∧
     (s.fget (Reg.MCH_STATE ch) Fld.MCH_STATE_ENGINE = 1) ∧ (s.fbit (Reg.MCH_ROWPLAN ch) Fld.MCH_ROWPLAN_READ_MASK slot = true) ∧
     (s.firstLatched ch Purpose.takesRead = some (id, o)) ∧ (o.kind = .read r) ∧ (r.purpose = .serve ws fill) ∧ (s.pickEngine ≠ 2)) ∧
    (∃ (s : State) (ch : Nat) (slot : Nat) (id : Nat) (op : Nat) (o : Op) (q : Op) (r : ReadOp) (v : StripeOp), (ch < 34) ∧ (slot < 12) ∧
     (s.fget (Reg.MCH_STATE ch) Fld.MCH_STATE_ENGINE = 1) ∧ (s.fbit (Reg.MCH_ROWPLAN ch) Fld.MCH_ROWPLAN_READ_MASK slot = true) ∧
     (s.pickEngine ≠ 2) ∧ (s.firstLatched ch Purpose.takesRead = some (id, o)) ∧ (o.kind = .read r) ∧ (r.purpose = .old op) ∧ (r.onset = none) ∧
     (op ≠ id) ∧ (s.stripeOp op = some (q, v)) ∧ (1 < v.need) ∧ (v.started = false)) ∧
    (∃ (s : State) (ch : Nat) (slot : Nat) (id : Nat) (p : Nat) (o : Op) (q : Op) (r : ReadOp) (v : ReadOp), (ch < 34) ∧ (slot < 12) ∧
     (s.fget (Reg.MCH_STATE ch) Fld.MCH_STATE_ENGINE = 1) ∧ (s.fbit (Reg.MCH_ROWPLAN ch) Fld.MCH_ROWPLAN_READ_MASK slot = true) ∧
     (s.pickEngine ≠ 2) ∧ (s.firstLatched ch Purpose.takesRead = some (id, o)) ∧ (o.kind = .read r) ∧ (r.purpose = .part p) ∧ (r.onset = none) ∧
     (p ≠ id) ∧ (s.readOp p = some (q, v))) ∧
    (∃ (s : State) (ch : Nat) (slot : Nat) (id : Nat) (p : Program), (ch < 34) ∧ (slot < 12) ∧ (s.fget (Reg.MCH_STATE ch) Fld.MCH_STATE_ENGINE = 1) ∧
     (s.fbit (Reg.MCH_ROWPLAN ch) Fld.MCH_ROWPLAN_READ_MASK slot = false) ∧ (leastBy s.progBefore (s.movingOn ch) = some (id, p))) ∧
    (∃ (s : State) (ch : Nat) (slot : Nat) (id : Nat) (n : Nat) (o : Op) (r : ReadOp) (c : Bool) (e : MbEntry), (ch < 34) ∧ (slot < 12) ∧
     (s.fget (Reg.MCH_STATE ch) Fld.MCH_STATE_ENGINE = 1) ∧ (s.fbit (Reg.MCH_ROWPLAN ch) Fld.MCH_ROWPLAN_READ_MASK slot = false) ∧
     (s.movingOn ch = []) ∧ (s.firstLatched ch Purpose.isPage = some (id, o)) ∧ (o.kind = .read r) ∧ (r.purpose = .page n c) ∧ (r.onset = none) ∧
     (tget s.tlc.mb n = some e)) ∧
    (∃ (s : State) (prog : Nat) (v : Bool) (p : Program), (tget s.med.progs prog = some p) ∧ (p.running = true) ∧ (p.stitches < 7) ∧
     (v = false ∨ p.stitches = 0) ∧ (p.deferrals < 4) ∧ (s.NoWaits) ∧ (s.adm.ops = []) ∧ (s.med.rescues = []) ∧ (s.med.fails = [])) ∧
    (∃ (s : State) (prog : Nat) (e : Nat) (st : Nat) (p : Program), (tget s.med.progs prog = some p) ∧ (p.running = true) ∧ (p.kind = .swatch e st) ∧
     (p.op = none) ∧ (1 ≤ p.stitches) ∧ (s.NoWaits) ∧ (s.adm.ops = []) ∧ (s.med.rescues = []) ∧ (s.med.fails = [])) ∧
    (∃ (s : State) (prog : Nat) (op : Nat) (o : Op) (p : Program) (r : StripeOp), (tget s.med.progs prog = some p) ∧ (p.running = true) ∧
     (p.kind = .page) ∧ (p.op = some op) ∧ (s.stripeOp op = some (o, r)) ∧ (r.kind = .writeBack) ∧ (r.started = true) ∧ (r.failed = []) ∧
     (1 ≤ p.stitches) ∧ (s.NoWaits) ∧ (s.adm.ops.length = 1) ∧ (s.med.rescues = []) ∧ (s.med.fails = [])) ∧
    (∃ (s : State) (prog : Nat) (op : Nat) (o : Op) (p : Program) (r : StripeOp), (tget s.med.progs prog = some p) ∧ (p.running = true) ∧
     (p.kind = .page) ∧ (p.op = some op) ∧ (s.stripeOp op = some (o, r)) ∧ (r.kind = .refresh) ∧ (r.left = [prog]) ∧ (1 ≤ p.stitches) ∧
     (s.NoWaits) ∧ (s.adm.ops.length = 1) ∧ (s.med.rescues = []) ∧ (s.med.fails = [])) ∧
    (∃ (s : State) (prog : Nat) (op : Nat) (l : Nat) (o : Op) (p : Program) (r : StripeOp), (tget s.med.progs prog = some p) ∧ (p.running = true) ∧
     (p.kind = .page) ∧ (p.op = some op) ∧ (s.stripeOp op = some (o, r)) ∧ (r.kind = .writeBack) ∧ (r.started = true) ∧
     (r.left.any (· != prog) = true) ∧ (p.stitches = 7) ∧ (p.d < 16) ∧ (s.boundTo p.phn = .host l) ∧ (s.freeCount ≠ 0) ∧
     (s.isDead p.phn p.s = false) ∧ (s.NoWaits) ∧ (s.adm.ops.length = 1) ∧ (s.med.rescues = []) ∧ (s.med.fails = [])) :=
  ⟨⟨(regs (reading .latched) [(Reg.MCH_ROWPLAN (chanOf 5 0 2), word [(Fld.MCH_ROWPLAN_READ_MASK, 0xFFF)])]), chanOf 5 0 2, 11, 0, readOp1 .latched,
     read1 .latched, [.host 3], false, by decide +kernel⟩,
   ⟨(regs { media with adm := { media.adm with ops := [(0, opOf (.read { read1 .latched with purpose := .old 1 })), (1, opOf (.stripe { back1 with started := false, need := 2 }))], nextOp := 2 } } [(Reg.MCH_ROWPLAN (chanOf 5 0 2),
     word [(Fld.MCH_ROWPLAN_READ_MASK, 0xFFF)])]), chanOf 5 0 2, 11, 0, 1, opOf (.read { read1 .latched with purpose := .old 1 }),
     opOf (.stripe { back1 with started := false, need := 2 }), { read1 .latched with purpose := .old 1 },
     { back1 with started := false, need := 2 }, by decide +kernel⟩,
   ⟨(regs { media with adm := { media.adm with ops := [(0, opOf (.read { read1 .latched with purpose := .part 1 })), (1, opOf (.read { read1 .rebuild with need := 16 }))], nextOp := 2 } } [(Reg.MCH_ROWPLAN (chanOf 5 0 2),
     word [(Fld.MCH_ROWPLAN_READ_MASK, 0xFFF)])]), chanOf 5 0 2, 11, 0, 1, opOf (.read { read1 .latched with purpose := .part 1 }),
     opOf (.read { read1 .rebuild with need := 16 }), { read1 .latched with purpose := .part 1 }, { read1 .rebuild with need := 16 },
     by decide +kernel⟩,
   ⟨(regs { media with med := { media.med with progs := [(0, prog1)] } } [(Reg.MCH_ROWPLAN 0, 0)]), 0, 0, 0, prog1, by decide +kernel⟩,
   ⟨(regs paging [(Reg.MCH_ROWPLAN (chanOf 5 0 2), 0)]), chanOf 5 0 2, 11, 0, 0, opOf (.read pageRead), pageRead, true, entry1 16, by decide +kernel⟩,
   ⟨programming { prog1 with running := true, stitches := 6 }, 0, false, { prog1 with running := true, stitches := 6 }, by decide +kernel⟩,
   ⟨programming { prog1 with kind := .swatch 5 7, running := true, stitches := 1 }, 0, 5, 7,
     { prog1 with kind := .swatch 5 7, running := true, stitches := 1 }, by decide +kernel⟩,
   ⟨ending { prog1 with op := some 0, running := true, stitches := 7 } back1, 0, 0, opOf (.stripe { back1 with left := [0] }),
     { prog1 with op := some 0, running := true, stitches := 7 }, { back1 with left := [0] }, by decide +kernel⟩,
   ⟨ending { prog1 with op := some 0, running := true, stitches := 1 } { back1 with kind := .refresh }, 0, 0,
     opOf (.stripe { back1 with kind := .refresh, left := [0] }), { prog1 with op := some 0, running := true, stitches := 1 },
     { back1 with kind := .refresh, left := [0] }, by decide +kernel⟩,
   ⟨{ programming { prog1 with op := some 0, running := true, stitches := 7 } with adm := { media.adm with ops := [(0, opOf (.stripe { back1 with left := [0, 1] }))], nextOp := 1 } },
     0, 0, 0, opOf (.stripe { back1 with left := [0, 1] }), { prog1 with op := some 0, running := true, stitches := 7 },
     { back1 with left := [0, 1] }, by decide +kernel⟩⟩

/-- The hypotheses of SensesLatchTheLine. -/
theorem witness_SensesLatchTheLine :
    (∃ (s : State) (op : Nat) (n : Nat) (x : Sense) (v : Stored) (o : Op) (r : ReadOp), (s.readOp op = some (o, r)) ∧ (r.stage = .queued) ∧
     (r.busy = true) ∧ (s.decodeOf r x = some (v, n))) ∧
    (∃ (s : State) (op : Nat) (x : Sense) (o : Op) (r : ReadOp), (s.readOp op = some (o, r)) ∧ (r.stage = .queued) ∧ (r.busy = true) ∧
     (s.decodeOf r x = none)) ∧
    (∃ (s : State) (op : Nat) (n : Nat) (x : Sense) (v : Stored) (o : Op) (r : ReadOp), (s.readOp op = some (o, r)) ∧ (r.stage = .valley) ∧
     (r.busy = true) ∧ (s.decodeOf r x = some (v, n))) ∧
    (∃ (s : State) (op : Nat) (x : Sense) (o : Op) (r : ReadOp) (ws : List Waiter) (fill : Bool), (s.readOp op = some (o, r)) ∧ (r.stage = .valley) ∧
     (r.busy = true) ∧ (r.purpose = .serve ws fill) ∧ (s.decodeOf r x = none) ∧ (s.isSuspect r.phn r.s = false) ∧ (s.NoWaits) ∧
     (s.adm.ops.length = 1) ∧ (s.med.progs = []) ∧ (s.med.rescues = []) ∧ (s.med.fails = []) ∧ (s.med.hankRescue = []) ∧ (op < s.adm.nextOp)) :=
  ⟨⟨sensing .queued, 0, 6, 0x3F, blankStored, opOf (.read (senseOf .queued)), senseOf .queued, by decide +kernel⟩,
   ⟨sensing .queued, 0, 0x7F, opOf (.read (senseOf .queued)), senseOf .queued, by decide +kernel⟩,
   ⟨sensing .valley, 0, 0, 0, blankStored, opOf (.read (senseOf .valley)), senseOf .valley, by decide +kernel⟩,
   ⟨sensing .valley, 0, 0x7F, opOf (.read (senseOf .valley)), senseOf .valley, [.host 3], false, by decide +kernel⟩⟩

/-- The hypotheses of StripeRebuildServesOrPoisons. -/
theorem witness_StripeRebuildServesOrPoisons :
    (∃ (s : State) (op : Nat) (o : Op) (r : ReadOp) (ws : List Waiter) (fill : Bool), (s.readOp op = some (o, r)) ∧ (r.stage = .rebuild) ∧
     (r.need = 0) ∧ (r.purpose = .serve ws fill) ∧ (r.bad = []) ∧ (s.isSuspect r.phn r.s = false) ∧ (s.NoWaits) ∧ (s.adm.ops.length = 1)) ∧
    (∃ (s : State) (op : Nat) (o : Op) (r : ReadOp) (ws : List Waiter) (fill : Bool), (s.readOp op = some (o, r)) ∧ (r.stage = .rebuild) ∧
     (r.need = 0) ∧ (r.purpose = .serve ws fill) ∧ (r.nodes = []) ∧ (r.d < 16) ∧ (r.bad ≠ [] ∨ s.isSuspect r.phn r.s = true) ∧
     (s.zeroServed r = false) ∧ (op < s.adm.nextOp) ∧ (s.NoWaits) ∧ (s.adm.ops.length = 1) ∧ (s.med.progs = [])) :=
  ⟨⟨reading .rebuild, 0, readOp1 .rebuild, read1 .rebuild, [.host 3], false, by decide +kernel⟩,
   ⟨(let s := reading .rebuild; { s with crypto := { s.crypto with nodes := [(nodeKey 0 1, leaf1)] }, adm := { s.adm with ops := [(0, opOf (.read { read1 .rebuild with bad := [3] }))] } }),
     0, opOf (.read { read1 .rebuild with bad := [3] }), { read1 .rebuild with bad := [3] }, [.host 3], false, by decide +kernel⟩⟩

/-- The hypotheses of DecryptionEndsTheRead. -/
theorem witness_DecryptionEndsTheRead :
    (∃ (s : State) (op : Nat) (q : Nat) (o : Op) (r : ReadOp) (e : DlEntry) (fill : Bool) (d : Nat), (s.readOp op = some (o, r)) ∧
     (r.stage = .crypto) ∧ (r.nodes = []) ∧ (r.engine < 2) ∧ (s.keyLive r.key = true) ∧ (s.engineOn r.engine = true) ∧
     (s.engineFirst op o r = false) ∧ (r.purpose = .serve [.host q] fill) ∧ (r.onset = none) ∧ (s.poolGet r.line = none) ∧
     (s.mbGet r.line = none) ∧ (tget s.adm.dl q = some e) ∧ (e.kind = .read) ∧ (e.deadline = some d) ∧ (s.clk.now ≤ d) ∧ (s.lineZero r.line = true)) ∧
    (∃ (s : State) (op : Nat) (q : Nat) (o : Op) (r : ReadOp) (e : DlEntry) (fill : Bool) (d : Nat), (s.readOp op = some (o, r)) ∧
     (r.stage = .crypto) ∧ (r.nodes = []) ∧ (r.engine < 2) ∧ (s.keyLive r.key = true) ∧ (s.engineOn r.engine = true) ∧
     (s.engineFirst op o r = false) ∧ (r.purpose = .serve [.host q] fill) ∧ (r.onset = none) ∧ (s.poolGet r.line = none) ∧
     (s.mbGet r.line = none) ∧ (tget s.adm.dl q = some e) ∧ (e.kind = .read) ∧ (e.deadline = some d) ∧ (s.clk.now ≤ d) ∧
     (s.lineZero r.line = false) ∧ (s.lineLost r.line = false) ∧ (r.stored.poison = false) ∧ (s.tagOk r.line r.key r.stored = true)) :=
  ⟨⟨(let s := reading .crypto; { s with crypto := { s.crypto with nodes := [(nodeKey 0 1, { z := true, lost := false, maj := 0, min := [] })] } }), 0,
     3, readOp1 .crypto, read1 .crypto, entryDl, false, 1140, by decide +kernel⟩,
   ⟨decrypting, 0, 3, opOf (.read verified), verified, entryDl, false, 1140, rfl, rfl,
     by and_intros <;> first | rfl | decide +kernel | exact decrypting_tagOk⟩⟩

/-- The hypotheses of CounterNodesComeAndGo. -/
theorem witness_CounterNodesComeAndGo :
    (∃ (s : State) (op : Nat) (l : Nat) (i : Nat) (o : Op) (r : ReadOp), (s.readOp op = some (o, r)) ∧ (r.nodes = [(l, i)]) ∧ (s.cached l i = none) ∧
     ((s.crypto.cache.filter fun e => e.2.onChip && e.1 % 2048 == nodeKey l i % 2048).length < 16)) ∧
    (∃ (s : State) (l : Nat) (i : Nat) (due : Nat) (c : CacheNode), (s.cached l i = some c) ∧ (c.due = some due) ∧ ((∀ e ∈ s.crypto.cache, ∀ d,
     e.2.due = some d → due ≤ d)) ∧ (s.NoWaits) ∧ (s.adm.ops = [])) :=
  ⟨⟨(let s := reading .crypto; { s with adm := { s.adm with ops := [(0, opOf (.read { read1 .crypto with nodes := [(0, 1)] }))] } }), 0, 0, 1,
     opOf (.read { read1 .crypto with nodes := [(0, 1)] }), { read1 .crypto with nodes := [(0, 1)] }, by decide +kernel⟩,
   ⟨{ live with crypto := { live.crypto with cache := [(nodeKey 0 1, { blk := { z := false, lost := false, maj := 1, min := [] }, due := some 50, onChip := true })] } },
     0, 1, 50, { blk := { z := false, lost := false, maj := 1, min := [] }, due := some 50, onChip := true }, by decide +kernel⟩⟩

/-- The hypotheses of WriteBacksGoOutAndEnd. -/
theorem witness_WriteBacksGoOutAndEnd :
    (∃ (s : State) (line : Nat) (p : PoolLine), (s.poolGet line = some p) ∧ (s.wbMay line p = true) ∧ (s.wm.errs = []) ∧ ((∀ q ∈ s.tlc.pool,
     poolBefore q.2 p = true → s.wbMay q.1 q.2 = false)) ∧ (s.isDead (s.hostEntry (lhnOf line)).phn (stripeOf line) = false)) ∧
    (∃ (s : State) (op : Nat) (o : Op) (r : StripeOp) (x : SLine) (p : PoolLine), (s.stripeOp op = some (o, r)) ∧ (r.kind = .writeBack) ∧
     (r.started = true) ∧ (r.left = []) ∧ (r.failed = []) ∧ (r.lines = [x]) ∧ (s.poolGet x.line = some p) ∧ (p.op = some op) ∧ (p.again = false) ∧
     (s.NoWaits) ∧ (s.adm.ops.length = 1)) ∧
    (∃ (s : State) (n : Nat) (e : MbEntry), (tget s.tlc.mb n = some e) ∧ (s.mbMay e = true) ∧ ((∀ x ∈ s.tlc.mb,
     mbBefore x.2 e = true → s.mbMay x.2 = false)) ∧ (s.isDead e.phn e.s = false) ∧ (s.wm.errs = [])) :=
  ⟨⟨media, 0, dirty, by decide +kernel⟩,
   ⟨writing, 0, opOf (.stripe back1), back1, sline0, { dirty with op := some 0 }, by decide +kernel⟩,
   ⟨{ media with tlc := { media.tlc with mb := [(0, { entry1 0 with state := .merged })] } }, 0, { entry1 0 with state := .merged }, by decide +kernel⟩⟩

/-- The hypotheses of DriftPassesMediumTime. -/
theorem witness_DriftPassesMediumTime :
    (∃ (s : State) (codes : List (Nat × Nat × List (Nat × Nat))), (s.ready rDRIFT = true) ∧ ((s.medTime + 1) % 64 ≠ 0) ∧ (s.medTime + 1 < 2 ^ 38) ∧
     (s.fget Reg.MCH_DCLK_STAT Fld.MCH_DCLK_STAT_LABEL_HOLD = 0)) ∧
    (∃ (s : State) (ch : Nat) (die : Nat) (codes : List (Nat × Nat)), (s.ready rDRIFT = true) ∧ (s.dieResponds ch die = true) ∧
     (s.medTime + 1 < 2 ^ 38) ∧ (s.fitPoints ch die (s.medTime + 1) codes ≠ [])) ∧
    (∃ (s : State) (ch : Nat) (die : Nat) (codes : List (Nat × Nat × List (Nat × Nat))), (ch < 34) ∧ (die < 9)) ∧
    (∃ (s : State) (codes : List (Nat × Nat × List (Nat × Nat))), (s.ready rDRIFT = true) ∧ ((s.medTime + 1) % 64 = 0) ∧ (s.medTime + 1 < 2 ^ 38) ∧
     (s.labelUsed ((s.label + 1) % 64) = false)) ∧
    (∃ (s : State) (v : List (Nat × Nat × Nat)), (s.ready rMEDIA = true) ∧ (s.ready rDRIFT = false) ∧ (s.plat.coldHold = false)) ∧
    (∃ (s : State) (e : Nat) (st : Nat), (s.ready rMEDIA = true) ∧ (s.ready rDRIFT = false) ∧ (s.plat.coldHold = false) ∧ (s.med.eDown = some (e,
     st)) ∧ (max (e * 64 + st) s.med.timeSaved < 2 ^ 38)) :=
  ⟨⟨live, [(0, 0, [(0, 192)])], by decide +kernel⟩,
   ⟨media, 0, 0, [(0, 192)], by decide +kernel, by decide +kernel, by decide +kernel, media_fitPoints⟩,
   ⟨media, 33, 8, [(33, 8, [(0, 4095)])], by decide +kernel⟩,
   ⟨(regs media [(Reg.MCH_EPOCH, word [(Fld.MCH_EPOCH_STEP, 63)])]), [], by decide +kernel⟩,
   ⟨(live.setReg Reg.RDY_STATUS (0x1FFFF ^^^ BitVec.ofNat 64 (2 ^ rDRIFT))), [(0, 0, 192)], by decide +kernel⟩,
   ⟨(let s := live.setReg Reg.RDY_STATUS (0x1FFFF ^^^ BitVec.ofNat 64 (2 ^ rDRIFT)); { s with med := { s.med with eDown := some (2, 63) } }), 2, 63,
     by decide +kernel⟩⟩

/-- The hypotheses of RefreshVisitStagesThePage. -/
theorem witness_RefreshVisitStagesThePage :
    (∃ (s : State) (phn : Nat) (st : Nat) (d : Nat), (s.power = .on) ∧ (s.ready rDRIFT = true) ∧ (phn < 2 ^ 23) ∧ (st < 128) ∧ (d ≤ 16) ∧
     (s.canSense phn st d = true) ∧ (s.stripeBusy phn st = false) ∧ (s.walkRoom phn st [d] = true) ∧ (s.refreshDue phn st d = true)) ∧
    (∃ (s : State) (phn : Nat) (st : Nat) (d : Nat), (s.canSense phn st d = true) ∧ (s.refreshDue phn st d = false)) ∧
    (∃ (s : State) (ch : Nat) (v : W64), (ch < 34) ∧ (6 ≤ getF v Fld.MCH_ROWPLAN_READ_SLOTS) ∧ (getF v Fld.MCH_ROWPLAN_READ_SLOTS ≤ 9)) ∧
    (∃ (s : State) (ch : Nat) (v : W64), (getF v Fld.MCH_ROWPLAN_READ_SLOTS < 6 ∨ 9 < getF v Fld.MCH_ROWPLAN_READ_SLOTS)) :=
  ⟨⟨{ media with med := { media.med with refreshQ := [(5, 127, 16, 900)] } }, 5, 127, 16, by decide +kernel⟩,
   ⟨media, 5, 0, 0, by decide +kernel⟩,
   ⟨media, 33, word [(Fld.MCH_ROWPLAN_READ_SLOTS, 9)], by decide +kernel⟩,
   ⟨media, 33, word [(Fld.MCH_ROWPLAN_READ_SLOTS, 10)], by decide +kernel⟩⟩

/-- The hypotheses of DiesAndChannelsRecover. -/
theorem witness_DiesAndChannelsRecover :
    (∃ (s : State) (ch : Nat) (die : Nat), (ch < 34) ∧ (die < 9) ∧ (s.fbit (Reg.MCH_STATE ch) Fld.MCH_STATE_DIE_FAILED die = false) ∧
     (s.fget (Reg.MCH_STATE ch) Fld.MCH_STATE_ENGINE ≠ 0) ∧ (s.indexOf ch die = none) ∧ (s.fget (Reg.MCH_STATE ch) Fld.MCH_STATE_REBUILD = 0) ∧
     (s.adm.ops = []) ∧ (s.med.progs = [])) ∧
    (∃ (s : State) (ch : Nat) (die : Nat) (a : Nat) (sp : Nat), (ch < 34) ∧ (die < 9) ∧
     (s.fbit (Reg.MCH_STATE ch) Fld.MCH_STATE_DIE_FAILED die = false) ∧ (s.fget (Reg.MCH_STATE ch) Fld.MCH_STATE_ENGINE ≠ 0) ∧
     (s.indexOf ch die = some a) ∧ (s.fget (Reg.MCH_STATE ch) Fld.MCH_STATE_REBUILD = 0) ∧
     ((s.fsetBit (Reg.MCH_STATE ch) Fld.MCH_STATE_DIE_FAILED die true).spareDie ch = some sp) ∧ (s.adm.ops = []) ∧ ((∀ p ∈ s.med.progs,
     p.2.deferrals < 4))) ∧
    (∃ (s : State) (ch : Nat), (ch < 34) ∧ (s.fget (Reg.MCH_STATE ch) Fld.MCH_STATE_REBUILD = 1) ∧ (s.ready rDRIFT = true) ∧
     (s.fget (Reg.MCH_REBUILD ch) Fld.MCH_REBUILD_DONE = 2 ^ 26)) ∧
    (∃ (s : State) (ch : Nat), (ch < 34) ∧ (s.fget (Reg.MCH_STATE ch) Fld.MCH_STATE_ENGINE = 1) ∧ (s.restartedLately ch = false) ∧ (s.adm.ops = []) ∧
     ((∀ p ∈ s.med.progs, p.2.deferrals < 4))) ∧
    (∃ (s : State) (ch : Nat), (ch < 34) ∧ (s.fget (Reg.MCH_STATE ch) Fld.MCH_STATE_ENGINE = 2) ∧ (s.NoWaits) ∧ (s.adm.ops = []) ∧ (s.med.progs = [])) :=
  ⟨⟨media, 33, 8, by decide +kernel⟩,
   ⟨media, 0, 0, 0, 8, by decide +kernel⟩,
   ⟨(regs media [(Reg.MCH_STATE 3, word [(Fld.MCH_STATE_ENGINE, 1), (Fld.MCH_STATE_REBUILD, 1)]), (Reg.MCH_DIESUB 3, word [(Fld.MCH_DIESUB_REB_VALID,
     1), (Fld.MCH_DIESUB_REB_ADIE, 7)]), (Reg.MCH_REBUILD 3, word [(Fld.MCH_REBUILD_TARGET, 8), (Fld.MCH_REBUILD_DONE, 2 ^ 26)])]), 3,
     by decide +kernel⟩,
   ⟨media, 33, by decide +kernel⟩,
   ⟨(regs media [(Reg.MCH_STATE 3, word [(Fld.MCH_STATE_ENGINE, 2)])]), 3, by decide +kernel⟩⟩

/-- The hypotheses of MapCheckpointsAndRestores. -/
theorem witness_MapCheckpointsAndRestores :
    (∃ (s : State), (s.hanks.mapsReady = true) ∧ (s.hanks.ckptRun = none) ∧ (16384 ≤ s.fget Reg.TLC_JRNL Fld.TLC_JRNL_MAPJ)) ∧
    (∃ (s : State) (q : Nat), (s.hanks.ckptRun = some q) ∧ (jFrom s.hanks.imgA.seq q = true) ∧ (jFrom q s.hanks.imgA.seq = false) ∧
     (jFrom s.hanks.imgB.seq q = true) ∧ (jFrom q s.hanks.imgB.seq = false) ∧ (s.NoWaits) ∧ (s.adm.ops = [])) ∧
    (∃ (s : State) (sys : Bool) (idx : Nat), ((sys, idx) ∈ s.hanks.restore) ∧ (s.NoWaits) ∧ (s.adm.ops = [])) ∧
    (∃ (s : State) (sys : Bool) (idx : Nat) (dst : Nat), (s.fget Reg.TLC_MIG_CTL Fld.TLC_MIG_CTL_STATIC_EN = 1) ∧ (s.hanks.mapsReady = true) ∧
     (sweepHank s.hanks.sweep = (sys, idx)) ∧ (s.migOf sys idx = none) ∧ (s.migActive < 16) ∧ (s.journalFull = false) ∧
     (s.hanks.fillRebuild = false) ∧ (s.hanks.evac = []) ∧ (s.adm.held.getD 17 false = false) ∧
     (s.fget Reg.TLC_MIG_STAT Fld.TLC_MIG_STAT_WEAR_PAUSED = 0) ∧ (State.pickFree s (s.entry sys idx).phn sys (2 ^ 23) s.hanks.cursor = some dst)) ∧
    (∃ (s : State) (sys : Bool) (idx : Nat), (s.fget Reg.TLC_MIG_CTL Fld.TLC_MIG_CTL_STATIC_EN = 1) ∧ (s.hanks.mapsReady = true) ∧
     (sweepHank s.hanks.sweep = (sys, idx)) ∧ ((s.migOf sys idx).isSome = true)) :=
  ⟨⟨(regs live [(Reg.TLC_JRNL, word [(Fld.TLC_JRNL_MAPJ, 16384)])]), by decide +kernel⟩,
   ⟨{ live with hanks := { live.hanks with ckptRun := some 3 } }, 3, by decide +kernel⟩,
   ⟨{ live with hanks := { live.hanks with restore := [(false, 0)], imgA := { live.hanks.imgA with host := live.hanks.host } } }, false, 0,
     by decide +kernel⟩,
   ⟨swept, false, 0, 2 ^ 19 + 9, by decide +kernel⟩,
   ⟨{ swept with hanks := { swept.hanks with migs := [(0, mig1 false .copying)] } }, false, 0, by decide +kernel⟩⟩

/-- The hypotheses of MigrationCopiesAndVerifies. -/
theorem witness_MigrationCopiesAndVerifies :
    (∃ (s : State) (m : Nat) (prog : Nat) (op : Nat) (g : Mig) (p : Program) (o : Op) (r : StripeOp), (tget s.hanks.migs m = some g) ∧
     (g.state = .copying) ∧ (m < s.hanks.nextMig) ∧ (tget s.med.progs prog = some p) ∧ (p.running = true) ∧ (p.kind = .copy g.src) ∧
     (p.op = some op) ∧ (s.stripeOp op = some (o, r)) ∧ (r.kind = .copy m) ∧ (r.left = [prog]) ∧ (1 ≤ p.stitches) ∧ (s.NoWaits) ∧
     (s.adm.ops.length = 1) ∧ (s.med.rescues = []) ∧ (s.med.fails = [])) ∧
    (∃ (s : State) (m : Nat) (g : Mig), (tget s.hanks.migs m = some g) ∧ (g.state = .copying) ∧ (g.bitmap = BitVec.allOnes 128)) ∧
    (∃ (s : State) (m : Nat) (g : Mig), (tget s.hanks.migs m = some g) ∧ (g.bitmap ≠ BitVec.allOnes 128)) ∧
    (∃ (s : State) (m : Nat) (found : List Nat) (g : Mig), (tget s.hanks.migs m = some g) ∧ (g.state = .verifying) ∧ (g.bad = false) ∧
     (s.mismatches g found = 0)) ∧
    (∃ (s : State) (m : Nat) (found : List Nat) (g : Mig), (tget s.hanks.migs m = some g) ∧ (g.state = .verifying) ∧ (g.bad = false) ∧
     (s.mismatches g found ≠ 0) ∧ (s.mismatches g found &&& g.again = 0)) ∧
    (∃ (s : State) (m : Nat) (found : List Nat) (g : Mig), (tget s.hanks.migs m = some g) ∧ (g.state = .verifying) ∧ (g.bad = false) ∧
     (s.mismatches g found &&& g.again ≠ 0) ∧ (s.journalFull = false) ∧ (s.med.progs = [])) ∧
    (∃ (s : State) (m : Nat) (found : List Nat) (g : Mig), (tget s.hanks.migs m = some g) ∧ (g.state = .verifying) ∧ (g.bad = true) ∧
     (s.journalFull = false) ∧ (s.med.progs = [])) :=
  ⟨⟨{ ending copied1 { back1 with kind := .copy 0, lines := [] } with hanks := (migrating false .copying).hanks }, 0, 0, 0, mig1 false .copying,
     copied1, opOf (.stripe { back1 with kind := .copy 0, lines := [], left := [0] }), { back1 with kind := .copy 0, lines := [], left := [0] },
     by decide +kernel⟩,
   ⟨{ media with hanks := { media.hanks with migs := [(0, { mig1 true .copying with bitmap := BitVec.allOnes 128 })] } }, 0,
     { mig1 true .copying with bitmap := BitVec.allOnes 128 }, by decide +kernel⟩,
   ⟨migrating false .copying, 0, mig1 false .copying, by decide +kernel⟩,
   ⟨migrating false .verifying, 0, [], mig1 false .verifying, by decide +kernel⟩,
   ⟨migrating false .verifying, 0, [127], mig1 false .verifying, by decide +kernel⟩,
   ⟨(let s := live; { s with hanks := { s.hanks with migs := [(0, { mig1 false .verifying with again := 2 })] } }), 0, [1],
     { mig1 false .verifying with again := 2 }, by decide +kernel⟩,
   ⟨(let s := live; { s with hanks := { s.hanks with migs := [(0, { mig1 false .verifying with bad := true })] } }), 0, [],
     { mig1 false .verifying with bad := true }, by decide +kernel⟩⟩

/-- The hypotheses of MigrationCommitsAndReleases. -/
theorem witness_MigrationCommitsAndReleases :
    (∃ (s : State) (m : Nat) (g : Mig), (tget s.hanks.migs m = some g) ∧ (g.state = .copied) ∧ (s.journalFull = false) ∧ (s.hankBusy g.src = false) ∧
     (s.wm.errs = []) ∧ (s.NoWaits) ∧ (s.adm.ops = [])) ∧
    (∃ (s : State) (m : Nat) (g : Mig), (tget s.hanks.migs m = some g) ∧ (g.state = .committed) ∧ (s.hanks.evac = []) ∧ (s.hanks.retireQ = [])) ∧
    (∃ (s : State) (m : Nat) (g : Mig), (tget s.hanks.migs m = some g) ∧ (g.state = .committed) ∧ (s.hanks.evac = []) ∧ (s.hanks.retireQ = []) ∧
     (g.kind = .wear ∨ g.kind = .static)) ∧
    (∃ (s : State) (m : Nat) (g : Mig), (tget s.hanks.migs m = some g) ∧ (g.state = .committed) ∧ (s.hanks.evac = []) ∧ (s.hanks.retireQ = []) ∧
     (g.kind = .retire ∨ g.kind = .evac)) :=
  ⟨⟨migrating false .copied, 0, mig1 false .copied, by decide +kernel⟩,
   ⟨migrating false .committed, 0, mig1 false .committed, by decide +kernel⟩,
   ⟨migrating false .committed, 0, mig1 false .committed, by decide +kernel⟩,
   ⟨{ live with hanks := { live.hanks with migs := [(0, { mig1 false .committed with kind := .retire })] } }, 0,
     { mig1 false .committed with kind := .retire }, by decide +kernel⟩⟩

/-- The hypotheses of HankWorkEndsInZeros. -/
theorem witness_HankWorkEndsInZeros :
    (∃ (s : State) (lhn : Nat), (tget s.hanks.work lhn = some .hint) ∧ (s.journalFull = false) ∧ (s.adm.held.getD (s.partyOf lhn) false = false) ∧
     (dget (fun _ => []) s.hanks.zeroed lhn = []) ∧ (s.wm.errs = [])) ∧
    (∃ (s : State) (lhn : Nat), (tget s.hanks.work lhn = some (.zero none)) ∧ (s.journalFull = false) ∧ (dget (fun _ => []) s.hanks.zeroed lhn = []) ∧
     (s.wm.errs = [])) ∧
    (∃ (s : State) (lhn : Nat), (tget s.hanks.work lhn = some (.secure none)) ∧ (s.journalFull = false) ∧ (s.migOpen lhn = false) ∧
     (s.eraseOf lhn = none) ∧ (s.hankBusy (s.hostEntry lhn).phn = false) ∧ (s.energy.halfA.blanked = true) ∧ (s.energy.halfB.blanked = true) ∧
     (dget (fun _ => []) s.hanks.zeroed lhn = []) ∧ (s.wm.errs = [])) :=
  ⟨⟨working .hint, 0, by decide +kernel⟩,
   ⟨working (.zero none), 0, by decide +kernel⟩,
   ⟨working (.secure none), 0, by decide +kernel⟩⟩

/-- The hypotheses of ScrubberChecksALine. -/
theorem witness_ScrubberChecksALine :
    (∃ (s : State), (s.fget Reg.WME_SCRUB_CTL Fld.WME_SCRUB_CTL_EN = 1) ∧ (s.adm.held.getD 16 false = false) ∧ (s.ready rWMEM = true) ∧
     (s.fget Reg.PWR_REQ Fld.PWR_REQ_D11_OFF = 0) ∧ (s.wm.errs = [])) ∧
    (∃ (s : State) (k : Nat) (b : Nat), (s.fget Reg.WME_SCRUB_CTL Fld.WME_SCRUB_CTL_EN = 1) ∧ (s.adm.held.getD 16 false = false) ∧
     (s.ready rWMEM = true) ∧ (s.fget Reg.PWR_REQ Fld.PWR_REQ_D11_OFF = 0) ∧ (s.wm.errs = []) ∧ (s.fget Reg.WME_STATE Fld.WME_STATE_FAILED = 0) ∧
     (s.fget Reg.WME_FLIP_CTL Fld.WME_FLIP_CTL_ARMED = 0) ∧ (k < 9) ∧ (b < 72) ∧ ((∀ n,
     n < 16 → s.fget (Reg.WME_CE_LOG n) Fld.WME_CE_LOG_VALID = 0))) ∧
    (∃ (s : State), (s.fget Reg.WME_STATE Fld.WME_STATE_REBUILD = 1)) :=
  ⟨⟨(regs live [(Reg.WME_SCRUB_CTL, word [(Fld.WME_SCRUB_CTL_EN, 1), (Fld.WME_SCRUB_CTL_CURSOR, 2 ^ 22 - 1)])]), by decide +kernel⟩,
   ⟨(regs live [(Reg.WME_SCRUB_CTL, word [(Fld.WME_SCRUB_CTL_EN, 1), (Fld.WME_SCRUB_CTL_CURSOR, 2 ^ 22 - 1)])]), 8, 71, by decide +kernel⟩,
   ⟨(regs live [(Reg.WME_STATE, word [(Fld.WME_STATE_REBUILD, 1), (Fld.WME_STATE_FAILED, 2)])]), by decide +kernel⟩⟩

/-- The hypotheses of WorkingMemoryAndCache. -/
theorem witness_WorkingMemoryAndCache :
    (∃ (s : State) (wma : Nat) (e : Narrow), (tget s.wm.narrow wma = some e) ∧ (s.fget Reg.WME_FLIP_CTL Fld.WME_FLIP_CTL_ARMED = 0) ∧ (s.wm.errs = [])) ∧
    (∃ (s : State) (n : Nat) (v : W64), (n < 16) ∧ (getF v Fld.WME_CE_LOG_VALID = 1) ∧ (s.setNow (Reg.WME_CE_LOG n) Fld.WME_CE_LOG_VALID = 0)) ∧
    (∃ (s : State) (v : W64), (getF v Fld.WME_CE_LOG_STAT_CLEAR = 1)) ∧
    (∃ (s : State) (v : W64), (s.fget Reg.WME_FLIP_CTL Fld.WME_FLIP_CTL_ARMED = 0)) ∧
    (∃ (s : State) (v : W64), (s.fget Reg.WME_FLIP_CTL Fld.WME_FLIP_CTL_ARMED = 1)) ∧
    (∃ (s : State), (s.tlc.inval = true) ∧ (s.clk.pll = true) ∧ (s.tlc.maint = none)) ∧
    (∃ (s : State) (v : W64) (line : Nat) (p : PoolLine), (s.tlc.maint = none) ∧ (getF v Fld.TLC_MAINT_SCOPE = 0) ∧ (s.poolGet line = some p)) ∧
    (∃ (s : State) (v : W64), (s.tlc.maint = none) ∧ (getF v Fld.TLC_MAINT_SCOPE = 2)) ∧
    (∃ (s : State) (v : W64), (s.tlc.maint = none) ∧ (getF v Fld.TLC_MAINT_SCOPE = 1)) ∧
    (∃ (s : State) (v : W64), (s.tlc.maint = none) ∧ (getF v Fld.TLC_MAINT_SCOPE = 0) ∧ (s.tlc.pool = [])) ∧
    (∃ (s : State) (v : W64), (s.tlc.maint.isSome = true)) ∧
    (∃ (s : State) (n : Nat) (v : W64), (n < 64) ∧ (s.rwlLocked = false) ∧ (getF v Fld.TLC_ATTR_BASE ≤ getF v Fld.TLC_ATTR_LIMIT) ∧
     (getF v Fld.TLC_ATTR_LIMIT < hostHanks) ∧ (getF v Fld.TLC_ATTR_WPOL < 2) ∧ (getF v Fld.TLC_ATTR_ALLOC ≠ 3)) ∧
    (∃ (s : State) (lhn : Nat) (v : W64), (s.rwlLocked = false) ∧ (getF v Fld.TLC_ATTR_VALID = 1) ∧ (getF v Fld.TLC_ATTR_BASE ≤ lhn) ∧
     (lhn ≤ getF v Fld.TLC_ATTR_LIMIT) ∧ (getF v Fld.TLC_ATTR_LIMIT < hostHanks) ∧ (getF v Fld.TLC_ATTR_WPOL < 2) ∧ (getF v Fld.TLC_ATTR_ALLOC ≠ 3)) ∧
    (∃ (s : State) (n : Nat) (v : W64), (s.rwlLocked = true)) :=
  ⟨⟨{ live with wm := { live.wm with narrow := [(7, { bytes := 1, mask := 1, order := 0 })] } }, 7, { bytes := 1, mask := 1, order := 0 },
     by decide +kernel⟩,
   ⟨live, 15, word [(Fld.WME_CE_LOG_VALID, 1)], by decide +kernel⟩,
   ⟨live, word [(Fld.WME_CE_LOG_STAT_CLEAR, 1)], by decide +kernel⟩,
   ⟨live, BitVec.allOnes 64, by decide +kernel⟩,
   ⟨(regs live [(Reg.WME_FLIP_CTL, word [(Fld.WME_FLIP_CTL_ARMED, 1)])]), 0, by decide +kernel⟩,
   ⟨{ live with tlc := { live.tlc with inval := true } }, by decide +kernel⟩,
   ⟨live, 0, 0, dirty, by decide +kernel⟩,
   ⟨{ live with tlc := { live.tlc with cache := [(16 * 32767 + 15, { line := 1, data := 2, poison := false })] } }, word [(Fld.TLC_MAINT_SCOPE, 2),
     (Fld.TLC_MAINT_SET, 32767), (Fld.TLC_MAINT_WAY, 15)], by decide +kernel⟩,
   ⟨live, word [(Fld.TLC_MAINT_SCOPE, 1)], by decide +kernel⟩,
   ⟨{ live with tlc := { live.tlc with pool := [] } }, 0, by decide +kernel⟩,
   ⟨{ live with tlc := { live.tlc with maint := some { op := 1, scope := 0, a := 0, b := 0, cmd := none, left := [0], inval := false } } }, 0,
     by decide +kernel⟩,
   ⟨live, 63, word [(Fld.TLC_ATTR_BASE, hostHanks - 1), (Fld.TLC_ATTR_LIMIT, hostHanks - 1), (Fld.TLC_ATTR_VALID, 1)], by decide +kernel⟩,
   ⟨live, 9, word [(Fld.TLC_ATTR_BASE, 9), (Fld.TLC_ATTR_LIMIT, 9), (Fld.TLC_ATTR_VALID, 1), (Fld.TLC_ATTR_WPOL, 1)], by decide +kernel⟩,
   ⟨lockedBefore, 63, 0, by decide +kernel⟩⟩

/-- The hypotheses of GaugeAndBanks. -/
theorem witness_GaugeAndBanks :
    (∃ (s : State) (v : Nat) (c : Nat) (n : Nat), (s.power = .on) ∧ (v < 65536)) ∧
    (∃ (s : State), (s.power = .on) ∧ (s.fget Reg.GAU_STAT Fld.GAU_STAT_STATE = 0)) ∧
    (∃ (s : State) (b : Nat), (s.canTest = true) ∧ (s.nextBank = some b)) ∧
    (∃ (s : State) (v : W64), (getF v Fld.GAU_TEST_CTL_FORCE = 1) ∧ (getF v Fld.GAU_TEST_CTL_FBANK < 12) ∧ (s.canTest = true) ∧
     (s.bankState (getF v Fld.GAU_TEST_CTL_FBANK) < 2)) ∧
    (∃ (s : State) (b : Nat) (esr : Nat) (cap : Nat), (b < 12) ∧ (s.energy.test = some (b, none)) ∧ (s.energy.testSpare = false) ∧ (s.cmds = []) ∧
     (600 ≤ cap) ∧ (esr ≤ 250)) ∧
    (∃ (s : State) (b : Nat) (esr : Nat) (cap : Nat), (b < 12) ∧ (s.energy.test = some (b, none)) ∧ (s.energy.testSpare = false) ∧ (s.cmds = []) ∧
     (cap < 600 ∨ 250 < esr)) ∧
    (∃ (s : State) (b : Nat), (b < 12) ∧ (s.bankState b < 4) ∧ (s.power ≠ .none) ∧ (s.energy.test = none)) ∧
    (∃ (s : State) (b : Nat), (b < 12) ∧ (s.bankState b = 3)) ∧
    (∃ (s : State) (b : Nat) (esr : Nat) (cap : Nat) (ok : Bool), (b < 12) ∧ (s.bankState b = 1) ∧ (s.canTest = true)) ∧
    (∃ (s : State) (b : Nat) (esr : Nat) (cap : Nat), (b < 12) ∧ (s.energy.test = some (b, none)) ∧ (s.energy.testSpare = true) ∧
     (s.energy.wantSpare = 0) ∧ (s.bankState b = 2) ∧ (s.cmds = []) ∧ (600 ≤ cap) ∧ (esr ≤ 250)) ∧
    (∃ (s : State) (b : Nat) (esr : Nat) (cap : Nat), (b < 12) ∧ (s.energy.test = some (b, none)) ∧ (s.energy.testSpare = true) ∧ (s.bankState b = 2) ∧
     (s.cmds = [])) :=
  ⟨⟨live, 65535, 25, 2, by decide +kernel⟩,
   ⟨on, by decide +kernel⟩,
   ⟨live, 0, by decide +kernel⟩,
   ⟨live, word [(Fld.GAU_TEST_CTL_FORCE, 1), (Fld.GAU_TEST_CTL_FBANK, 11)], by decide +kernel⟩,
   ⟨{ live with energy := { live.energy with test := some (11, none) } }, 11, 250, 600, by decide +kernel⟩,
   ⟨{ live with energy := { live.energy with test := some (11, none) } }, 11, 251, 599, by decide +kernel⟩,
   ⟨live, 11, by decide +kernel⟩,
   ⟨(regs live [(Reg.GAU_BANK 11, word [(Fld.GAU_BANK_STATE, 3)])]), 11, by decide +kernel⟩,
   ⟨(regs live [(Reg.GAU_BANK 11, word [(Fld.GAU_BANK_STATE, 1)])]), 11, 250, 600, true, by decide +kernel⟩,
   ⟨{ (regs live [(Reg.GAU_BANK 11, word [(Fld.GAU_BANK_STATE, 2)])]) with energy := { live.energy with test := some (11, none), testSpare := true } },
     11, 250, 600, by decide +kernel⟩,
   ⟨{ (regs live [(Reg.GAU_BANK 11, word [(Fld.GAU_BANK_STATE, 2)])]) with energy := { live.energy with test := some (11, none), testSpare := true } },
     11, 250, 600, by decide +kernel⟩⟩

/-- The hypotheses of BindoffStarts. -/
theorem witness_BindoffStarts :
    (∃ (s : State), (s.power = .on) ∧ (s.reserveCarries = true)) ∧
    (∃ (s : State) (z : Nat) (k : Nat) (v : Int), (s.power = .on) ∧ (s.adm.critical = true) ∧ (s.adm.dl = []) ∧ (s.plat.thermCrit = some (z, k, v)) ∧
     (z < 5) ∧ (k < 58)) :=
  ⟨⟨live, by decide +kernel⟩,
   ⟨{ live with adm := { live.adm with critical := true }, plat := { live.plat with thermCrit := some (4, 57, 130) } }, 4, 57, 130, by decide +kernel⟩⟩

/-- The hypotheses of BindoffRunsToItsEnd. -/
theorem witness_BindoffRunsToItsEnd :
    (∃ (s : State), (s.power = .bindoff) ∧ (s.energy.drained = false) ∧ (s.energy.low = false) ∧ (s.energy.rcd.noImage = false) ∧ (s.canFreeze = true)) ∧
    (∃ (s : State), (s.atPhase 0 = true) ∧ (s.med.progs = [])) ∧
    (∃ (s : State), (s.atPhase 1 = true)) ∧
    (∃ (s : State), (s.atPhase 2 = true)) ∧
    (∃ (s : State), (s.atPhase 3 = true) ∧ (s.clk.p12v = false) ∧ (s.energy.prepareCmd = none)) ∧
    (∃ (s : State), (s.atPhase 3 = true) ∧ (s.clk.p12v = true) ∧ (s.energy.pwrdis = false) ∧ (s.energy.trig = 3) ∧ (s.energy.prepareCmd = none)) ∧
    (∃ (s : State) (w : Nat), (s.power = .bindoff) ∧ (s.clk.p12v = false) ∧ (s.energy.rcd.noImage = false) ∧ (s.energy.rcd.phase = 1)) :=
  ⟨⟨{ live with power := .bindoff }, by decide +kernel⟩,
   ⟨{ live with power := .bindoff, energy := { live.energy with drained := true, rcd := { live.energy.rcd with phase := 0 } } }, by decide +kernel⟩,
   ⟨{ live with power := .bindoff, energy := { live.energy with drained := true, rcd := { live.energy.rcd with phase := 1 } } }, by decide +kernel⟩,
   ⟨{ live with power := .bindoff, energy := { live.energy with drained := true, rcd := { live.energy.rcd with phase := 2 } } }, by decide +kernel⟩,
   ⟨{ live with power := .bindoff, clk := { live.clk with p12v := false }, energy := { live.energy with drained := true, rcd := { live.energy.rcd with phase := 3 } } },
     by decide +kernel⟩,
   ⟨{ live with power := .bindoff, energy := { live.energy with drained := true, trig := 3, rcd := { live.energy.rcd with phase := 3 } } },
     by decide +kernel⟩,
   ⟨{ live with power := .bindoff, clk := { live.clk with p12v := false }, energy := { live.energy with drained := true, rcd := { live.energy.rcd with phase := 1 } } },
     5, by decide +kernel⟩⟩

/-- The hypotheses of PowerReturns. -/
theorem witness_PowerReturns :
    (∃ (s : State), (s.power = .bindoff ∨ s.power = .waitP12v)) ∧
    (∃ (s : State), (s.power = .waitP12v) ∧ (s.clk.p12v = true) ∧ (s.energy.pwrdis = false)) ∧
    (∃ (s : State), (s.energy.pwrdis = true) ∧ (s.power = .aux) ∧ (s.clk.p12v = true)) ∧
    (∃ (s : State), (s.clk.p12v = true)) ∧
    (∃ (s : State), (s.power = .aux ∨ s.power = .none) ∧ (s.energy.pwrdis = false)) ∧
    (∃ (s : State) (z : Nat), ((∀ q ∈ s.tlc.pool, lhnOf q.1 / 96 ≠ z))) ∧
    (∃ (s : State), (s.cxl.linkUp = true)) ∧
    (∃ (s : State), (s.cxl.linkUp = true) ∧ (s.writesLanded = true)) ∧
    (∃ (s : State), (s.cxl.linkUp = true) ∧ (s.writesLanded = false)) :=
  ⟨⟨{ live with power := .waitP12v, clk := { live.clk with p12v := false } }, by decide +kernel⟩,
   ⟨{ live with power := .waitP12v }, by decide +kernel⟩,
   ⟨{ live with power := .aux, energy := { live.energy with pwrdis := true } }, by decide +kernel⟩,
   ⟨live, by decide +kernel⟩,
   ⟨State.reset, by decide +kernel⟩,
   ⟨{ live with energy := { live.energy with zoneMap := [0, 1] } }, 1, by decide +kernel⟩,
   ⟨live, by decide +kernel⟩,
   ⟨live, by decide +kernel⟩,
   ⟨{ live with adm := { live.adm with dl := [(3, { entryDl with kind := .write, routed := false })] } }, by decide +kernel⟩⟩

/-- The hypotheses of CastOnStepsAndLink. -/
theorem witness_CastOnStepsAndLink :
    (∃ (s : State), (s.power = .on)) ∧
    (∃ (s : State) (b : Bool), (s.power = .on) ∧ (s.ready rFW = false) ∧ (s.failedBit rFW = false) ∧ (2 ≤ (s.plat.cores.filter (· != 2)).length)) ∧
    (∃ (s : State), (s.power = .on) ∧ (s.ready rFW = false) ∧ (s.failedBit rFW = false) ∧ (2 ≤ (s.plat.cores.filter (· != 2)).length)) ∧
    (∃ (s : State), (s.power = .on) ∧ (s.clk.pll = true)) ∧
    (∃ (s : State), (s.power = .on) ∧ (s.ready rFW = true) ∧ (s.plat.coldHold = false)) ∧
    (∃ (s : State), (s.power = .on) ∧ (s.ready rDRIFT = true) ∧ (s.ready rKEYS = true) ∧ (s.cast.l3 = false) ∧ (s.plat.coldHold = false)) ∧
    (∃ (s : State), (s.power = .on) ∧ (s.fget Reg.RDY_REPLAY Fld.RDY_REPLAY_STATE = 2) ∧ (s.cast.replayLeft = []) ∧ (s.cast.ctrLeft = []) ∧
     (s.plat.warmWait = false)) ∧
    (∃ (s : State), (s.power = .on) ∧ (s.fget Reg.RDY_REPLAY Fld.RDY_REPLAY_STATE = 1) ∧ (s.plat.warmWait = false)) ∧
    (∃ (s : State) (v : W64), (getF v Fld.RDY_CTL_CONFIG_LOCK = 1)) ∧
    (∃ (s : State) (n : Nat), (n ≤ 16) ∧ (s.ready n = false)) ∧
    (∃ (s : State) (n : Nat) (m : Nat), (n ≤ 16) ∧ (s.ready n = false) ∧ (m ≤ 16) ∧ (m ≠ n)) ∧
    (∃ (s : State) (lanes : Nat) (rate : Nat) (m : Bool), (s.cxl.perst = false) ∧ (s.power = .on ∨ s.power = .bound) ∧ (s.clk.pll = true) ∧
     (s.cxl.common = false ∨ s.cxl.refclk = true)) ∧
    (∃ (s : State), (s.cxl.common = true) ∧ (s.cxl.perst = false) ∧ (s.cxl.lanes ≠ 0) ∧ (s.power = .on ∨ s.power = .bound)) ∧
    (∃ (s : State), (s.power = .on)) ∧
    (∃ (s : State), (s.power = .aux) ∧ (s.clk.p12v = false)) ∧
    (∃ (s : State), (s.power = .none)) :=
  ⟨⟨on, by decide +kernel⟩,
   ⟨on, true, by decide +kernel⟩,
   ⟨on, by decide +kernel⟩,
   ⟨on, by decide +kernel⟩,
   ⟨live, by decide +kernel⟩,
   ⟨live, by decide +kernel⟩,
   ⟨(regs live [(Reg.RDY_REPLAY, word [(Fld.RDY_REPLAY_STATE, 2), (Fld.RDY_REPLAY_LEFT, 4)])]), by decide +kernel⟩,
   ⟨(regs live [(Reg.RDY_REPLAY, word [(Fld.RDY_REPLAY_STATE, 1)])]), by decide +kernel⟩,
   ⟨on, word [(Fld.RDY_CTL_CONFIG_LOCK, 1)], by decide +kernel⟩,
   ⟨on, 16, by decide +kernel⟩,
   ⟨on, 16, 0, by decide +kernel⟩,
   ⟨{ on with cxl := { on.cxl with perst := false } }, 16, 32, true, by decide +kernel⟩,
   ⟨{ live with cxl := { live.cxl with common := true, linkUp := false } }, by decide +kernel⟩,
   ⟨live, by decide +kernel⟩,
   ⟨State.reset, by decide +kernel⟩,
   ⟨{ State.reset with power := .none }, by decide +kernel⟩⟩

/-- The hypotheses of CastOnBringsUnitsUp. -/
theorem witness_CastOnBringsUnitsUp :
    (∃ (s : State), (s.power = .on) ∧ (s.clk.pll = true) ∧ (s.ready rKEYS = false) ∧ (s.failedBit rKEYS = false) ∧ (s.engineState 0 ≠ 2)) ∧
    (∃ (s : State) (ch : Nat), (s.power = .on) ∧ (s.clk.pll = true) ∧ (ch < 34) ∧ (s.fget (Reg.MCH_STATE ch) Fld.MCH_STATE_ENGINE = 0)) ∧
    (∃ (s : State), (s.power = .on) ∧ (s.ready rFW = true)) ∧
    (∃ (s : State) (k : Nat), (s.power = .on) ∧ (k < 64) ∧ (s.replayDone = true) ∧ (s.skeinReady k = false) ∧ (s.failedBit rMAP = false) ∧
     (s.failedBit rKEYS = false) ∧ (s.skeinClear k = true) ∧ (s.cxl.sanitizing = 0) ∧ (s.adm.dl = [])) ∧
    (∃ (s : State) (okA : Bool) (okB : Bool) (i : Image) (failed : List (Nat × Bool)), (s.power = .on) ∧ (s.ready rWMEM = true) ∧
     (s.ready rKEYS = true) ∧ (s.cast.l3 = true) ∧ (s.ready rMAP = false) ∧ (s.failedBit rMAP = false) ∧ (s.plat.coldHold = false) ∧
     (s.hanks.usableImage okA okB = some i)) ∧
    (∃ (s : State) (okA : Bool) (okB : Bool) (failed : List (Nat × Bool)), (s.power = .on) ∧ (s.ready rWMEM = true) ∧ (s.ready rKEYS = true) ∧
     (s.cast.l3 = true) ∧ (s.ready rMAP = false) ∧ (s.failedBit rMAP = false) ∧ (s.plat.coldHold = false) ∧ (s.hanks.usableImage okA okB = none)) :=
  ⟨⟨on, by decide +kernel⟩,
   ⟨(regs media [(Reg.MCH_STATE 33, 0), (Reg.RDY_STATUS, 0x1FFFF ^^^ BitVec.ofNat 64 (2 ^ rMEDIA))]), 33, by decide +kernel⟩,
   ⟨live, by decide +kernel⟩,
   ⟨(regs live [(Reg.RDY_SKEIN, 0x7FFFFFFFFFFFFFFF), (Reg.RDY_STATUS, 0x1FFFF ^^^ BitVec.ofNat 64 (2 ^ rSKEINS))]), 63, by decide +kernel⟩,
   ⟨(let s := live.setReg Reg.RDY_STATUS (0x1FFFF ^^^ BitVec.ofNat 64 (2 ^ rMAP)); { s with cast := { s.cast with l3 := true } }), true, true,
     live.hanks.imgA, [], by decide +kernel, by decide +kernel, by decide +kernel, by decide +kernel, by decide +kernel, by decide +kernel,
     by decide +kernel, live_usableImage⟩,
   ⟨(let s := live.setReg Reg.RDY_STATUS (0x1FFFF ^^^ BitVec.ofNat 64 (2 ^ rMAP)); { s with cast := { s.cast with l3 := true } }), false, false, [],
     by decide +kernel⟩⟩

/-- The hypotheses of ResetsKeepTheData. -/
theorem witness_ResetsKeepTheData :
    (∃ (s : State), (s.power = .on) ∧ (s.adm.dl = [])) :=
  ⟨live, by decide +kernel⟩

/-- The hypotheses of KeysIdeAndSpdm. -/
theorem witness_KeysIdeAndSpdm :
    (∃ (s : State) (e : Nat), (s.power = .on) ∧ (e < 2) ∧ (s.engineState e = 0) ∧ (s.cmds = [])) ∧
    (∃ (s : State) (e : Nat), (s.power = .on) ∧ (e < 2) ∧ (s.cmds = [])) ∧
    (∃ (s : State) (n : Nat), ((s.slot n).state = 2) ∧ (s.keyDirty n = false) ∧ (s.power = .on) ∧ (s.ready rKEYS = true) ∧
     (tget s.crypto.retiring n = some none) ∧ ((∀ l ∈ s.boundHanks n, (s.hostEntry l).ply ≠ 1 ∧ (s.hostEntry l).ply ≠ 2))) ∧
    (∃ (s : State) (n : Nat) (k : Nat) (rx : Bool) (key : BitVec 256) (x : SpdmSession), (tget s.seals.sessions n = some x) ∧ (x.established = true) ∧
     (k < 2)) ∧
    (∃ (s : State), (s.crypto.ideIoSecure = true)) ∧
    (∃ (s : State), (s.crypto.ideMemSecure = true)) ∧
    (∃ (s : State), (s.power = .on) ∧ (s.ready rMBOX = true)) ∧
    (∃ (s : State), (s.power = .on) ∧ (s.ready rMBOX = true) ∧ (s.seals.version = true)) ∧
    (∃ (s : State) (a : Nat) (h : Nat) (d : Nat) (e : Nat), (s.power = .on) ∧ (s.ready rMBOX = true) ∧ (s.seals.caps = true) ∧ (a.testBit 7 = true) ∧
     (h.testBit 1 = true) ∧ (d.testBit 4 = true) ∧ (e.testBit 1 = true)) ∧
    (∃ (s : State), (s.power = .on) ∧ (s.ready rMBOX = true) ∧ (s.seals.algs = true)) ∧
    (∃ (s : State) (o : Nat) (n : Nat), (s.power = .on) ∧ (s.ready rMBOX = true) ∧ (s.seals.algs = true) ∧ (o < spdmChain.length)) ∧
    (∃ (s : State) (nonce : BitVec 256), (s.power = .on) ∧ (s.ready rMBOX = true) ∧ (s.seals.algs = true) ∧ (s.ready rSEAL = true)) ∧
    (∃ (s : State) (i : Nat) (nonce : BitVec 256), (s.power = .on) ∧ (s.ready rMBOX = true) ∧ (s.seals.algs = true) ∧ (s.ready rSEAL = true) ∧
     (1 ≤ i) ∧ (i ≤ 6)) ∧
    (∃ (s : State) (q : BitVec 384 × BitVec 384), (s.power = .on) ∧ (s.ready rMBOX = true) ∧ (s.seals.algs = true) ∧ (s.seals.dhe = true) ∧
     (s.ready rKEYS = true) ∧ (s.seals.sessions.length < 2)) ∧
    (∃ (s : State) (n : Nat) (x : SpdmSession), (s.power = .on) ∧ (s.ready rMBOX = true) ∧ (tget s.seals.sessions n = some x) ∧ (x.established = false)) ∧
    (∃ (s : State) (n : Nat) (x : SpdmSession), (s.power = .on) ∧ (s.ready rMBOX = true) ∧ (tget s.seals.sessions n = some x) ∧ (x.established = true)) :=
  ⟨⟨on, 1, by decide +kernel⟩,
   ⟨on, 1, by decide +kernel⟩,
   ⟨{ live with crypto := { live.crypto with slots := [(9, { state := 2, wkey := 5, gen := 1, kcv := 0, crc := 0 })], retiring := [(9, none)] } }, 9,
     by decide +kernel⟩,
   ⟨{ live with seals := { live.seals with sessions := [(0, { established := true, updates := 0 })] } }, 0, 1, true, 5,
     { established := true, updates := 0 }, by decide +kernel⟩,
   ⟨{ live with crypto := { live.crypto with ideIo := [(0, 1), (2, 1)], ideIoSecure := true } }, by decide +kernel⟩,
   ⟨{ live with crypto := { live.crypto with ideMem := [(0, 1), (2, 1)], ideMemSecure := true } }, by decide +kernel⟩,
   ⟨live, by decide +kernel⟩,
   ⟨{ live with seals := { live.seals with version := true } }, by decide +kernel⟩,
   ⟨{ live with seals := { live.seals with caps := true } }, 128, 2, 16, 2, by decide +kernel⟩,
   ⟨{ live with seals := { live.seals with algs := true } }, by decide +kernel⟩,
   ⟨{ live with seals := { live.seals with algs := true } }, 0, 48, by decide +kernel⟩,
   ⟨{ live with seals := { live.seals with algs := true } }, 1, by decide +kernel⟩,
   ⟨{ live with seals := { live.seals with algs := true } }, 6, 1, by decide +kernel⟩,
   ⟨{ live with seals := { live.seals with algs := true, dhe := true } }, (1, 2), by decide +kernel⟩,
   ⟨{ live with seals := { live.seals with sessions := [(0, { established := false, updates := 0 })] } }, 0, { established := false, updates := 0 },
     by decide +kernel⟩,
   ⟨{ live with seals := { live.seals with sessions := [(0, { established := true, updates := 0 })] } }, 0, { established := true, updates := 0 },
     by decide +kernel⟩⟩

/-- The hypotheses of SealsEnterTheLedger. -/
theorem witness_SealsEnterTheLedger :
    (∃ (s : State) (n : Nat) (j : SealJob), (tget s.seals.jobs n = some j) ∧ (s.sealMay j = true) ∧ (s.hashFirst j = false) ∧ (s.seqHeld = false) ∧
     (s.poisonIn j.first j.count = none) ∧ (s.ratchet 0 + 1 < 2 ^ 64) ∧ (s.wm.errs = [])) ∧
    (∃ (s : State) (n : Nat) (l : Nat) (j : SealJob), (tget s.seals.jobs n = some j) ∧ (s.sealMay j = true) ∧ (s.hashFirst j = false) ∧
     (s.journalFull = false) ∧ (s.poisonIn j.first j.count = some l) ∧ (s.wm.errs = [])) ∧
    (∃ (s : State) (id : Nat) (j : SealJob) (v : LiveSeal) (c : Cmd), (tget s.seals.verify id = some j) ∧ (tget s.seals.live j.ref = some v) ∧
     (tget s.cmds id = some c) ∧ (s.hashHeld j = false) ∧ (s.hashFirst j = false) ∧ (s.wm.errs = []) ∧
     (s.extentHash v.first v.count = v.rcd.extentHash)) ∧
    (∃ (s : State) (id : Nat) (j : SealJob) (v : LiveSeal) (c : Cmd), (tget s.seals.verify id = some j) ∧ (tget s.seals.live j.ref = some v) ∧
     (tget s.cmds id = some c) ∧ (s.hashHeld j = false) ∧ (s.hashFirst j = false) ∧ (s.wm.errs = []) ∧
     (s.extentHash v.first v.count ≠ v.rcd.extentHash)) ∧
    (∃ (s : State) (v : W64), ((s.reg Reg.SEL_ARCHIVED).toNat ≤ v.toNat) ∧ (v.toNat ≤ s.ratchet 0) ∧ (s.rwsHeld = false)) ∧
    (∃ (s : State), (s.power = .on) ∧ (s.ready rMAP = true) ∧ (s.ready rKEYS = true) ∧ (s.plat.coldHold = false) ∧ (s.ready rSEAL = false) ∧
     (s.failedBit rSEAL = false)) ∧
    (∃ (s : State) (a : Bool) (b : Bool), (s.power = .on) ∧ (s.ready rMAP = true) ∧ (s.ready rKEYS = true) ∧ (s.plat.coldHold = false) ∧
     (s.ready rSEAL = false) ∧ (s.failedBit rSEAL = false) ∧ (a = true ∨ b = true) ∧ (s.ledgerHead = s.ratchet 0)) :=
  ⟨⟨sealing 0, 0, job1 0, by decide +kernel⟩,
   ⟨(let s := sealing 1; { s with tlc := { s.tlc with pool := [(0, { dirty with poison := true })] } }), 0, 0, job1 1, by decide +kernel⟩,
   ⟨verifying (live.extentHash 0 0), 4, job1 0, { seal1 with rcd := { seal1.rcd with extentHash := live.extentHash 0 0 } }, cmd 0x0504,
     by and_intros <;> first | rfl | decide +kernel⟩,
   ⟨verifying (live.extentHash 0 0 + 1), 4, job1 0, { seal1 with rcd := { seal1.rcd with extentHash := live.extentHash 0 0 + 1 } }, cmd 0x0504, rfl,
     rfl, rfl, by decide +kernel, by decide +kernel, by decide +kernel, ne_add_one _⟩,
   ⟨(regs live [(Reg.SEL_RATCHET 0, 7)]), 7, by decide +kernel⟩,
   ⟨(live.setReg Reg.RDY_STATUS (0x1FFFF ^^^ BitVec.ofNat 64 (2 ^ rSEAL))), by decide +kernel⟩,
   ⟨(live.setReg Reg.RDY_STATUS (0x1FFFF ^^^ BitVec.ofNat 64 (2 ^ rSEAL))), true, false, by decide +kernel⟩⟩

/-- The hypotheses of LinksTrainAndLeave. -/
theorem witness_LinksTrainAndLeave :
    (∃ (s : State) (k : Nat), (k < 2) ∧ (s.linkState k = 1) ∧ (s.clk.pll = true)) ∧
    (∃ (s : State) (k : Nat), (k < 2) ∧ (s.linkState k = 0) ∧ (s.planB = true) ∧ (s.linkEn k = true) ∧ (s.power = .on) ∧
     ((s.link k).downAt + 100000 * (s.link k).backoff ≤ s.clk.now)) ∧
    (∃ (s : State) (k : Nat), (s.clk.now < (s.link k).downAt + 100000 * (s.link k).backoff)) ∧
    (∃ (s : State) (k : Nat), (k < 2) ∧ (s.linkUp k = true) ∧ ((s.link k).lastCredit + 200 ≤ s.clk.now)) ∧
    (∃ (s : State) (k : Nat), (k < 2) ∧ (2 ≤ s.linkState k) ∧ (s.linkState k ≤ 4)) ∧
    (∃ (s : State) (k : Nat) (c : Nat), (k < 2) ∧ (1 ≤ c) ∧ (c ≤ 7) ∧ (2 ≤ s.linkState k) ∧ (s.linkState k ≤ 4)) ∧
    (∃ (s : State) (k : Nat), (k < 2) ∧ ((s.link k).lastRx + 1000 ≤ s.clk.now) ∧ (2 ≤ s.linkState k) ∧ (s.linkState k ≤ 4)) ∧
    (∃ (s : State) (k : Nat) (hdr : PktHdr) (d : HelloData), (s.Accepts k { hdr with tagOk := true } [2] 3 0) ∧ (d.version = 1) ∧
     (d.product = 0x0E6A) ∧ (d.serial ≠ Config.serial % 2 ^ 64)) ∧
    (∃ (s : State) (k : Nat) (hdr : PktHdr) (a : AuthPart), (s.Accepts k { hdr with tagOk := true } [3] 3 0) ∧ (a.kind = 0) ∧
     (a.part = (s.link k).authIn.length) ∧ (a.last = false)) ∧
    (∃ (s : State) (k : Nat) (hdr : PktHdr) (a : AuthPart) (d : HelloData), (s.Accepts k { hdr with tagOk := true } [3] 3 0) ∧ (a.kind = 0) ∧
     (a.part = (s.link k).authIn.length) ∧ (a.last = true) ∧ (a.checksOk = true) ∧ ((s.link k).peer = some d) ∧ (a.certSerial = d.serial) ∧
     ((s.reg (Reg.PLK_PIN k)).toNat = 0 ∨ (s.reg (Reg.PLK_PIN k)).toNat = d.serial) ∧ ((s.link k).authOk = false)) ∧
    (∃ (s : State) (k : Nat) (hdr : PktHdr) (a : AuthPart), (s.Accepts k { hdr with tagOk := true } [3] 3 0) ∧ (a.kind = 1) ∧
     (a.part = (s.link k).authIn.length) ∧ (a.last = true) ∧ (a.checksOk = true) ∧ ((s.link k).authOk = true) ∧ ((s.link k).confirmSent = true)) :=
  ⟨⟨linked 1, 0, by decide +kernel⟩,
   ⟨linked 0, 0, by decide +kernel⟩,
   ⟨(linked 0).setLink 0 { (linked 0).link 0 with backoff := 4, downAt := 900 }, 0, by decide +kernel⟩,
   ⟨linked 4, 0, by decide +kernel⟩,
   ⟨linked 4, 0, by decide +kernel⟩,
   ⟨linked 4, 0, 7, by decide +kernel⟩,
   ⟨linked 2, 0, by decide +kernel⟩,
   ⟨linked 2, 0, header 3 0, peer, by unfold State.Accepts; decide +kernel, rfl, rfl, Nat.succ_ne_self _⟩,
   ⟨linked 3, 0, header 3 0, { part := 0, last := false, kind := 0, checksOk := false, certSerial := 0, peerKey := (0, 0) },
     by unfold State.Accepts; decide +kernel⟩,
   ⟨linked 3 peered, 0, header 3 0, { part := 0, last := true, kind := 0, checksOk := true, certSerial := 12, peerKey := (1, 2) },
     { peer with serial := 12 }, by unfold State.Accepts; decide +kernel⟩,
   ⟨linked 3 { peered with authOk := true, confirmSent := true }, 0, header 3 0,
     { part := 0, last := true, kind := 1, checksOk := true, certSerial := 0, peerKey := (1, 2) }, by unfold State.Accepts; decide +kernel⟩⟩

/-- The hypotheses of PacketsAreSentAndReplayed. -/
theorem witness_PacketsAreSentAndReplayed :
    (∃ (s : State) (k : Nat) (q : Nat) (at' : Nat) (p : TxPkt) (rest : List (Nat × TxPkt × Nat)), (k < 2) ∧ ((s.link k).replaying = none) ∧
     ((s.link k).replay = (q, p, at') :: rest) ∧ (at' + 26 ≤ s.clk.now) ∧ ((∀ x ∈ (s.link k).replay, x.1 ∉ (s.link k).replays))) ∧
    (∃ (s : State) (k : Nat) (q : Nat) (at' : Nat) (p : TxPkt) (rest : List (Nat × TxPkt × Nat)), (k < 2) ∧ ((s.link k).replaying = none) ∧
     ((s.link k).replay = (q, p, at') :: rest) ∧ (at' + 26 ≤ s.clk.now) ∧ (2 ≤ s.linkState k) ∧ (s.linkState k ≤ 4) ∧ ((∃ x ∈ (s.link k).replay,
     x.1 ∈ (s.link k).replays))) ∧
    (∃ (s : State) (k : Nat) (e : Nat) (hdr : PktHdr), (s.AcceptsFree k hdr [2, 3, 4])) ∧
    (∃ (s : State) (k : Nat) (m : Nat) (r : Nat) (c : Nat) (hdr : PktHdr), (s.AcceptsFree k hdr [4])) ∧
    (∃ (s : State) (k : Nat) (e : Nat), (k < 2) ∧ (2 ≤ s.linkState k) ∧ (s.linkState k ≤ 4) ∧ ((s.link k).nakDue = some e)) ∧
    (∃ (s : State) (k : Nat) (q : Nat) (at' : Nat) (p : TxPkt), (k < 2) ∧ (2 ≤ s.linkState k) ∧ (s.linkState k ≤ 4) ∧ ((s.link k).nakDue = none) ∧
     ((s.link k).replaying = some q) ∧ ((s.link k).replay.find? (fun x => x.1 == q) = some (q, p, at'))) ∧
    (∃ (s : State) (k : Nat) (i : Nat) (a : Nat) (d : Nat), (k < 2) ∧ (2 ≤ s.linkState k) ∧ (s.linkState k ≤ 4) ∧ ((s.link k).nakDue = none) ∧
     ((s.link k).replaying = none) ∧ ((s.link k).replay.length < 1024) ∧ ((s.link k).ackIdx = some i) ∧ ((s.link k).tx[i]? = some ⟨.mirrorAck a,
     d⟩)) ∧
    (∃ (s : State) (k : Nat), (k < 2) ∧ (s.linkState k = 4) ∧ ((s.link k).nakDue = none) ∧ ((s.link k).replaying = none) ∧ ((s.link k).ackIdx = none) ∧
     ((s.link k).creditDue = true)) ∧
    (∃ (s : State) (k : Nat) (i : Nat) (d : Nat) (p : TxPkt), (k < 2) ∧ (2 ≤ s.linkState k) ∧ (s.linkState k ≤ 4) ∧ ((s.link k).nakDue = none) ∧
     ((s.link k).replaying = none) ∧ ((s.link k).ackIdx = none) ∧ ((s.link k).replay.length < 1024) ∧
     ((let u := (s.topUp k).syncPump k; (u.link k).creditDue = false ∧ (u.link k).ackDue = false ∧
     leastBy (fun a b => decide (a.1 < b.1)) (u.choices k) = some (d, .queued i) ∧ (u.link k).tx[i]? = some p))) ∧
    (∃ (s : State) (k : Nat), (k < 2) ∧ (s.linkState k = 2 ∨ s.linkState k = 3) ∧ ((s.link k).nakDue = none) ∧ ((s.link k).replaying = none) ∧
     ((s.link k).tx = []) ∧ ((s.link k).mirrorOut = []) ∧ ((s.link k).sync = none)) ∧
    (∃ (s : State) (k : Nat) (p : TxPkt), (k < 2) ∧ (s.linkState k = 2 ∨ s.linkState k = 3) ∧ ((s.link k).nakDue = none) ∧
     ((s.link k).replaying = none) ∧ ((s.link k).tx = [p]) ∧ (p.body.cls = 3) ∧ ((s.link k).mirrorOut = []) ∧ ((s.link k).sync = none) ∧
     ((s.link k).replay.length < 1024)) :=
  ⟨⟨linked 4 { Link.init with replay := [(3, ⟨.mirrorAck 1, 5⟩, 974)] }, 0, 3, 974, ⟨.mirrorAck 1, 5⟩, [], by decide +kernel⟩,
   ⟨linked 4 { Link.init with replay := [(3, ⟨.mirrorAck 1, 5⟩, 974)], replays := [3] }, 0, 3, 974, ⟨.mirrorAck 1, 5⟩, [], by decide +kernel⟩,
   ⟨linked 4 { Link.init with replay := [(3, ⟨.mirrorAck 1, 5⟩, 974)] }, 0, 3, header 3 0, by unfold State.AcceptsFree; decide +kernel⟩,
   ⟨linked 4, 0, 7, 3, 2, header 3 0, by unfold State.AcceptsFree; decide +kernel⟩,
   ⟨linked 4 { Link.init with nakDue := some 4095 }, 0, 4095, by decide +kernel⟩,
   ⟨linked 4 { Link.init with replay := [(3, ⟨.mirrorAck 1, 5⟩, 974)], replaying := some 3 }, 0, 3, 974, ⟨.mirrorAck 1, 5⟩, by decide +kernel⟩,
   ⟨linked 4 { Link.init with tx := [⟨.mirrorAck 1, 5⟩] }, 0, 0, 1, 5, by decide +kernel⟩,
   ⟨linked 4 { Link.init with creditDue := true }, 0, by decide +kernel⟩,
   ⟨linked 3 { Link.init with tx := [⟨.auth 0 true 1, 5⟩] }, 0, 0, 5, ⟨.auth 0 true 1, 5⟩, by decide +kernel⟩,
   ⟨linked 3, 0, by decide +kernel⟩,
   ⟨linked 3 { Link.init with tx := [⟨.auth 0 true 1, 5⟩] }, 0, ⟨.auth 0 true 1, 5⟩, by decide +kernel⟩⟩

/-- The hypotheses of MirrorPath. -/
theorem witness_MirrorPath :
    (∃ (s : State) (k : Nat) (q : Nat) (a : Nat) (r : Nat) (h : Nat) (n : Nat) (seq : Nat) (d : Line) (hdr : PktHdr), (s.Accepts k hdr [4] 3 0) ∧
     ((s.link k).unacked = [(a, .mirrorWrite r h n [d] [seq])]) ∧ (seqLe a (q % 4096) = true) ∧ (seq < 2 ^ 32)) ∧
    (∃ (s : State) (k : Nat) (q : Nat) (hdr : PktHdr), (s.Accepts k hdr [4] 3 0)) ∧
    (∃ (s : State) (k : Nat) (a : Nat) (hdr : PktHdr) (p : LinesPkt), (s.Accepts k hdr [4] 0 p.lines.length) ∧ (s.linesOk k hdr p = true) ∧
     (p.pmask = 0) ∧ (s.energy.drained = false) ∧ (s.areaOf k p.region = some a)) ∧
    (∃ (s : State) (k : Nat) (a : Nat) (hdr : PktHdr) (p : LinesPkt) (d : Line) (q : PoolLine), (s.Accepts k hdr [4] 0 1) ∧
     (s.linesOk k hdr p = true) ∧ (p.pmask = 0) ∧ (s.energy.drained = false) ∧ (s.areaOf k p.region = some a) ∧ (p.lines = [d]) ∧
     (s.poolGet (((s.area k a).2.1 + p.hoff) * 16384 + p.line) = some q)) ∧
    (∃ (s : State) (k : Nat) (a : Nat) (hdr : PktHdr) (p : LinesPkt), (s.Accepts k hdr [4] 1 1) ∧ (s.linesOk k hdr p = true) ∧
     (s.energy.drained = false) ∧ (s.areaOf k p.region = some a)) ∧
    (∃ (s : State) (k : Nat) (a : Nat) (hdr : PktHdr) (p : LinesPkt) (d : Line) (q : PoolLine), (s.Accepts k hdr [4] 1 1) ∧
     (s.linesOk k hdr p = true) ∧ (s.energy.drained = false) ∧ (s.areaOf k p.region = some a) ∧ (s.areaSealed k p.region p.hoff 1 = false) ∧
     (p.lines = [d]) ∧ (s.poolGet (((s.area k a).2.1 + p.hoff) * 16384 + p.line) = some q)) :=
  ⟨⟨linked 4 { Link.init with unacked := [(4095, .mirrorWrite 1 0 0 [5] [3])] }, 0, 4095, 4095, 1, 0, 0, 3, 5, header 3 0,
     by unfold State.Accepts; decide +kernel⟩,
   ⟨linked 4 { Link.init with unacked := [(4095, .mirrorWrite 1 0 0 [5] [3])] }, 0, 4095, header 3 0, by unfold State.Accepts; decide +kernel⟩,
   ⟨holding, 0, 2, header 0 192, { hoff := 3, line := 16381, pmask := 0, region := 3, lines := [1, 2, 3] }, by unfold State.Accepts; decide +kernel⟩,
   ⟨(let s := holding; { s with tlc := { s.tlc with pool := s.tlc.pool ++ [((20 + 3) * 16384 + 16383, dirty)] } }), 0, 2, header 0 64,
     { hoff := 3, line := 16383, pmask := 0, region := 3, lines := [1] }, 1, dirty, by unfold State.Accepts; decide +kernel⟩,
   ⟨holding, 0, 2, header 1 64, { hoff := 3, line := 16383, pmask := 1, region := 3, lines := [1] }, by unfold State.Accepts; decide +kernel⟩,
   ⟨(let s := holding; { s with tlc := { s.tlc with pool := s.tlc.pool ++ [((20 + 3) * 16384 + 16383, dirty)] } }), 0, 2, header 1 64,
     { hoff := 3, line := 16383, pmask := 1, region := 3, lines := [1] }, 1, dirty, by unfold State.Accepts; decide +kernel⟩⟩

/-- The hypotheses of HolderAnswers. -/
theorem witness_HolderAnswers :
    (∃ (s : State) (k : Nat) (r : Nat) (a : Nat) (hdr : PktHdr), (s.Accepts k hdr [4] 1 1) ∧ (r < 16) ∧ (s.areaOf k r = some a)) ∧
    (∃ (s : State) (k : Nat) (r : Nat) (a : Nat) (hdr : PktHdr), (s.Accepts k hdr [4] 1 1) ∧ (r < 16) ∧ (s.areaOf k r = some a) ∧
     (s.journalFull = false) ∧ (s.fget (Reg.PLK_AREA k a) Fld.PLK_AREA_SEALS = 0)) ∧
    (∃ (s : State) (k : Nat) (r : Nat) (a : Nat) (hdr : PktHdr) (h : Nat) (n : Nat) (kd : Nat), (s.Accepts k hdr [4] 1 1) ∧ (r < 16) ∧
     (s.areaOf k r = some a) ∧ (s.journalFull = false) ∧ ((s.area k a).2.2 < h + n)) ∧
    (∃ (s : State) (k : Nat) (r : Nat) (a : Nat) (hdr : PktHdr) (h : Nat) (n : Nat) (kd : Nat), (s.Accepts k hdr [4] 1 1) ∧ (r < 16) ∧
     (s.areaOf k r = some a) ∧ (s.journalFull = false) ∧ (h + n ≤ (s.area k a).2.2) ∧ (0 < n) ∧ (kd ≤ 1) ∧ (s.areaSealed k r h n = false)) ∧
    (∃ (s : State) (k : Nat) (r : Nat) (a : Nat) (hdr : PktHdr) (h : Nat) (n : Nat) (kd : Nat), (s.Accepts k hdr [4] 1 1) ∧ (r < 16) ∧
     (s.areaOf k r = some a) ∧ (s.journalFull = false) ∧ (h + n ≤ (s.area k a).2.2) ∧ (0 < n) ∧ (kd ≤ 1) ∧ (s.areaSealed k r h n = true)) ∧
    (∃ (s : State) (k : Nat) (r : Nat) (a : Nat) (hdr : PktHdr) (rec : LedgerRec) (h : Nat) (n : Nat), (s.Accepts k hdr [4] 1 1) ∧ (r < 16) ∧
     (s.areaOf k r = some a)) ∧
    (∃ (s : State) (k : Nat) (r : Nat) (a : Nat) (hdr : PktHdr) (rec : LedgerRec), (s.Accepts k hdr [4] 1 1) ∧ (r < 16) ∧ (s.areaOf k r = some a)) ∧
    (∃ (s : State) (k : Nat) (r : Nat) (n : Nat) (hdr : PktHdr), (s.Accepts k hdr [4] 1 1) ∧ (r < 16) ∧ (s.areaOf k r = none) ∧
     (s.journalFull = false) ∧ (0 < n) ∧ (s.freeRun n = none)) ∧
    (∃ (s : State) (k : Nat) (r : Nat) (n : Nat) (a : Nat) (b : Nat) (hdr : PktHdr), (s.Accepts k hdr [4] 1 1) ∧ (r < 16) ∧ (s.areaOf k r = none) ∧
     (s.journalFull = false) ∧ (0 < n) ∧ (s.freeRun n = some b) ∧ ((List.range 16).find? (fun a => (s.area k a).1 == 0) = some a)) :=
  ⟨⟨holding, 0, 3, 2, header 1 64, by unfold State.Accepts; decide +kernel⟩,
   ⟨holding, 0, 3, 2, header 1 64, by unfold State.Accepts; decide +kernel⟩,
   ⟨holding, 0, 3, 2, header 1 64, 4, 1, 0, by unfold State.Accepts; decide +kernel⟩,
   ⟨holding, 0, 3, 2, header 1 64, 3, 1, 1, by unfold State.Accepts; decide +kernel⟩,
   ⟨holding { peered with seals := [{ region := 3, rcd := record 1 5, hoff := 3, count := 1, whole := true }] }, 0, 3, 2, header 1 64, 3, 1, 1,
     by unfold State.Accepts; decide +kernel⟩,
   ⟨holding, 0, 3, 2, header 1 64, record 1 5, 3, 1, by unfold State.Accepts; decide +kernel⟩,
   ⟨holding, 0, 3, 2, header 1 64, record 2 5, by unfold State.Accepts; decide +kernel⟩,
   ⟨linked 4 peered, 0, 15, 1, header 1 64, by unfold State.Accepts; decide +kernel⟩,
   ⟨(let s := regs (linked 4 peered) [(Reg.PLK_PLYRES, word [(Fld.PLK_PLYRES_BASE, 20), (Fld.PLK_PLYRES_COUNT,
     2)])]; { s with hanks := { s.hanks with host := s.hanks.host ++ [(20, { entry 20 7 with state := 0, chk := 0 }.sealChk 20), (21, { entry 21 8 with state := 0, chk := 0 }.sealChk 21)] }, cxl := { s.cxl with lds := [⟨0, 20⟩] } }),
     0, 15, 2, 0, 20, header 1 64, by unfold State.Accepts; decide +kernel⟩⟩

/-- The hypotheses of SenderTakesAnswers. -/
theorem witness_SenderTakesAnswers :
    (∃ (s : State) (k : Nat) (r : Nat) (op : Nat) (st : Nat) (d : Nat) (hdr : PktHdr), (s.Accepts k hdr [4] 1 1) ∧ (r < 16) ∧ (1 ≤ op) ∧ (op ≤ 8) ∧
     ((s.link k).ops.findIdx? (fun o => o.op == op && o.region == r && o.sent) = none)) ∧
    (∃ (s : State) (k : Nat) (r : Nat) (i : Nat) (st : Nat) (d : Nat) (hdr : PktHdr), (s.Accepts k hdr [4] 1 1) ∧ (r < 16) ∧
     ((s.link k).ops.findIdx? (fun o => o.op == 2 && o.region == r && o.sent) = some i)) ∧
    (∃ (s : State) (k : Nat) (r : Nat) (i : Nat) (d : Nat) (hdr : PktHdr), (s.Accepts k hdr [4] 1 1) ∧ (r < 16) ∧ ((s.link k).setPly = none) ∧
     ((s.region k r).1 ≠ 0) ∧ ((s.link k).ops.findIdx? (fun o => o.op == 1 && o.region == r && o.sent) = some i) ∧ ((s.link k).sync = none) ∧
     ((s.link k).wantSync = [])) ∧
    (∃ (s : State) (k : Nat) (r : Nat) (i : Nat) (d : Nat) (id : Nat) (b : Nat) (n : Nat) (hdr : PktHdr), (s.Accepts k hdr [4] 1 1) ∧ (r < 16) ∧
     ((s.link k).setPly = some (id, r, b, n)) ∧ ((s.region k r).1 = 0) ∧
     ((s.link k).ops.findIdx? (fun o => o.op == 1 && o.region == r && o.sent) = some i) ∧ (b < 2 ^ fwidth Fld.PLK_REGION_BASE) ∧
     (n < 2 ^ fwidth Fld.PLK_REGION_COUNT)) ∧
    (∃ (s : State) (k : Nat) (r : Nat) (i : Nat) (st : Nat) (d : Nat) (id : Nat) (b : Nat) (n : Nat) (c : Cmd) (hdr : PktHdr),
     (s.Accepts k hdr [4] 1 1) ∧ (r < 16) ∧ ((s.link k).setPly = some (id, r, b, n)) ∧ ((s.region k r).1 = 0) ∧
     ((s.link k).ops.findIdx? (fun o => o.op == 1 && o.region == r && o.sent) = some i) ∧ (st ≠ stOK) ∧ (tget s.cmds id = some c)) ∧
    (∃ (s : State) (k : Nat) (r : Nat) (op : Nat) (i : Nat) (st : Nat) (d : Nat) (o : PlyOp) (hdr : PktHdr), (s.Accepts k hdr [4] 1 1) ∧ (r < 16) ∧
     (5 ≤ op) ∧ (op ≤ 8) ∧ ((s.link k).ops.findIdx? (fun o => o.op == op && o.region == r && o.sent) = some i) ∧ ((s.link k).ops[i]? = some o) ∧
     ((∀ x ∈ (s.link k).ops.eraseIdx i, x.sent = true)) ∧ ((s.link k).sync = none) ∧ ((s.link k).wantSync = [])) ∧
    (∃ (s : State) (k : Nat) (r : Nat) (op : Nat) (i : Nat) (st : Nat) (d : Nat) (hdr : PktHdr), (s.Accepts k hdr [4] 1 1) ∧ (r < 16) ∧
     (op = 3 ∨ op = 4) ∧ (st ≠ stOK) ∧ ((s.link k).ops.findIdx? (fun o => o.op == op && o.region == r && o.sent) = some i) ∧
     ((s.link k).wantSync = [])) ∧
    (∃ (s : State) (k : Nat) (r : Nat) (i : Nat) (hdr : PktHdr) (d : Nat), (s.Accepts k hdr [4] 1 1) ∧ (r < 16) ∧
     ((s.link k).ops.findIdx? (fun o => o.op == 4 && o.region == r && o.sent) = some i) ∧ ((s.link k).wantSync = [])) ∧
    (∃ (s : State) (k : Nat) (r : Nat) (i : Nat) (hdr : PktHdr) (d : Nat), (s.Accepts k hdr [4] 1 1) ∧ (r < 16) ∧
     ((s.link k).ops.findIdx? (fun o => o.op == 3 && o.region == r && o.sent) = some i) ∧ ((∀ o ∈ (s.link k).ops.eraseIdx i, o.sent = true)) ∧
     ((s.link k).sync = none) ∧ ((s.link k).wantSync = [])) ∧
    (∃ (s : State), (s.power = .on) ∧ (s.planB = true) ∧ (s.ready rMAP = true)) ∧
    (∃ (s : State) (v : W64), (s.rwlLocked = false) ∧ ((∀ k a, k < 2 → a < 16 → (s.area k a).1 = 0)) ∧
     (getF v Fld.PLK_PLYRES_BASE + getF v Fld.PLK_PLYRES_COUNT ≤ hostHanks) ∧ ((∀ l ∈ s.cxl.lds,
     s.cxl.mld = true → l.base + l.count ≤ getF v Fld.PLK_PLYRES_BASE ∨ getF v Fld.PLK_PLYRES_BASE + getF v Fld.PLK_PLYRES_COUNT ≤ l.base))) ∧
    (∃ (s : State) (v : W64), (s.rwlLocked = true ∨ hostHanks < getF v Fld.PLK_PLYRES_BASE + getF v Fld.PLK_PLYRES_COUNT)) ∧
    (∃ (s : State) (v : W64), (s.rwlLocked = false) ∧ ((∀ k a, k < 2 → a < 16 → (s.area k a).1 = 0)) ∧ (getF v Fld.PLK_PLYRES_COUNT = 0) ∧
     (getF v Fld.PLK_PLYRES_BASE ≤ hostHanks)) ∧
    (∃ (s : State) (v : W64), (s.rwsHeld = false)) :=
  ⟨⟨linked 4 peered, 0, 15, 8, 0, 0, header 1 64, by unfold State.Accepts; decide +kernel⟩,
   ⟨linked 4 { peered with ops := [{ op := 2, region := 15, args := [], rcd := none, sent := true, cmd := none }] }, 0, 15, 0, 0, 1, header 1 64,
     by unfold State.Accepts; decide +kernel⟩,
   ⟨regs (linked 4 { peered with ops := [{ op := 1, region := 15, args := [], rcd := none, sent := true, cmd := none }] }) [(Reg.PLK_REGION 0 15,
     word [(Fld.PLK_REGION_STATE, 4)])], 0, 15, 0, 7, header 1 64, by unfold State.Accepts; decide +kernel⟩,
   ⟨linked 4 { peered with ops := [{ op := 1, region := 15, args := [], rcd := none, sent := true, cmd := none }], setPly := some (4, 15, 8, 2) }, 0,
     15, 0, 7, 4, 8, 2, header 1 64, by unfold State.Accepts; decide +kernel⟩,
   ⟨asked (cmd 0x0601) (linked 4 { peered with ops := [{ op := 1, region := 15, args := [], rcd := none, sent := true, cmd := none }], setPly := some (4, 15, 8, 2) }),
     0, 15, 0, stNO_SPARE, 7, 4, 8, 2, cmd 0x0601, header 1 64, by unfold State.Accepts; decide +kernel⟩,
   ⟨asked { cmd 0x0301 with running := true, work := [wPly 0 (opItem 6 15)] } (linked 4 { peered with ops := [{ op := 6, region := 15, args := [], rcd := none, sent := true, cmd := some 4 }] }),
     0, 15, 6, 0, 0, 0, { op := 6, region := 15, args := [], rcd := none, sent := true, cmd := some 4 }, header 1 64,
     by unfold State.Accepts; decide +kernel⟩,
   ⟨linked 4 { peered with ops := [{ op := 4, region := 15, args := [], rcd := none, sent := true, cmd := none }] }, 0, 15, 4, 0, stSEALED, 0,
     header 1 64, by unfold State.Accepts; decide +kernel⟩,
   ⟨linked 4 { peered with ops := [{ op := 4, region := 15, args := [], rcd := none, sent := true, cmd := none }] }, 0, 15, 0, header 1 64, 0,
     by unfold State.Accepts; decide +kernel⟩,
   ⟨linked 4 { peered with ops := [{ op := 3, region := 15, args := [], rcd := none, sent := true, cmd := none }] }, 0, 15, 0, header 1 64, 0,
     by unfold State.Accepts; decide +kernel⟩,
   ⟨linked 4, by decide +kernel⟩,
   ⟨linked 4, word [(Fld.PLK_PLYRES_BASE, hostHanks - 5), (Fld.PLK_PLYRES_COUNT, 5)], by decide +kernel,
     fun k a hk ha => (by decide +kernel : ∀ k < 2, ∀ a < 16, ((linked 4).area k a).1 = 0) k hk a ha, by decide +kernel, by decide +kernel⟩,
   ⟨linked 4, word [(Fld.PLK_PLYRES_BASE, hostHanks), (Fld.PLK_PLYRES_COUNT, 1)], by decide +kernel⟩,
   ⟨linked 4, word [(Fld.PLK_PLYRES_BASE, hostHanks)], by decide +kernel, fun k a hk ha => (by decide +kernel : ∀ k < 2, ∀ a < 16,
     ((linked 4).area k a).1 = 0) k hk a ha, by decide +kernel, by decide +kernel⟩,
   ⟨linked 4, 2, by decide +kernel⟩⟩

/-- The hypotheses of ChainMessagesTravel. -/
theorem witness_ChainMessagesTravel :
    (∃ (s : State) (k : Nat) (hdr : PktHdr) (m : ChainMsg), (s.Accepts k hdr [4] 2 1) ∧ (m.data.length ≤ 240) ∧ (m.mid < 4096) ∧ (m.src < 16384) ∧
     (m.dest < 16384) ∧ (m.ttl < 16384) ∧ ((m.src, m.mid) ∉ s.chain.seen) ∧ (s.forMe m = true) ∧ (m.mclass = 1) ∧
     (m.src ≠ s.uaddr ∨ s.uaddrValid = false)) ∧
    (∃ (s : State) (k : Nat) (hdr : PktHdr) (m : ChainMsg), (s.Accepts k hdr [4] 2 1) ∧ (m.data.length ≤ 240) ∧ (m.mid < 4096) ∧ (m.src < 16384) ∧
     (m.dest < 16384) ∧ (m.ttl < 16384) ∧ ((m.src, m.mid) ∉ s.chain.seen) ∧ (s.forMe m = true) ∧ (m.mclass = 2) ∧
     (m.src ≠ s.uaddr ∨ s.uaddrValid = false)) ∧
    (∃ (s : State) (k : Nat) (hdr : PktHdr) (m : ChainMsg), (s.Accepts k hdr [4] 2 1) ∧ (m.data.length ≤ 240) ∧ (m.mid < 4096) ∧ (m.src < 16384) ∧
     (m.dest < 16384) ∧ (m.ttl < 16384) ∧ ((m.src, m.mid) ∉ s.chain.seen) ∧ (s.forMe m = true) ∧ (m.mclass = 3) ∧
     ((s.chain.walks.map Prod.fst).Pairwise (· < ·)) ∧ ((∀ x ∈ s.chain.walks, x.2.kind ≠ 2))) ∧
    (∃ (s : State) (k : Nat) (hdr : PktHdr) (m : ChainMsg) (id : Nat) (w : Walk) (c : Cmd), (s.Accepts k hdr [4] 2 1) ∧ (m.data.length ≤ 240) ∧
     (m.mid < 4096) ∧ (m.src < 16384) ∧ (m.dest < 16384) ∧ (m.ttl < 16384) ∧ ((m.src, m.mid) ∉ s.chain.seen) ∧ (s.forMe m = true) ∧
     (m.mclass = 3) ∧ (s.chain.walks = [(id, w)]) ∧ (w.kind = 2) ∧ (w.dest = m.src) ∧ (tget s.cmds w.cmd = some c)) ∧
    (∃ (s : State) (k : Nat) (hdr : PktHdr) (m : ChainMsg), (s.Accepts k hdr [4] 2 1) ∧ (m.data.length ≤ 240) ∧ (m.mid < 4096) ∧ (m.src < 16384) ∧
     (m.dest < 16384) ∧ (m.ttl < 16384) ∧ ((m.src, m.mid) ∉ s.chain.seen) ∧ (s.forMe m = true) ∧ (m.mclass = 4) ∧ (s.chain.inbox.length < 64)) ∧
    (∃ (s : State) (k : Nat) (hdr : PktHdr) (m : ChainMsg), (s.Accepts k hdr [4] 2 1) ∧ (m.data.length ≤ 240) ∧ (m.mid < 4096) ∧ (m.src < 16384) ∧
     (m.dest < 16384) ∧ (m.ttl < 16384) ∧ ((m.src, m.mid) ∉ s.chain.seen) ∧ (s.forMe m = true) ∧ (m.mclass = 4) ∧ (64 ≤ s.chain.inbox.length) ∧
     (m.src ≠ s.uaddr ∨ s.uaddrValid = false)) ∧
    (∃ (s : State) (k : Nat) (hdr : PktHdr) (m : ChainMsg) (id : Nat) (w : Walk) (c : Cmd), (s.Accepts k hdr [4] 2 1) ∧ (m.data.length ≤ 240) ∧
     (m.mid < 4096) ∧ (m.src < 16384) ∧ (m.dest < 16384) ∧ (m.ttl < 16384) ∧ ((m.src, m.mid) ∉ s.chain.seen) ∧ (s.forMe m = true) ∧
     (m.mclass = 5) ∧ (tget s.chain.walks id = some w) ∧ (w.kind = 4) ∧ (w.dest = m.src) ∧ ((∀ x ∈ s.chain.walks,
     x.2.kind = 4 → x.2.dest = m.src → x = (id, w))) ∧ (tget s.cmds w.cmd = some c)) ∧
    (∃ (s : State) (k : Nat) (hdr : PktHdr) (m : ChainMsg), (s.Accepts k hdr [4] 2 1) ∧ (m.data.length ≤ 240) ∧ (m.mid < 4096) ∧ (m.src < 16384) ∧
     (m.dest < 16384) ∧ (m.ttl < 16384) ∧ ((m.src, m.mid) ∉ s.chain.seen) ∧ (s.forMe m = true) ∧ (m.mclass = 0 ∨ 5 < m.mclass)) ∧
    (∃ (s : State) (k : Nat) (hdr : PktHdr) (m : ChainMsg), (s.Accepts k hdr [4] 2 1) ∧ (m.data.length ≤ 240) ∧ (m.mid < 4096) ∧ (m.src < 16384) ∧
     (m.dest < 16384) ∧ (m.ttl < 16384) ∧ (m.mclass = 4) ∧ ((m.src, m.mid) ∉ s.chain.seen) ∧ (m.bcast = false) ∧ (m.isLocal = false) ∧
     (m.dest ≠ s.uaddr) ∧ (0 < m.ttl) ∧ (s.linkUp (1 - k) = true)) ∧
    (∃ (s : State) (k : Nat) (hdr : PktHdr) (m : ChainMsg), (s.Accepts k hdr [4] 2 1) ∧ (m.data.length ≤ 240) ∧ (m.mid < 4096) ∧ (m.src < 16384) ∧
     (m.dest < 16384) ∧ (m.ttl < 16384) ∧ (m.mclass = 4) ∧ ((m.src, m.mid) ∈ s.chain.seen)) ∧
    (∃ (s : State) (k : Nat) (hdr : PktHdr) (c : ClaimMsg), (s.Accepts k hdr [4] 2 1) ∧ (c.addr < 16384) ∧ (c.ttl < 16384) ∧ ((c.addr, c.serial,
     c.round, c.held) ∉ s.chain.seenClaims)) ∧
    (∃ (s : State) (k : Nat) (hdr : PktHdr) (c : ClaimMsg), (s.Accepts k hdr [4] 2 1) ∧ (c.addr < 16384) ∧ (c.ttl < 16384) ∧ ((c.addr, c.serial,
     c.round, c.held) ∈ s.chain.seenClaims)) ∧
    (∃ (s : State) (k : Nat) (hdr : PktHdr) (c : ClaimMsg), (s.Accepts k hdr [4] 2 1) ∧ (c.addr < 16384) ∧ (c.ttl < 16384) ∧ ((c.addr, c.serial,
     c.round, c.held) ∉ s.chain.seenClaims) ∧ (s.uaddrValid = false) ∧ (s.chain.cand = none) ∧ (0 < c.ttl) ∧ (s.linkUp (1 - k) = true)) ∧
    (∃ (s : State) (a : Nat), (s.chain.firstUp = true) ∧ (s.chain.cand = some a) ∧ (s.chain.beaten = false) ∧ (a < 16384)) ∧
    (∃ (s : State), (s.chain.firstUp = true) ∧ (s.chain.cand = none)) ∧
    (∃ (s : State), (s.power = .on) ∧ (s.planB = true) ∧ (s.chain.firstUp = false) ∧ (s.uaddrValid = false) ∧ (s.linkUp 0 = false) ∧
     (s.linkUp 1 = false)) :=
  ⟨⟨chained, 0, header 2 0, { message 1 with bcast := true }, by unfold State.Accepts; decide +kernel⟩,
   ⟨chained, 0, header 2 0, message 2, by unfold State.Accepts; decide +kernel⟩,
   ⟨{ chained with chain := { chained.chain with walks := [(4, { cmd := 4, mid := 9, kind := 1, dest := 16383, replies := [] }), (5, { cmd := 4, mid := 9, kind := 4, dest := 16383, replies := [] })] } },
     0, header 2 0, message 3, by unfold State.Accepts; decide +kernel⟩,
   ⟨(let s := asked (cmd 0x0B03) chained; { s with chain := { s.chain with walks := [(4, { cmd := 4, mid := 9, kind := 2, dest := 16383, replies := [] })] } }),
     0, header 2 0, message 3, 4, { cmd := 4, mid := 9, kind := 2, dest := 16383, replies := [] }, cmd 0x0B03,
     by unfold State.Accepts; decide +kernel⟩,
   ⟨chained, 0, header 2 0, message 4, by unfold State.Accepts; decide +kernel⟩,
   ⟨{ chained with chain := { chained.chain with inbox := List.replicate 64 (5, message 4) } }, 0, header 2 0, message 4,
     by unfold State.Accepts; decide +kernel⟩,
   ⟨(let s := asked (cmd 0x0B02 id) chained; { s with chain := { s.chain with walks := [(4, { cmd := 4, mid := 9, kind := 4, dest := 16383, replies := [] })] } }),
     0, header 2 0, message 5, 4, { cmd := 4, mid := 9, kind := 4, dest := 16383, replies := [] }, cmd 0x0B02 id,
     by unfold State.Accepts; decide +kernel⟩,
   ⟨chained, 0, header 2 0, message 6, by unfold State.Accepts; decide +kernel⟩,
   ⟨chained, 0, header 2 0, { message 4 with dest := 6 }, by unfold State.Accepts; decide +kernel⟩,
   ⟨{ chained with chain := { chained.chain with seen := [(16383, 4095)] } }, 0, header 2 0, message 4, by unfold State.Accepts; decide +kernel⟩,
   ⟨(let s := bothUp peered; s), 0, header 2 0, { addr := 16383, held := true, ttl := 16383, round := 1, serial := 3 },
     by unfold State.Accepts; decide +kernel⟩,
   ⟨{ bothUp peered with chain := { (bothUp peered).chain with seenClaims := [(16383, 3, 1, true)] } }, 0, header 2 0,
     { addr := 16383, held := true, ttl := 16383, round := 1, serial := 3 }, by unfold State.Accepts; decide +kernel⟩,
   ⟨bothUp peered, 0, header 2 0, { addr := 16383, held := true, ttl := 16383, round := 1, serial := 3 }, by unfold State.Accepts; decide +kernel⟩,
   ⟨(let s := bothUp; { s with chain := { s.chain with firstUp := true, cand := some 16383 } }), 16383, by decide +kernel⟩,
   ⟨{ bothUp with chain := { bothUp.chain with firstUp := true } }, by decide +kernel⟩,
   ⟨linked 0, by decide +kernel⟩⟩

/-- The hypotheses of AllocationsAreSet. -/
theorem witness_AllocationsAreSet :
    (∃ (s : State) (n : Nat) (f : Nat), (s.power = .on) ∧ (s.ready rFW = true) ∧ (s.cxl.mld = true) ∧ (n < 16) ∧ (f < 256) ∧
     (s.shareSum n (f * s.ldShare / 256) ≤ 4096)) ∧
    (∃ (s : State) (n : Nat) (f : Nat), (s.power = .on) ∧ (s.ready rFW = true) ∧ (s.cxl.mld = true) ∧ (n < 16) ∧ (f < 256) ∧
     (s.shareSum n (s.fget (Reg.ADM_RESV n) Fld.ADM_RESV_SHARE) ≤ 4096)) ∧
    (∃ (s : State) (n : Nat) (v : W64), (n < 16) ∧ (s.adm.resvLog.all (fun y => y.party != n || y.path < 2) = true) ∧ (s.shareSum n (shareOf v) ≤ 4096)) ∧
    (∃ (s : State) (n : Nat) (v : W64), (n < 16) ∧ (s.adm.resvLog.all (fun y => y.party != n || y.path < 2) = true) ∧ (4096 < s.shareSum n (shareOf v))) ∧
    (∃ (s : State) (n : Nat) (v : W64), (n < 8) ∧ (s.adm.resvLog.all (fun y => y.party != 16 + n || y.path < 2) = true) ∧
     (s.shareSum (16 + n) (shareOf v) ≤ 4096) ∧ ((n = 3 ∨ n = 4 ∨ n = 5 → v.toNat / 2 ^ 32 = (s.reg (Reg.ADM_RESV_INT n)).toNat / 2 ^ 32))) ∧
    (∃ (s : State) (n : Nat) (c : Nat), (s.power = .on) ∧ (s.ready rFW = true) ∧ (s.cxl.mld = true) ∧ (s.hanks.mapsReady = true) ∧
     (s.journalFull = false) ∧ (s.cxl.fmWait = []) ∧ (n < 16) ∧ (s.cxl.lds.length = 16) ∧ ((s.cxl.lds.getD n ⟨0, 0⟩).count = 256 * c)) ∧
    (∃ (s : State) (n : Nat) (a : List (Nat × Nat)) (lds : List LdCap), (s.power = .on) ∧ (s.ready rFW = true) ∧ (s.cxl.mld = true) ∧
     (s.hanks.mapsReady = true) ∧ (s.journalFull = false) ∧ (s.cxl.fmWait = []) ∧ (n + a.length ≤ 16) ∧ ((∀ x ∈ a, x.2 = 0)) ∧
     (s.allocAll n a = some lds)) ∧
    (∃ (s : State) (ld : Nat) (m : Nat) (b : Nat) (z : Nat) (w : Nat) (g : Nat) (sk : Nat) (p : Nat) (l : Bool) (e : Bool), (s.power = .on) ∧
     (ld < 16) ∧ (m < 4) ∧ ((∀ h, tget s.cxl.decoders (4 * ld + m) = some h → h.locked = false)) ∧ (s.hdmOk ld m b z w g sk = true)) ∧
    (∃ (s : State) (ld : Nat) (m : Nat) (b : Nat) (z : Nat) (w : Nat) (g : Nat) (sk : Nat) (p : Nat) (l : Bool) (e : Bool), (s.power = .on) ∧
     (ld < 16) ∧ (m < 4) ∧ ((∀ h, tget s.cxl.decoders (4 * ld + m) = some h → h.locked = false)) ∧ (s.hdmOk ld m b z w g sk = false)) ∧
    (∃ (s : State) (ld : Nat) (m : Nat) (b : Nat) (z : Nat) (w : Nat) (g : Nat) (sk : Nat) (p : Nat) (l : Bool) (e : Bool) (h : Hdm),
     (tget s.cxl.decoders (4 * ld + m) = some h) ∧ (h.locked = true)) ∧
    (∃ (s : State), (s.power = .on) ∧ (s.ready rMBOX = true) ∧ (s.ready rFW = true)) ∧
    (∃ (s : State) (i : Nat), (s.power = .on) ∧ (s.ready rMBOX = true) ∧ (s.ready rFW = true) ∧ (4 ≤ i)) ∧
    (∃ (s : State), (s.power = .on) ∧ (s.ready rMBOX = true) ∧ (s.ready rFW = true) ∧ (s.cxl.mld = false)) :=
  ⟨⟨(mld.setReg (Reg.ADM_RESV_INT 2) 0), 15, 1, by decide +kernel⟩,
   ⟨mld, 15, 255, by decide +kernel⟩,
   ⟨live, 15, 0, by decide +kernel⟩,
   ⟨live, 15, word [(Fld.ADM_RESV_SHARE, 4097)], by decide +kernel⟩,
   ⟨live, 7, 0, by decide +kernel⟩,
   ⟨mld, 15, 0, by decide +kernel⟩,
   ⟨{ mld with cxl := { mld.cxl with lds := ⟨0, 512⟩ :: List.replicate 15 ⟨0, 0⟩ } }, 0, [(1, 0), (0, 0)], ⟨0, 256⟩ :: List.replicate 15 ⟨0, 0⟩,
     by decide +kernel⟩,
   ⟨live, 0, 1, 2 ^ 30, 2 ^ 28, 1, 256, 0, 0, false, false, by decide +kernel⟩,
   ⟨live, 15, 3, 1, 2 ^ 28, 1, 256, 0, 0, false, false, by decide +kernel⟩,
   ⟨{ live with cxl := { live.cxl with decoders := [(63, { base := 0, size := 2 ^ 28, ways := 1, gran := 256, pos := 0, dpa := 0, locked := true, poisonErr := false })] } },
     15, 3, 0, 0, 0, 0, 0, 0, false, false,
     { base := 0, size := 2 ^ 28, ways := 1, gran := 256, pos := 0, dpa := 0, locked := true, poisonErr := false }, by decide +kernel⟩,
   ⟨live, by decide +kernel⟩,
   ⟨live, 4, by decide +kernel⟩,
   ⟨live, by decide +kernel⟩⟩

/-- The hypotheses of MailboxReports. -/
theorem witness_MailboxReports :
    (∃ (s : State) (mb : Mailbox) (n : Nat) (l : Log), (s.mbUp mb = true) ∧ (s.ready rFW = true) ∧ (s.logs[n]? = some l)) ∧
    (∃ (s : State) (mb : Mailbox), (s.mbUp mb = true) ∧ (s.ready rFW = true)) ∧
    (∃ (s : State) (mb : Mailbox) (o : Nat) (n : Nat), (s.mbUp mb = true) ∧ (s.ready rFW = true) ∧ (o + n ≤ celBytes.length)) ∧
    (∃ (s : State) (mb : Mailbox) (o : Nat) (n : Nat), (s.mbUp mb = true) ∧ (s.ready rFW = true) ∧
     (o + n ≤ ((List.range 34).flatMap s.healthRecord).length)) ∧
    (∃ (s : State) (mb : Mailbox) (o : Nat) (n : Nat), (s.mbUp mb = true) ∧ (s.ready rFW = true) ∧ (o + n ≤ s.lsaSize)) ∧
    (∃ (s : State) (mb : Mailbox) (d : Nat) (n : Nat), (s.mbUp mb = true) ∧ (s.ready rFW = true) ∧ (s.dpaRange mb.ld d (64 * n) = true)) ∧
    (∃ (s : State) (mb : Mailbox), (s.mbUp mb = true) ∧ (s.ready rFW = true) ∧ (s.cxl.scan = none) ∧ (s.cxl.scanMb.map (·.ld) = some mb.ld)) ∧
    (∃ (s : State) (mb : Mailbox), (s.mbUp mb = true) ∧ (s.ready rFW = true) ∧ (s.cxl.scan.isSome = true)) ∧
    (∃ (s : State) (a : Nat), (s.power = .on)) ∧
    (∃ (s : State), (s.power = .on)) ∧
    (∃ (s : State) (e : Nat), (s.power = .on) ∧ (s.ready rFW = true) ∧ (1 ≤ e) ∧ (e < 255)) ∧
    (∃ (s : State) (p : Packet) (b : List Byte), (s.power = .on) ∧ (s.ready rFW = true) ∧ (s.packetCheck .mctp p [] false = none)) ∧
    (∃ (s : State) (mb : Mailbox) (p : Packet) (b : List Byte), (s.power = .on) ∧ (s.mbUp mb = true) ∧ (s.ready rFW = true) ∧ (b.length = inputLen p) ∧
     (mb.secondary = false) ∧ (s.packetCheck (.primary mb.ld) p [] false = none)) ∧
    (∃ (s : State) (c : Carrier) (p : Packet) (g : List SglEntry) (b : List Byte) (st : Nat), (s.packetCheck c p g false = some st)) ∧
    (∃ (s : State) (p : Packet) (b : List Byte), (s.packetCheck .mctp p [] false = none)) ∧
    (∃ (s : State) (c : Carrier) (p : Packet) (g : List SglEntry), ((Config.crc32c (packetBytes p)).toNat ≠ p.check)) ∧
    (∃ (s : State) (c : Carrier) (p : Packet) (g : List SglEntry), ((Config.crc32c (packetBytes p)).toNat = p.check) ∧ (opSpec p.opcode = none)) :=
  ⟨⟨live, mb0, 3, Log.init, by decide +kernel⟩,
   ⟨live, mb0, by decide +kernel⟩,
   ⟨live, mb0, 0, celBytes.length, by decide +kernel⟩,
   ⟨live, mb0, 1, 2175, by decide +kernel⟩,
   ⟨live, mb0, 1, 7, by decide +kernel⟩,
   ⟨{ live with cxl := { live.cxl with poison := [{ ld := 0, dpa := 64, lines := 2, injected := true }] } }, mb0, 64, 1, by decide +kernel⟩,
   ⟨{ live with cxl := { live.cxl with scanMb := some mb0, scanFound := [(64, 1)] } }, mb0, by decide +kernel⟩,
   ⟨{ live with cxl := { live.cxl with scan := some (0, 0, 1, true) } }, mb0, by decide +kernel⟩,
   ⟨live, 61, by decide +kernel⟩,
   ⟨live, by decide +kernel⟩,
   ⟨live, 254, by decide +kernel⟩,
   ⟨live, goodPacket, [], rfl, by decide +kernel, (if_neg (not_not.2 rfl)).trans (by decide +kernel)⟩,
   ⟨live, mb0, goodPacket, [], rfl, by decide +kernel, by decide +kernel, rfl, rfl, (if_neg (not_not.2 rfl)).trans (by decide +kernel)⟩,
   ⟨live, .mctp, { goodPacket with check := goodPacket.check + 1 }, [], [], stBAD_CHECK, if_pos (Nat.ne_of_lt (Nat.lt_succ_self _))⟩,
   ⟨live, goodPacket, [], (if_neg (not_not.2 rfl)).trans (by decide +kernel)⟩,
   ⟨live, .mctp, { goodPacket with check := goodPacket.check + 1 }, [], Nat.ne_of_lt (Nat.lt_succ_self _)⟩,
   ⟨live, .mctp, (let p := packet 0 id; { p with check := (Config.crc32c (packetBytes p)).toNat }), [], rfl, by decide +kernel⟩⟩

/-- The hypotheses of MailboxAndFmSets. -/
theorem witness_MailboxAndFmSets :
    (∃ (s : State) (mb : Mailbox) (n : Nat) (l : Log) (hs : List Nat), (s.mbUp mb = true) ∧ (s.ready rFW = true) ∧ (s.logs[n]? = some l)) ∧
    (∃ (s : State) (mb : Mailbox) (n : Nat) (l : Log) (hs : List Nat), (s.mbUp mb = true) ∧ (s.ready rFW = true) ∧ (s.logs[n]? = some l) ∧ ((∀ h ∈ hs,
     ∃ e ∈ l.recs, e.handle = h))) ∧
    (∃ (s : State) (mb : Mailbox) (a : Nat) (b : Nat) (c : Nat) (d : Nat), (s.mbUp mb = true) ∧ (s.ready rFW = true) ∧ (a % 4 ≤ 1) ∧ (b % 4 ≤ 1) ∧
     (c % 4 ≤ 1) ∧ (d % 4 ≤ 1)) ∧
    (∃ (s : State) (mb : Mailbox) (ns : Nat), (s.mbUp mb = true) ∧ (s.ready rFW = true)) ∧
    (∃ (s : State) (mb : Mailbox) (o : Nat) (b : List Byte), (s.mbUp mb = true) ∧ (s.ready rFW = true) ∧ (o + b.length ≤ s.lsaSize)) ∧
    (∃ (s : State) (mb : Mailbox) (v : Nat) (e : Nat) (l : Nat) (o : Nat) (u : Nat) (a : Nat) (b : Nat), (s.mbUp mb = true) ∧ (s.ready rFW = true) ∧
     (v.testBit 0 = true) ∧ (l ≤ 100)) ∧
    (∃ (s : State) (mb : Mailbox) (v : Nat), (s.mbUp mb = true) ∧ (s.ready rFW = true)) ∧
    (∃ (s : State) (mb : Mailbox), (s.mbUp mb = false)) ∧
    (∃ (s : State) (mb : Mailbox), (s.mbUp mb = true) ∧ (s.ready rFW = false)) ∧
    (∃ (s : State), (s.power = .on) ∧ (s.ready rFW = true) ∧ (s.cxl.mld = true)) ∧
    (∃ (s : State), (s.power = .on) ∧ (s.ready rFW = true) ∧ (s.cxl.mld = true) ∧ (s.bgRuns = false)) ∧
    (∃ (s : State), (s.power = .on) ∧ (s.ready rFW = true) ∧ (s.cxl.mld = true) ∧ (s.bgRuns = true)) ∧
    (∃ (s : State) (a : Nat) (n : Nat), (s.power = .on) ∧ (s.ready rFW = true) ∧ (s.cxl.mld = true) ∧ (a < 16)) ∧
    (∃ (s : State) (tl : Nat) (m : Nat) (v : Nat) (iv : Nat), (s.power = .on) ∧ (s.ready rFW = true) ∧ (s.cxl.mld = true) ∧
     (s.fget Reg.ADM_DEVLOAD Fld.ADM_DEVLOAD_OPT_LO < m) ∧ (m < v) ∧ (v ≤ 100)) ∧
    (∃ (s : State) (tl : Nat) (m : Nat) (v : Nat) (iv : Nat), (s.power = .on) ∧ (s.ready rFW = true) ∧ (s.cxl.mld = true) ∧ (v ≤ m)) ∧
    (∃ (s : State) (mb : Mailbox), (s.mbUp mb = true) ∧ (s.ready rFW = true) ∧ (s.cxl.mld = false)) ∧
    (∃ (s : State) (mb : Mailbox) (tl : Nat) (m : Nat) (v : Nat) (iv : Nat), (s.mbUp mb = true) ∧ (s.ready rFW = true) ∧ (s.cxl.mld = false) ∧
     (s.fget Reg.ADM_DEVLOAD Fld.ADM_DEVLOAD_OPT_LO < m) ∧ (m < v) ∧ (v ≤ 100)) :=
  ⟨⟨live, mb0, 3, Log.init, [1], by decide +kernel⟩,
   ⟨{ live with logs := [Log.init, Log.init, { Log.init with recs := [event1] }, Log.init] }, mb0, 2, { Log.init with recs := [event1] }, [1],
     by decide +kernel⟩,
   ⟨live, mb0, 1, 1, 0, 4, by decide +kernel⟩,
   ⟨live, mb0, 1000, by decide +kernel⟩,
   ⟨live, mb0, 1, [5, 6], by decide +kernel⟩,
   ⟨live, mb0, 1, 1, 100, 0, 0, 0, 0, by decide +kernel⟩,
   ⟨live, mb0, 1, by decide +kernel⟩,
   ⟨on, mb0, by decide +kernel⟩,
   ⟨(live.setReg Reg.RDY_STATUS (0x1FFFF ^^^ BitVec.ofNat 64 (2 ^ rFW))), mb0, by decide +kernel⟩,
   ⟨mld, by decide +kernel⟩,
   ⟨mld, by decide +kernel⟩,
   ⟨{ mld with cxl := { mld.cxl with sanitizing := 1 } }, by decide +kernel⟩,
   ⟨mld, 15, 3, by decide +kernel⟩,
   ⟨mld, 0, 99, 100, 8, by decide +kernel⟩,
   ⟨mld, 0, 80, 80, 8, by decide +kernel⟩,
   ⟨live, mb0, by decide +kernel⟩,
   ⟨live, mb0, 0, 99, 100, 8, by decide +kernel⟩⟩

/-- The hypotheses of FirmwareIsTransferred. -/
theorem witness_FirmwareIsTransferred :
    (∃ (s : State) (mb : Mailbox) (b : List Byte) (x : Bool) (y : Bool), (s.mbUp mb = true) ∧ (s.ready rFW = true) ∧ (s.cxl.fwStage = none) ∧
     (s.plat.flashOp = none) ∧ (b.length ≤ 2 ^ 22)) ∧
    (∃ (s : State) (mb : Mailbox) (k : Nat) (n : Nat) (b : List Byte) (x : Bool) (y : Bool), (s.mbUp mb = true) ∧ (s.ready rFW = true) ∧
     (s.cxl.fwStage = some (k, n)) ∧ (n % 128 = 0) ∧ (n + b.length ≤ 2 ^ 22)) ∧
    (∃ (s : State) (mb : Mailbox) (b : List Byte) (x : Bool) (y : Bool), (s.mbUp mb = true) ∧ (s.ready rFW = true) ∧ (s.activeBank ≤ 1) ∧
     (s.cxl.fwStage = none) ∧ (s.plat.flashOp = none) ∧ (s.plat.slotEmpty.length = 2) ∧ (b.length ≤ 2 ^ 22)) ∧
    (∃ (s : State) (mb : Mailbox) (k : Nat) (n : Nat) (b : List Byte) (x : Bool) (y : Bool), (s.mbUp mb = true) ∧ (s.ready rFW = true) ∧
     (s.cxl.fwStage = some (k, n)) ∧ (k < s.plat.slotEmpty.length) ∧ (n % 128 = 0) ∧ (n + b.length ≤ 2 ^ 22)) ∧
    (∃ (s : State) (mb : Mailbox) (k : Nat) (n : Nat) (j : Nat) (o : Nat) (b : List Byte) (x : Bool) (y : Bool), (s.mbUp mb = true) ∧
     (s.ready rFW = true) ∧ (s.cxl.fwStage = some (k, n))) ∧
    (∃ (s : State) (mb : Mailbox) (n : Nat), (s.mbUp mb = true) ∧ (s.ready rFW = true) ∧ (n = 1 ∨ n = 2) ∧ (s.plat.slotEmpty.getD (n - 1) true = false)) ∧
    (∃ (s : State) (mb : Mailbox) (n : Nat), (s.mbUp mb = true) ∧ (s.ready rFW = true) ∧ (n = 1 ∨ n = 2) ∧
     (s.plat.slotEmpty.getD (n - 1) true = false) ∧ (s.replayDone = true)) ∧
    (∃ (s : State) (mb : Mailbox), (s.mbUp mb = true) ∧ (s.ready rFW = true) ∧ (s.replayDone = true)) ∧
    (∃ (s : State) (mb : Mailbox), (s.mbUp mb = true) ∧ (s.ready rFW = true) ∧ (s.replayDone = false)) ∧
    (∃ (s : State) (mb : Mailbox) (n : Nat), (s.mbUp mb = true) ∧ (s.ready rFW = true) ∧ (s.replayDone = false) ∧ (n = 1 ∨ n = 2) ∧
     (s.plat.slotEmpty.getD (n - 1) true = false)) ∧
    (∃ (s : State) (v : W64), (s.rwlLocked = false) ∧ (getF v Fld.EFC_UNLOCK_KEY = 0xC3A5)) ∧
    (∃ (s : State) (v : W64), (s.rwlLocked = false) ∧ (getF v Fld.EFC_UNLOCK_KEY = 0x3C5A) ∧ (s.plat.unlockStep = 1)) ∧
    (∃ (s : State) (v : W64), (s.rwlLocked = false) ∧ (getF v Fld.EFC_UNLOCK_KEY ≠ 0xC3A5) ∧ (getF v Fld.EFC_UNLOCK_KEY ≠ 0x3C5A)) ∧
    (∃ (s : State) (v : W64), (s.rwlLocked = true)) ∧
    (∃ (s : State), (s.cxl.fwStage = none) ∧ (s.flashBusy (s.efcWord / 2 ^ 19) = false)) ∧
    (∃ (s : State) (b : Bool), (s.cxl.fwStage = none) ∧ (s.plat.flashOp = none) ∧ (s.fget Reg.EFC_STAT Fld.EFC_STAT_UNLOCKED = 1) ∧
     (s.efcWord / 2 ^ 19 ≠ s.fget Reg.EFC_STAT Fld.EFC_STAT_ACTIVE)) ∧
    (∃ (s : State) (b : Bool) (f : Bool), (s.plat.flashOp = none) ∧ (s.fget Reg.EFC_STAT Fld.EFC_STAT_UNLOCKED = 0)) ∧
    (∃ (s : State) (w : Nat), (s.plat.flashOp = some (2, w)) ∧ (s.mayProgram w s.plat.flashWord = true)) ∧
    (∃ (s : State) (w : Nat), (s.plat.flashOp = some (2, w)) ∧ (s.mayProgram w s.plat.flashWord = false)) ∧
    (∃ (s : State) (w : Nat) (x : Nat), (s.plat.flashOp = some (3, w)) ∧ (x / 2048 = w / 2048)) :=
  ⟨⟨live, mb0, [1, 2], true, true, by decide +kernel⟩,
   ⟨{ live with cxl := { live.cxl with fwStage := some (1, 128) } }, mb0, 1, 128, [1, 2], true, true, by decide +kernel⟩,
   ⟨live, mb0, [1, 2], true, false, by decide +kernel⟩,
   ⟨{ live with cxl := { live.cxl with fwStage := some (1, 128) } }, mb0, 1, 128, [1, 2], true, true, by decide +kernel⟩,
   ⟨{ live with cxl := { live.cxl with fwStage := some (1, 128) } }, mb0, 1, 128, 2, 0, [], true, true, by decide +kernel⟩,
   ⟨live, mb0, 1, by decide +kernel⟩,
   ⟨live, mb0, 1, by decide +kernel⟩,
   ⟨live, mb0, by decide +kernel⟩,
   ⟨(let s := regs live [(Reg.RDY_REPLAY, 0)]; s), mb0, by decide +kernel⟩,
   ⟨(let s := regs live [(Reg.RDY_REPLAY, 0)]; s), mb0, 1, by decide +kernel⟩,
   ⟨live, 0xC3A5, by decide +kernel⟩,
   ⟨{ live with plat := { live.plat with unlockStep := 1 } }, 0x3C5A, by decide +kernel⟩,
   ⟨live, 0, by decide +kernel⟩,
   ⟨lockedBefore, 0xC3A5, by decide +kernel⟩,
   ⟨live, by decide +kernel⟩,
   ⟨(regs live [(Reg.EFC_ADDR, word [(Fld.EFC_ADDR_BANK, 1)]), (Reg.EFC_STAT, word [(Fld.EFC_STAT_UNLOCKED, 1)])]), true, by decide +kernel⟩,
   ⟨live, true, false, by decide +kernel⟩,
   ⟨{ live with plat := { live.plat with flash := [(2 ^ 19, BitVec.allOnes 64)], flashPgm := [(2 ^ 19, 1)], flashOp := some (2, 2 ^ 19), flashWord := 5 } },
     2 ^ 19, by decide +kernel⟩,
   ⟨{ live with plat := { live.plat with flash := [(2 ^ 19, 0)], flashOp := some (2, 2 ^ 19), flashWord := 5 } }, 2 ^ 19, by decide +kernel⟩,
   ⟨{ live with plat := { live.plat with flashOp := some (3, 2 ^ 19) } }, 2 ^ 19, 2 ^ 19 + 2047, by decide +kernel⟩⟩

/-- The hypotheses of PoisonIsManaged. -/
theorem witness_PoisonIsManaged :
    (∃ (s : State) (mb : Mailbox) (d : Nat) (p : PoolLine), (s.mbUp mb = true) ∧ (s.ready rFW = true) ∧ (s.poisonReady mb.ld d = true) ∧
     (s.dpaRange mb.ld d 64 = true) ∧ (s.sealedOrBusy (lhnOf (s.lineOfDpa mb.ld d)) = false) ∧ (s.injectedRecs < 256) ∧
     (s.poolGet (s.lineOfDpa mb.ld d) = some p) ∧ (s.regionOf (lhnOf (s.lineOfDpa mb.ld d)) = none)) ∧
    (∃ (s : State) (mb : Mailbox) (d : Nat) (x : Line) (p : PoolLine), (s.mbUp mb = true) ∧ (s.ready rFW = true) ∧ (s.poisonReady mb.ld d = true) ∧
     (s.dpaRange mb.ld d 64 = true) ∧ (s.sealedOrBusy (lhnOf (s.lineOfDpa mb.ld d)) = false) ∧ (s.writeFate (s.lineOfDpa mb.ld d) = .apply) ∧
     (s.poolGet (s.lineOfDpa mb.ld d) = some p) ∧ (s.regionOf (lhnOf (s.lineOfDpa mb.ld d)) = none)) ∧
    (∃ (s : State) (mb : Mailbox) (d : Nat) (x : Line), (s.mbUp mb = true) ∧ (s.ready rFW = true) ∧ (s.poisonReady mb.ld d = true) ∧
     (s.dpaRange mb.ld d 64 = true) ∧ (s.sealedOrBusy (lhnOf (s.lineOfDpa mb.ld d)) = false)) ∧
    (∃ (s : State) (mb : Mailbox) (d : Nat), (s.mbUp mb = true) ∧ (s.ready rFW = true) ∧ (s.poisonReady mb.ld d = true) ∧
     (s.dpaRange mb.ld d 64 = true) ∧ (s.sealedOrBusy (lhnOf (s.lineOfDpa mb.ld d)) = false)) ∧
    (∃ (s : State) (mb : Mailbox) (d : Nat) (n : Nat) (q : Bool), (s.mbUp mb = true) ∧ (s.ready rFW = true) ∧ (s.skeinsOf mb.ld d n = true) ∧
     (s.bgRuns = false) ∧ (0 < n) ∧ (s.dpaRange mb.ld d (64 * n) = true)) ∧
    (∃ (s : State) (ld : Nat) (d : Nat) (n : Nat) (q : Bool) (found : List (Nat × Nat)), (s.cxl.scan = some (ld, d, n, q)) ∧ (s.power = .on) ∧
     (s.adm.held.getD 16 false = false)) :=
  ⟨⟨live, mb0, 0, dirty, by decide +kernel⟩,
   ⟨live, mb0, 0, 5, dirty, by decide +kernel⟩,
   ⟨live, mb0, 1048576, 5, by decide +kernel⟩,
   ⟨live, mb0, 1048576, by decide +kernel⟩,
   ⟨live, mb0, 0, 1, true, by decide +kernel⟩,
   ⟨{ live with cxl := { live.cxl with scan := some (0, 0, 1, true) } }, 0, 0, 1, true, [(0, 5)], by decide +kernel⟩⟩

/-- The hypotheses of ErasesAndPassphrases. -/
theorem witness_ErasesAndPassphrases :
    (∃ (s : State) (mb : Mailbox), (s.mbUp mb = true) ∧ (s.ready rFW = true) ∧ (s.eraseReady = true) ∧ (s.bgRuns = false) ∧ (s.cxl.locked = false) ∧
     (s.cxl.frozen = false) ∧ (s.seals.live = []) ∧ (s.seals.jobs = []) ∧ (s.adm.dl = [])) ∧
    (∃ (s : State) (mb : Mailbox), (s.mbUp mb = true) ∧ (s.ready rFW = true) ∧ (s.eraseReady = true) ∧ (s.bgRuns = false) ∧ (s.sealsHeld = true)) ∧
    (∃ (s : State), (s.cxl.sanitizing ≠ 0) ∧ (s.power = .on) ∧ (s.ready rMAP = true) ∧ (s.replayDone = true) ∧ (s.eraseWaits = false)) ∧
    (∃ (s : State) (mb : Mailbox) (o : List Byte) (n : List Byte), (s.mbUp mb = true) ∧ (s.ready rFW = true) ∧ (s.cxl.frozen = false) ∧
     (s.cxl.locked = false) ∧ (n.length = 32) ∧ (s.cxl.userTries < 5) ∧ (s.cxl.userPass = none)) ∧
    (∃ (s : State) (mb : Mailbox) (o : List Byte) (n : List Byte) (h : BitVec 384), (s.mbUp mb = true) ∧ (s.ready rFW = true) ∧
     (s.cxl.frozen = false) ∧ (s.cxl.locked = false) ∧ (n.length = 32) ∧ (s.cxl.userTries < 5) ∧ (s.cxl.userPass = some h) ∧
     (Config.passHash o ≠ h)) ∧
    (∃ (s : State) (mb : Mailbox) (o : List Byte) (n : List Byte) (h : BitVec 384), (s.mbUp mb = true) ∧ (s.ready rFW = true) ∧
     (s.cxl.frozen = false) ∧ (s.cxl.locked = false) ∧ (n.length = 32) ∧ (s.cxl.userTries < 5) ∧ (s.cxl.userPass = some h) ∧
     (Config.passHash o = h)) ∧
    (∃ (s : State) (mb : Mailbox) (o : List Byte) (h : BitVec 384), (s.mbUp mb = true) ∧ (s.ready rFW = true) ∧ (s.cxl.frozen = false) ∧
     (s.cxl.locked = false) ∧ (s.cxl.userTries < 5) ∧ (s.cxl.userPass = some h) ∧ (Config.passHash o = h)) ∧
    (∃ (s : State) (mb : Mailbox) (o : List Byte) (h : BitVec 384), (s.mbUp mb = true) ∧ (s.ready rFW = true) ∧ (s.cxl.frozen = false) ∧
     (s.cxl.locked = true) ∧ (s.cxl.userTries < 5) ∧ (s.cxl.userPass = some h) ∧ (Config.passHash o = h)) ∧
    (∃ (s : State) (mb : Mailbox), (s.mbUp mb = true) ∧ (s.ready rFW = true) ∧ (s.cxl.frozen = false)) ∧
    (∃ (s : State) (mb : Mailbox) (o : List Byte) (h : BitVec 384), (s.mbUp mb = true) ∧ (s.ready rFW = true) ∧ (s.cxl.frozen = false) ∧
     (s.eraseReady = true) ∧ (s.bgRuns = false) ∧ (s.sealsHeld = false) ∧ (s.cxl.userTries < 5) ∧ (s.cxl.userPass = some h) ∧
     (Config.passHash o = h)) :=
  ⟨⟨live, mb0, by decide +kernel⟩,
   ⟨sealing 1, mb0, by decide +kernel⟩,
   ⟨{ live with cxl := { live.cxl with sanitizing := 2 } }, by decide +kernel⟩,
   ⟨live, mb0, [], List.replicate 32 1, by decide +kernel⟩,
   ⟨{ live with cxl := { live.cxl with userPass := some (Config.passHash [] + 1), userTries := 4 } }, mb0, [], List.replicate 32 1,
     Config.passHash [] + 1, by decide +kernel, by decide +kernel, rfl, rfl, by decide +kernel, by decide +kernel, rfl, ne_add_one _⟩,
   ⟨{ live with cxl := { live.cxl with userPass := some (Config.passHash []) } }, mb0, [], List.replicate 32 1, Config.passHash [],
     by and_intros <;> first | rfl | decide +kernel⟩,
   ⟨{ live with cxl := { live.cxl with userPass := some (Config.passHash []) } }, mb0, [], Config.passHash [],
     by and_intros <;> first | rfl | decide +kernel⟩,
   ⟨{ live with cxl := { live.cxl with userPass := some (Config.passHash []), locked := true } }, mb0, [], Config.passHash [],
     by and_intros <;> first | rfl | decide +kernel⟩,
   ⟨live, mb0, by decide +kernel⟩,
   ⟨{ live with cxl := { live.cxl with userPass := some (Config.passHash []), locked := true } }, mb0, [], Config.passHash [],
     by and_intros <;> first | rfl | decide +kernel⟩⟩

/-- The hypotheses of RingsRun. -/
theorem witness_RingsRun :
    (∃ (s : State) (n : Nat) (v : W64), (n < 8) ∧ (getF v Fld.CRG_SQ_TAIL_TAIL < s.ringSize n)) ∧
    (∃ (s : State) (n : Nat) (v : W64), (n < 8) ∧ (s.ringOn n = true) ∧ (s.ringSize n ≤ getF v Fld.CRG_SQ_TAIL_TAIL)) ∧
    (∃ (s : State) (n : Nat) (v : W64), (n < 8) ∧ (getF v Fld.CRG_CQ_HEAD_HEAD < s.ringSize n)) ∧
    (∃ (s : State) (n : Nat) (v : W64), (s.ringSize n ≤ getF v Fld.CRG_CQ_HEAD_HEAD)) ∧
    (∃ (s : State) (n : Nat) (v : W64), (n < 8) ∧ (getF v Fld.CRG_CTL_ENABLE = 1) ∧ (s.fget (Reg.CRG_CTL n) Fld.CRG_CTL_ENABLE = 0) ∧
     (s.basesOk n = false)) ∧
    (∃ (s : State) (n : Nat) (v : W64), (n < 8) ∧ (getF v Fld.CRG_CTL_ENABLE = 1) ∧ (s.fget (Reg.CRG_CTL n) Fld.CRG_CTL_ENABLE = 0) ∧
     (s.basesOk n = true)) ∧
    (∃ (s : State) (n : Nat) (v : W64), (n < 8) ∧ (getF v Fld.CRG_CTL_ENABLE = 0) ∧ (s.fget (Reg.CRG_CTL n) Fld.CRG_CTL_ENABLE = 1) ∧
     (s.cmds.Pairwise (fun a b => a.1 < b.1))) ∧
    (∃ (s : State) (n : Nat), (n < 8) ∧ (s.coalPassed n = true) ∧ (s.fget (Reg.CRG_MSIX n) Fld.CRG_MSIX_EN = 1) ∧
     (s.fget (Reg.CRG_MSIX n) Fld.CRG_MSIX_COAL_TIME ≠ 0)) ∧
    (∃ (s : State) (n : Nat) (p : Packet) (g : List SglEntry) (b : List Byte) (h : HostMem), (s.canFetch n = true) ∧
     (s.packetCheck (.ring n) p g false = none) ∧ (s.rings.stopping.getD n false = false) ∧ (h ≠ .sqRead) ∧ (h ≠ .input)) ∧
    (∃ (s : State) (n : Nat) (p : Packet) (g : List SglEntry) (b : List Byte) (h : HostMem), (s.canFetch n = true) ∧ (h ≠ .sqRead)) ∧
    (∃ (s : State) (n : Nat) (p : Packet) (g : List SglEntry) (b : List Byte), (s.canFetch n = true)) ∧
    (∃ (s : State) (id : Nat) (d : Nat) (c : Cmd), (tget s.cmds id = some c) ∧ (c.expiry = some d) ∧ (d ≤ s.clk.now) ∧ (neverStops c = false)) ∧
    (∃ (s : State) (id : Nat) (d : Nat) (c : Cmd), (tget s.cmds id = some c) ∧ (c.expiry = some d) ∧ (d ≤ s.clk.now) ∧ (neverStops c = false) ∧
     (c.started = false) ∧ (c.running = false) ∧ (changesMap c.pkt.opcode = false) ∧ (atGap c = false) ∧ (c.pkt.opcode ≠ 0x0203)) ∧
    (∃ (s : State) (id : Nat) (n : Nat) (st : Nat) (r0 : Nat) (r1 : Nat) (c : Cmd), (n < 8) ∧ (tget s.cmds id = some c) ∧ (c.carrier = .ring n) ∧
     (c.stopping = false) ∧ (c.endWith = none) ∧ (c.host = .ok) ∧ (s.cqDead n = false) ∧ (r0 < 2 ^ 64) ∧ (r1 < 2 ^ 64)) ∧
    (∃ (s : State) (id : Nat) (n : Nat) (st : Nat) (r0 : Nat) (r1 : Nat) (c : Cmd) (j : Nat), (n < 8) ∧ (tget s.cmds id = some c) ∧
     (c.carrier = .ring n) ∧ (c.stopping = false) ∧ (c.endWith = none) ∧ (c.host = .ok) ∧ (s.cqDead n = false) ∧ (r0 < 2 ^ 64) ∧ (r1 < 2 ^ 64) ∧
     (j ≠ id)) :=
  ⟨⟨ring, 0, 15, by decide +kernel⟩,
   ⟨ring, 0, 16, by decide +kernel⟩,
   ⟨ring, 0, 15, by decide +kernel⟩,
   ⟨ring, 0, 16, by decide +kernel⟩,
   ⟨(regs live [(Reg.CRG_SQ_SIZE 7, 4)]), 7, 1, by decide +kernel⟩,
   ⟨(regs live [(Reg.CRG_SQ_SIZE 7, 4), (Reg.CRG_SQ_BASE 7, word [(Fld.CRG_SQ_BASE_ADDR, 1)]), (Reg.CRG_CQ_BASE 7, word [(Fld.CRG_CQ_BASE_ADDR,
     1024)])]), 7, 1, by decide +kernel⟩,
   ⟨asked (cmd 0x0101), 0, 0, by decide +kernel⟩,
   ⟨{ (regs ring [(Reg.CRG_MSIX 0, word [(Fld.CRG_MSIX_EN, 1), (Fld.CRG_MSIX_COAL_TIME, 9), (Fld.CRG_MSIX_VECTOR, 3)])]) with rings := { ring.rings with coalOn := [some 100], coal := [2] } },
     0, by decide +kernel⟩,
   ⟨(regs ring [(Reg.CRG_SQ_TAIL 0, 1)]), 0, goodPacket, [], [], .ok, by decide +kernel, (if_neg (not_not.2 rfl)).trans (by decide +kernel),
     by decide +kernel, by decide +kernel, by decide +kernel⟩,
   ⟨(regs ring [(Reg.CRG_SQ_TAIL 0, 1)]), 0, packet 0x0101 id, [], [], .ok, by decide +kernel⟩,
   ⟨(regs ring [(Reg.CRG_SQ_TAIL 0, 1)]), 0, packet 0x0101 id, [], [], by decide +kernel⟩,
   ⟨asked { cmd 0x0301 (fun p => { p with arg1 := 2 }) with running := true, started := true, expiry := some 1000, work := [wHank 0, wRange] }, 4,
     1000, { cmd 0x0301 (fun p => { p with arg1 := 2 }) with running := true, started := true, expiry := some 1000, work := [wHank 0, wRange] },
     by decide +kernel⟩,
   ⟨asked { cmd 0x0101 with expiry := some 1000 }, 4, 1000, { cmd 0x0101 with expiry := some 1000 }, by decide +kernel⟩,
   ⟨asked (cmd 0x0101), 4, 0, 0, 1, 2, cmd 0x0101, by decide +kernel⟩,
   ⟨asked (cmd 0x0101), 4, 0, 0, 1, 2, cmd 0x0101, 5, by decide +kernel⟩⟩

/-- The hypotheses of ReportsComplete. -/
theorem witness_ReportsComplete :
    (∃ (s : State) (id : Nat) (c : Cmd), (s.CmdReady id 0x0101 c)) ∧
    (∃ (s : State) (id : Nat) (c : Cmd), (s.CmdReady id 0x0102 c)) ∧
    (∃ (s : State) (id : Nat) (c : Cmd), (s.CmdReady id 0x0103 c) ∧ (c.pkt.arg0 = 0) ∧ (c.pkt.arg1 ≤ certChain.length)) ∧
    (∃ (s : State) (id : Nat) (c : Cmd), (s.CmdReady id 0x0103 c) ∧ (c.pkt.arg0 = 1) ∧ (c.pkt.arg1 ≤ (certBytes 3).length)) ∧
    (∃ (s : State) (id : Nat) (c : Cmd), (s.CmdReady id 0x0901 c) ∧ (c.pkt.arg0 ≤ 33)) ∧
    (∃ (s : State) (id : Nat) (c : Cmd), (s.CmdReady id 0x0A01 c)) ∧
    (∃ (s : State) (id : Nat) (c : Cmd), (s.CmdReady id 0x0702 c)) ∧
    (∃ (s : State) (id : Nat) (c : Cmd), (s.CmdReady id 0x0404 c) ∧ (c.pkt.keyidx ≤ 4095)) ∧
    (∃ (s : State) (id : Nat) (c : Cmd), (s.CmdReady id 0x0C04 c) ∧ (c.pkt.arg0 ≤ 63)) :=
  ⟨⟨asked (cmd 0x0101), 4, cmd 0x0101, by unfold State.CmdReady; decide +kernel⟩,
   ⟨asked (cmd 0x0102), 4, cmd 0x0102, by unfold State.CmdReady; decide +kernel⟩,
   ⟨asked (cmd 0x0103 (fun p => { p with arg1 := certChain.length })), 4, cmd 0x0103 (fun p => { p with arg1 := certChain.length }),
     by unfold State.CmdReady; and_intros <;> first | rfl | decide +kernel, rfl, Nat.le_refl _⟩,
   ⟨asked (cmd 0x0103 (fun p => { p with arg0 := 1, arg1 := (certBytes 3).length })), 4,
     cmd 0x0103 (fun p => { p with arg0 := 1, arg1 := (certBytes 3).length }),
     by unfold State.CmdReady; and_intros <;> first | rfl | decide +kernel, rfl, Nat.le_refl _⟩,
   ⟨asked (cmd 0x0901 (fun p => { p with arg0 := 33, buflen := 64 })), 4, cmd 0x0901 (fun p => { p with arg0 := 33, buflen := 64 }),
     by unfold State.CmdReady; decide +kernel⟩,
   ⟨asked (cmd 0x0A01), 4, cmd 0x0A01, by unfold State.CmdReady; decide +kernel⟩,
   ⟨asked (cmd 0x0702), 4, cmd 0x0702, by unfold State.CmdReady; decide +kernel⟩,
   ⟨asked (cmd 0x0404 (fun p => { p with keyidx := 4095 })), 4, cmd 0x0404 (fun p => { p with keyidx := 4095 }),
     by unfold State.CmdReady; decide +kernel⟩,
   ⟨asked (cmd 0x0C04 (fun p => { p with arg0 := 63 })), 4, cmd 0x0C04 (fun p => { p with arg0 := 63 }), by unfold State.CmdReady; decide +kernel⟩⟩

/-- The hypotheses of ReserveAndKeyCommands. -/
theorem witness_ReserveAndKeyCommands :
    (∃ (s : State) (id : Nat) (c : Cmd), (s.CmdReady id 0x0A02 c) ∧ (c.pkt.arg0 ≤ 11) ∧ (s.bankState c.pkt.arg0 < 2) ∧ (s.canTest = true)) ∧
    (∃ (s : State) (id : Nat) (c : Cmd), (s.CmdReady id 0x0A03 c) ∧ (s.power = .on) ∧ (s.energy.prepareCmd = none)) ∧
    (∃ (s : State) (id : Nat) (c : Cmd), (s.CmdReady id 0x0A03 c) ∧ (s.power = .bound)) ∧
    (∃ (s : State) (id : Nat) (c : Cmd), (s.CmdReady id 0x0701 c) ∧ (c.pkt.arg0 < 16) ∧ (c.pkt.flags % 8 = 1) ∧ (c.pkt.arg1 ≤ 4096) ∧
     (s.shareSum c.pkt.arg0 c.pkt.arg1 ≤ 4096)) ∧
    (∃ (s : State) (id : Nat) (c : Cmd), (s.CmdReady id 0x0401 c)) ∧
    (∃ (s : State) (id : Nat) (c : Cmd), (tget s.cmds id = some c) ∧ (c.pkt.opcode = 0x0401) ∧ (c.running = true) ∧ (c.work = [wKey c.pkt.keyidx]) ∧
     (s.cmdsRun = true)) ∧
    (∃ (s : State) (id : Nat) (c : Cmd), (s.CmdReady id 0x0403 c) ∧ (s.retireCheck c.pkt.keyidx = none)) ∧
    (∃ (s : State) (id : Nat) (c : Cmd), (s.CmdReady id 0x0C03 c) ∧ (16 ≤ c.pkt.arg0) ∧ (c.pkt.arg0 ≤ 63) ∧ (1 ≤ c.pkt.arg1) ∧ (c.pkt.arg1 ≤ 2 ^ 32) ∧
     (s.ratchet c.pkt.arg0 + c.pkt.arg1 < 2 ^ 64)) :=
  ⟨⟨asked (cmd 0x0A02 (fun p => { p with arg0 := 11 })), 4, cmd 0x0A02 (fun p => { p with arg0 := 11 }), by unfold State.CmdReady; decide +kernel⟩,
   ⟨asked (cmd 0x0A03), 4, cmd 0x0A03, by unfold State.CmdReady; decide +kernel⟩,
   ⟨asked (cmd 0x0A03) { ring with power := .bound }, 4, cmd 0x0A03, by unfold State.CmdReady; decide +kernel⟩,
   ⟨asked (cmd 0x0701 (fun p => { p with arg0 := 15, flags := 1 })), 4, cmd 0x0701 (fun p => { p with arg0 := 15, flags := 1 }),
     by unfold State.CmdReady; decide +kernel⟩,
   ⟨asked (cmd 0x0401 (fun p => { p with keyidx := 4095, buflen := 192 })), 4, cmd 0x0401 (fun p => { p with keyidx := 4095, buflen := 192 }),
     by unfold State.CmdReady; decide +kernel⟩,
   ⟨asked { cmd 0x0401 (fun p => { p with keyidx := 4095, buflen := 192 }) with running := true, work := [wKey 4095] }, 4,
     { cmd 0x0401 (fun p => { p with keyidx := 4095, buflen := 192 }) with running := true, work := [wKey 4095] }, by decide +kernel⟩,
   ⟨asked (cmd 0x0403 (fun p => { p with keyidx := 4095 })) { ring with crypto := { ring.crypto with slots := [(4095, { state := 1, wkey := 5, gen := 1, kcv := 0, crc := 0 })] } },
     4, cmd 0x0403 (fun p => { p with keyidx := 4095 }), by unfold State.CmdReady; decide +kernel⟩,
   ⟨asked (cmd 0x0C03 (fun p => { p with arg0 := 63, arg1 := 2 ^ 32 })), 4, cmd 0x0C03 (fun p => { p with arg0 := 63, arg1 := 2 ^ 32 }),
     by unfold State.CmdReady; decide +kernel⟩⟩

/-- The hypotheses of SealCommands. -/
theorem witness_SealCommands :
    (∃ (s : State) (id : Nat) (c : Cmd), (s.CmdReady id 0x0501 c) ∧ (s.sealCheck c.pkt = none) ∧ (s.journalFull = false) ∧ ((∀ i,
     i < c.pkt.arg1 → (s.hostEntry (s.ldBase c.pkt.ld + c.pkt.arg0 + i)).hint = false))) ∧
    (∃ (s : State) (id : Nat) (c : Cmd) (n : Nat) (v : LiveSeal), (s.CmdReady id 0x0502 c) ∧ (256 ≤ c.pkt.buflen) ∧ (c.pkt.flags.testBit 0 = true) ∧
     (c.pkt.arg0 < s.ldHanks c.pkt.ld) ∧ (tfind s.seals.live (fun _ v => decide (v.first ≤ s.ldBase c.pkt.ld + c.pkt.arg0 ∧
     s.ldBase c.pkt.ld + c.pkt.arg0 < v.first + v.count)) = some (n, v))) ∧
    (∃ (s : State) (id : Nat) (c : Cmd) (v : LiveSeal), (s.CmdReady id 0x0504 c) ∧ (tget s.seals.live c.pkt.arg0 = some v)) ∧
    (∃ (s : State) (id : Nat) (c : Cmd), (s.CmdReady id 0x0503 c) ∧ ((tokenOf c.input).kind = 3) ∧ (s.ratchet 1 + 1 < 2 ^ 64)) :=
  ⟨⟨asked (cmd 0x0501 (fun p => { p with arg1 := 2 })) { ring with seals := { ring.seals with owner := some (1, 2) } }, 4,
     cmd 0x0501 (fun p => { p with arg1 := 2 }), by unfold State.CmdReady; decide +kernel⟩,
   ⟨asked (cmd 0x0502 (fun p => { p with buflen := 256, flags := 1 })) { ring with seals := { ring.seals with live := [(1, { seal1 with count := 1 })] } },
     4, cmd 0x0502 (fun p => { p with buflen := 256, flags := 1 }), 1, { seal1 with count := 1 }, by unfold State.CmdReady; decide +kernel⟩,
   ⟨asked (cmd 0x0504 (fun p => { p with arg0 := 1 })) { ring with seals := { ring.seals with live := [(1, seal1)] } }, 4,
     cmd 0x0504 (fun p => { p with arg0 := 1 }), seal1, by unfold State.CmdReady; decide +kernel⟩,
   ⟨asked (cmd 0x0503 (fun p => { p with buflen := 256 }) (3 :: List.replicate 255 0)), 4,
     cmd 0x0503 (fun p => { p with buflen := 256 }) (3 :: List.replicate 255 0), by unfold State.CmdReady; decide +kernel⟩⟩

/-- The hypotheses of LineCommands. -/
theorem witness_LineCommands :
    (∃ (s : State) (id : Nat) (st : Nat) (c : Cmd), (s.CmdReady id 0x0204 c) ∧ (s.readFrom c.pkt = .inr st)) ∧
    (∃ (s : State) (id : Nat) (l : Nat) (c : Cmd), (s.CmdReady id 0x0204 c) ∧ (s.readFrom c.pkt = .inl l) ∧ (s.badHanks l (c.pkt.buflen / 64) = [])) ∧
    (∃ (s : State) (id : Nat) (l : Nat) (c : Cmd), (s.CmdReady id 0x0204 c) ∧ (s.readFrom c.pkt = .inl l) ∧ (s.badHanks l (c.pkt.buflen / 64) = []) ∧
     ((∀ i, i < c.pkt.buflen / 64 → s.readStop c.pkt.keyidx (l + i) = none)) ∧ (s.wm.errs = [])) ∧
    (∃ (s : State) (id : Nat) (l : Nat) (c : Cmd), (s.CmdReady id 0x0202 c) ∧ (s.lineCheck c.pkt.ld c.pkt.arg1 [c.pkt.arg0] = none) ∧
     (l = s.lineOfDpa c.pkt.ld c.pkt.arg0) ∧ (s.badHanks l c.pkt.arg1 = [])) ∧
    (∃ (s : State) (id : Nat) (l : Nat) (c : Cmd), (s.CmdReady id 0x0205 c) ∧ (c.pkt.buflen % 64 = 0) ∧
     (s.lineCheck c.pkt.ld (c.pkt.buflen / 64) [c.pkt.arg0] = none) ∧ (l = s.lineOfDpa c.pkt.ld c.pkt.arg0) ∧
     (s.badHanks l (c.pkt.buflen / 64) = [])) ∧
    (∃ (s : State) (id : Nat) (l : Nat) (m : Nat) (c : Cmd), (s.CmdReady id 0x0201 c) ∧
     (c.pkt.arg0 + 64 * c.pkt.arg2 ≤ c.pkt.arg1 ∨ c.pkt.arg1 + 64 * c.pkt.arg2 ≤ c.pkt.arg0) ∧ (s.lineCheck c.pkt.ld c.pkt.arg2 [c.pkt.arg0,
     c.pkt.arg1] = none) ∧ (l = s.lineOfDpa c.pkt.ld c.pkt.arg0) ∧ (m = s.lineOfDpa c.pkt.ld c.pkt.arg1) ∧ (s.badHanks l c.pkt.arg2 = []) ∧
     (s.badHanks m c.pkt.arg2 = [])) ∧
    (∃ (s : State) (id : Nat) (c : Cmd), (s.CmdReady id 0x0203 c) ∧ (s.writesComing c.pkt.ld c.accept = false) ∧ (s.fenceLines c.pkt.ld c.accept = [])) ∧
    (∃ (s : State) (id : Nat) (c : Cmd), (s.CmdReady id 0x0203 c) ∧ (s.writesComing c.pkt.ld c.accept = false) ∧ (s.fenceLines c.pkt.ld c.accept ≠ [])) :=
  ⟨⟨asked (cmd 0x0204 (fun p => { p with buflen := 32 })), 4, stBAD_PARAM, cmd 0x0204 (fun p => { p with buflen := 32 }),
     by unfold State.CmdReady; decide +kernel⟩,
   ⟨asked (cmd 0x0204 (fun p => { p with buflen := 128 })), 4, 0, cmd 0x0204 (fun p => { p with buflen := 128 }),
     by unfold State.CmdReady; decide +kernel⟩,
   ⟨asked (cmd 0x0204 (fun p => { p with buflen := 128 })), 4, 0, cmd 0x0204 (fun p => { p with buflen := 128 }),
     by unfold State.CmdReady; decide +kernel⟩,
   ⟨asked (cmd 0x0202 (fun p => { p with arg1 := 1 })), 4, 0, cmd 0x0202 (fun p => { p with arg1 := 1 }), by unfold State.CmdReady; decide +kernel⟩,
   ⟨asked (cmd 0x0205 (fun p => { p with buflen := 64 }) (List.replicate 64 3)), 4, 0,
     cmd 0x0205 (fun p => { p with buflen := 64 }) (List.replicate 64 3), by unfold State.CmdReady; decide +kernel⟩,
   ⟨asked (cmd 0x0201 (fun p => { p with arg1 := 64, arg2 := 1 })) { ring with tlc := { ring.tlc with pool := [(0, dirty), (1, { dirty with data := 3 })] } },
     4, 0, 1, cmd 0x0201 (fun p => { p with arg1 := 64, arg2 := 1 }), by unfold State.CmdReady; decide +kernel⟩,
   ⟨asked (cmd 0x0203) { ring with tlc := { ring.tlc with pool := [] } }, 4, cmd 0x0203, by unfold State.CmdReady; decide +kernel⟩,
   ⟨asked (cmd 0x0203), 4, cmd 0x0203, by unfold State.CmdReady; decide +kernel⟩⟩

/-- The hypotheses of HankCommands. -/
theorem witness_HankCommands :
    (∃ (s : State) (id : Nat) (l : Nat) (c : Cmd), (0 < c.pkt.arg1) ∧ (c.done = 0) ∧ (s.hanksInLd c.pkt = true) ∧
     (l = s.ldBase c.pkt.ld + c.pkt.arg0) ∧ (s.sealedOrBusy l = false) ∧ (s.journalFull = false) ∧ ((s.hostEntry l).state = 1) ∧
     (s.CmdReady id 0x0301 c) ∧ (s.isSecure c l = false)) ∧
    (∃ (s : State) (id : Nat) (l : Nat) (c : Cmd), (0 < c.pkt.arg1) ∧ (c.done = 0) ∧ (s.hanksInLd c.pkt = true) ∧
     (l = s.ldBase c.pkt.ld + c.pkt.arg0) ∧ (s.sealedOrBusy l = false) ∧ (s.journalFull = false) ∧ ((s.hostEntry l).state = 1) ∧
     (s.CmdReady id 0x0301 c) ∧ (s.isSecure c l = true)) ∧
    (∃ (s : State) (id : Nat) (l : Nat) (c : Cmd), (0 < c.pkt.arg1) ∧ (c.done = 0) ∧ (s.hanksInLd c.pkt = true) ∧
     (l = s.ldBase c.pkt.ld + c.pkt.arg0) ∧ (s.sealedOrBusy l = false) ∧ (s.journalFull = false) ∧ ((s.hostEntry l).state = 1) ∧
     (s.CmdReady id 0x0302 c)) ∧
    (∃ (s : State) (id : Nat) (l : Nat) (c : Cmd), (0 < c.pkt.arg1) ∧ (c.done = 0) ∧ (s.hanksInLd c.pkt = true) ∧
     (l = s.ldBase c.pkt.ld + c.pkt.arg0) ∧ (s.sealedOrBusy l = false) ∧ (s.journalFull = false) ∧ ((s.hostEntry l).state = 1) ∧
     (s.CmdReady id 0x0402 c) ∧ (c.pkt.keyidx < 4096) ∧ ((s.slot c.pkt.keyidx).state = 1) ∧ ((s.hostEntry l).key ≠ c.pkt.keyidx) ∧
     (s.migOf false l = none)) :=
  ⟨⟨asked (cmd 0x0301 (fun p => { p with arg1 := 1 })), 4, 0, cmd 0x0301 (fun p => { p with arg1 := 1 }), by unfold State.CmdReady; decide +kernel⟩,
   ⟨asked (cmd 0x0301 (fun p => { p with arg1 := 1, flags := 1 })), 4, 0, cmd 0x0301 (fun p => { p with arg1 := 1, flags := 1 }),
     by unfold State.CmdReady; decide +kernel⟩,
   ⟨asked (cmd 0x0302 (fun p => { p with arg1 := 1 })), 4, 0, cmd 0x0302 (fun p => { p with arg1 := 1 }), by unfold State.CmdReady; decide +kernel⟩,
   ⟨asked (cmd 0x0402 (fun p => { p with arg1 := 1, keyidx := 4095 })) { ring with crypto := { ring.crypto with slots := [(4095, { state := 1, wkey := 5, gen := 1, kcv := 0, crc := 0 })] } },
     4, 0, cmd 0x0402 (fun p => { p with arg1 := 1, keyidx := 4095 }), by unfold State.CmdReady; decide +kernel⟩⟩

/-- The hypotheses of PlyAndChainCommands. -/
theorem witness_PlyAndChainCommands :
    (∃ (s : State) (id : Nat) (k : Nat) (r : Nat) (c : Cmd), (s.CmdReady id 0x0601 c) ∧ (s.journalFull = false) ∧ (c.pkt.flags.testBit 0 = false) ∧
     (k < 2) ∧ (c.pkt.arg2 = k + 1) ∧ ((s.link k).setPly = none) ∧ (s.hanksInLd c.pkt = true) ∧ (s.linkUp k = true) ∧
     (s.regionMeets (s.ldBase c.pkt.ld + c.pkt.arg0) c.pkt.arg1 = false) ∧ (s.anySealed (s.ldBase c.pkt.ld + c.pkt.arg0) c.pkt.arg1 = false) ∧
     (s.freeRegion k = some r)) ∧
    (∃ (s : State) (id : Nat) (k : Nat) (r : Nat) (c : Cmd), (s.CmdReady id 0x0601 c) ∧ (s.journalFull = false) ∧ (c.pkt.flags.testBit 0 = false) ∧
     (c.pkt.arg2 = 0) ∧ (s.hanksInLd c.pkt = true) ∧ (s.regionExact (s.ldBase c.pkt.ld + c.pkt.arg0) c.pkt.arg1 = some (k, r)) ∧
     (s.anySealed (s.ldBase c.pkt.ld + c.pkt.arg0) c.pkt.arg1 = false)) ∧
    (∃ (s : State) (id : Nat) (c : Cmd), (s.CmdReady id 0x0601 c) ∧ (s.journalFull = false) ∧ (c.pkt.flags.testBit 0 = true) ∧ (c.pkt.arg2 < 2) ∧
     (c.pkt.arg3 < 16) ∧ ((s.area c.pkt.arg2 c.pkt.arg3).1 ≠ 0) ∧ (s.fget (Reg.PLK_AREA c.pkt.arg2 c.pkt.arg3) Fld.PLK_AREA_SEALS = 0)) ∧
    (∃ (s : State) (id : Nat) (c : Cmd), (s.CmdReady id 0x0602 c) ∧ (c.pkt.arg0 < 2)) ∧
    (∃ (s : State) (id : Nat) (c : Cmd) (y : Sync), (s.CmdReady id 0x0603 c) ∧ (c.pkt.arg0 < 2) ∧ (c.pkt.arg1 < 16) ∧ (s.linkUp c.pkt.arg0 = true) ∧
     ((s.region c.pkt.arg0 c.pkt.arg1).1 ≠ 0) ∧ ((s.link c.pkt.arg0).sync = some y) ∧ (0 < y.step) ∧ (y.step ≠ 2) ∧
     ((16 + c.pkt.arg1) ∉ (s.link c.pkt.arg0).wantSync) ∧ (c.pkt.arg1 ∉ (s.link c.pkt.arg0).wantSync)) ∧
    (∃ (s : State) (id : Nat) (c : Cmd), (s.CmdReady id 0x0603 c) ∧ (c.pkt.arg0 < 2) ∧ (c.pkt.arg1 < 16) ∧ (s.linkUp c.pkt.arg0 = true) ∧
     ((s.region c.pkt.arg0 c.pkt.arg1).1 ≠ 0)) ∧
    (∃ (s : State) (id : Nat) (c : Cmd), (s.CmdReady id 0x0603 c) ∧ (c.pkt.arg0 < 2) ∧ (c.pkt.arg1 < 16) ∧
     ((s.region c.pkt.arg0 c.pkt.arg1).1 = 0 ∨ s.linkUp c.pkt.arg0 = false)) ∧
    (∃ (s : State) (id : Nat) (c : Cmd), (s.CmdReady id 0x0B01 c) ∧ (c.pkt.arg1 ≤ c.pkt.arg2) ∧ (c.pkt.arg2 < 16384) ∧ (64 ≤ c.pkt.buflen)) ∧
    (∃ (s : State) (id : Nat) (n : Nat) (c : Cmd) (w : Walk), (tget s.chain.walks id = some w) ∧ (tget s.cmds id = some c) ∧ (w.kind = 1) ∧
     (c.extra + walkWait c.pkt ≤ s.clk.now) ∧ (n = walkLast c.pkt + 1 - c.pkt.arg1)) ∧
    (∃ (s : State) (id : Nat) (c : Cmd), (s.CmdReady id 0x0B02 c) ∧ (c.pkt.arg0 < 16384) ∧ (0 < c.pkt.buflen) ∧ (c.pkt.buflen ≤ 240) ∧
     (c.pkt.buflen % 4 = 0) ∧ (c.pkt.arg0 ≠ s.uaddr)) ∧
    (∃ (s : State) (id : Nat) (c : Cmd), (s.CmdReady id 0x0B02 c) ∧ (c.pkt.arg0 < 16384) ∧ (0 < c.pkt.buflen) ∧ (c.pkt.buflen ≤ 240) ∧
     (c.pkt.buflen % 4 = 0) ∧ (c.pkt.arg0 = s.uaddr) ∧ (s.uaddrValid = true) ∧ ((∀ w ∈ s.chain.walks, w.2.kind ≠ 4))) ∧
    (∃ (s : State) (id : Nat) (c : Cmd), (s.CmdReady id 0x0B03 c) ∧ (c.pkt.arg0 = 1) ∧ (c.pkt.arg1 < 16384) ∧ (c.pkt.arg1 ≠ s.uaddr) ∧
     (c.pkt.buflen = 0 ∨ 64 ≤ c.pkt.buflen)) ∧
    (∃ (s : State) (id : Nat) (c : Cmd), (s.CmdReady id 0x0B03 c) ∧ (c.pkt.arg0 = 2) ∧ (c.pkt.arg1 = 0)) ∧
    (∃ (s : State) (id : Nat) (c : Cmd), (s.CmdReady id 0x0B03 c) ∧ (c.pkt.arg0 = 0) ∧ (c.pkt.arg1 = 0) ∧ (c.pkt.buflen = 0 ∨ 64 ≤ c.pkt.buflen)) :=
  ⟨⟨asked (cmd 0x0601 (fun p => { p with arg1 := 1, arg2 := 2 })) chained, 4, 1, 0, cmd 0x0601 (fun p => { p with arg1 := 1, arg2 := 2 }),
     by unfold State.CmdReady; decide +kernel⟩,
   ⟨asked (cmd 0x0601 (fun p => { p with arg1 := 1 })) (regs (linked 4 peered) [(Reg.PLK_REGION 0 15, word [(Fld.PLK_REGION_STATE, 2),
     (Fld.PLK_REGION_COUNT, 1)])]), 4, 0, 15, cmd 0x0601 (fun p => { p with arg1 := 1 }), by unfold State.CmdReady; decide +kernel⟩,
   ⟨asked (cmd 0x0601 (fun p => { p with flags := 1, arg2 := 0, arg3 := 2 })) holding, 4,
     cmd 0x0601 (fun p => { p with flags := 1, arg2 := 0, arg3 := 2 }), by unfold State.CmdReady; decide +kernel⟩,
   ⟨asked (cmd 0x0602 (fun p => { p with arg0 := 1 })), 4, cmd 0x0602 (fun p => { p with arg0 := 1 }), by unfold State.CmdReady; decide +kernel⟩,
   ⟨asked (cmd 0x0603 (fun p => { p with arg1 := 15 })) (regs (linked 4 { peered with sync := some { region := 1, full := false, step := 3, left := [(0, 1)], due := 9000 } }) [(Reg.PLK_REGION 0 15,
     word [(Fld.PLK_REGION_STATE, 4)])]), 4, cmd 0x0603 (fun p => { p with arg1 := 15 }),
     { region := 1, full := false, step := 3, left := [(0, 1)], due := 9000 }, by unfold State.CmdReady; decide +kernel⟩,
   ⟨asked (cmd 0x0603 (fun p => { p with arg1 := 15 })) (regs (linked 4 peered) [(Reg.PLK_REGION 0 15, word [(Fld.PLK_REGION_STATE, 2),
     (Fld.PLK_REGION_COUNT, 1)])]), 4, cmd 0x0603 (fun p => { p with arg1 := 15 }), by unfold State.CmdReady; decide +kernel⟩,
   ⟨asked (cmd 0x0603 (fun p => { p with arg1 := 15 })), 4, cmd 0x0603 (fun p => { p with arg1 := 15 }), by unfold State.CmdReady; decide +kernel⟩,
   ⟨asked (cmd 0x0B01 (fun p => { p with arg2 := 16383, buflen := 64 })) chained, 4, cmd 0x0B01 (fun p => { p with arg2 := 16383, buflen := 64 }),
     by unfold State.CmdReady; decide +kernel⟩,
   ⟨(let s := asked { cmd 0x0B01 (fun p => { p with arg1 := 7, arg2 := 7, buflen := 64 }) with running := true } chained; { s with clk := { s.clk with now := 100000000 }, chain := { s.chain with walks := [(4, { cmd := 4, mid := 0, kind := 1, dest := 0, replies := [(7, [1])] })] } }),
     4, 1, { cmd 0x0B01 (fun p => { p with arg1 := 7, arg2 := 7, buflen := 64 }) with running := true },
     { cmd := 4, mid := 0, kind := 1, dest := 0, replies := [(7, [1])] }, by decide +kernel⟩,
   ⟨asked (cmd 0x0B02 (fun p => { p with arg0 := 16383, buflen := 240 })) chained, 4, cmd 0x0B02 (fun p => { p with arg0 := 16383, buflen := 240 }),
     by unfold State.CmdReady; decide +kernel⟩,
   ⟨asked (cmd 0x0B02 (fun p => { p with arg0 := 5, buflen := 4 })) chained, 4, cmd 0x0B02 (fun p => { p with arg0 := 5, buflen := 4 }),
     by unfold State.CmdReady; decide +kernel⟩,
   ⟨asked (cmd 0x0B03 (fun p => { p with arg0 := 1, arg1 := 16383 })) chained, 4, cmd 0x0B03 (fun p => { p with arg0 := 1, arg1 := 16383 }),
     by unfold State.CmdReady; decide +kernel⟩,
   ⟨asked (cmd 0x0B03 (fun p => { p with arg0 := 2, buflen := 256 })) { chained with chain := { chained.chain with inbox := [(5, message 4)] } }, 4,
     cmd 0x0B03 (fun p => { p with arg0 := 2, buflen := 256 }), by unfold State.CmdReady; decide +kernel⟩,
   ⟨asked (cmd 0x0B03) chained, 4, cmd 0x0B03, by unfold State.CmdReady; decide +kernel⟩⟩

/-- The hypotheses of MaintenanceAndTestCommands. -/
theorem witness_MaintenanceAndTestCommands :
    (∃ (s : State) (id : Nat) (c : Cmd), (s.CmdReady id 0x0801 c) ∧ (s.maintCheck c.pkt = none) ∧ (s.tlc.maint = none)) ∧
    (∃ (s : State) (id : Nat) (c : Cmd), (s.CmdReady id 0x0802 c) ∧ (s.maintCheck c.pkt = none) ∧ (s.tlc.maint = none) ∧ (c.pkt.arg0 ≠ 0)) ∧
    (∃ (s : State) (id : Nat) (c : Cmd), (s.CmdReady id 0x0802 c) ∧ (s.tlc.maint = none) ∧ (c.pkt.arg0 = 0)) ∧
    (∃ (s : State) (id : Nat) (c : Cmd), (s.CmdReady id 0x0803 c) ∧ (s.maintCheck c.pkt = none) ∧ (s.tlc.maint = none) ∧ ((∀ q ∈ s.tlc.pool,
     (s.maintOf 3 id c.pkt).covers q.1 = false)) ∧ (c.pkt.arg0 ≠ 0)) ∧
    (∃ (s : State) (id : Nat) (c : Cmd), (s.CmdReady id 0x0803 c) ∧ (s.maintCheck c.pkt = none) ∧ (s.tlc.maint = none) ∧ ((∃ q ∈ s.tlc.pool,
     (s.maintOf 3 id c.pkt).covers q.1 = true) ∨ c.pkt.arg0 = 0)) ∧
    (∃ (s : State) (id : Nat) (c : Cmd), (s.CmdReady id 0x0804 c) ∧ (c.pkt.arg0 ≤ 1)) ∧
    (∃ (s : State) (id : Nat) (c : Cmd), (s.CmdReady id 0x0804 c) ∧ (c.pkt.arg0 = 0) ∧ (c.pkt.arg1 = 1) ∧ (60 ≤ c.pkt.arg2 / 2) ∧
     (c.pkt.arg2 / 2 ≤ 86400)) ∧
    (∃ (s : State) (id : Nat) (c : Cmd), (s.CmdReady id 0x0805 c)) ∧
    (∃ (s : State) (id : Nat) (c : Cmd), (s.CmdReady id 0x0805 c) ∧ (c.pkt.arg0 = 1) ∧ (s.rwlLocked = false) ∧
     (256 ≤ getF (BitVec.ofNat 64 c.pkt.arg1) Fld.TLC_MIG_CTL_HEAT_THR)) ∧
    (∃ (s : State) (id : Nat) (c : Cmd), (s.CmdReady id 0x0C01 c) ∧ (c.pkt.arg0 % 8 = 0) ∧ (c.pkt.buflen % 8 = 0) ∧ (0 < c.pkt.buflen) ∧
     (stashHidden c.pkt.arg0 c.pkt.buflen = false) ∧ (c.pkt.arg0 + c.pkt.buflen ≤ 2 ^ 21)) ∧
    (∃ (s : State) (id : Nat) (n : Nat) (c : Cmd), (s.CmdReady id 0x0C02 c) ∧ (c.pkt.arg0 = 1) ∧ (hostRecordLen 1 = some n) ∧ (c.pkt.buflen = n) ∧
     (ofBytes c.input < 2)) ∧
    (∃ (s : State) (id : Nat) (n : Nat) (c : Cmd), (s.CmdReady id 0x0C02 c) ∧ (hostRecordLen c.pkt.arg0 = some n) ∧ (c.pkt.buflen = n) ∧
     ((c.pkt.arg0 = 1 → lanePlanOk c.input = true)) ∧ ((c.pkt.arg0 = 2 → s.imageOk c.input = true))) ∧
    (∃ (s : State) (id : Nat) (c : Cmd), (s.CmdReady id 0x0C02 c) ∧ (hostRecordLen c.pkt.arg0 = none ∨ hostRecordLen c.pkt.arg0 ≠ some c.pkt.buflen)) ∧
    (∃ (s : State) (id : Nat) (c : Cmd), (s.CmdReady id 0x0D01 c) ∧ (s.testEnabled c.carrier = true) ∧ (s.adm.faults = []) ∧ (1 ≤ c.pkt.arg0) ∧
     (c.pkt.arg0 ≤ 8) ∧ (s.injectCheck c.pkt = none)) ∧
    (∃ (s : State) (id : Nat) (st : Nat) (c : Cmd), (s.CmdReady id 0x0D01 c) ∧ (s.testEnabled c.carrier = true) ∧ (s.adm.faults = []) ∧
     (1 ≤ c.pkt.arg0) ∧ (c.pkt.arg0 ≤ 8) ∧ (s.injectCheck c.pkt = some st)) ∧
    (∃ (s : State) (id : Nat) (c : Cmd), (s.CmdReady id 0x0D01 c) ∧ (s.testEnabled c.carrier = true) ∧ (s.adm.faults ≠ []) ∧ (1 ≤ c.pkt.arg0) ∧
     (c.pkt.arg0 ≤ 8)) ∧
    (∃ (s : State) (id : Nat) (c : Cmd), (s.CmdReady id 0x0D01 c) ∧ (s.testEnabled c.carrier = false)) ∧
    (∃ (s : State) (id : Nat) (c : Cmd), (s.CmdReady id 0x0D01 c) ∧ (s.testEnabled c.carrier = true) ∧ (s.adm.faults = []) ∧ (c.pkt.arg0 = 6) ∧
     (c.pkt.arg1 < 2) ∧ (s.linkUp c.pkt.arg1 = true)) ∧
    (∃ (s : State) (id : Nat) (c : Cmd), (s.CmdReady id 0x0D02 c) ∧ (1 ≤ c.pkt.arg0) ∧ (c.pkt.arg0 ≤ 5) ∧ (s.sameTest id c.pkt.arg0 = false) ∧
     (s.testReady c.pkt.arg0 = true)) ∧
    (∃ (s : State) (id : Nat) (c : Cmd), (s.CmdReady id 0x0D02 c) ∧ (1 ≤ c.pkt.arg0) ∧ (c.pkt.arg0 ≤ 5) ∧
     (s.sameTest id c.pkt.arg0 = true ∨ s.testReady c.pkt.arg0 = false)) ∧
    (∃ (s : State) (k : Nat) (f : Nat) (n : Nat), (k = 2 ∨ k = 4)) ∧
    (∃ (s : State) (id : Nat) (k : Nat) (f : Nat) (n : Nat) (c : Cmd), (k = 2 ∨ k = 4) ∧ (tget s.cmds id = some c) ∧
     ((tkeys s.cmds fun c => c.running && c.work.contains (wOther (800000 + 1000 * k))) = [id])) :=
  ⟨⟨asked (cmd 0x0801), 4, cmd 0x0801, by unfold State.CmdReady; decide +kernel⟩,
   ⟨asked (cmd 0x0802 (fun p => { p with arg0 := 1, arg1 := 32767 })), 4, cmd 0x0802 (fun p => { p with arg0 := 1, arg1 := 32767 }),
     by unfold State.CmdReady; decide +kernel⟩,
   ⟨asked (cmd 0x0802), 4, cmd 0x0802, by unfold State.CmdReady; decide +kernel⟩,
   ⟨asked (cmd 0x0803 (fun p => { p with arg0 := 3, arg1 := 64, arg2 := 128 })), 4,
     cmd 0x0803 (fun p => { p with arg0 := 3, arg1 := 64, arg2 := 128 }), by unfold State.CmdReady; decide +kernel⟩,
   ⟨asked (cmd 0x0803), 4, cmd 0x0803, by unfold State.CmdReady; decide +kernel⟩,
   ⟨asked (cmd 0x0804 (fun p => { p with arg0 := 1, arg1 := 1, arg2 := 24 })), 4, cmd 0x0804 (fun p => { p with arg0 := 1, arg1 := 1, arg2 := 24 }),
     by unfold State.CmdReady; decide +kernel⟩,
   ⟨asked (cmd 0x0804 (fun p => { p with arg1 := 1, arg2 := 172801 })), 4, cmd 0x0804 (fun p => { p with arg1 := 1, arg2 := 172801 }),
     by unfold State.CmdReady; decide +kernel⟩,
   ⟨asked (cmd 0x0805), 4, cmd 0x0805, by unfold State.CmdReady; decide +kernel⟩,
   ⟨asked (cmd 0x0805 (fun p => { p with arg0 := 1, arg1 := (word [(Fld.TLC_MIG_CTL_HEAT_THR, 256)]).toNat })), 4,
     cmd 0x0805 (fun p => { p with arg0 := 1, arg1 := (word [(Fld.TLC_MIG_CTL_HEAT_THR, 256)]).toNat }), by unfold State.CmdReady; decide +kernel⟩,
   ⟨asked (cmd 0x0C01 (fun p => { p with arg0 := 2 ^ 21 - 8, buflen := 8 })), 4, cmd 0x0C01 (fun p => { p with arg0 := 2 ^ 21 - 8, buflen := 8 }),
     by unfold State.CmdReady; decide +kernel⟩,
   ⟨asked (cmd 0x0C02 (fun p => { p with arg0 := 1, buflen := 8 }) (1 :: List.replicate 7 0)), 4, 8,
     cmd 0x0C02 (fun p => { p with arg0 := 1, buflen := 8 }) (1 :: List.replicate 7 0), by unfold State.CmdReady; decide +kernel⟩,
   ⟨asked (cmd 0x0C02 (fun p => { p with arg0 := 0x107, buflen := 256 }) (List.replicate 256 7)), 4, 256,
     cmd 0x0C02 (fun p => { p with arg0 := 0x107, buflen := 256 }) (List.replicate 256 7), by unfold State.CmdReady; decide +kernel⟩,
   ⟨asked (cmd 0x0C02 (fun p => { p with arg0 := 7, buflen := 256 }) (List.replicate 256 7)), 4,
     cmd 0x0C02 (fun p => { p with arg0 := 7, buflen := 256 }) (List.replicate 256 7), by unfold State.CmdReady; decide +kernel⟩,
   ⟨asked (cmd 0x0D01 (fun p => { p with arg0 := 8, arg1 := 4096 })) (regs ring [(Reg.CRG_CTL 0, word [(Fld.CRG_CTL_ENABLE, 1), (Fld.CRG_CTL_TEST_EN,
     1)]), (Reg.GAU_BANK 0, 0)]), 4, cmd 0x0D01 (fun p => { p with arg0 := 8, arg1 := 4096 }), by unfold State.CmdReady; decide +kernel⟩,
   ⟨asked (cmd 0x0D01 (fun p => { p with arg0 := 8, arg1 := 4097 })) (regs ring [(Reg.CRG_CTL 0, word [(Fld.CRG_CTL_ENABLE, 1), (Fld.CRG_CTL_TEST_EN,
     1)]), (Reg.GAU_BANK 0, 0)]), 4, stBAD_PARAM, cmd 0x0D01 (fun p => { p with arg0 := 8, arg1 := 4097 }),
     by unfold State.CmdReady; decide +kernel⟩,
   ⟨asked (cmd 0x0D01 (fun p => { p with arg0 := 8, arg1 := 4096 })) { (regs ring [(Reg.CRG_CTL 0, word [(Fld.CRG_CTL_ENABLE, 1), (Fld.CRG_CTL_TEST_EN, 1)]), (Reg.GAU_BANK 0, 0)]) with adm := { live.adm with faults := [400000] } },
     4, cmd 0x0D01 (fun p => { p with arg0 := 8, arg1 := 4096 }), by unfold State.CmdReady; decide +kernel⟩,
   ⟨asked (cmd 0x0D01), 4, cmd 0x0D01, by unfold State.CmdReady; decide +kernel⟩,
   ⟨asked (cmd 0x0D01 (fun p => { p with arg0 := 6 })) (regs (linked 4) [(Reg.CRG_CTL 0, word [(Fld.CRG_CTL_ENABLE, 1), (Fld.CRG_CTL_TEST_EN, 1)])]),
     4, cmd 0x0D01 (fun p => { p with arg0 := 6 }), by unfold State.CmdReady; decide +kernel⟩,
   ⟨asked (cmd 0x0D02 (fun p => { p with arg0 := 1 })), 4, cmd 0x0D02 (fun p => { p with arg0 := 1 }), by unfold State.CmdReady; decide +kernel⟩,
   ⟨(let s := asked (cmd 0x0D02 (fun p => { p with arg0 := 4 })); { s with cmds := s.cmds ++ [(5, { cmd 0x0D02 (fun p => { p with arg0 := 4 }) with running := true, work := [wOther 804000] })] }),
     4, cmd 0x0D02 (fun p => { p with arg0 := 4 }), by unfold State.CmdReady; decide +kernel⟩,
   ⟨asked { cmd 0x0D02 (fun p => { p with arg0 := 4 }) with running := true, work := [wOther 804000] }, 2, 0, 1, by decide +kernel⟩,
   ⟨asked { cmd 0x0D02 (fun p => { p with arg0 := 4 }) with running := true, work := [wOther 804000] }, 4, 4, 0, 1,
     { cmd 0x0D02 (fun p => { p with arg0 := 4 }) with running := true, work := [wOther 804000] }, by decide +kernel⟩⟩

/-- The hypotheses of CountersAndHistory. -/
theorem witness_CountersAndHistory :
    (∃ (s : State) (v : W64), (getF v Fld.PMC_GCTL_CLEAR = 0)) ∧
    (∃ (s : State) (n : Nat) (v : W64), (n < 8) ∧ (s.fget (Reg.PMC_CTL n) Fld.PMC_CTL_EN = 0)) ∧
    (∃ (s : State) (n : Nat) (v : W64), (s.fget (Reg.PMC_CTL n) Fld.PMC_CTL_EN = 1)) ∧
    (∃ (s : State) (v : W64), (1000 ≤ getF v Fld.PMC_BWW_CTL_LEN) ∧ (getF v Fld.PMC_BWW_CTL_LEN ≤ 100000000)) ∧
    (∃ (s : State), (s.power = .on) ∧ (0 < s.clk.now) ∧ (s.clk.now % s.fget Reg.PMC_BWW_CTL Fld.PMC_BWW_CTL_LEN = 0) ∧ (s.hist.winLive = true) ∧
     (s.hist.winAt ≠ some s.clk.now)) ∧
    (∃ (s : State) (r : HistRec) (rest : List HistRec), (s.power = .on) ∧ (s.hist.ingest = r :: rest) ∧ (s.recCount = 0)) ∧
    (∃ (s : State) (r : HistRec) (old : HistRec) (rest : List HistRec), (s.power = .on) ∧ (s.hist.ingest = r :: rest) ∧ (s.newestRec = some old) ∧
     (sameRec old r = true)) ∧
    (∃ (s : State), (s.power = .on) ∧ (s.hist.dirty = true)) ∧
    (∃ (s : State) (id : Nat) (n : Nat) (c : Cmd), (s.CmdReady id 0x0902 c) ∧ (s.histDenied c = false) ∧ (c.pkt.arg0 = 0) ∧ (c.pkt.arg1 % 8 = 0) ∧
     (c.pkt.arg1 < 4096) ∧ (n = min (512 - c.pkt.arg1 / 8) (c.pkt.buflen / 8))) ∧
    (∃ (s : State) (id : Nat) (n : Nat) (c : Cmd), (s.CmdReady id 0x0902 c) ∧ (s.histDenied c = false) ∧ (c.pkt.arg0 = 1) ∧ (c.pkt.arg1 ≤ 127) ∧
     (n = min (128 - c.pkt.arg1) (c.pkt.buflen / 264))) ∧
    (∃ (s : State) (id : Nat) (n : Nat) (k : Nat) (c : Cmd), (s.CmdReady id 0x0902 c) ∧ (s.histDenied c = false) ∧ (c.pkt.arg0 = 2) ∧
     (c.pkt.arg1 < 2 ^ 32) ∧ (k = (c.pkt.arg1 + 2 ^ 32 - s.recOldest) % 2 ^ 32) ∧ (k ≤ s.recCount) ∧ (n = min (s.recCount - k) (c.pkt.buflen / 64))) ∧
    (∃ (s : State) (id : Nat) (c : Cmd), (s.CmdReady id 0x0902 c) ∧ (s.histDenied c = true)) ∧
    (∃ (s : State) (id : Nat) (c : Cmd), (s.CmdReady id 0x0903 c) ∧ (s.histDenied c = false) ∧ (s.fget Reg.HST_CTL Fld.HST_CTL_NORESET = 0) ∧
     (1 ≤ c.pkt.arg0) ∧ (c.pkt.arg0 < 8)) ∧
    (∃ (s : State) (id : Nat) (c : Cmd), (s.CmdReady id 0x0903 c) ∧ (s.histDenied c = false) ∧ (s.fget Reg.HST_CTL Fld.HST_CTL_NORESET = 0) ∧
     (c.pkt.arg0 = 1) ∧ (0 < s.hist.resetTick.length)) :=
  ⟨⟨live, word [(Fld.PMC_GCTL_GEN, 1)], by decide +kernel⟩,
   ⟨live, 7, 5, by decide +kernel⟩,
   ⟨(regs live [(Reg.PMC_CTL 7, word [(Fld.PMC_CTL_EN, 1)])]), 7, 5, by decide +kernel⟩,
   ⟨live, word [(Fld.PMC_BWW_CTL_LEN, 100000000)], by decide +kernel⟩,
   ⟨{ live with clk := { live.clk with now := 100000 }, hist := { live.hist with winLive := true, bytes := [80, 0, 0, 64, 80, 0], bytes0 := [80, 0, 0, 0, 80, 0] } },
     by decide +kernel⟩,
   ⟨{ live with hist := { live.hist with ingest := [hist1] } }, hist1, [], by decide +kernel⟩,
   ⟨(let s := regs live [(Reg.HST_RSEQ, word [(Fld.HST_RSEQ_NEXT, 1)])]; { s with hist := { s.hist with ingest := [hist1], ring := [(0, hist1)] } }),
     hist1, hist1, [], by decide +kernel⟩,
   ⟨{ live with hist := { live.hist with bins := [(3, 5)], dirty := true } }, by decide +kernel⟩,
   ⟨asked (cmd 0x0902 (fun p => { p with buflen := 8 })), 4, 1, cmd 0x0902 (fun p => { p with buflen := 8 }), by unfold State.CmdReady; decide +kernel⟩,
   ⟨asked (cmd 0x0902 (fun p => { p with arg0 := 1, arg1 := 127, buflen := 264 })), 4, 1,
     cmd 0x0902 (fun p => { p with arg0 := 1, arg1 := 127, buflen := 264 }), by unfold State.CmdReady; decide +kernel⟩,
   ⟨asked (cmd 0x0902 (fun p => { p with arg0 := 2, buflen := 64 })) (let s := regs ring [(Reg.HST_RSEQ, word [(Fld.HST_RSEQ_NEXT,
     1)])]; { s with hist := { s.hist with ring := [(0, hist1)] } }), 4, 1, 0, cmd 0x0902 (fun p => { p with arg0 := 2, buflen := 64 }),
     by unfold State.CmdReady; decide +kernel⟩,
   ⟨asked (cmd 0x0902 (fun p => { p with buflen := 8 })) (regs ring [(Reg.PMC_GCTL, word [(Fld.PMC_GCTL_PRIV, 1), (Fld.PMC_GCTL_OWNER, 3)])]), 4,
     cmd 0x0902 (fun p => { p with buflen := 8 }), by unfold State.CmdReady; decide +kernel⟩,
   ⟨asked (cmd 0x0903 (fun p => { p with arg0 := 7 })), 4, cmd 0x0903 (fun p => { p with arg0 := 7 }), by unfold State.CmdReady; decide +kernel⟩,
   ⟨asked (cmd 0x0903 (fun p => { p with arg0 := 1 })), 4, cmd 0x0903 (fun p => { p with arg0 := 1 }), by unfold State.CmdReady; decide +kernel⟩⟩

/-- The hypotheses of ReservedOffsets. -/
theorem witness_ReservedOffsets :
    (∃ (s : State) (ld : Nat) (off : Nat) (width : Nat) (v : W64), (off < 2 ^ 24) ∧ (specOf (off / 8 * 8) = none) ∧ (off < 0x100000 ∨ 0x340000 ≤ off)) :=
  ⟨live, 0, 2 ^ 24 - 1, 64, 5, by decide +kernel⟩

/-- The hypotheses of RegisterWritesReachTheirRow. -/
theorem witness_RegisterWritesReachTheirRow :
    (∃ (s : State) (ld : Nat) (n : Nat) (v : W64), (n < 8)) ∧
    (∃ (s : State) (ld : Nat) (v : W64), (getF v Fld.TLC_LFSR_STATE ≠ 0)) ∧
    (∃ (s : State) (ld : Nat) (k : Nat) (v : W64), (k < 2) ∧ (s.rwsHeld = false)) ∧
    (∃ (s : State) (ld : Nat) (off : Nat) (width : Nat) (v : W64), (off < 2 ^ 24) ∧ (width ≠ 32) ∧ (width ≠ 64)) ∧
    (∃ (s : State) (ld : Nat) (off : Nat) (v : W64), (off < 2 ^ 24) ∧ (off % 8 ≠ 0)) ∧
    (∃ (s : State) (ld : Nat) (off : Nat) (v : W64), (off < 2 ^ 24) ∧ (isWide (off / 8 * 8) = true)) ∧
    (∃ (s : State) (t : State) (ld : Nat) (off : Nat) (width : Nat) (v : W64), (s.rwlLocked = true) ∧
     (exec (.registerWrite ld off width v) s = .next t)) :=
  ⟨⟨live, 0, 7, 1, by decide +kernel⟩,
   ⟨live, 0, 5, by decide +kernel⟩,
   ⟨live, 0, 1, 9, by decide +kernel⟩,
   ⟨live, 0, 0x50000, 16, 1, by decide +kernel⟩,
   ⟨live, 0, 2 ^ 24 - 1, 1, by decide +kernel⟩,
   ⟨live, 0, Reg.RDY_DEVTIME, 1, by decide +kernel⟩,
   ⟨lockedBefore, nextOf (exec (.registerWrite 0 (Reg.TLC_ATTR 0) 64 1) lockedBefore), 0, Reg.TLC_ATTR 0, 64, 1, by decide +kernel, rfl⟩⟩

/-- The hypotheses of PlatformEvents. -/
theorem witness_PlatformEvents :
    (∃ (s : State) (r : List Int) (k : Nat), (s.power = .on) ∧ (k < 58) ∧ (s.fget (Reg.THM_SENSOR k) Fld.THM_SENSOR_BROKEN = 0)) ∧
    (∃ (s : State) (k : Nat) (ok : Bool), (s.power ≠ .none) ∧ (k < 58) ∧ (s.fget (Reg.THM_SENSOR k) Fld.THM_SENSOR_BROKEN = 0) ∧
     (s.fget (Reg.THM_ZONE (zoneOf k)) Fld.THM_ZONE_SPARE_USED = 1)) ∧
    (∃ (s : State) (k : Nat) (sp : Nat), (s.power ≠ .none) ∧ (k < 58) ∧ (s.fget (Reg.THM_SENSOR k) Fld.THM_SENSOR_BROKEN = 0) ∧
     (s.fget (Reg.THM_ZONE (zoneOf k)) Fld.THM_ZONE_SPARE_USED = 0) ∧ (s.fget (Reg.THM_ZONE (zoneOf k)) Fld.THM_ZONE_SPARE = sp) ∧ (sp ≠ k) ∧
     (sp < 58) ∧ (s.fget (Reg.THM_SENSOR sp) Fld.THM_SENSOR_BROKEN = 0)) ∧
    (∃ (s : State) (k : Nat) (v : W64), (k < 58) ∧ (s.rwsHeld = false) ∧ (s.exclOk k (getF v Fld.THM_SENSOR_EXCL) = true)) ∧
    (∃ (s : State), (s.fget Reg.THM_AUTO_RESUME Fld.THM_AUTO_RESUME_EN = 1) ∧ (10000 ≤ s.plat.belowCnt) ∧ (s.plat.coldHold = true) ∧ (s.power = .on)) ∧
    (∃ (s : State), (s.fget Reg.THM_AUTO_RESUME Fld.THM_AUTO_RESUME_EN = 1) ∧ (10000 ≤ s.plat.belowCnt) ∧ (s.power = .bound) ∧ (s.energy.trig = 4)) ∧
    (∃ (s : State) (v : W64), (s.planB = false)) ∧
    (∃ (s : State) (v : W64), (getF v Fld.PWR_LIMIT_SEL ≠ 3) ∧ (s.rwsHeld = false)) ∧
    (∃ (s : State) (b : Nat) (m : Bool) (a : Bool), (b < 8) ∧ (s.sramMasked b = true) ∧ (s.sramRuns = true) ∧ (s.testHeld = false) ∧
     (s.plat.sramRow.getD b 0 < sramWords b) ∧ (b < s.plat.sramRow.length)) ∧
    (∃ (s : State) (q : Nat) (l : Log), (s.power = .on) ∧ (q < 4) ∧ (s.logs[q]? = some l) ∧ (s.logs.length = 4)) ∧
    (∃ (s : State) (n : Nat), (s.power = .on) ∧ (8 ≤ n) ∧ (n < 16) ∧ (s.ringOn (n - 8) = true)) ∧
    (∃ (s : State) (n : Nat) (sp : Nat), (s.power = .on ∨ s.power = .bindoff ∨ s.power = .bound) ∧ (s.plat.cores.getD n 2 = 0) ∧
     ((List.range 4).find? (fun c => s.plat.cores.getD c 2 == 1) = some sp)) ∧
    (∃ (s : State) (n : Nat), (s.power = .on ∨ s.power = .bindoff ∨ s.power = .bound) ∧ (s.plat.cores.getD n 2 = 0) ∧
     ((List.range 4).find? (fun c => s.plat.cores.getD c 2 == 1) = none)) ∧
    (∃ (s : State), (s.plat.takeover = true)) ∧
    (∃ (s : State), (78894000000000000 ≤ s.hanks.poweredTicks) ∧ (s.plat.lifeEnd = false)) ∧
    (∃ (s : State), (s.hanks.fillRebuild = true)) :=
  ⟨⟨live, [], 57, by decide +kernel⟩,
   ⟨(regs live [(Reg.THM_ZONE 4, word [(Fld.THM_ZONE_SPARE_USED, 1)])]), 57, true, by decide +kernel⟩,
   ⟨live, 0, 8, by decide +kernel⟩,
   ⟨live, 57, 0, by decide +kernel⟩,
   ⟨(regs { live with plat := { live.plat with belowCnt := 10000, coldHold := true } } [(Reg.THM_AUTO_RESUME, word [(Fld.THM_AUTO_RESUME_EN, 1)])]),
     by decide +kernel⟩,
   ⟨(regs { live with power := .bound, energy := { live.energy with trig := 4 }, plat := { live.plat with belowCnt := 10000 } } [(Reg.THM_AUTO_RESUME,
     word [(Fld.THM_AUTO_RESUME_EN, 1)])]), by decide +kernel⟩,
   ⟨(regs live [(Reg.RDY_CASTON, 0)]), word [(Fld.PWR_REQ_D11_OFF, 1)], by decide +kernel⟩,
   ⟨live, word [(Fld.PWR_LIMIT_SEL, 2)], by decide +kernel⟩,
   ⟨(regs live [(Reg.SRB_TEST_CTL, word [(Fld.SRB_TEST_CTL_EN, 1), (Fld.SRB_TEST_CTL_MASK, 255)])]), 7, false, false, by decide +kernel⟩,
   ⟨{ live with logs := [{ Log.init with recs := [event1] }, Log.init, Log.init, Log.init] }, 0, { Log.init with recs := [event1] }, by decide +kernel⟩,
   ⟨ring, 8, by decide +kernel⟩,
   ⟨live, 1, 3, by decide +kernel⟩,
   ⟨{ live with plat := { live.plat with cores := [0, 2, 0, 2] } }, 0, by decide +kernel⟩,
   ⟨{ live with plat := { live.plat with takeover := true, cores := [0, 2, 0, 3] } }, by decide +kernel⟩,
   ⟨{ live with hanks := { live.hanks with poweredTicks := 78894000000000000 } }, by decide +kernel⟩,
   ⟨{ live with hanks := { live.hanks with fillRebuild := true } }, by decide +kernel⟩⟩

end Sys2Proof.Tests

end
end

/-! ## The scope of the model: commands that answer, reserved offsets, reset, requests that wait, the steps of cast-on -/

namespace Sys2Proof.Machine

/-! ### Every command answers (O5) -/

/-- The command has an effect: its outcome is a next state, neither a fault nor a refusal. -/
def Answers (r : Res) : Prop := ∃ t, r = .next t

theorem answers_nextState (s : State) : Answers (nextState s) := ⟨_, rfl⟩

theorem Answers.ite {c : Prop} [Decidable c] {a b : Res} (ha : Answers a) (hb : Answers b) : Answers (if c then a else b) := by
  split
  · exact ha
  · exact hb

theorem Rx.run_answers (x : Rx) (f : State → State) : Answers (x.run f) := by
  cases x with
  | go s => exact answers_nextState _
  | stop s => exact answers_nextState _

theorem State.chainRx_answers (s : State) (k : Nat) (hdr : PktHdr) (m : ChainMsg) (f : State → State) : Answers (s.chainRx k hdr m f) :=
  .ite (answers_nextState _) (Rx.run_answers _ _)

theorem State.mbCmd_answers (s : State) (mb : Mailbox) (rom isReady : Bool) (f : State → State) : Answers (s.mbCmd mb rom isReady f) :=
  .ite (answers_nextState _) (.ite (answers_nextState _) (answers_nextState _))

theorem State.mbDone_answers (s : State) (mb : Mailbox) (rom isReady : Bool) (f : State → Nat × List Nat × List Byte × State) :
    Answers (s.mbDone mb rom isReady f) := State.mbCmd_answers _ _ _ _ _

theorem State.poisonCmd_answers (s : State) (mb : Mailbox) (dpa : Nat) (f : State → State) : Answers (s.poisonCmd mb dpa f) :=
  State.mbCmd_answers _ _ _ _ _

theorem State.eraseCmd_answers (s : State) (mb : Mailbox) (kind op : Nat) : Answers (s.eraseCmd mb kind op) :=
  State.mbDone_answers _ _ _ _ _

theorem State.fmCmd_answers (s : State) (f : State → Nat × List Nat × State) : Answers (s.fmCmd f) :=
  .ite (answers_nextState _) (.ite (answers_nextState _) (answers_nextState _))

theorem State.runRange_answers (s : State) (id op : Nat) (check : Cmd → Option Nat) : Answers (s.runRange id op check) := by
  unfold State.runRange
  cases tget s.cmds id with
  | some c => exact .ite (answers_nextState _) (answers_nextState _)
  | none => exact answers_nextState _

theorem execKeyLoad_answers (cmd : Nat) (s : State) : Answers (execKeyLoad cmd s) := by
  unfold execKeyLoad
  cases tget s.cmds cmd with
  | none => exact answers_nextState _
  | some c =>
    refine .ite ?_ (answers_nextState _)
    cases State.keyLoad (s.setSlot c.pkt.keyidx { s.slot c.pkt.keyidx with state := 0 }) c with
    | inr k => exact answers_nextState _
    | inl st => exact answers_nextState _

theorem execSetLdAllocations_answers (start granularity : Nat) (allocs : List (Nat × Nat)) (s : State) :
    Answers (execSetLdAllocations start granularity allocs s) := by
  unfold execSetLdAllocations
  refine .ite (answers_nextState _) (.ite (answers_nextState _) (.ite (answers_nextState _) (.ite (answers_nextState _)
    (.ite (answers_nextState _) ?_))))
  cases s.allocAll start allocs with
  | none => exact answers_nextState _
  | some lds => exact .ite (answers_nextState _) (answers_nextState _)

/-- Every command answers, but a register write outside BAR2/3: a command of a mailbox, of the FM API, of a link or over a range of hanks because the
operation it goes through answers, one whose meaning branches because each branch does, and any other because its meaning is one next state. -/
theorem exec_answers (i : Instr) (s : State) (hBar : ∀ ld off w v, i = .registerWrite ld off w v → off < 2 ^ 24) :
    Answers (exec i s) := by
  cases i with
  | registerWrite ld off w v =>
    unfold exec
    exact ⟨_, if_neg (Nat.not_le.2 (hBar ld off w v rfl))⟩
  | setLdAllocations start granularity allocs => unfold exec; exact execSetLdAllocations_answers start granularity allocs s
  | keyLoad cmd => unfold exec; exact execKeyLoad_answers cmd s
  | creditIssue rwd => unfold exec; exact .ite (answers_nextState _) (.ite (answers_nextState _) (.ite (answers_nextState _) (answers_nextState _)))
  | spareBankTest bank complete esr cap => unfold exec; exact .ite (answers_nextState _) (.ite (answers_nextState _) (answers_nextState _))
  | discard cmd | zeroHanks cmd | keyBind cmd => unfold exec; exact State.runRange_answers _ _ _ _
  | hello _ _ _ | auth _ _ _ => unfold exec; exact .ite (answers_nextState _) (.ite (Rx.run_answers _ _) (Rx.run_answers _ _))
  | mirrorAck _ _ _ => unfold exec; exact .ite (answers_nextState _) (.ite (answers_nextState _) (Rx.run_answers _ _))
  | helraCredit _ _ _ _ _ | helraNak _ _ _ | resyncReqResponse _ _ _ _ _ _ | mirrorWrite _ _ _ | resyncData _ _ _
  | plyOpen _ _ _ _ | plyQuery _ _ _ | plyBegin _ _ _ | plyEnd _ _ _ | plyClose _ _ _ | plyErase _ _ _ _ _ _
  | plySeal _ _ _ _ _ _ _ | plyRelease _ _ _ _ _ | claim _ _ _ =>
    unfold exec
    exact .ite (answers_nextState _) (Rx.run_answers _ _)
  | walk _ _ _ | statusReq _ _ _ | statusReply _ _ _ | relay _ _ _ | relayAck _ _ _ | chainMsg _ _ _ =>
    unfold exec
    exact .ite (answers_nextState _) (State.chainRx_answers _ _ _ _ _)
  | fmIdentify | backgroundOperationStatus | getLdInfo | getLdAllocations _ _ | getQosControl | setQosControl _ _ _ _ | getQosStatus
  | getQosAllocatedBw _ _ | setQosAllocatedBw _ _ | getQosBwLimit _ _ | setQosBwLimit _ _ =>
    unfold exec
    exact State.fmCmd_answers _ _
  | getSldQosControl _ | setSldQosControl _ _ _ _ _ | getSldQosStatus _ | getEventRecords _ _ | clearEventRecords _ _ _ _
  | getEventInterruptPolicy _ | setEventInterruptPolicy _ _ _ _ _ | getFwInfo _ | transferFw _ _ _ _ _ _ _
  | getTimestamp _ | setTimestamp _ _ | getSupportedLogs _ | getLog _ _ _ _ | identifyMemoryDevice _ | getPartitionInfo _
  | setPartitionInfo _ | getLsa _ _ _ | setLsa _ _ _ | getHealthInfo _ | getAlertConfiguration _
  | setAlertConfiguration _ _ _ _ _ _ _ _ | getShutdownState _ | setShutdownState _ _ | getPoisonList _ _ _
  | getScanMediaCapabilities _ _ _ | scanMedia _ _ _ _ | getScanMediaResults _
  | getSecurityState _ | setPassphrase _ _ _ _ | disablePassphrase _ _ _ | unlock _ _ | freezeSecurityState _
  | passphraseSecureErase _ _ _ =>
    unfold exec
    exact State.mbDone_answers _ _ _ _ _
  | sanitize _ | secureErase _ =>
    unfold exec
    exact State.eraseCmd_answers _ _ _ _
  | injectPoison _ _ | clearPoison _ _ _ =>
    unfold exec
    exact State.poisonCmd_answers _ _ _ _
  | activateFw _ _ _ | ethornPassthru _ _ _ | ethornWarmRestart _ =>
    unfold exec
    exact State.mbCmd_answers _ _ _ _ _
  | _ => exact answers_nextState _

/-- An address outside the 16 MiB of BAR2/3 does not exist (R15). -/
theorem exec_registerWrite_outside_bar (s : State) (ld w : Nat) {off : Nat} (v : W64) (h : 2 ^ 24 ≤ off) :
    exec (.registerWrite ld off w v) s = .fault (.noSuchAddress off) := by
  unfold exec
  exact if_pos h

/-- Settles O5, command by command: an arm of `exec` answers by the lemma about the operation that its meaning goes through. -/
theorem commandsAnswer : Obligations.CommandsAnswer :=
  ⟨exec_answers, fun s ld _ w v h => exec_registerWrite_outside_bar s ld w v h⟩

/-! ### Reserved offsets (O58) -/

/-- What a register at a reserved offset shows (R15). -/
theorem State.regView_reserved (s : State) {off : Nat} (h : specOf off = none) : s.regView off = 0 := by
  simp [State.regView, h]

/-- Outside the Stash windows, a word of BAR2/3 is a register. -/
theorem State.barWord_outside_stash (s : State) {off : Nat} (h : off < 0x100000 ∨ 0x340000 ≤ off) : s.barWord off = s.regView off := by
  have hStw : ¬(0x100000 ≤ off ∧ off < 0x300000) := by omega
  have hHsw : ¬(0x300000 ≤ off ∧ off < 0x340000) := by omega
  rw [State.barWord, if_neg hStw, if_neg hHsw]

/-- A read of a word that is zero is zero, whole or by halves. -/
theorem State.barRead_zero (s : State) (ld off width : Nat) (h : s.barWord (off / 8 * 8) = 0) : s.barRead ld off width = 0 := by
  simp [State.barRead, h]

theorem State.regWrite_reserved (s : State) {off : Nat} (w cover : W64) (h : specOf off = none) : s.regWrite off w cover = s := by
  simp [State.regWrite, h]

theorem execRegisterWrite_reserved (s : State) (ld : Nat) {off : Nat} (width : Nat) (v : W64) (hBar : off < 2 ^ 24)
    (h : specOf (off / 8 * 8) = none) : execRegisterWrite ld off width v s = nextState s := by
  rw [execRegisterWrite, if_neg (Nat.not_le.2 hBar)]
  simp only [State.regWrite_reserved s _ _ h, ite_self]

/-- Settles O58: a reserved word shows zero, and a write finds no register there. -/
theorem reservedOffsets : Obligations.ReservedOffsets := by
  intro s ld off width v hBar hNone hWindow
  have hWord : s.barWord (off / 8 * 8) = 0 := by
    rw [State.barWord_outside_stash s (by omega), State.regView_reserved s hNone]
  refine ⟨s.barRead_zero ld off width hWord, ?_⟩
  unfold exec
  exact execRegisterWrite_reserved s ld width v hBar hNone

/-! ### The state after reset (O4) -/

/-- Nothing is in flight at reset, and every live field reads so. -/
theorem State.reset_live : State.reset.Live := by
  unfold State.Live
  decide

/-- Settles O4: the state's parts are as `State.reset` gives them, and the five registers as their Reset columns; no register and no stored line is listed,
which is the canonical form. -/
theorem resetValues : Obligations.ResetValues := by
  have hReady : State.reset.reg Reg.RDY_STATUS = 3 := by decide
  have hScale : State.reset.scale = 100 := by decide
  have hTokens : State.reset.tokens = 150 := by decide
  have hBoundRd : State.reset.reg Reg.ADM_BOUND_RD = 240 := by decide
  have hBoundWr : State.reset.reg Reg.ADM_BOUND_WR = 45 := by decide
  have hHost : ∀ lhn, State.reset.hostEntry lhn = shippedHost lhn := fun _ => rfl
  have hMed : ∀ phn st d j, State.reset.medGet phn st d j = blankStored := fun _ _ _ _ => rfl
  refine ⟨?values, State.reset_live, nil_canon _, nil_canon _⟩
  exact ⟨rfl, rfl, rfl, rfl, rfl, rfl, rfl, hReady, hScale, hTokens, hBoundRd, hBoundWr, rfl, rfl, rfl, rfl, hHost, hMed, rfl⟩

/-! ### A host write that waits for its skein (O8) -/

/-- What an accepted write notes rests on the line cache's part of the state alone. -/
theorem State.noteWrote_tlc_congr {s t : State} (h : t.tlc = s.tlc) (line : Nat) : (t.noteWrote line).tlc = (s.noteWrote line).tlc := by
  simp only [State.noteWrote, h]

/-- A write whose skein is not ready is noted all the same: the medium read of its line in flight is to fill nothing (R177). -/
theorem State.accept_write_waiting_tlc (s : State) {ld hpa dpa : Nat} (data : Line) (mask : BitVec 64)
    (hDecode : s.decodeHpa ld hpa = some dpa) (hWaits : s.skeinReady (skeinOf (lhnOf (s.lineOfDpa ld dpa))) = false) :
    (s.accept .write ld hpa data mask).tlc = (s.noteWrote (s.lineOfDpa ld dpa)).tlc := by
  simp only [State.accept, hDecode, hWaits]
  apply State.noteWrote_tlc_congr
  simp

theorem execMemWr_waiting_tlc {s t : State} {ld hpa dpa : Nat} {data : Line} (hTake : s.canTake true ld = true)
    (hDecode : s.decodeHpa ld hpa = some dpa) (hWaits : s.skeinReady (skeinOf (lhnOf (s.lineOfDpa ld dpa))) = false)
    (hExec : exec (.memWr ld hpa data) s = .next t) : t.tlc = (s.noteWrote (s.lineOfDpa ld dpa)).tlc := by
  have hStep : exec (.memWr ld hpa data) s = nextState (s.accept .write ld hpa data (BitVec.allOnes 64)) := by
    unfold exec
    simp only [execMemWr, hTake, if_true]
  rw [nextState_next _ (hStep.symm.trans hExec), State.settle_tlc, s.accept_write_waiting_tlc data _ hDecode hWaits]

/-- A module that is on, with its link up and one RwD credit out, no skein ready, and the medium read of line 0 in flight. -/
def readBeforeSkein : State :=
  { State.reset with
    power := .on
    adm := { Adm.init with covers := [true] }
    tlc := { Tlc.init with mshr := [(0, { op := 0, secondaries := 0, wrote := false })] }
    cxl := { Cxl.init with
      linkUp := true, cxlOn := true
      decoders := [(0, { base := 0, size := 2 ^ 20, ways := 1, gran := 256, pos := 0, dpa := 0, locked := false, poisonErr := false })] } }

/-- Refutes O8: a full write whose skein is not ready still tells the medium read of its line in flight that it is to fill nothing (R177), so the MSHR of
that read changes, while the second clause lets only admission, the history and the PMC counters change. The state is `readBeforeSkein`, the write one of
line 0. -/
theorem not_hostRequestsThatWaitOrMiss : ¬ Obligations.HostRequestsThatWaitOrMiss := by
  rintro ⟨-, hWrite, -⟩
  have hTake : readBeforeSkein.canTake true 0 = true := by decide
  have hDecode : readBeforeSkein.decodeHpa 0 0 = some 0 := by decide
  have hWaits : readBeforeSkein.skeinReady (skeinOf (lhnOf (readBeforeSkein.lineOfDpa 0 0))) = false := by decide
  obtain ⟨t, hExec, -, -, -, hKeeps, -⟩ := hWrite readBeforeSkein 0 0 0 0 hTake hDecode hWaits
  have hKept : t.tlc = readBeforeSkein.tlc := hKeeps.2 .tlc (by decide)
  have hNoted : (readBeforeSkein.noteWrote (readBeforeSkein.lineOfDpa 0 0)).tlc.mshr = [(0, { op := 0, secondaries := 0, wrote := true })] := by
    decide
  rw [← execMemWr_waiting_tlc hTake hDecode hWaits hExec, hKept] at hNoted
  exact absurd hNoted (by decide)

/-! ### A pool line of the image and its zone (O32) -/

@[simp] theorem State.disarm_energy (s : State) : s.disarm.energy = s.energy := by
  unfold State.disarm
  split
  · rfl
  · rfl

@[simp] theorem State.lineWrite_energy (s : State) (wma : Option Nat) : (s.lineWrite wma).energy = s.energy := by
  unfold State.lineWrite
  cases wma with
  | none => dsimp only; (repeat' split) <;> simp [State.draw]
  | some w => dsimp only; (repeat' split) <;> simp

/-- A line that comes into the pool sets the bit of its zone (R221). -/
theorem State.poolSet_zoneMap (s : State) (line : Nat) (p : PoolLine) : lhnOf line / 96 ∈ (s.poolSet line p).energy.zoneMap := by
  simp only [State.poolSet, State.fset_energy, State.lineWrite_energy, State.wmAccess_energy]
  split
  · rename_i hIn
    exact List.contains_iff_mem.1 hIn
  · simp

theorem State.poolInsert_zoneMap {s t : State} {line : Nat} {p : PoolLine} {must : Bool} (h : s.poolInsert line p must = some t) :
    lhnOf line / 96 ∈ t.energy.zoneMap := by
  unfold State.poolInsert at h
  dsimp only at h
  split at h
  · obtain rfl := Option.some.inj h
    rw [State.count_energy]
    exact State.poolSet_zoneMap _ _ _
  · split at h
    · obtain rfl := Option.some.inj h
      rw [State.count_energy]
      exact State.poolSet_zoneMap _ _ _
    · cases h

/-- A line that stays on the pool path always finds a place (R186). -/
theorem State.poolInsert_must (s : State) (line : Nat) (p : PoolLine) : ∃ t, s.poolInsert line p true = some t := by
  unfold State.poolInsert
  dsimp only
  split
  · exact ⟨_, rfl⟩
  · exact ⟨_, rfl⟩

/-- A pool line of the image that is placed sets the bit of its zone (R221, R234). -/
theorem State.placeItem_zoneMap (s : State) (i : Item) (n : Nat) (hKey : s.keyLive i.key = true) (hSrc : i.src = 0) (hPly : i.ply = false) :
    lhnOf i.addr / 96 ∈ (s.placeItem i n false).energy.zoneMap := by
  obtain ⟨t, ht⟩ := s.poolInsert_must i.addr (newPool (s.itemData s.energy.rcd.seq n i) i.key i.poison .image s.clk.now 18)
  have hZone := State.poolInsert_zoneMap ht
  simpa [State.placeItem, hKey, hSrc, hPly, ht] using hZone

/-! ### The end of the replay leaves the reserve alone -/

theorem foldl_out_energy {α : Type} (l : List α) (o : α → Out) (s : State) : (l.foldl (fun s x => s.out (o x)) s).energy = s.energy := by
  induction l generalizing s with
  | nil => rfl
  | cons x l ih => rw [List.foldl_cons, ih, State.out_energy]

theorem State.fwRestart_energy (s : State) (bank : Nat) : (s.fwRestart bank).energy = s.energy := by
  simp [State.fwRestart, State.useBank, foldl_out_energy]

theorem State.replayEnds_energy (s : State) : s.replayEnds.energy = s.energy := by
  unfold State.replayEnds
  dsimp only
  split
  · rw [State.fwRestart_energy]
    rfl
  · rfl

theorem execReplayDone_places_energy {s t : State} (hOn : s.power = .on) (hRead : s.fget Reg.RDY_REPLAY Fld.RDY_REPLAY_STATE = 1)
    (hExec : exec .replayDone s = .next t) : t.energy = (s.placeItems s.cast.failed).energy := by
  have hStep : exec .replayDone s = nextState (if s.replayPlaces.replayIdle then s.replayPlaces.replayEnds else s.replayPlaces) := by
    unfold exec
    simp [execReplayDone, hOn, hRead]
  have hPlaces : s.replayPlaces.energy = (s.placeItems s.cast.failed).energy := rfl
  rw [nextState_next _ (hStep.symm.trans hExec), State.settle_energy]
  split
  · rw [State.replayEnds_energy, hPlaces]
  · exact hPlaces

/-- A line of the pool section: line 0, under the key of slot 0. -/
def poolItem : Item := { src := 0, key := 0, addr := 0, poison := false, ply := false, chk := 0, stored := blankStored }

/-- A module whose replay has read the index of an image of one pool line, below the watermark, of a zone that the zone map does not list. -/
def imageOffTheZoneMap : State :=
  { State.reset.fset Reg.RDY_REPLAY Fld.RDY_REPLAY_STATE 1 with
    power := .on
    energy := { Energy.init with
      rcd := { BindRec.init with phase := 2, nPool := 1, watermark := 1 }
      halfA := { Selvedge.init true with items := [poolItem], blanked := false } } }

theorem imageOffTheZoneMap_items : imageOffTheZoneMap.imageItems = [(poolItem, 0)] := by
  have hMatches : (imageOffTheZoneMap.half imageOffTheZoneMap.energy.rcd.half).matches imageOffTheZoneMap.energy.rcd = true := by
    simp [Selvedge.matches, State.half, imageOffTheZoneMap, BindRec.init, Selvedge.init]
  rw [State.imageItems, hMatches]
  rfl

/-- An item below the watermark of a bind-off that did not complete is restored (R222). -/
theorem BindRec.fate_below_watermark (r : BindRec) {i : Nat} (named passes : Bool) (hStarted : r.phase ≠ 0) (hCut : r.phase ≠ 4) (h : i < r.watermark) :
    r.fate i named passes = .good := by
  simp [BindRec.fate, hStarted, hCut, h]

/-- Refutes O32: a pool line of the image sets the bit of its zone when it is placed (R221), so a replay changes the zone map when the map does not list
that zone yet, while the clause of a replay that has read its index says that `energy` stays as it was. The state is `imageOffTheZoneMap`: after the event
the zone map, empty before, holds zone 0. -/
theorem not_castOnStepsAndLink : ¬ Obligations.CastOnStepsAndLink := by
  rintro ⟨⟨-, -, -, -, -, -, -, hReplay, -⟩, -⟩
  have hRead : imageOffTheZoneMap.fget Reg.RDY_REPLAY Fld.RDY_REPLAY_STATE = 1 := by decide
  obtain ⟨t, hExec, -, -, -, -, hKept, -⟩ := hReplay imageOffTheZoneMap rfl hRead rfl
  have hFate : imageOffTheZoneMap.itemFate imageOffTheZoneMap.cast.failed (poolItem, 0) = .good :=
    BindRec.fate_below_watermark _ _ _ (by decide) (by decide) (by decide)
  have hPlaced : imageOffTheZoneMap.placeItems imageOffTheZoneMap.cast.failed = imageOffTheZoneMap.placeItem poolItem 0 false := by
    simp [State.placeItems, imageOffTheZoneMap_items, hFate]
  have hZone : 0 ∈ t.energy.zoneMap := by
    rw [execReplayDone_places_energy rfl hRead hExec, hPlaced]
    exact State.placeItem_zoneMap imageOffTheZoneMap poolItem 0 rfl rfl rfl
  rw [hKept] at hZone
  cases hZone

end Sys2Proof.Machine

namespace Sys2Proof.Machine

/-! ### Live fields after every step (O3) -/

/-- The command's outcome is a next state whose live fields have been settled. -/
def Settles (r : Res) : Prop := ∃ u, r = nextState u

theorem settles_nextState (s : State) : Settles (nextState s) := ⟨s, rfl⟩

theorem Settles.ite {c : Prop} [Decidable c] {a b : Res} (ha : Settles a) (hb : Settles b) : Settles (if c then a else b) := by
  split
  · exact ha
  · exact hb

theorem Settles.live {r : Res} {t : State} (h : Settles r) (hNext : r = .next t) : t.Live := by
  obtain ⟨u, rfl⟩ := h
  rw [nextState_next u hNext]
  exact u.settle_live

theorem Rx.run_settles (x : Rx) (f : State → State) : Settles (x.run f) := by
  cases x with
  | go s => exact settles_nextState _
  | stop s => exact settles_nextState _

theorem State.chainRx_settles (s : State) (k : Nat) (hdr : PktHdr) (m : ChainMsg) (f : State → State) : Settles (s.chainRx k hdr m f) :=
  .ite (settles_nextState _) (Rx.run_settles _ _)

theorem State.mbCmd_settles (s : State) (mb : Mailbox) (rom isReady : Bool) (f : State → State) : Settles (s.mbCmd mb rom isReady f) :=
  .ite (settles_nextState _) (.ite (settles_nextState _) (settles_nextState _))

theorem State.mbDone_settles (s : State) (mb : Mailbox) (rom isReady : Bool) (f : State → Nat × List Nat × List Byte × State) :
    Settles (s.mbDone mb rom isReady f) := State.mbCmd_settles _ _ _ _ _

theorem State.poisonCmd_settles (s : State) (mb : Mailbox) (dpa : Nat) (f : State → State) : Settles (s.poisonCmd mb dpa f) :=
  State.mbCmd_settles _ _ _ _ _

theorem State.eraseCmd_settles (s : State) (mb : Mailbox) (kind op : Nat) : Settles (s.eraseCmd mb kind op) := State.mbDone_settles _ _ _ _ _

theorem State.fmCmd_settles (s : State) (f : State → Nat × List Nat × State) : Settles (s.fmCmd f) :=
  .ite (settles_nextState _) (.ite (settles_nextState _) (settles_nextState _))

theorem State.runRange_settles (s : State) (id op : Nat) (check : Cmd → Option Nat) : Settles (s.runRange id op check) := by
  unfold State.runRange
  cases tget s.cmds id with
  | some c => exact .ite (settles_nextState _) (settles_nextState _)
  | none => exact settles_nextState _

theorem execKeyLoad_settles (cmd : Nat) (s : State) : Settles (execKeyLoad cmd s) := by
  unfold execKeyLoad
  cases tget s.cmds cmd with
  | none => exact settles_nextState _
  | some c =>
    refine .ite ?_ (settles_nextState _)
    cases State.keyLoad (s.setSlot c.pkt.keyidx { s.slot c.pkt.keyidx with state := 0 }) c with
    | inr k => exact settles_nextState _
    | inl st => exact settles_nextState _

theorem execSetLdAllocations_settles (start granularity : Nat) (allocs : List (Nat × Nat)) (s : State) :
    Settles (execSetLdAllocations start granularity allocs s) := by
  unfold execSetLdAllocations
  refine .ite (settles_nextState _) (.ite (settles_nextState _) (.ite (settles_nextState _) (.ite (settles_nextState _)
    (.ite (settles_nextState _) ?_))))
  cases s.allocAll start allocs with
  | none => exact settles_nextState _
  | some lds => exact .ite (settles_nextState _) (settles_nextState _)

/-- Every command settles its state, but a register write outside BAR2/3: a command of a mailbox, of the FM API, of a link or over a range of hanks because
the operation it goes through does, one whose meaning branches because each branch does, and any other because its meaning is one next state. -/
theorem exec_settles (i : Instr) (s : State) (hBar : ∀ ld off w v, i = .registerWrite ld off w v → off < 2 ^ 24) : Settles (exec i s) := by
  cases i with
  | registerWrite ld off w v =>
    unfold exec
    exact ⟨_, if_neg (Nat.not_le.2 (hBar ld off w v rfl))⟩
  | setLdAllocations start granularity allocs => unfold exec; exact execSetLdAllocations_settles start granularity allocs s
  | keyLoad cmd => unfold exec; exact execKeyLoad_settles cmd s
  | creditIssue _ =>
    unfold exec
    exact .ite (settles_nextState _) (.ite (settles_nextState _) (.ite (settles_nextState _) (settles_nextState _)))
  | spareBankTest _ _ _ _ => unfold exec; exact .ite (settles_nextState _) (.ite (settles_nextState _) (settles_nextState _))
  | discard _ | zeroHanks _ | keyBind _ => unfold exec; exact State.runRange_settles _ _ _ _
  | hello _ _ _ | auth _ _ _ => unfold exec; exact .ite (settles_nextState _) (.ite (Rx.run_settles _ _) (Rx.run_settles _ _))
  | mirrorAck _ _ _ => unfold exec; exact .ite (settles_nextState _) (.ite (settles_nextState _) (Rx.run_settles _ _))
  | helraCredit _ _ _ _ _ | helraNak _ _ _ | resyncReqResponse _ _ _ _ _ _ | mirrorWrite _ _ _ | resyncData _ _ _
  | plyOpen _ _ _ _ | plyQuery _ _ _ | plyBegin _ _ _ | plyEnd _ _ _ | plyClose _ _ _ | plyErase _ _ _ _ _ _
  | plySeal _ _ _ _ _ _ _ | plyRelease _ _ _ _ _ | claim _ _ _ =>
    unfold exec
    exact .ite (settles_nextState _) (Rx.run_settles _ _)
  | walk _ _ _ | statusReq _ _ _ | statusReply _ _ _ | relay _ _ _ | relayAck _ _ _ | chainMsg _ _ _ =>
    unfold exec
    exact .ite (settles_nextState _) (State.chainRx_settles _ _ _ _ _)
  | fmIdentify | backgroundOperationStatus | getLdInfo | getLdAllocations _ _ | getQosControl | setQosControl _ _ _ _ | getQosStatus
  | getQosAllocatedBw _ _ | setQosAllocatedBw _ _ | getQosBwLimit _ _ | setQosBwLimit _ _ =>
    unfold exec
    exact State.fmCmd_settles _ _
  | getSldQosControl _ | setSldQosControl _ _ _ _ _ | getSldQosStatus _ | getEventRecords _ _ | clearEventRecords _ _ _ _
  | getEventInterruptPolicy _ | setEventInterruptPolicy _ _ _ _ _ | getFwInfo _ | transferFw _ _ _ _ _ _ _
  | getTimestamp _ | setTimestamp _ _ | getSupportedLogs _ | getLog _ _ _ _ | identifyMemoryDevice _ | getPartitionInfo _
  | setPartitionInfo _ | getLsa _ _ _ | setLsa _ _ _ | getHealthInfo _ | getAlertConfiguration _
  | setAlertConfiguration _ _ _ _ _ _ _ _ | getShutdownState _ | setShutdownState _ _ | getPoisonList _ _ _
  | getScanMediaCapabilities _ _ _ | scanMedia _ _ _ _ | getScanMediaResults _
  | getSecurityState _ | setPassphrase _ _ _ _ | disablePassphrase _ _ _ | unlock _ _ | freezeSecurityState _
  | passphraseSecureErase _ _ _ =>
    unfold exec
    exact State.mbDone_settles _ _ _ _ _
  | sanitize _ | secureErase _ => unfold exec; exact State.eraseCmd_settles _ _ _ _
  | injectPoison _ _ | clearPoison _ _ _ => unfold exec; exact State.poisonCmd_settles _ _ _ _
  | activateFw _ _ _ | ethornPassthru _ _ _ | ethornWarmRestart _ => unfold exec; exact State.mbCmd_settles _ _ _ _ _
  | _ => exact settles_nextState _

/-- A command that answers a next state leaves every live field showing what it reports. -/
theorem exec_live {i : Instr} {s t : State} (h : exec i s = .next t) : t.Live := by
  refine (exec_settles i s fun ld off w v hi => ?_).live h
  by_contra hOut
  rw [hi, exec_registerWrite_outside_bar s ld w v (Nat.not_lt.1 hOut)] at h
  cases h

/-- A step with an empty queue is a tick. -/
theorem step_of_empty {s : State} (h : s.pending = []) : step s = nextState s.tick := by
  simp only [step, h, execTick]

/-- Settles O3: the outcome of a step is a settled state, be it that of the command at the front of the queue or that of a tick. -/
theorem stepKeepsLiveFields : Obligations.StepKeepsLiveFields := by
  intro s t hStep
  cases hQueue : s.pending with
  | nil => exact (settles_nextState s.tick).live (step_of_empty hQueue ▸ hStep)
  | cons c rest =>
    simp only [step, hQueue] at hStep
    exact exec_live hStep

end Sys2Proof.Machine

namespace Sys2Proof.Machine

/-! ### A tick forgets the reservation writes of the tick before (O2) -/

@[simp] theorem State.pmcTick_adm (s : State) : s.pmcTick.adm = s.adm := by
  have hCount (f : State → Nat → State) (hf : ∀ t n, (f t n).adm = t.adm) : ((List.range 8).foldl f s).adm = s.adm :=
    List.foldlRecOn (motive := fun t => t.adm = s.adm) _ f rfl fun t h n _ => (hf t n).trans h
  unfold State.pmcTick State.condNow
  dsimp only
  split
  · exact hCount _ fun t n => by split <;> rfl
  · exact hCount _ fun t n => by split <;> rfl

@[simp] theorem State.qdrTick_adm (s : State) : s.qdrTick.adm = s.adm := by
  unfold State.qdrTick
  split
  · rfl
  · rfl

@[simp] theorem State.gpfTick_adm (s : State) : s.gpfTick.adm = s.adm := by
  unfold State.gpfTick
  split
  · rfl
  · rfl

/-- While time runs, a tick begins with no reservation write of its own yet (R81). -/
theorem State.tick_adm {s : State} (h : s.timeRuns = true) : s.tick.adm = { s.adm with resvLog := [] } := by
  have hCycle : s.timeTick.cycleTick.adm = s.timeTick.adm := by
    unfold State.cycleTick
    split
    · rfl
    · rfl
  rw [State.tick, if_pos h, State.gpfTick_adm, State.qdrTick_adm, State.pmcTick_adm, hCycle]
  rfl

/-- A module that is on, in whose present tick a register write of the reservation of LD 0 was taken. -/
def resvWrittenThisTick : State :=
  { State.reset with power := .on, adm := { Adm.init with resvLog := [{ path := 1, party := 0, mask := BitVec.allOnes 64, val := 0, prev := 0 }] } }

/-- Refutes O2: a tick empties the list of the reservation writes of the tick before (R81), which is a part of admission's state, while the first clause
says that `adm` stays as it was. The state is `resvWrittenThisTick`. -/
theorem not_emptyQueueIsATick : ¬ Obligations.EmptyQueueIsATick := by
  rintro ⟨hTick, -⟩
  have hRuns : resvWrittenThisTick.timeRuns = true := rfl
  obtain ⟨t, hStep, -, -, -, -, -, -, -, -, -, hKept, -⟩ := hTick resvWrittenThisTick rfl hRuns
  have hEmptied : t.adm.resvLog = [] := by
    rw [nextState_next _ ((step_of_empty rfl).symm.trans hStep), State.settle_adm, State.tick_adm hRuns]
  rw [hKept] at hEmptied
  cases hEmptied

end Sys2Proof.Machine

namespace Sys2Proof.Machine

/-! ### What a host request meets on its way -/

/-- With no wrong bit stored, a read of working memory changes nothing (R163). -/
theorem State.wmRead_of_clean {s : State} (h : s.wm.errs = []) (w : Nat) : s.wmRead w = s := by
  simp [State.wmRead, h]

theorem State.hitRead_of_clean {s : State} (h : s.wm.errs = []) (line : Nat) : s.hitRead line = s := by
  simp only [State.hitRead, State.wmRead_of_clean h]
  split
  · rfl
  · split
    · rfl
    · split
      · rfl
      · rfl

theorem State.zeroFirst_of_done {s : State} {line : Nat} (h : s.patchWaits line = false) : s.zeroFirst line = s := by
  simp [State.zeroFirst, h]

theorem State.lookup_of_pool {s : State} {line : Nat} {p : PoolLine} (h : s.poolGet line = some p) : s.lookup line = .here p.data p.poison := by
  simp [State.lookup, h]

theorem State.countHit_of_pool {s : State} {line : Nat} {p : PoolLine} (h : s.poolGet line = some p) (master : Nat) :
    s.countHit line master = s.wmAccess 1 0 master (some (lhnOf line)) := by
  simp [State.countHit, h]

theorem tget_tmod_same {α : Type} {t : Tbl α} {k : Nat} {v : α} (f : α → α) (h : tget t k = some v) : tget (tmod t k f) k = some (f v) := by
  simp [tmod, h]

/-! ### The answer to a request -/

/-- The response that completes a request. -/
def DlEntry.response (e : DlEntry) (d : Option Line) (poison : Bool) (devload : Nat) : Out :=
  match e.kind with
  | .read => .data e.ld e.dpa (d.getD 0) poison devload
  | _ => .cmp e.ld e.dpa devload

theorem State.lateCount_in_time {s : State} {dl : Nat} (h : s.clk.now ≤ dl) (kind ld : Nat) : s.lateCount kind ld dl = s := by
  simp [State.lateCount, h]

theorem State.histCount_eq (s : State) (bound ld t : Nat) : s.histCount bound ld t = { s with hist := (s.histCount bound ld t).hist } := by
  unfold State.histCount
  split
  · rfl
  · split
    · rfl
    · rfl

/-- A request that completes by its deadline: its response goes out, its entry is free again, and only the history counts it (R80, R400). -/
theorem State.complete_in_time {s : State} {seq dl : Nat} {e : DlEntry} (hEntry : tget s.adm.dl seq = some e) (hDl : e.deadline = some dl)
    (hTime : s.clk.now ≤ dl) (d : Option Line) (poison : Bool) :
    s.complete seq d poison = { s with
      outbox := e.response d poison (s.devload e.ld) :: s.outbox, adm := { s.adm with dl := tdel s.adm.dl seq }
      hist := (s.complete seq d poison).hist } := by
  unfold State.complete
  simp only [hEntry, hDl]
  rw [State.lateCount_in_time (by exact hTime), State.histCount_eq]
  rfl

/-! ### A request that is accepted and routed at once (R48, R52) -/

/-- The deadline entry of a host request accepted now whose skein is ready. -/
def State.request (s : State) (kind : ReqKind) (ld dpa : Nat) (data : Line) (mask : BitVec 64) : DlEntry :=
  { kind := kind, ld := ld, dpa := dpa / 64 * 64, line := s.lineOfDpa ld dpa, accept := s.clk.now, base := s.clk.now,
    deadline := some (s.clk.now + boundOf kind (if kind != .read then s.firstPath (s.lineOfDpa ld dpa) else 0)), routed := false,
    data := data, mask := mask, cover := s.adm.covers.headD false, mirror := none, stuck := false, merged := false, wpol := none, key := none }

/-- From `s` to `u` nothing has changed but admission, the history, registers and the line cache's part of the state. -/
def CountsOnly (s u : State) : Prop := u = { s with adm := u.adm, hist := u.hist, regs := u.regs, tlc := u.tlc }

theorem CountsOnly.trans {s u v : State} (h : CountsOnly s u) (h' : CountsOnly u v) : CountsOnly s v :=
  Eq.trans h' (by rw [show u = _ from h])

theorem CountsOnly.clk {s u : State} (h : CountsOnly s u) : u.clk = s.clk := (congrArg State.clk h).trans rfl
theorem CountsOnly.cxl {s u : State} (h : CountsOnly s u) : u.cxl = s.cxl := (congrArg State.cxl h).trans rfl
theorem CountsOnly.wm {s u : State} (h : CountsOnly s u) : u.wm = s.wm := (congrArg State.wm h).trans rfl
theorem CountsOnly.hanks {s u : State} (h : CountsOnly s u) : u.hanks = s.hanks := (congrArg State.hanks h).trans rfl
theorem CountsOnly.crypto {s u : State} (h : CountsOnly s u) : u.crypto = s.crypto := (congrArg State.crypto h).trans rfl
theorem CountsOnly.outbox {s u : State} (h : CountsOnly s u) : u.outbox = s.outbox := (congrArg State.outbox h).trans rfl

theorem CountsOnly.readDenied {s u : State} (h : CountsOnly s u) (line : Nat) : u.readDenied line = s.readDenied line := by
  rw [show u = _ from h]
  rfl

theorem CountsOnly.patchWaits {s u : State} (h : CountsOnly s u) (line : Nat) : u.patchWaits line = s.patchWaits line := by
  rw [show u = _ from h]
  rfl

theorem CountsOnly.same_part {s u : State} (h : CountsOnly s u) {p : Part} (hp : p ∉ [Part.regs, .adm, .hist, .tlc]) : p.same s u := by
  rw [show u = _ from h]
  cases p with
  | regs | adm | hist | tlc => simp at hp
  | cmds => exact ⟨rfl, rfl⟩
  | _ => rfl

theorem State.count_countsOnly (s : State) (ev inst n cls master : Nat) (lhn : Option Nat) : CountsOnly s (s.count ev inst n cls master lhn) :=
  (s.count_eq ev inst n cls master lhn).trans (by rw [State.count_adm, State.count_hist, State.count_tlc])

theorem State.bytes_countsOnly (s : State) (i n : Nat) : CountsOnly s (s.bytes i n) := rfl

theorem State.charge_countsOnly (s : State) (p n : Nat) : CountsOnly s (s.charge p n) := rfl

theorem State.noteWrote_countsOnly (s : State) (line : Nat) : CountsOnly s (s.noteWrote line) := rfl

theorem State.wmAccess_countsOnly (s : State) (n cls master : Nat) (lhn : Option Nat) : CountsOnly s (s.wmAccess n cls master lhn) :=
  (s.count_countsOnly _ _ _ _ _ _).trans (State.bytes_countsOnly _ _ _)

/-- The class under which the requests of a kind count (Table 13-1). -/
def ReqKind.cls (kind : ReqKind) : Nat := if kind = .read then 0 else if kind = .write then 1 else 2

/-- The credit of a request is consumed, owed back to the link, and its sequence number taken. -/
def State.creditTaken (s : State) (kind : ReqKind) (ld : Nat) : State :=
  { s with adm := { s.adm with
      reqOut := if kind != .read then s.adm.reqOut else s.adm.reqOut - 1
      covers := if kind != .read then s.adm.covers.tail else s.adm.covers
      owed := s.adm.owed ++ [{ rwd := kind != .read, ld := ld }]
      seq := (s.adm.seq + 1) % 2 ^ 32
      lastReq := some s.clk.now } }

/-- A request is counted and charged for. -/
def State.requestCounted (s : State) (kind : ReqKind) (ld line : Nat) : State :=
  ((((s.creditTaken kind ld).count 0x0001 0 1 kind.cls ld none).bytes 0 64).charge ld
    (if kind = .part ∨ (if kind != .read then s.firstPath line else 0) = 1 then 2 else 1)).wmAccess 1 kind.cls ld (some (lhnOf line))

/-- An accepted request: counted, and a write noted for the medium reads in flight (R177). -/
def State.requestNoted (s : State) (kind : ReqKind) (ld line : Nat) : State :=
  if kind != .read then (s.requestCounted kind ld line).noteWrote line else s.requestCounted kind ld line

/-- A request whose skein is ready stands in the deadline table. -/
def State.entered (s : State) (kind : ReqKind) (ld dpa : Nat) (data : Line) (mask : BitVec 64) : State :=
  let s1 := s.requestNoted kind ld (s.lineOfDpa ld dpa)
  { s1 with adm := { s1.adm with dl := tput s1.adm.dl s.adm.seq (s.request kind ld dpa data mask) } }

/-- A request that a decoder maps, whose skein is ready and that translation takes is entered and routed. -/
theorem State.accept_routes {s : State} {ld hpa dpa : Nat} (kind : ReqKind) (data : Line) (mask : BitVec 64) (hDecode : s.decodeHpa ld hpa = some dpa)
    (hReady : s.skeinReady (skeinOf (lhnOf (s.lineOfDpa ld dpa))) = true) (hRoom : s.transRoom = true) :
    s.accept kind ld hpa data mask = (s.entered kind ld dpa data mask).routeReq s.adm.seq := by
  unfold State.accept
  simp only [hDecode, hReady, hRoom, Bool.not_true, Bool.false_eq_true, if_false, if_true]
  rfl

section
variable (s : State) (kind : ReqKind) (ld dpa line : Nat) (data : Line) (mask : BitVec 64)

theorem State.entered_entry : tget (s.entered kind ld dpa data mask).adm.dl s.adm.seq = some (s.request kind ld dpa data mask) :=
  tget_tput_same _ _ _

theorem State.entered_adm : (s.entered kind ld dpa data mask).adm =
    { (s.creditTaken kind ld).adm with
      charged := (s.entered kind ld dpa data mask).adm.charged, bal := (s.entered kind ld dpa data mask).adm.bal
      dl := tput s.adm.dl s.adm.seq (s.request kind ld dpa data mask) } := by
  simp only [State.entered, State.requestNoted, State.requestCounted]
  split
  · simp [State.charge, State.noteWrote, State.creditTaken]
  · simp [State.charge, State.creditTaken]

theorem State.entered_tlc : (s.entered kind ld dpa data mask).tlc =
    if kind != .read then (s.noteWrote (s.lineOfDpa ld dpa)).tlc else s.tlc := by
  simp only [State.entered, State.requestNoted, State.requestCounted]
  split
  · simp [State.noteWrote, State.creditTaken]
  · simp [State.creditTaken]

theorem State.requestCounted_reg {off : Nat} (h : off ∉ pmcRegs) : (s.requestCounted kind ld line).reg off = s.reg off := by
  rw [State.requestCounted, State.wmAccess_reg _ _ _ _ _ h, State.reg_congr off (State.charge_regs _ _ _), State.reg_congr off (State.bytes_regs _ _ _),
    State.count_reg _ _ _ _ _ _ _ h]
  rfl

theorem State.requestCounted_countsOnly : CountsOnly s (s.requestCounted kind ld line) :=
  have hCredit : CountsOnly s (s.creditTaken kind ld) := rfl
  (((hCredit.trans (State.count_countsOnly _ _ _ _ _ _ _)).trans (State.bytes_countsOnly _ _ _)).trans (State.charge_countsOnly _ _ _)).trans
    (State.wmAccess_countsOnly _ _ _ _ _)

theorem State.entered_reg {off : Nat} (h : off ∉ pmcRegs) : (s.entered kind ld dpa data mask).reg off = s.reg off := by
  have hNoted : (s.requestNoted kind ld (s.lineOfDpa ld dpa)).reg off = s.reg off := by
    unfold State.requestNoted
    split
    · exact s.requestCounted_reg kind ld _ h
    · exact s.requestCounted_reg kind ld _ h
  exact hNoted

theorem State.entered_countsOnly : CountsOnly s (s.entered kind ld dpa data mask) := by
  have hNoted : CountsOnly s (s.requestNoted kind ld (s.lineOfDpa ld dpa)) := by
    unfold State.requestNoted
    split
    · exact (s.requestCounted_countsOnly kind ld _).trans (State.noteWrote_countsOnly _ _)
    · exact s.requestCounted_countsOnly kind ld _
  exact hNoted.trans rfl
end

/-! ### A read of a pool line (O7) -/

/-- A read that the module may answer, of a line that the pool holds, completes with the pool's data and poison (R21). -/
theorem State.routeReq_read_of_pool {s : State} {seq : Nat} {e : DlEntry} {p : PoolLine} (hEntry : tget s.adm.dl seq = some e) (hKind : e.kind = .read)
    (hOpen : s.cxl.locked = false) (hAllowed : s.readDenied e.line = false) (hPatch : s.patchWaits e.line = false) (hClean : s.wm.errs = [])
    (hPool : s.poolGet e.line = some p) :
    s.routeReq seq = ((s.wmAccess 1 0 e.ld (some (lhnOf e.line))).setRouted seq).complete seq (some p.data) p.poison := by
  have hFound : (s.wmAccess 1 0 e.ld (some (lhnOf e.line))).lookup e.line = .here p.data p.poison :=
    State.lookup_of_pool (by rw [State.poolGet, State.wmAccess_tlc]; exact hPool)
  unfold State.routeReq
  simp only [hEntry, hKind, State.wmRead_of_clean hClean, State.hitRead_of_clean hClean, hOpen, hAllowed, State.zeroFirst_of_done hPatch,
    State.countHit_of_pool hPool, hFound, Bool.false_eq_true, if_false]

theorem exec_memRd {s : State} {ld hpa : Nat} (h : s.canTake false ld = true) : exec (.memRd ld hpa) s = nextState (s.accept .read ld hpa 0 0) := by
  unfold exec
  simp only [execMemRd, h, if_true]

theorem State.devload_congr {s u : State} (hReg : u.reg Reg.ADM_DEVLOAD = s.reg Reg.ADM_DEVLOAD) (hMld : u.cxl.mld = s.cxl.mld) (ld : Nat) :
    u.devload ld = s.devload ld := by
  simp only [State.devload, State.fget, hReg, hMld]

/-- Settling changes the live fields alone: what is a part of the state as before stays so. -/
theorem Part.same_settle {s u : State} {p : Part} (hNotRegs : p ≠ .regs) (h : p.same s u) : p.same s u.settle := by
  cases p with
  | regs => exact absurd rfl hNotRegs
  | _ => simpa [Part.same] using h

/-- The frame of a settled state from that of the state it settles. -/
theorem frame_settle {s u : State} {ps : List Part} {rs : List Nat} (hPending : u.pending = s.pending)
    (hParts : ∀ p, p ∉ Part.regs :: ps → p.same s u) (hRegs : ∀ off, off ∉ rs → u.reg off = s.reg off) : Frame s u.settle ps rs := by
  refine ⟨⟨u.settle_pending.trans hPending, fun p hp => ?_⟩, fun off hQuiet hOff => (u.settle_reg hQuiet).trans (hRegs off hOff)⟩
  exact Part.same_settle (fun hEq => hp (hEq ▸ List.mem_cons_self ..)) (hParts p hp)

/-- A read that is entered and counted as one that the pool serves. -/
def State.readHit (s : State) (ld dpa : Nat) : State :=
  (s.entered .read ld dpa 0 0).wmAccess 1 0 ld (some (lhnOf (s.lineOfDpa ld dpa)))

section
variable (s : State) (ld dpa : Nat)

theorem State.readHit_countsOnly : CountsOnly s (s.readHit ld dpa) :=
  (s.entered_countsOnly .read ld dpa 0 0).trans (State.wmAccess_countsOnly _ _ _ _ _)

theorem State.readHit_tlc : (s.readHit ld dpa).tlc = s.tlc := (State.wmAccess_tlc _ _ _ _ _).trans (s.entered_tlc .read ld dpa 0 0)

theorem State.readHit_reg {off : Nat} (h : off ∉ pmcRegs) : (s.readHit ld dpa).reg off = s.reg off :=
  (State.wmAccess_reg _ _ _ _ _ h).trans (s.entered_reg .read ld dpa 0 0 h)

theorem State.readHit_entry : tget (s.readHit ld dpa).adm.dl s.adm.seq = some (s.request .read ld dpa 0 0) := by
  rw [State.readHit, State.wmAccess_adm]
  exact s.entered_entry .read ld dpa 0 0

theorem State.readHit_credits : (s.readHit ld dpa).adm.reqOut = s.adm.reqOut - 1 ∧ (s.readHit ld dpa).adm.owed = s.adm.owed ++ [⟨false, ld⟩] ∧
    (s.readHit ld dpa).adm.seq = (s.adm.seq + 1) % 2 ^ 32 := by
  rw [State.readHit, State.wmAccess_adm, State.entered_adm]
  exact ⟨rfl, rfl, rfl⟩
end

/-- A read of a pool line that the module may answer is entered, and completes from the pool. -/
theorem exec_memRd_of_pool {s : State} {ld hpa dpa : Nat} {p : PoolLine} (hTake : s.canTake false ld = true) (hDecode : s.decodeHpa ld hpa = some dpa)
    (hReady : s.skeinReady (skeinOf (lhnOf (s.lineOfDpa ld dpa))) = true) (hOpen : s.cxl.locked = false)
    (hAllowed : s.readDenied (s.lineOfDpa ld dpa) = false) (hPatch : s.patchWaits (s.lineOfDpa ld dpa) = false) (hRoom : s.transRoom = true)
    (hClean : s.wm.errs = []) (hPool : s.poolGet (s.lineOfDpa ld dpa) = some p) :
    exec (.memRd ld hpa) s = nextState (((s.readHit ld dpa).setRouted s.adm.seq).complete s.adm.seq (some p.data) p.poison) := by
  have hRest := s.entered_countsOnly .read ld dpa 0 0
  have hHeld : (s.entered .read ld dpa 0 0).poolGet (s.lineOfDpa ld dpa) = some p :=
    (congrArg (fun x : Tlc => tget x.pool _) (s.entered_tlc .read ld dpa 0 0)).trans hPool
  have hEntry := s.entered_entry .read ld dpa 0 0
  rw [exec_memRd hTake, State.accept_routes .read 0 0 hDecode hReady hRoom, State.readHit]
  generalize s.entered .read ld dpa 0 0 = u at hRest hHeld hEntry ⊢
  rw [State.routeReq_read_of_pool hEntry rfl (hRest.cxl ▸ hOpen) ((hRest.readDenied _).trans hAllowed) ((hRest.patchWaits _).trans hPatch)
    (hRest.wm ▸ hClean) hHeld]
  rfl

/-- Settles O7: the read is entered and routed at once, finds its line in the pool, and completes within its bound. -/
theorem memRdAnswersFromThePool : Obligations.MemRdAnswersFromThePool := by
  intro s ld hpa dpa p hTake hDecode hReady hOpen hAllowed hPatch hRoom hClean hPool
  have hStep := exec_memRd_of_pool hTake hDecode hReady hOpen hAllowed hPatch hRoom hClean hPool
  have hRest := s.readHit_countsOnly ld dpa
  have hTlc := s.readHit_tlc ld dpa
  have hReg {off : Nat} (h : off ∉ pmcRegs) := s.readHit_reg ld dpa h
  have hEntry := s.readHit_entry ld dpa
  obtain ⟨hReqOut, hOwed, hSeq⟩ := s.readHit_credits ld dpa
  generalize s.readHit ld dpa = v at hStep hRest hTlc hReg hEntry hReqOut hOwed hSeq
  have hServed : tget (v.setRouted s.adm.seq).adm.dl s.adm.seq = some { s.request .read ld dpa 0 0 with routed := true } := tget_tmod_same _ hEntry
  have hInTime : v.clk.now ≤ s.clk.now + boundOf .read 0 := (congrArg Clk.now hRest.clk).trans_le (Nat.le_add_right _ _)
  have hLoad : (v.setRouted s.adm.seq).devload ld = s.devload ld := State.devload_congr (hReg (by decide)) (congrArg Cxl.mld hRest.cxl) ld
  rw [State.complete_in_time hServed rfl hInTime] at hStep
  refine ⟨_, hStep, ?_, ?_, ?_, ?_, ?_, ?_⟩
  · rw [State.settle_outbox]
    exact congrArg₂ List.cons (congrArg (Out.data _ _ _ _) hLoad) hRest.outbox
  · rw [State.settle_adm]
    exact tget_tdel_same _ _
  · rw [State.settle_adm]
    exact hReqOut
  · rw [State.settle_adm]
    exact hOwed
  · rw [State.settle_adm]
    exact hSeq
  · refine frame_settle ?_ (fun p hp => ?_) fun off hOff => hReg hOff
    · exact (congrArg State.pending hRest).trans rfl
    · have hSame (hNot : p ≠ .tlc) : p.same s v := hRest.same_part (by simp at hp ⊢; tauto)
      cases p with
      | regs | outbox | adm | hist => simp at hp
      | tlc => exact hTlc
      | _ => exact hSame (by decide)

end Sys2Proof.Machine

namespace Sys2Proof.Machine

/-! ### A queue pointer that mismatches on a ring whose completions cannot be written (O60) -/

/-- A command of ring 0 that has not begun, and whose completion meets a host error as it is written. -/
def commandOfDeadQueue : Cmd :=
  { carrier := .ring 0
    pkt := { opcode := 0, flags := 0, tag := 0, ld := 0, keyidx := 0, timeout := 0, arg0 := 0, arg1 := 0, arg2 := 0, arg3 := 0
             bufptr := 0, buflen := 0, check := 0 }
    sgl := [], accept := 0, expiry := none, input := [], running := false, started := false, stopping := false, work := [], done := 0, bad := 0
    extra := 0, status := 0, lines := [], output := [], endWith := none, host := .cqWrite }

/-- A module that is on and whose ring 0 runs with that command alone. -/
def ringOfDeadQueue : State :=
  { State.reset.fset (Reg.CRG_CTL 0) Fld.CRG_CTL_ENABLE 1 with power := .on, cmds := [(0, commandOfDeadQueue)], nextCmd := 1 }

theorem ringOfDeadQueue_cause : (ringOfDeadQueue.haltRing 0 5).fget (Reg.CRG_STAT 0) Fld.CRG_STAT_CAUSE = 3 := by
  decide

theorem exec_pointerMismatch_ring {s : State} {n : Nat} (hPower : s.power = .on) (hLow : 8 ≤ n) (hHigh : n < 16) (hRing : s.ringOn (n - 8) = true) :
    exec (.pointerMismatch n) s = nextState (s.haltRing (n - 8) 5) := by
  have hOn : s.mainOff = false := by simp [State.mainOff, hPower]
  unfold exec
  simp [execPointerMismatch, hOn, hLow, hHigh, hRing]

/-- Refutes O60: a ring that halts ends its commands, and the completion of one of them that cannot be written halts the ring anew with CAUSE 3 (R387), while
the clause of the ring's pointers says that CAUSE stays 5. The state is `ringOfDeadQueue`. -/
theorem not_platformEvents : ¬ Obligations.PlatformEvents := by
  rintro ⟨-, -, -, -, -, hRing, -⟩
  obtain ⟨t, hExec, -, hCause⟩ := hRing ringOfDeadQueue 8 rfl (by decide) (by decide) (by decide)
  have hStep := exec_pointerMismatch_ring (s := ringOfDeadQueue) (n := 8) rfl (by decide) (by decide) (by decide)
  rw [nextState_next _ (hStep.symm.trans hExec), State.settle_fget _ (by decide) (by decide)] at hCause
  exact absurd (ringOfDeadQueue_cause.symm.trans hCause) (by decide)

end Sys2Proof.Machine

namespace Sys2Proof.Machine

/-! ### A MIRROR_ACK lets what waits for room go on (O39) -/

/-- The MIRROR_WRITEs up to a sequence number are acknowledged: their writes complete, and what waits for room goes on. -/
def State.mirrorAcked (s : State) (k aseq : Nat) : State :=
  let l := s.link k
  let done := l.unacked.filter fun u => seqLe u.1 (aseq % 4096)
  let s1 := s.setLink k { l with unacked := l.unacked.filter fun u => !(seqLe u.1 (aseq % 4096)) }
  State.retryStuck (({ l with unacked := done, mirrorOut := [], mirrorWait := [] }.waitingAck).foldl (fun s m => s.mirrorDone m (s.mirrorLineNo k m)) s1)

/-- A MIRROR_ACK that a link in state UP accepts acknowledges. -/
theorem exec_mirrorAck_accepted {s : State} {k : Nat} {hdr : PktHdr} (q : Nat) (h : s.Accepts k hdr [4] 3 0) :
    exec (.mirrorAck k hdr q) s = nextState ((s.accepted k hdr 3 0).mirrorAcked k q) := by
  have hUp : s.linkState k = 4 := List.mem_singleton.1 h.2.1
  have hRx : s.rx k hdr [4] 3 true 0 = .go (s.accepted k hdr 3 0) := rx_accepts s k hdr [4] 3 0 h
  show execMirrorAck k hdr q s = _
  rw [execMirrorAck, if_neg (Nat.not_le.2 h.1), if_neg fun hLate => hLate.1 hUp, hRx]
  rfl

/-- A read that waits in translation for room (R20). -/
def readThatWaits : DlEntry :=
  { kind := .read, ld := 0, dpa := 0, line := 0, accept := 0, base := 0, deadline := none, routed := false, data := 0, mask := 0, cover := false
    mirror := none, stuck := true, merged := false, wpol := none, key := none }

/-- Link 0 is UP and one MIRROR_WRITE of it, of write 7, is without its MIRROR_ACK; access is locked, and read 5 waits in translation. -/
def readWaitsForAck : State :=
  { State.reset.fset (Reg.PLK_LINK 0) Fld.PLK_LINK_STATE 4 with
    linkA := { Link.init with unacked := [(0, .mirrorWrite 0 0 0 [0] [7])] }
    cxl := { Cxl.init with locked := true }
    adm := { Adm.init with dl := [(5, readThatWaits)] } }

/-- The header of the next sequenced packet of that link. -/
def headerOfAck : PktHdr := { uctr := 0, ackseq := 0, seq := 0, ackv := false, len := 0, cls := 3, tagOk := true }

theorem readWaitsForAck_accepts : readWaitsForAck.Accepts 0 headerOfAck [4] 3 0 :=
  ⟨by decide, by decide, rfl, rfl, rfl, by decide⟩

/-- The read goes on and, access being locked, is answered. -/
theorem readWaitsForAck_answered : tget ((readWaitsForAck.accepted 0 headerOfAck 3 0).mirrorAcked 0 0).adm.dl 5 = none := by
  decide

/-- Refutes O39: a MIRROR_ACK also lets the requests that wait in translation go on (R28), so the entry of one that is none of the acknowledged writes can
complete and leave the table, while the first clause says that the other entries stay as they were. The state is `readWaitsForAck`. -/
theorem not_mirrorPath : ¬ Obligations.MirrorPath := by
  rintro ⟨hAck, -⟩
  obtain ⟨t, hExec, -, -, hOthers, -⟩ := hAck readWaitsForAck 0 0 0 0 0 0 7 0 headerOfAck readWaitsForAck_accepts rfl (by decide) (by decide)
  have hKept : tget t.adm.dl 5 = tget readWaitsForAck.adm.dl 5 := hOthers 5 (by decide)
  rw [nextState_next _ ((exec_mirrorAck_accepted 0 readWaitsForAck_accepts).symm.trans hExec), State.settle_adm, readWaitsForAck_answered] at hKept
  exact absurd hKept (by decide)

end Sys2Proof.Machine

namespace Sys2Proof.Machine

/-! ### What placing a line touches -/

/-- From `s` to `u` nothing has changed but what placing a line touches: the pool and the line cache, the zone map, working memory, counts and registers. -/
def PlacesOnly (s u : State) : Prop := u = { s with tlc := u.tlc, energy := u.energy, hist := u.hist, wm := u.wm, regs := u.regs }

theorem PlacesOnly.trans {s u v : State} (h : PlacesOnly s u) (h' : PlacesOnly u v) : PlacesOnly s v :=
  Eq.trans h' (by rw [show u = _ from h])

theorem PlacesOnly.clk {s u : State} (h : PlacesOnly s u) : u.clk = s.clk := (congrArg State.clk h).trans rfl
theorem PlacesOnly.adm {s u : State} (h : PlacesOnly s u) : u.adm = s.adm := (congrArg State.adm h).trans rfl
theorem PlacesOnly.cxl {s u : State} (h : PlacesOnly s u) : u.cxl = s.cxl := (congrArg State.cxl h).trans rfl
theorem PlacesOnly.outbox {s u : State} (h : PlacesOnly s u) : u.outbox = s.outbox := (congrArg State.outbox h).trans rfl
theorem PlacesOnly.hanks {s u : State} (h : PlacesOnly s u) : u.hanks = s.hanks := (congrArg State.hanks h).trans rfl
theorem PlacesOnly.med {s u : State} (h : PlacesOnly s u) : u.med = s.med := (congrArg State.med h).trans rfl
theorem PlacesOnly.crypto {s u : State} (h : PlacesOnly s u) : u.crypto = s.crypto := (congrArg State.crypto h).trans rfl

/-- The registers that placing a line may touch. -/
def placeRegs : List Nat := Reg.WME_FLIP_CTL :: Reg.TLC_POOL :: pmcRegs

/-- A write of a line at a known place changes what stands wrong in working memory, and may disarm the flip mask. -/
theorem State.lineWrite_cases (s : State) (w : Nat) :
    ∃ wm, s.lineWrite (some w) = { s with wm := wm } ∨ s.lineWrite (some w) = State.disarm { s with wm := wm } := by
  have hRight : ∃ wm, (if s.wm.errs.isEmpty then s else { s with wm := { s.wm with errs := s.wm.errs.filter fun e => e.1 % 2 ^ 22 != w } }) =
      { s with wm := wm } := by
    split
    · exact ⟨_, rfl⟩
    · exact ⟨_, rfl⟩
  obtain ⟨wm, hRight⟩ := hRight
  simp only [State.lineWrite, hRight]
  split
  · exact ⟨_, .inl rfl⟩
  · split
    · exact ⟨_, .inl rfl⟩
    · exact ⟨_, .inr rfl⟩

theorem State.disarm_eq (s : State) : s.disarm = { s with regs := s.disarm.regs } := by
  unfold State.disarm
  split
  · rfl
  · rfl

theorem State.lineWrite_placesOnly (s : State) (w : Nat) : PlacesOnly s (s.lineWrite (some w)) := by
  obtain ⟨wm, h | h⟩ := s.lineWrite_cases w
  · rw [h]
    rfl
  · rw [h, State.disarm_eq]
    rfl

@[simp] theorem State.lineWrite_tlc (s : State) (w : Nat) : (s.lineWrite (some w)).tlc = s.tlc := by
  obtain ⟨wm, h | h⟩ := s.lineWrite_cases w
  · rw [h]
  · rw [h, State.disarm_eq]

theorem State.lineWrite_reg (s : State) (w : Nat) {off : Nat} (h : off ≠ Reg.WME_FLIP_CTL) : (s.lineWrite (some w)).reg off = s.reg off := by
  have hDisarm (u : State) : u.disarm.reg off = u.reg off := by
    unfold State.disarm
    split
    · rfl
    · exact State.reg_fset_other _ _ _ _ h
  obtain ⟨wm, hEq | hEq⟩ := s.lineWrite_cases w
  · rw [hEq]
    rfl
  · rw [hEq, hDisarm]
    rfl

theorem State.wmAccess_placesOnly (s : State) (n cls master : Nat) (lhn : Option Nat) : PlacesOnly s (s.wmAccess n cls master lhn) := by
  have h := s.wmAccess_countsOnly n cls master lhn
  rw [CountsOnly, State.wmAccess_adm] at h
  exact h.trans (by rw [State.wmAccess_energy, State.wmAccess_wm])

theorem State.fset_placesOnly (s : State) (off : Nat) (f : Field) (v : Nat) : PlacesOnly s (s.fset off f v) := rfl

theorem State.noteWrote_placesOnly (s : State) (line : Nat) : PlacesOnly s (s.noteWrote line) := rfl

section
variable (s : State) (line : Nat) (p : PoolLine)

theorem State.poolSet_placesOnly : PlacesOnly s (s.poolSet line p) := by
  have hPut (tlc : Tlc) (energy : Energy) : PlacesOnly s { s with tlc := tlc, energy := energy } := rfl
  exact ((((hPut _ _).trans (State.fset_placesOnly _ _ _ _)).trans (State.wmAccess_placesOnly _ _ _ _ _)).trans
    (State.lineWrite_placesOnly _ _)).trans (State.fset_placesOnly _ _ _ _)

theorem State.poolSet_poolGet : (s.poolSet line p).poolGet line = some p := by
  simp [State.poolSet, State.poolGet]

theorem State.poolSet_mb : (s.poolSet line p).tlc.mb = s.tlc.mb := by
  simp [State.poolSet]

theorem State.poolSet_reg {off : Nat} (h : off ∉ placeRegs) : (s.poolSet line p).reg off = s.reg off := by
  obtain ⟨hFlip, hPool, hPmc⟩ : off ≠ Reg.WME_FLIP_CTL ∧ off ≠ Reg.TLC_POOL ∧ off ∉ pmcRegs := by simpa only [placeRegs, List.mem_cons, not_or] using h
  rw [State.poolSet, State.reg_fset_other _ _ _ _ hPool, State.lineWrite_reg _ _ hFlip, State.wmAccess_reg _ _ _ _ _ hPmc,
    State.reg_fset_other _ _ _ _ hPool]
  rfl
end

section
variable (s : State) (p : Put)

/-- The cached copy of a line follows its write. -/
theorem State.cacheUpdate_cases (line : Nat) (d : Line) (poison : Bool) :
    s.cacheUpdate line d poison = s ∨ ∃ cache w, s.cacheUpdate line d poison = (s.setCache cache).lineWrite (some w) := by
  unfold State.cacheUpdate
  cases s.cacheWay line with
  | none => exact .inl rfl
  | some w => exact .inr ⟨_, _, rfl⟩

theorem State.placed_placesOnly : PlacesOnly s (s.placed p) := by
  refine PlacesOnly.trans ?_ (State.noteWrote_placesOnly _ _)
  obtain h | ⟨cache, w, h⟩ := s.cacheUpdate_cases p.line p.data p.poison
  · rw [h]
    rfl
  · rw [h]
    exact PlacesOnly.trans (show PlacesOnly s (s.setCache cache) from rfl) (State.lineWrite_placesOnly _ _)

theorem State.placed_pool : (s.placed p).tlc.pool = s.tlc.pool := by
  show (s.cacheUpdate p.line p.data p.poison).tlc.pool = _
  obtain h | ⟨cache, w, h⟩ := s.cacheUpdate_cases p.line p.data p.poison
  · rw [h]
  · rw [h, State.lineWrite_tlc]
    rfl

theorem State.placed_mb : (s.placed p).tlc.mb = s.tlc.mb := by
  show (s.cacheUpdate p.line p.data p.poison).tlc.mb = _
  obtain h | ⟨cache, w, h⟩ := s.cacheUpdate_cases p.line p.data p.poison
  · rw [h]
  · rw [h, State.lineWrite_tlc]
    rfl

theorem State.placed_reg {off : Nat} (hOff : off ∉ placeRegs) : (s.placed p).reg off = s.reg off := by
  have hFlip : off ≠ Reg.WME_FLIP_CTL := fun hEq => hOff (hEq ▸ List.mem_cons_self ..)
  show (s.cacheUpdate p.line p.data p.poison).reg off = _
  obtain h | ⟨cache, w, h⟩ := s.cacheUpdate_cases p.line p.data p.poison
  · rw [h]
  · rw [h, State.lineWrite_reg _ _ hFlip]
    rfl
end

/-! ### A line over a dirty pool line (R25) -/

/-- The pool line that a line to be placed leaves over the one that stands there (R25, R59). -/
def PoolLine.over (q : PoolLine) (p : Put) : PoolLine :=
  { q with data := p.data, key := p.key, poison := p.poison, accept := p.accept, due := p.accept + 3900000, master := p.master,
           again := q.again || q.op.isSome }

/-- A line is placed over the pool line that stands there. -/
def State.overwritten (s : State) (p : Put) (q : PoolLine) : State := (s.poolSet p.line (q.over p)).placed p

theorem State.placeLine_of_pool {s : State} {p : Put} {q : PoolLine} (h : s.poolGet p.line = some q) : s.placeLine p = (.pool, s.overwritten p q) := by
  simp only [State.placeLine, h]
  rfl

section
variable (s : State) (p : Put) (q : PoolLine)

theorem State.overwritten_placesOnly : PlacesOnly s (s.overwritten p q) := (s.poolSet_placesOnly _ _).trans (State.placed_placesOnly _ _)

theorem State.overwritten_poolGet : (s.overwritten p q).poolGet p.line = some (q.over p) :=
  (congrArg (tget · p.line) (State.placed_pool _ _)).trans (s.poolSet_poolGet _ _)

theorem State.overwritten_mb : (s.overwritten p q).tlc.mb = s.tlc.mb := (State.placed_mb _ _).trans (s.poolSet_mb _ _)

theorem State.overwritten_reg {off : Nat} (h : off ∉ placeRegs) : (s.overwritten p q).reg off = s.reg off :=
  (State.placed_reg _ _ h).trans (s.poolSet_reg _ _ h)
end

/-! ### Routing a full line of a one-ply hank that the pool holds -/

theorem State.mirrorOf_of_onePly {s : State} {line : Nat} (h : s.regionOf (lhnOf line) = none) : s.mirrorOf line = none := by
  simp [State.mirrorOf, h]

/-- A line of a one-ply hank over its pool line completes its request (R25, R48). -/
theorem State.routeFull_of_pool {s : State} {seq : Nat} {e : DlEntry} {q : PoolLine} (data : Line) (hPatch : s.patchWaits e.line = false)
    (hOnePly : s.regionOf (lhnOf e.line) = none) (hPool : s.poolGet e.line = some q) :
    s.routeFull seq e data = (((s.unpoison e.ld e.dpa).overwritten (e.put seq 2 (s.polFor e) (s.keyFor e) false data) q).setRouted seq).complete
      seq none false := by
  have hRegion : (s.unpoison e.ld e.dpa).regionOf (lhnOf e.line) = none := hOnePly
  have hFound : (s.unpoison e.ld e.dpa).poolGet (e.put seq 2 (s.polFor e) (s.keyFor e) false data).line = some q := hPool
  unfold State.routeFull
  simp only [State.zeroFirst_of_done hPatch, State.mirrorOf_of_onePly hRegion, hRegion]
  rw [show (s.unpoison e.ld e.dpa).polFor e = s.polFor e from rfl, show (s.unpoison e.ld e.dpa).keyFor e = s.keyFor e from rfl,
    State.placeLine_of_pool hFound]

/-- A full write to be applied is routed under the policy and the key of this moment (R183, R253). -/
theorem State.routeReq_write {s : State} {seq : Nat} {e : DlEntry} (hEntry : tget s.adm.dl seq = some e) (hKind : e.kind = .write)
    (hOpen : s.cxl.locked = false) (hFate : s.writeFate e.line = .apply) (hClean : s.wm.errs = []) :
    s.routeReq seq = (s.takePolicy seq e).routeFull seq e e.data := by
  unfold State.routeReq
  simp only [hEntry, hKind, State.wmRead_of_clean hClean, State.hitRead_of_clean hClean, hOpen, hFate, Bool.false_eq_true, if_false]

/-- A partial write to be applied merges with the pool line of its line (R26). -/
theorem State.routeReq_part_of_pool {s : State} {seq : Nat} {e : DlEntry} {q : PoolLine} (hEntry : tget s.adm.dl seq = some e) (hKind : e.kind = .part)
    (hOpen : s.cxl.locked = false) (hFate : s.writeFate e.line = .apply) (hKey : e.key = none) (hPatch : s.patchWaits e.line = false)
    (hClean : s.wm.errs = []) (hPool : s.poolGet e.line = some q) (hSound : q.poison = false) :
    s.routeReq seq = (s.takePolicy seq e).routeFull seq e (mergeBytes q.data e.data e.mask) := by
  have hFound : (s.takePolicy seq e).lookup e.line = .here q.data false := hSound ▸ State.lookup_of_pool (s := s.takePolicy seq e) hPool
  have hHeld : (s.takePolicy seq e).fateUnder e.line ((s.takePolicy seq e).keyFor e) = .apply := by
    rw [State.keyFor, hKey]
    exact hFate
  unfold State.routeReq
  simp only [hEntry, hKind, State.wmRead_of_clean hClean, State.hitRead_of_clean hClean, hOpen, hFate, State.zeroFirst_of_done hPatch, hFound,
    State.mergeAndRoute, State.routeHeld, hHeld, Bool.false_eq_true, if_false]

/-! ### A write of a pool line (O9) -/

/-- The region of a hank rests on the map and on registers that no count touches. -/
theorem State.regionOf_congr {s u : State} (hHanks : u.hanks = s.hanks) (hReg : ∀ {off : Nat}, off ∉ pmcRegs → u.reg off = s.reg off) (lhn : Nat) :
    u.regionOf lhn = s.regionOf lhn := by
  have hPlan : u.planB = s.planB := by rw [State.planB, State.fget, hReg (by decide)]; rfl
  have hRegion (k r : Nat) (hk : k < 2) (hr : r < 16) (f : Field) : u.fget (Reg.PLK_REGION k r) f = s.fget (Reg.PLK_REGION k r) f := by
    have hOff : ∀ k < 2, ∀ r < 16, Reg.PLK_REGION k r ∉ pmcRegs := by decide
    rw [State.fget, hReg (hOff k hk r hr)]
    rfl
  have hOn (k : Nat) (hk : k < 2) : u.regionOn k lhn = s.regionOn k lhn := by
    unfold State.regionOn
    rw [hPlan, List.find?_congr fun r hr => by rw [hRegion k r hk (List.mem_range.1 hr), hRegion k r hk (List.mem_range.1 hr),
      hRegion k r hk (List.mem_range.1 hr)]]
    split
    · next r hFind => rw [hRegion k r hk (List.mem_range.1 (List.mem_of_find?_eq_some hFind))]
    · rfl
  have hEntry : u.hostEntry lhn = s.hostEntry lhn := by rw [State.hostEntry, hHanks]; rfl
  simp only [State.regionOf, hEntry]
  by_cases hPly : (s.hostEntry lhn).ply = 1 ∨ (s.hostEntry lhn).ply = 2
  · rw [if_pos hPly, if_pos hPly, hOn _ (by omega)]
  · rw [if_neg hPly, if_neg hPly]

theorem CountsOnly.writeFate {s u : State} (h : CountsOnly s u) (line : Nat) : u.writeFate line = s.writeFate line := by
  rw [show u = _ from h]
  rfl

theorem execMemWr_taken {s : State} {ld hpa : Nat} {data : Line} (h : s.canTake true ld = true) :
    exec (.memWr ld hpa data) s = nextState (s.accept .write ld hpa data (BitVec.allOnes 64)) := by
  unfold exec
  simp only [execMemWr, h, if_true]

theorem execMemWrPtl_taken {s : State} {ld hpa : Nat} {data : Line} {mask : BitVec 64} (h : s.canTake true ld = true) :
    exec (.memWrPtl ld hpa data mask) s = nextState (s.accept .part ld hpa data mask) := by
  unfold exec
  simp only [execMemWrPtl, h, if_true]

section
variable (s : State) (kind : ReqKind) (ld dpa : Nat) (data : Line) (mask : BitVec 64)

theorem State.entered_pool : (s.entered kind ld dpa data mask).tlc.pool = s.tlc.pool := by
  rw [State.entered_tlc]
  split
  · rfl
  · rfl

theorem State.entered_mb : (s.entered kind ld dpa data mask).tlc.mb = s.tlc.mb := by
  rw [State.entered_tlc]
  split
  · rfl
  · rfl
end

/-- A request whose full line goes over its pool line by its deadline completes, and its line stands in the pool. -/
theorem State.routeFull_of_pool_effect {s : State} {seq dl : Nat} {e r : DlEntry} {q : PoolLine} (data : Line) (hPatch : s.patchWaits e.line = false)
    (hOnePly : s.regionOf (lhnOf e.line) = none) (hPool : s.poolGet e.line = some q) (hEntry : tget s.adm.dl seq = some r) (hKind : r.kind ≠ .read)
    (hDl : r.deadline = some dl) (hTime : s.clk.now ≤ dl) :
    (s.routeFull seq e data).outbox = .cmp r.ld r.dpa (s.devload r.ld) :: s.outbox ∧
    (s.routeFull seq e data).poolGet e.line = some (q.over (e.put seq 2 (s.polFor e) (s.keyFor e) false data)) ∧
    tget (s.routeFull seq e data).adm.dl seq = none ∧ (s.routeFull seq e data).adm.covers = s.adm.covers ∧
    (s.routeFull seq e data).adm.owed = s.adm.owed ∧ (s.routeFull seq e data).med = s.med ∧ (s.routeFull seq e data).hanks = s.hanks ∧
    (s.routeFull seq e data).crypto = s.crypto ∧ (s.routeFull seq e data).tlc.mb = s.tlc.mb := by
  have hResponse (load : Nat) : DlEntry.response { r with routed := true } none false load = .cmp r.ld r.dpa load := by
    cases hr : r.kind with
    | read => exact absurd hr hKind
    | write => simp [DlEntry.response]
    | part => simp [DlEntry.response]
  rw [State.routeFull_of_pool data hPatch hOnePly hPool]
  have hPlaces := (s.unpoison e.ld e.dpa).overwritten_placesOnly (e.put seq 2 (s.polFor e) (s.keyFor e) false data) q
  have hLine := (s.unpoison e.ld e.dpa).overwritten_poolGet (e.put seq 2 (s.polFor e) (s.keyFor e) false data) q
  have hMb := (s.unpoison e.ld e.dpa).overwritten_mb (e.put seq 2 (s.polFor e) (s.keyFor e) false data) q
  have hReg {off : Nat} (h : off ∉ placeRegs) := (s.unpoison e.ld e.dpa).overwritten_reg (e.put seq 2 (s.polFor e) (s.keyFor e) false data) q h
  generalize (s.unpoison e.ld e.dpa).overwritten (e.put seq 2 (s.polFor e) (s.keyFor e) false data) q = v at hPlaces hLine hMb hReg ⊢
  have hRouted : tget (v.setRouted seq).adm.dl seq = some { r with routed := true } := tget_tmod_same _ (hPlaces.adm ▸ hEntry)
  have hLoad : (v.setRouted seq).devload r.ld = s.devload r.ld := State.devload_congr (hReg (by decide)) (congrArg Cxl.mld hPlaces.cxl) r.ld
  have hCovers : v.adm.covers = s.adm.covers := congrArg Adm.covers hPlaces.adm
  have hOwed : v.adm.owed = s.adm.owed := congrArg Adm.owed hPlaces.adm
  rw [State.complete_in_time hRouted hDl ((congrArg Clk.now hPlaces.clk).trans_le hTime), hResponse]
  exact ⟨congrArg₂ List.cons (congrArg (Out.cmp _ _) hLoad) hPlaces.outbox, hLine, tget_tdel_same _ _, hCovers, hOwed, hPlaces.med, hPlaces.hanks,
    hPlaces.crypto, hMb⟩

/-- What is left once a write over a pool line has completed: a completion for the host, the pool line, and the credit owed. -/
structure WroteOver (s t : State) (ld dpa : Nat) (p : PoolLine) : Prop where
  outbox : t.outbox = .cmp ld (dpa / 64 * 64) (s.devload ld) :: s.outbox
  pool : t.poolGet (s.lineOfDpa ld dpa) = some p
  entry : tget t.adm.dl s.adm.seq = none
  covers : t.adm.covers = s.adm.covers.tail
  owed : t.adm.owed = s.adm.owed ++ [⟨true, ld⟩]
  med : t.med = s.med
  hanks : t.hanks = s.hanks
  crypto : t.crypto = s.crypto
  mb : t.tlc.mb = s.tlc.mb

/-- The pool line that an accepted write leaves. -/
def State.lineOver (s : State) (ld dpa : Nat) (data : Line) (p : PoolLine) : PoolLine :=
  { p with data := data, key := (s.hostEntry (lhnOf (s.lineOfDpa ld dpa))).key, poison := false, accept := s.clk.now, due := s.clk.now + 3900000,
           master := ld, again := p.again || p.op.isSome }

theorem WroteOver.settle {s t : State} {ld dpa : Nat} {p : PoolLine} (h : WroteOver s t ld dpa p) : WroteOver s t.settle ld dpa p where
  outbox := t.settle_outbox.trans h.outbox
  pool := (congrArg (fun x : Tlc => tget x.pool _) t.settle_tlc).trans h.pool
  entry := (congrArg (fun x : Adm => tget x.dl _) t.settle_adm).trans h.entry
  covers := (congrArg Adm.covers t.settle_adm).trans h.covers
  owed := (congrArg Adm.owed t.settle_adm).trans h.owed
  med := t.settle_med.trans h.med
  hanks := t.settle_hanks.trans h.hanks
  crypto := t.settle_crypto.trans h.crypto
  mb := (congrArg Tlc.mb t.settle_tlc).trans h.mb

/-- An accepted write whose full line is routed over its pool line completes within its bound (R25, R48). -/
theorem State.entered_wroteOver {s : State} {kind : ReqKind} {ld dpa : Nat} {data : Line} {mask : BitVec 64} {p : PoolLine} (d : Line)
    (hKind : kind ≠ .read) (hPatch : s.patchWaits (s.lineOfDpa ld dpa) = false) (hOnePly : s.regionOf (lhnOf (s.lineOfDpa ld dpa)) = none)
    (hPool : s.poolGet (s.lineOfDpa ld dpa) = some p) :
    WroteOver s (((s.entered kind ld dpa data mask).takePolicy s.adm.seq (s.request kind ld dpa data mask)).routeFull s.adm.seq
      (s.request kind ld dpa data mask) d) ld dpa (s.lineOver ld dpa d p) := by
  have hRest := s.entered_countsOnly kind ld dpa data mask
  have hEntry := s.entered_entry kind ld dpa data mask
  have hAdm := s.entered_adm kind ld dpa data mask
  have hReg {off : Nat} (h : off ∉ pmcRegs) := s.entered_reg kind ld dpa data mask h
  have hHeld := s.entered_pool kind ld dpa data mask
  have hMb := s.entered_mb kind ld dpa data mask
  generalize s.entered kind ld dpa data mask = u at hRest hEntry hAdm hReg hHeld hMb ⊢
  have hPolicy : CountsOnly s (u.takePolicy s.adm.seq (s.request kind ld dpa data mask)) := hRest.trans rfl
  have hOnePlyNow : (u.takePolicy s.adm.seq (s.request kind ld dpa data mask)).regionOf (lhnOf (s.lineOfDpa ld dpa)) = none :=
    (State.regionOf_congr hPolicy.hanks (fun h => hReg h) _).trans hOnePly
  have hKey : (u.takePolicy s.adm.seq (s.request kind ld dpa data mask)).keyFor (s.request kind ld dpa data mask) =
      (s.hostEntry (lhnOf (s.lineOfDpa ld dpa))).key := congrArg (fun h : Hanks => (dget shippedHost h.host _).key) hRest.hanks
  have hLoad : u.devload ld = s.devload ld := State.devload_congr (hReg (by decide)) (congrArg Cxl.mld hRest.cxl) ld
  have hTaken := tget_tmod_same (fun x : DlEntry => { x with
    wpol := some (x.wpol.getD (u.polOf (s.lineOfDpa ld dpa))), key := some (x.key.getD (u.keyOf (s.lineOfDpa ld dpa))) }) hEntry
  have hTime : u.clk.now ≤ s.clk.now + boundOf kind (if kind != .read then s.firstPath (s.lineOfDpa ld dpa) else 0) :=
    (congrArg Clk.now hRest.clk).trans_le (Nat.le_add_right _ _)
  obtain ⟨hOut, hLine, hDl, hCovers, hOwed, hMed, hHanks, hCrypto, hMerge⟩ :=
    State.routeFull_of_pool_effect (e := s.request kind ld dpa data mask) (q := p) d ((hPolicy.patchWaits _).trans hPatch) hOnePlyNow
      ((congrArg (tget · (s.lineOfDpa ld dpa)) hHeld).trans hPool) hTaken hKind rfl hTime
  rw [hKey] at hLine
  have hAdmNow : u.adm.covers = s.adm.covers.tail ∧ u.adm.owed = s.adm.owed ++ [⟨true, ld⟩] := by
    rw [hAdm]
    cases kind with
    | read => exact absurd rfl hKind
    | write => exact ⟨rfl, rfl⟩
    | part => exact ⟨rfl, rfl⟩
  exact {
    outbox := hOut.trans (congrArg₂ List.cons (congrArg (Out.cmp _ _) hLoad) hRest.outbox)
    pool := hLine
    entry := hDl
    covers := hCovers.trans hAdmNow.1
    owed := hOwed.trans hAdmNow.2
    med := hMed.trans ((congrArg State.med hRest).trans rfl)
    hanks := hHanks.trans hRest.hanks
    crypto := hCrypto.trans hRest.crypto
    mb := hMerge.trans hMb }

/-- Settles O9: the write is entered and routed at once, its full line goes over the line that the pool holds, and it completes within its bound. -/
theorem memWrOverwritesThePoolLine : Obligations.MemWrOverwritesThePoolLine := by
  constructor
  · intro s ld hpa dpa data p hTake hDecode hReady hOpen hFate hPatch hRoom hClean hOnePly hPool
    have hRest := s.entered_countsOnly .write ld dpa data (BitVec.allOnes 64)
    have hRouted := State.routeReq_write (s.entered_entry .write ld dpa data (BitVec.allOnes 64)) rfl (hRest.cxl ▸ hOpen)
      ((hRest.writeFate _).trans hFate) (hRest.wm ▸ hClean)
    have hStep := (execMemWr_taken hTake).trans (congrArg nextState ((State.accept_routes .write data _ hDecode hReady hRoom).trans hRouted))
    have hDone := (State.entered_wroteOver (data := data) (mask := BitVec.allOnes 64) data (by decide : ReqKind.write ≠ .read) hPatch hOnePly hPool).settle
    exact ⟨_, hStep, hDone.outbox, hDone.pool, hDone.entry, hDone.covers, hDone.owed, hDone.med, hDone.hanks, hDone.crypto, hDone.mb⟩
  · intro s ld hpa dpa data mask p hTake hDecode hReady hOpen hFate hPatch hRoom hClean hOnePly hPool hSound
    have hRest := s.entered_countsOnly .part ld dpa data mask
    have hHeld : (s.entered .part ld dpa data mask).poolGet (s.lineOfDpa ld dpa) = some p := by
      rw [State.poolGet, State.entered_pool]
      exact hPool
    have hRouted := State.routeReq_part_of_pool (s.entered_entry .part ld dpa data mask) rfl (hRest.cxl ▸ hOpen)
      ((hRest.writeFate _).trans hFate) rfl ((hRest.patchWaits _).trans hPatch) (hRest.wm ▸ hClean) hHeld hSound
    have hStep := (execMemWrPtl_taken hTake).trans (congrArg nextState ((State.accept_routes .part data mask hDecode hReady hRoom).trans hRouted))
    have hDone := (State.entered_wroteOver (data := data) (mask := mask) (mergeBytes p.data data mask) (by decide : ReqKind.part ≠ .read) hPatch hOnePly
      hPool).settle
    have hLine := hDone.pool
    rw [State.lineOver, ← hSound] at hLine
    exact ⟨_, hStep, hDone.outbox, hLine, hDone.entry, hDone.covers, hDone.owed, hDone.med, hDone.hanks, hDone.crypto, hDone.mb⟩

end Sys2Proof.Machine

namespace Sys2Proof.Machine

/-! ### Commands that are answered at once -/

/-- The state once a mailbox command is answered. -/
def State.answered (s : State) (mb : Mailbox) (code : Nat) (payload : List Nat) (bytes : List Byte) : State :=
  { s with outbox := .mailbox mb code payload bytes :: s.outbox }

section
variable {s : State} {mb : Mailbox}

/-- A mailbox that is up, with running firmware, answers what the command's meaning gives. -/
theorem State.mbDone_runs {rom : Bool} {f : State → Nat × List Nat × List Byte × State} {code : Nat} {payload : List Nat} {bytes : List Byte} {t : State}
    (hUp : s.mbUp mb = true) (hFw : s.ready rFW = true) (hMeans : f s = (code, payload, bytes, t)) :
    s.mbDone mb rom true f = nextState (t.answered mb code payload bytes) := by
  simp only [State.mbDone, State.mbCmd, hUp, hFw, hMeans, Bool.not_true, Bool.and_false, Bool.or_self, Bool.false_eq_true, if_false]
  rfl

theorem State.mbDone_down {rom isReady : Bool} {f : State → Nat × List Nat × List Byte × State} (hDown : s.mbUp mb = false) :
    s.mbDone mb rom isReady f = nextState s := by
  simp [State.mbDone, State.mbCmd, hDown]

/-- Without running firmware a command that needs it is answered Retry Required (R230). -/
theorem State.mbDone_retry {isReady : Bool} {f : State → Nat × List Nat × List Byte × State} (hUp : s.mbUp mb = true) (hFw : s.ready rFW = false) :
    s.mbDone mb false isReady f = nextState (s.answered mb 5 [] []) := by
  simp only [State.mbDone, State.mbCmd, hUp, hFw]
  rfl

/-- The boot ROM serves its own commands without running firmware (R426). -/
theorem State.mbDone_rom {f : State → Nat × List Nat × List Byte × State} {code : Nat} {payload : List Nat} {bytes : List Byte} {t : State}
    (hUp : s.mbUp mb = true) (hMeans : f s = (code, payload, bytes, t)) : s.mbDone mb true true f = nextState (t.answered mb code payload bytes) := by
  simp only [State.mbDone, State.mbCmd, hUp, hMeans]
  rfl

/-- The FM API of an MLD with running firmware answers what the command's meaning gives. -/
theorem State.fmCmd_runs {f : State → Nat × List Nat × State} {code : Nat} {payload : List Nat} {t : State} (hOn : s.power = .on)
    (hFw : s.ready rFW = true) (hMld : s.cxl.mld = true) (hMeans : f s = (code, payload, t)) :
    s.fmCmd f = nextState { t with outbox := .fm code payload :: t.outbox } := by
  simp only [State.fmCmd, hOn, hFw, hMld, hMeans]
  rfl
end

/-- A command that changes answers and the CXL functions' state alone. -/
theorem frame_of_cxl (s : State) (outbox : List Out) (cxl : Cxl) : Frame s (State.settle { s with outbox := outbox, cxl := cxl }) [.outbox, .cxl] [] := by
  refine frame_settle rfl (fun p hp => ?_) fun off _ => rfl
  cases p with
  | regs | outbox | cxl => simp at hp
  | cmds => exact ⟨rfl, rfl⟩
  | _ => rfl

/-! ### Event records, the interrupt policy, wall time and the shutdown state (R42, R355, R358) -/

section
variable {s : State} {mb : Mailbox} (hUp : s.mbUp mb = true) (hFw : s.ready rFW = true)
include hUp hFw

theorem exec_clearEventRecords_all {n : Nat} {l : Log} (hs : List Nat) (hLog : s.logs[n]? = some l) :
    exec (.clearEventRecords mb n true hs) s = nextState (State.answered { s with
      logs := lset s.logs n { l with recs := [], ovf := 0, ovfFirst := 0, ovfLast := 0 } } mb 0 [] []) := by
  unfold exec
  exact State.mbDone_runs hUp hFw (by simp [hLog, rcSuccess])

/-- The log once the records of some handles have left it. -/
def Log.without (l : Log) (hs : List Nat) : Log :=
  let recs := l.recs.filter fun e => !(hs.contains e.handle)
  if recs.isEmpty then { l with recs := [], ovf := 0, ovfFirst := 0, ovfLast := 0 } else { l with recs := recs }

theorem exec_clearEventRecords_held {n : Nat} {l : Log} {hs : List Nat} (hLog : s.logs[n]? = some l) (hHeld : ∀ h ∈ hs, ∃ e ∈ l.recs, e.handle = h) :
    exec (.clearEventRecords mb n false hs) s = nextState (State.answered { s with logs := lset s.logs n (l.without hs) } mb 0 [] []) := by
  have hAll : (hs.any fun h => !(l.recs.any fun e => e.handle == h)) = false := by simpa using hHeld
  unfold exec
  exact State.mbDone_runs hUp hFw (by simp [hLog, hAll, rcSuccess, Log.without])

theorem exec_setEventInterruptPolicy {a b c d : Nat} (ha : a % 4 ≤ 1) (hb : b % 4 ≤ 1) (hc : c % 4 ≤ 1) (hd : d % 4 ≤ 1) :
    exec (.setEventInterruptPolicy mb a b c d) s = nextState (State.answered { s with cxl := { s.cxl with policy := [a, b, c, d] } } mb 0 [] []) := by
  have hKnown : ([a, b, c, d].any fun v => decide (1 < v % 4)) = false := by simp [ha, hb, hc, hd]
  unfold exec
  exact State.mbDone_runs hUp hFw (by simp only [hKnown]; rfl)

/-- The clock once wall time is set: the offset waits for the next tick (R42). -/
def Clk.wallAt (c : Clk) (ns : Nat) : Clk :=
  { c with nextOffset := some ((ns : Int) - (c.now : Int) * 10), wallSet := true, timeSet := true
           firstOffset := if c.timeSet then c.firstOffset else (ns : Int) - (c.now : Int) * 10 }

theorem exec_setTimestamp (ns : Nat) :
    exec (.setTimestamp mb ns) s = nextState ((State.hostCheck { s with clk := s.clk.wallAt ns }).answered mb 0 [] []) := by
  unfold exec
  exact State.mbDone_runs hUp hFw rfl

theorem exec_setShutdownState (v : Nat) : exec (.setShutdownState mb v) s = nextState (State.answered { s with
    cxl := { s.cxl with shutdown := dput (fun _ => 0) s.cxl.shutdown mb.ld (v % 2) } } mb 0 [] []) := by
  unfold exec
  exact State.mbDone_runs hUp hFw rfl

/-- The bytes of a label area once data has been written, its first byte `k` bytes past an address. -/
def writeBytes (t : Tbl Byte) (base : Nat) (data : List Byte) (k : Nat) : Tbl Byte :=
  (data.zipIdx k).foldl (fun t x => dput (fun _ => (0 : Byte)) t (base + x.2) x.1) t

theorem exec_setLsa {o : Nat} {b : List Byte} (hFits : o + b.length ≤ s.lsaSize) : exec (.setLsa mb o b) s =
    nextState (State.answered { s with cxl := { s.cxl with lsa := writeBytes s.cxl.lsa (s.lsaBase mb + o) b 0 } } mb 0 [] []) := by
  unfold exec
  exact State.mbDone_runs hUp hFw (by simp only [if_neg (Nat.not_lt.2 hFits)]; rfl)

/-- The thresholds once those that a mask names are set. -/
def Cxl.alertsSet (c : Cxl) (valid : Nat) (new : List Nat) : List Nat :=
  (List.range 5).map fun i => if valid.testBit i then new.getD i 0 else c.alerts.getD i 0

/-- The alerts that are on once those that a mask names are set. -/
def Cxl.alertsOn (c : Cxl) (valid enable : Nat) : Nat :=
  (List.range 5).foldl (fun a i => a + if (if valid.testBit i then enable.testBit i else c.alertOn.testBit i) then 2 ^ i else 0) 0

theorem exec_setAlertConfiguration {v l : Nat} (e o u a b : Nat) (hLife : l ≤ 100) : ∃ health, exec (.setAlertConfiguration mb v e l o u a b) s =
    nextState (State.answered { s with cxl := { s.cxl with
      alerts := s.cxl.alertsSet v [l, o % 65536, u % 65536, a % 65536, b % 65536], alertOn := s.cxl.alertsOn v e, health := health } } mb 0 [] []) := by
  have hKnown : (v.testBit 0 && decide (100 < l)) = false := by simp [hLife]
  unfold exec
  exact ⟨_, State.mbDone_runs hUp hFw (by simp only [hKnown]; rfl)⟩
end

/-! ### A mailbox that is down, and the boot ROM (R230, R426) -/

section
variable {s : State} {mb : Mailbox}

theorem exec_getTimestamp_down (hDown : s.mbUp mb = false) : exec (.getTimestamp mb) s = nextState s := by
  unfold exec
  exact State.mbDone_down hDown

theorem State.eraseCmd_down (hDown : s.mbUp mb = false) (kind op : Nat) : s.eraseCmd mb kind op = nextState s := by
  rw [State.eraseCmd, State.mbDone_down hDown]

theorem exec_sanitize_down (hDown : s.mbUp mb = false) : exec (.sanitize mb) s = nextState s := by
  unfold exec
  exact State.eraseCmd_down hDown _ _

theorem exec_getTimestamp_retry (hUp : s.mbUp mb = true) (hFw : s.ready rFW = false) :
    exec (.getTimestamp mb) s = nextState (s.answered mb 5 [] []) := by
  unfold exec
  exact State.mbDone_retry hUp hFw

theorem exec_getHealthInfo_rom (hUp : s.mbUp mb = true) :
    exec (.getHealthInfo mb) s = nextState (s.answered mb 0 s.healthPayload (healthBytes s.healthPayload)) := by
  unfold exec
  exact State.mbDone_rom (t := s) hUp rfl
end

/-! ### What the setting commands leave -/

/-- A label area holds the bytes written where they were written, and elsewhere what it held. -/
theorem dget_writeBytes (data : List Byte) (base k : Nat) (t : Tbl Byte) :
    (∀ a, a < base + k ∨ base + k + data.length ≤ a → dget (fun _ => 0) (writeBytes t base data k) a = dget (fun _ => 0) t a) ∧
    (∀ i, i < data.length → dget (fun _ => 0) (writeBytes t base data k) (base + k + i) = data.getD i 0) := by
  induction data generalizing k t with
  | nil => exact ⟨fun _ _ => rfl, fun i hi => absurd hi (Nat.not_lt_zero i)⟩
  | cons x xs ih =>
    obtain ⟨hOther, hSame⟩ := ih (k + 1) (dput (fun _ => 0) t (base + k) x)
    refine ⟨fun a ha => ?_, fun i hi => ?_⟩
    · have hApart : a < base + k ∨ base + k + (xs.length + 1) ≤ a := ha
      exact (hOther a (by omega)).trans (dget_dput_other _ _ _ (by omega))
    · cases i with
      | zero => exact (hOther (base + k) (by omega)).trans (dget_dput_same _ _ _ _)
      | succ i =>
        have hNext := hSame i (Nat.lt_of_succ_lt_succ hi)
        rwa [show base + (k + 1) + i = base + k + (i + 1) by omega] at hNext

theorem Log.without_recs (l : Log) (hs : List Nat) : (l.without hs).recs = l.recs.filter fun e => !(hs.contains e.handle) := by
  unfold Log.without
  dsimp only
  split
  · next hEmpty => exact (List.isEmpty_iff.1 hEmpty).symm
  · rfl

/-- The first alert is on as the mask of a configuration that names it says. -/
theorem Cxl.alertsOn_zero (c : Cxl) {valid : Nat} (enable : Nat) (h : valid.testBit 0 = true) : (c.alertsOn valid enable).testBit 0 = enable.testBit 0 := by
  have hEven (b : Bool) (i : Nat) : ∃ m, (if b then 2 ^ (i + 1) else 0) = 2 * m := by
    cases b with
    | true => exact ⟨2 ^ i, Nat.pow_succ'⟩
    | false => exact ⟨0, rfl⟩
  obtain ⟨m1, h1⟩ := hEven (if valid.testBit 1 then enable.testBit 1 else c.alertOn.testBit 1) 0
  obtain ⟨m2, h2⟩ := hEven (if valid.testBit 2 then enable.testBit 2 else c.alertOn.testBit 2) 1
  obtain ⟨m3, h3⟩ := hEven (if valid.testBit 3 then enable.testBit 3 else c.alertOn.testBit 3) 2
  obtain ⟨m4, h4⟩ := hEven (if valid.testBit 4 then enable.testBit 4 else c.alertOn.testBit 4) 3
  have hSum : c.alertsOn valid enable = 0 + (if enable.testBit 0 then 1 else 0) + 2 * m1 + 2 * m2 + 2 * m3 + 2 * m4 := by
    rw [← h1, ← h2, ← h3, ← h4]
    simp only [Cxl.alertsOn, show List.range 5 = [0, 1, 2, 3, 4] from rfl, List.foldl_cons, List.foldl_nil, h, if_true]
    rfl
  rw [hSum, Nat.testBit_zero]
  cases enable.testBit 0 with
  | true => simp only [if_true, decide_eq_true_eq]; omega
  | false => simp only [Bool.false_eq_true, if_false, decide_eq_false_iff_not]; omega

/-- The cross-check with the host's gap touches neither the clock nor the hanks nor the line cache's part (R111). -/
theorem State.hostCheck_keeps (s : State) : s.hostCheck.clk = s.clk ∧ s.hostCheck.hanks = s.hanks ∧ s.hostCheck.tlc = s.tlc := by
  unfold State.hostCheck
  split
  · exact ⟨rfl, rfl, rfl⟩
  · split
    · exact ⟨rfl, rfl, rfl⟩
    · simp

/-! ### The FM API and QoS (R349, R354) -/

section
variable {s : State} (hOn : s.power = .on) (hFw : s.ready rFW = true) (hMld : s.cxl.mld = true)
include hOn hFw hMld

theorem exec_fmIdentify :
    exec .fmIdentify s = nextState { s with outbox := .fm 0 [Config.vendorId, 0x0E6A, (s.reg Reg.RDY_SERIAL).toNat] :: s.outbox } := by
  unfold exec
  exact State.fmCmd_runs (t := s) hOn hFw hMld rfl

theorem exec_backgroundOperationStatus_idle (h : s.bgRuns = false) :
    exec .backgroundOperationStatus s = nextState { s with outbox := .fm 0 [0, 0, s.cxl.bgOp, s.cxl.bgDone] :: s.outbox } := by
  unfold exec
  exact State.fmCmd_runs (t := s) hOn hFw hMld (by simp only [h]; rfl)

theorem exec_backgroundOperationStatus_busy (h : s.bgRuns = true) :
    exec .backgroundOperationStatus s = nextState { s with
      outbox := .fm 0 [1, (Config.freeValue 7 s.freeCtr).toNat, s.cxl.bgOp, 0] :: s.outbox, freeCtr := s.freeCtr + 1 } := by
  unfold exec
  exact State.fmCmd_runs (t := { s with freeCtr := s.freeCtr + 1 }) hOn hFw hMld (by simp only [h]; rfl)

theorem exec_getLdInfo : exec .getLdInfo s = nextState { s with outbox := .fm 0 [6291456 * 2 ^ 20, 16, 3] :: s.outbox } := by
  unfold exec
  exact State.fmCmd_runs (t := s) hOn hFw hMld rfl

theorem exec_getLdAllocations {a : Nat} (n : Nat) (h : a < 16) : exec (.getLdAllocations a n) s = nextState { s with
    outbox := .fm 0 ([16, 0, a, (s.allocsFrom a n).length] ++ s.allocsFrom a n) :: s.outbox } := by
  unfold exec
  exact State.fmCmd_runs (t := s) hOn hFw hMld (by simp only [if_neg (Nat.not_le.2 h)]; rfl)

theorem exec_getQosControl : exec .getQosControl s = nextState { s with outbox := .fm 0 s.qosControl :: s.outbox } := by
  unfold exec
  exact State.fmCmd_runs (t := s) hOn hFw hMld rfl

theorem exec_getQosStatus : exec .getQosStatus s = nextState { s with outbox := .fm 0 [s.meanOcc] :: s.outbox } := by
  unfold exec
  exact State.fmCmd_runs (t := s) hOn hFw hMld rfl

theorem exec_getQosAllocatedBw {a : Nat} (n : Nat) (h : a < 16) : exec (.getQosAllocatedBw a n) s = nextState { s with
    outbox := .fm 0 ([(s.bwFrom a n).length, a] ++ s.bwFrom a n) :: s.outbox } := by
  unfold exec
  exact State.fmCmd_runs (t := s) hOn hFw hMld (by simp only [if_neg (Nat.not_le.2 h)]; rfl)

theorem exec_getQosBwLimit {a : Nat} (n : Nat) (h : a < 16) : exec (.getQosBwLimit a n) s = nextState { s with
    outbox := .fm 0 ([(s.limitFrom a n).length, a] ++ s.limitFrom a n) :: s.outbox } := by
  unfold exec
  exact State.fmCmd_runs (t := s) hOn hFw hMld (by simp only [if_neg (Nat.not_le.2 h)]; rfl)
end

/-- The state once Set QoS Control has taken its values (Table 2-15). -/
def State.qosSet (s : State) (tl m v iv : Nat) : State :=
  State.fset (State.fset { s with cxl := { s.cxl with qosTelemetry := tl, qosInterval := iv } } Reg.ADM_DEVLOAD Fld.ADM_DEVLOAD_MOD_LO m)
    Reg.ADM_DEVLOAD Fld.ADM_DEVLOAD_SEV_LO v

section
variable {s : State} {tl m v iv : Nat}

theorem State.setQos_rising (hOpt : s.fget Reg.ADM_DEVLOAD Fld.ADM_DEVLOAD_OPT_LO < m) (hMod : m < v) (hSev : v ≤ 100) :
    s.setQos tl m v iv = (rcSuccess, s.qosSet tl m v iv) := if_pos ⟨hOpt, hMod, hSev⟩

theorem State.setQos_not_rising (h : v ≤ m) : s.setQos tl m v iv = (rcInvalidInput, s) :=
  if_neg fun hRises => absurd hRises.2.1 (Nat.not_lt.2 h)

theorem State.qosSet_fget_mod (h : m ≤ 100) : (s.qosSet tl m v iv).fget Reg.ADM_DEVLOAD Fld.ADM_DEVLOAD_MOD_LO = m :=
  (State.fget_fset_apart _ _ _ _ (by decide) (by decide) (by decide)).trans (State.fget_fset_same _ _ _ _ (by decide) (lt_of_le_of_lt h (by decide)))

theorem State.qosSet_fget_sev (h : v ≤ 100) : (s.qosSet tl m v iv).fget Reg.ADM_DEVLOAD Fld.ADM_DEVLOAD_SEV_LO = v :=
  State.fget_fset_same _ _ _ _ (by decide) (lt_of_le_of_lt h (by decide))

/-- QoS Control reports what was set. -/
theorem State.qosSet_qosControl (hMod : m < v) (hSev : v ≤ 100) : (s.qosSet tl m v iv).qosControl = [tl, m, v, iv] := by
  simp only [State.qosControl, State.qosSet_fget_mod (hMod.le.trans hSev), State.qosSet_fget_sev hSev]
  rfl

theorem State.qosControl_settle (t : State) : t.settle.qosControl = t.qosControl := by
  simp only [State.qosControl, State.settle_cxl, State.settle_fget t (by decide : quietField Reg.ADM_DEVLOAD Fld.ADM_DEVLOAD_MOD_LO = true) (by decide),
    State.settle_fget t (by decide : quietField Reg.ADM_DEVLOAD Fld.ADM_DEVLOAD_SEV_LO = true) (by decide)]

@[simp] theorem State.qosControl_outbox (t : State) (outbox : List Out) : State.qosControl { t with outbox := outbox } = t.qosControl := rfl

/-- Set QoS Control changes its register and its telemetry control and interval, and answers. -/
theorem State.qosSet_frame (outbox : List Out) :
    Frame s (State.settle { s.qosSet tl m v iv with outbox := outbox }) [.outbox, .cxl] [Reg.ADM_DEVLOAD] := by
  refine frame_settle rfl (fun p hp => ?_) fun off hOff => ?_
  · cases p with
    | regs | outbox | cxl => simp at hp
    | cmds => exact ⟨rfl, rfl⟩
    | _ => rfl
  · have hOther : off ≠ Reg.ADM_DEVLOAD := by simpa using hOff
    exact (State.reg_fset_other _ _ _ _ hOther).trans (State.reg_fset_other _ _ _ _ hOther)

theorem exec_setQosControl (hOn : s.power = .on) (hFw : s.ready rFW = true) (hMld : s.cxl.mld = true)
    (hOpt : s.fget Reg.ADM_DEVLOAD Fld.ADM_DEVLOAD_OPT_LO < m) (hMod : m < v) (hSev : v ≤ 100) : exec (.setQosControl tl m v iv) s =
      nextState { s.qosSet tl m v iv with outbox := .fm 0 [tl, m, v, iv] :: s.outbox } := by
  unfold exec
  exact State.fmCmd_runs hOn hFw hMld (by
    simp only [State.setQos_rising hOpt hMod hSev, State.qosSet_qosControl hMod hSev]
    rfl)

theorem exec_setQosControl_invalid (hOn : s.power = .on) (hFw : s.ready rFW = true) (hMld : s.cxl.mld = true) (h : v ≤ m) :
    exec (.setQosControl tl m v iv) s = nextState { s with outbox := .fm 2 [] :: s.outbox } := by
  unfold exec
  exact State.fmCmd_runs (t := s) hOn hFw hMld (by rw [State.setQos_not_rising h]; rfl)
end

section
variable {s : State} {mb : Mailbox} (hUp : s.mbUp mb = true) (hFw : s.ready rFW = true) (hSld : s.cxl.mld = false)
include hUp hFw hSld

theorem exec_getSldQosControl : exec (.getSldQosControl mb) s = nextState (s.answered mb 0 s.qosControl []) := by
  unfold exec
  exact State.mbDone_runs hUp hFw (by simp only [State.sldQos, hSld]; rfl)

theorem exec_getSldQosStatus : exec (.getSldQosStatus mb) s = nextState (s.answered mb 0 [s.meanOcc] []) := by
  unfold exec
  exact State.mbDone_runs hUp hFw (by simp only [State.sldQos, hSld]; rfl)

theorem exec_setSldQosControl {tl m v iv : Nat} (hOpt : s.fget Reg.ADM_DEVLOAD Fld.ADM_DEVLOAD_OPT_LO < m) (hMod : m < v) (hSev : v ≤ 100) :
    exec (.setSldQosControl mb tl m v iv) s = nextState ((s.qosSet tl m v iv).answered mb 0 [tl, m, v, iv] []) := by
  unfold exec
  exact State.mbDone_runs hUp hFw (by
    simp only [State.sldQos, hSld, State.setQos_rising hOpt hMod hSev, State.qosSet_qosControl hMod hSev]
    rfl)
end

/-! ### The commands of O45 together -/

section
variable {s : State} {mb : Mailbox} (hUp : s.mbUp mb = true) (hFw : s.ready rFW = true)
include hUp hFw

theorem clearEventRecords_held_leaves {n : Nat} {l : Log} {hs : List Nat} (hLog : s.logs[n]? = some l) (hHeld : ∀ h ∈ hs, ∃ e ∈ l.recs, e.handle = h) :
    ∃ t, exec (.clearEventRecords mb n false hs) s = .next t ∧ t.outbox = .mailbox mb 0 [] [] :: s.outbox ∧
      (t.logs[n]?).map Log.recs = some (l.recs.filter fun e => !(hs.contains e.handle)) ∧ (∀ m, m ≠ n → t.logs[m]? = s.logs[m]?) ∧
      Keeps s t [.outbox, .logs, .regs] := by
  have hIn : n < s.logs.length := (List.getElem?_eq_some_iff.1 hLog).1
  refine ⟨_, exec_clearEventRecords_held hUp hFw hLog hHeld, ?_, ?_, fun m hm => ?_, ?_, fun p hp => ?_⟩
  · rw [State.settle_outbox]
    rfl
  · rw [State.settle_logs]
    show ((s.logs.set n (l.without hs))[n]?).map Log.recs = _
    rw [List.getElem?_set_self hIn, Option.map_some, Log.without_recs]
  · rw [State.settle_logs]
    exact List.getElem?_set_ne hm.symm
  · exact State.settle_pending _
  · refine Part.same_settle (fun hEq => hp (by simp [hEq])) ?_
    cases p with
    | regs | outbox | logs => simp at hp
    | cmds => exact ⟨rfl, rfl⟩
    | _ => rfl

theorem setTimestamp_leaves (ns : Nat) : ∃ t, exec (.setTimestamp mb ns) s = .next t ∧ t.outbox.head? = some (.mailbox mb 0 [] []) ∧
    t.clk = s.clk.wallAt ns ∧ t.hanks = s.hanks ∧ t.tlc = s.tlc := by
  obtain ⟨hClk, hHanks, hTlc⟩ := State.hostCheck_keeps { s with clk := s.clk.wallAt ns }
  refine ⟨_, exec_setTimestamp hUp hFw ns, ?_, ?_, ?_, ?_⟩
  · rw [State.settle_outbox]
    rfl
  · exact (State.settle_clk _).trans hClk
  · exact (State.settle_hanks _).trans hHanks
  · exact (State.settle_tlc _).trans hTlc

theorem setLsa_leaves {o : Nat} {b : List Byte} (hFits : o + b.length ≤ s.lsaSize) :
    ∃ t, exec (.setLsa mb o b) s = .next t ∧ t.outbox = .mailbox mb 0 [] [] :: s.outbox ∧
      (∀ i, i < b.length → dget (fun _ => (0 : Byte)) t.cxl.lsa (s.lsaBase mb + o + i) = b.getD i 0) ∧
      (∀ a, a < s.lsaBase mb + o ∨ s.lsaBase mb + o + b.length ≤ a →
        dget (fun _ => (0 : Byte)) t.cxl.lsa a = dget (fun _ => 0) s.cxl.lsa a) ∧ Frame s t [.outbox, .cxl] [] := by
  refine ⟨_, exec_setLsa hUp hFw hFits, ?_, fun i hi => ?_, fun a ha => ?_, frame_of_cxl s _ _⟩
  · rw [State.settle_outbox]
    rfl
  · rw [State.settle_cxl]
    exact (dget_writeBytes b (s.lsaBase mb + o) 0 _).2 i hi
  · rw [State.settle_cxl]
    exact (dget_writeBytes b (s.lsaBase mb + o) 0 _).1 a ha

theorem setAlertConfiguration_leaves {v l : Nat} (e o u a b : Nat) (hNamed : v.testBit 0 = true) (hLife : l ≤ 100) :
    ∃ t, exec (.setAlertConfiguration mb v e l o u a b) s = .next t ∧ t.outbox = .mailbox mb 0 [] [] :: s.outbox ∧
      t.cxl.alerts.getD 0 0 = l ∧ t.cxl.alertOn.testBit 0 = e.testBit 0 ∧ Frame s t [.outbox, .cxl] [] := by
  obtain ⟨health, hStep⟩ := exec_setAlertConfiguration (v := v) hUp hFw e o u a b hLife
  refine ⟨_, hStep, ?_, ?_, ?_, frame_of_cxl s _ _⟩
  · rw [State.settle_outbox]
    rfl
  · rw [State.settle_cxl]
    exact if_pos hNamed
  · rw [State.settle_cxl]
    exact s.cxl.alertsOn_zero e hNamed
end

theorem setQosControl_leaves {s : State} {tl m v iv : Nat} (hOn : s.power = .on) (hFw : s.ready rFW = true) (hMld : s.cxl.mld = true)
    (hOpt : s.fget Reg.ADM_DEVLOAD Fld.ADM_DEVLOAD_OPT_LO < m) (hMod : m < v) (hSev : v ≤ 100) :
    ∃ t, exec (.setQosControl tl m v iv) s = .next t ∧ t.outbox = .fm 0 [tl, m, v, iv] :: s.outbox ∧ t.qosControl = [tl, m, v, iv] ∧
      Frame s t [.outbox, .cxl] [Reg.ADM_DEVLOAD] := by
  refine ⟨_, exec_setQosControl hOn hFw hMld hOpt hMod hSev, ?_, ?_, State.qosSet_frame _⟩
  · rw [State.settle_outbox]
  · rw [State.qosControl_settle, State.qosControl_outbox, State.qosSet_qosControl hMod hSev]

theorem setSldQosControl_leaves {s : State} {mb : Mailbox} {tl m v iv : Nat} (hUp : s.mbUp mb = true) (hFw : s.ready rFW = true) (hSld : s.cxl.mld = false)
    (hOpt : s.fget Reg.ADM_DEVLOAD Fld.ADM_DEVLOAD_OPT_LO < m) (hMod : m < v) (hSev : v ≤ 100) :
    ∃ t, exec (.setSldQosControl mb tl m v iv) s = .next t ∧ t.outbox = .mailbox mb 0 [tl, m, v, iv] [] :: s.outbox ∧
      t.qosControl = [tl, m, v, iv] ∧ Frame s t [.outbox, .cxl] [Reg.ADM_DEVLOAD] := by
  refine ⟨_, exec_setSldQosControl hUp hFw hSld hOpt hMod hSev, ?_, ?_, State.qosSet_frame _⟩
  · rw [State.settle_outbox]
    rfl
  · rw [State.qosControl_settle, State.answered, State.qosControl_outbox, State.qosSet_qosControl hMod hSev]

/-- Settles O45: each command answers what its meaning gives, and what it sets is read back. -/
theorem mailboxAndFmSets : Obligations.MailboxAndFmSets := by
  refine ⟨fun s mb hUp hFw => ⟨fun n l hs hLog => exec_clearEventRecords_all hUp hFw hs hLog, fun n l hs hLog hHeld => ?_, fun a b c d ha hb hc hd => ?_,
    fun ns => ?_, fun o b hFits => ?_, fun v e l o u a b hNamed hLife => ?_, fun v => ?_⟩, ⟨fun s mb hDown => ?_, fun s mb hUp hFw => ?_⟩,
    fun s hOn hFw hMld => ?_, fun s tl m v iv hOn hFw hMld hOpt hMod hSev => ?_, fun s tl m v iv hOn hFw hMld h => ?_, fun s mb hUp hFw hSld => ?_⟩
  · exact clearEventRecords_held_leaves hUp hFw hLog hHeld
  · exact exec_setEventInterruptPolicy hUp hFw ha hb hc hd
  · exact setTimestamp_leaves hUp hFw ns
  · exact setLsa_leaves hUp hFw hFits
  · exact setAlertConfiguration_leaves hUp hFw e o u a b hNamed hLife
  · exact exec_setShutdownState hUp hFw v
  · exact ⟨exec_getTimestamp_down hDown, exec_sanitize_down hDown⟩
  · exact ⟨exec_getTimestamp_retry hUp hFw, exec_getHealthInfo_rom hUp⟩
  · exact ⟨exec_fmIdentify hOn hFw hMld, exec_backgroundOperationStatus_idle hOn hFw hMld, exec_backgroundOperationStatus_busy hOn hFw hMld,
      exec_getLdInfo hOn hFw hMld, fun a n h => exec_getLdAllocations hOn hFw hMld n h, exec_getQosControl hOn hFw hMld, exec_getQosStatus hOn hFw hMld,
      fun a n h => exec_getQosAllocatedBw hOn hFw hMld n h, fun a n h => exec_getQosBwLimit hOn hFw hMld n h⟩
  · exact setQosControl_leaves hOn hFw hMld hOpt hMod hSev
  · exact exec_setQosControl_invalid hOn hFw hMld h
  · exact ⟨exec_getSldQosControl hUp hFw hSld, exec_getSldQosStatus hUp hFw hSld,
      fun tl m v iv hOpt hMod hSev => setSldQosControl_leaves hUp hFw hSld hOpt hMod hSev⟩

end Sys2Proof.Machine

namespace Sys2Proof.Machine

/-! ### Credit issue (O10) -/

theorem State.owedIdx_none {s : State} {rwd : Bool} (h : ∀ o ∈ s.adm.owed, o.rwd ≠ rwd) : s.owedIdx rwd = none := by
  refine List.findIdx?_eq_none_iff.2 fun o ho => ?_
  simp [h o ho]

theorem State.owed_none {s : State} {rwd : Bool} (h : ∀ o ∈ s.adm.owed, o.rwd ≠ rwd) : (s.adm.owed.any fun o => o.rwd == rwd) = false := by
  simpa using h

section
variable {s : State} {rwd : Bool} (hRuns : s.creditRuns rwd = true)
include hRuns

theorem exec_creditIssue_withheld (h : s.guardFails rwd ≠ 0) :
    exec (.creditIssue rwd) s = nextState { s with adm := { s.adm with withheld := s.adm.withheld ||| s.guardFails rwd } } := by
  unfold exec
  simp only [execCreditIssue, hRuns, Bool.not_true, Bool.false_eq_true, if_false]
  rw [if_pos h]

theorem exec_creditIssue_owed (hPass : s.guardFails rwd = 0) {i : Nat} (hIdx : s.owedIdx rwd = some i) :
    exec (.creditIssue rwd) s = nextState { s with
      outbox := .credit rwd :: s.outbox
      adm := { s.adm with
        owed := s.adm.owed.eraseIdx i, reqOut := if rwd then s.adm.reqOut else s.adm.reqOut + 1
        covers := if rwd then s.adm.covers ++ [s.poolOk] else s.adm.covers, issued := s.adm.issued + if rwd then 2 else 1 } } := by
  unfold exec
  simp only [execCreditIssue, hRuns, hPass, hIdx, Bool.not_true, Bool.false_eq_true, if_false, ne_eq, not_true_eq_false, Option.isNone_some, Bool.false_and]
  rfl

theorem exec_creditIssue_new (hPass : s.guardFails rwd = 0) (hNone : ∀ o ∈ s.adm.owed, o.rwd ≠ rwd) :
    exec (.creditIssue rwd) s = nextState { s with
      outbox := .credit rwd :: s.outbox
      adm := { s.adm with
        reqOut := if rwd then s.adm.reqOut else s.adm.reqOut + 1
        covers := if rwd then s.adm.covers ++ [s.poolOk] else s.adm.covers, issued := s.adm.issued + if rwd then 2 else 1 } } := by
  unfold exec
  simp only [execCreditIssue, hRuns, hPass, State.owedIdx_none hNone, State.owed_none hNone, Bool.not_true, Bool.false_eq_true, if_false, ne_eq,
    not_true_eq_false, Bool.and_false]
  rfl
end

/-- Settles O10: a guard that fails withholds the credit; else the first credit owed for an LD that is not held goes back, or a new one goes out. -/
theorem creditIssueGivesCredit : Obligations.CreditIssueGivesCredit :=
  ⟨fun _ _ _ hRuns hPass hIdx => exec_creditIssue_owed hRuns hPass hIdx, fun _ _ hRuns hPass hNone => exec_creditIssue_new hRuns hPass hNone,
    fun _ _ hRuns hFails => exec_creditIssue_withheld hRuns hFails⟩

/-! ### The balances of a row (O11) -/

theorem exec_rowBoundary {s : State} (hTick : s.clk.now % 40 = 0) (hNew : s.adm.rowAt ≠ s.clk.now + 1) (hOn : s.power = .on ∨ s.power = .bindoff) :
    exec .rowBoundary s = nextState s.rowBoundary := by
  unfold exec
  exact congrArg nextState (if_pos ⟨hTick, hNew, hOn⟩)

/-- A module that is on, at a row boundary, with the swatch pages of two dies still to be programmed. -/
def swatchesWait : State :=
  { State.reset with power := .on, med := { State.reset.med with swatchDue := [(0, 0), (0, 1)] } }

/-- Each swatch program charges 8 tokens to the refresh class in the row that has just begun, after its balance was cut to its bounds. -/
theorem swatchesWait_bal : swatchesWait.rowBoundary.adm.bal.getD 18 0 = -200 := by decide +kernel

/-- Refutes O11: the swatch programs that wait are queued in the step of the boundary, after the balances have been cut to their bounds, and charge their
tokens to the refresh class: its balance goes to -200, below twice its allotment of 56. The state is `swatchesWait`. -/
theorem not_rowBoundaryStartsARow : ¬ Obligations.RowBoundaryStartsARow := by
  rintro ⟨hRow, -⟩
  have hTick : swatchesWait.clk.now % 40 = 0 := by decide
  have hNew : swatchesWait.adm.rowAt ≠ swatchesWait.clk.now + 1 := by decide
  obtain ⟨t, hExec, -, -, -, -, -, -, hScale, -, -, hBal, -⟩ := hRow swatchesWait hTick hNew (.inl rfl)
  have hState : t = swatchesWait.rowBoundary.settle := nextState_next _ ((exec_rowBoundary hTick hNew (.inl rfl)).symm.trans hExec)
  have hLow := (hBal 18 (by decide)).1
  rw [hScale, hState, State.settle_adm, swatchesWait_bal] at hLow
  exact absurd hLow (by decide +kernel)
end Sys2Proof.Machine

namespace Sys2Proof.Machine

/-! ### A write-back beside an entry whose page reads have all been issued (O18) -/

/-- A dirty line of the image in the pool, due for its write-back. -/
def dirtyImageLine : PoolLine :=
  { data := 0, key := 0, poison := false, kind := .image, accept := 0, due := 0, master := 0, slot := 0, bucket := none, op := none, again := false }

/-- A merge buffer entry of another stripe, still OPENED, that waits for no read of its pages any longer. -/
def openedEntry : MbEntry :=
  { state := .opened, phn := 1, s := 0, d := 0, lines := [], due := 0, rank := 1, ld := 0, held := false, op := none, need := 0, stuck := false }

/-- A module that is on, with hank 0 MAPPED at physical hank 5, line 0 dirty in the pool and that entry in the merge buffer. -/
def openedBesideDirty : State :=
  { State.reset with
    power := .on
    hanks := { State.reset.hanks with
      host := [(0, MapEntry.sealChk { phn := 5, key := 0, state := 1, isSealed := false, ply := 0, hint := false, heat := 0, chk := 0 } 0)] }
    tlc := { Tlc.init with pool := [(0, dirtyImageLine)], mb := [(0, openedEntry)] } }

theorem exec_writeBack_only {s : State} {line : Nat} {p : PoolLine} (hPool : s.tlc.pool = [(line, p)]) (hFirst : poolBefore p p = false) :
    exec (.writeBack line) s = nextState (s.writeBack line) := by
  unfold exec
  simp [execWriteBack, State.poolGet, tget, hPool, hFirst]

/-- The write-back's own reads start the senses that may start, and with them the entry goes on to READ (R187). -/
theorem openedBesideDirty_mb : (openedBesideDirty.writeBack 0).tlc.mb = [(0, { openedEntry with state := .read })] := by decide +kernel

/-- Refutes O18: the write-back of line 0 issues reads of old lines, and where reads are issued an entry whose page reads have all been issued goes from
OPENED to READ (R187), while the first clause keeps the merge buffer. The state is `openedBesideDirty`. -/
theorem not_writeBacksGoOutAndEnd : ¬ Obligations.WriteBacksGoOutAndEnd := by
  rintro ⟨hBack, -, -⟩
  have hMay : openedBesideDirty.wbMay 0 dirtyImageLine = true := by decide +kernel
  have hFirst : ∀ q ∈ openedBesideDirty.tlc.pool, poolBefore q.2 dirtyImageLine = true → openedBesideDirty.wbMay q.1 q.2 = false := by decide +kernel
  have hLive : openedBesideDirty.isDead (openedBesideDirty.hostEntry (lhnOf 0)).phn (stripeOf 0) = false := by decide +kernel
  obtain ⟨t, hExec, -, -, hMb, -⟩ := hBack openedBesideDirty 0 dirtyImageLine rfl hMay rfl hFirst hLive
  have hState : t = (openedBesideDirty.writeBack 0).settle :=
    nextState_next _ ((exec_writeBack_only rfl (by decide)).symm.trans hExec)
  rw [hState, State.settle_tlc, openedBesideDirty_mb] at hMb
  exact absurd hMb (by decide)

/-! ### Writes of a reservation register in one tick (O43, O51) -/

/-- A module that is on with its firmware running, where a write of zero to the reservation of LD 0 by a path stands in this tick. -/
def zeroedByPath (path : Nat) : State :=
  { State.reset.setReg Reg.RDY_STATUS (BitVec.ofNat 64 (2 ^ rFW)) with
    power := .on
    cxl := { Cxl.init with mld := true }
    adm := { Adm.init with resvLog := [{ path := path, party := 0, mask := BitVec.allOnes 64, val := 0, prev := 0 }] } }

/-- Set QoS Allocated BW of one LD writes the SHARE of its reservation (R70). -/
theorem exec_setQosAllocatedBw_one {s : State} {n f : Nat} (hOn : s.power = .on) (hFw : s.ready rFW = true) (hMld : s.cxl.mld = true) (hLd : n < 16)
    (hFraction : f < 256) (hDone : (s.setResvs Fld.ADM_RESV_SHARE n [f * s.ldShare / 256]).1 = true) :
    exec (.setQosAllocatedBw n [f]) s = nextState ((s.setResvs Fld.ADM_RESV_SHARE n [f * s.ldShare / 256]).2.out
      (.fm rcSuccess ([1, n] ++ (s.setResvs Fld.ADM_RESV_SHARE n [f * s.ldShare / 256]).2.bwFrom n 1))) := by
  have hRange : ¬(16 < n + [f].length ∨ [f].any (fun f => decide (255 < f)) = true) := by
    simp
    omega
  unfold exec
  simp only [execSetQosAllocatedBw, State.fmCmd, hOn, hFw, hMld, ne_eq, not_true_eq_false, Bool.true_eq_false, or_self, if_false, if_neg hRange,
    List.map_cons, List.map_nil, hDone, if_true]
  rfl

/-- Refutes O43: of the writes of one tick to a reservation register the one of the later path stands (R81), and the first clause does not ask that none of
a path after the FM API's is noted, which the clauses of ADM_RESV_WRITE ask of theirs: the path numbers of `ResvWrite` are not bounded. With a write of zero under
path 3 noted, Set QoS Allocated BW leaves SHARE 0 where the clause says 11. The state is `zeroedByPath 3`. -/
theorem not_allocationsAreSet : ¬ Obligations.AllocationsAreSet := by
  rintro ⟨⟨hShare, -⟩, -⟩
  have hOn : (zeroedByPath 3).power = .on := rfl
  have hFw : (zeroedByPath 3).ready rFW = true := by decide +kernel
  obtain ⟨t, hExec, hField, -⟩ := hShare (zeroedByPath 3) 0 1 hOn hFw rfl (by decide) (by decide) (by decide +kernel)
  rw [nextState_next _ ((exec_setQosAllocatedBw_one hOn hFw rfl (by decide) (by decide) (by decide +kernel)).symm.trans hExec),
    State.settle_fget _ (by decide) (by decide)] at hField
  exact absurd hField (by decide +kernel)

/-- SET_RESERVATION of SHARE 5 for LD 0, come over MCTP. -/
def shareOfFive : Cmd :=
  { carrier := .mctp
    pkt :=
      { opcode := 0x0701, flags := 1, tag := 0, ld := 0, keyidx := 0, timeout := 0, arg0 := 0, arg1 := 5, arg2 := 0, arg3 := 0, bufptr := 0, buflen := 0
        check := 0 }
    sgl := [], accept := 0, expiry := none, input := [], running := false, started := false, stopping := false, work := [], done := 0, bad := 0, extra := 0
    status := 0, lines := [], output := [], endWith := none, host := .ok }

/-- The command waits in a tick in which software has written zero to the register. -/
def shareBeforeRegisterWrite : State := { zeroedByPath 1 with cmds := [(0, shareOfFive)] }

/-- SET_RESERVATION of a SHARE alone ends with what the write of the register answers (R68). -/
theorem exec_setReservation_share {s : State} {id : Nat} {c : Cmd} (hReady : s.CmdReady id 0x0701 c) (hParty : c.pkt.arg0 ≤ 23)
    (hFlags : c.pkt.flags = 1) (hShare : c.pkt.arg1 ≤ 4096) :
    ∃ st r0, exec (.setReservation id) s = nextState (((s.begun id c).writeResv 0 c.pkt.arg0 (resvMask c.pkt) ((s.begun id c).resvWord c.pkt)).2.finish
      id st r0 0 []) := by
  unfold exec
  simp only [execSetReservation]
  rw [State.answer_ready s _ hReady]
  simp only [if_neg (Nat.not_lt.2 hParty), hFlags, Nat.not_lt.2 hShare, and_false, if_false, Nat.testBit_one_eq_true_iff_self_eq_zero,
    one_ne_zero, false_and]
  split
  · exact ⟨_, _, rfl⟩
  · exact ⟨_, _, rfl⟩

/-- A command come over MCTP ends without a word in a register. -/
theorem State.finish_mctp_regs {s : State} {id : Nat} {c : Cmd} (hCmd : tget s.cmds id = some c) (hCarrier : c.carrier = .mctp) (st r0 r1 : Nat)
    (bytes : List Byte) : (s.finish id st r0 r1 bytes).regs = s.regs := by
  unfold State.finish State.unwrite
  simp only [hCmd, hCarrier]
  split
  · split
    · rfl
    · rfl
  · rfl

/-- Refutes O51: of the writes of one tick to a reservation register that of a ring command goes before that of the register path, which stands (R81), while
the clause of SET_RESERVATION says that its own SHARE stands. Software has written zero in the tick in which the command asks for SHARE 5, and SHARE is 0
after it. The state is `shareBeforeRegisterWrite`. -/
theorem not_reserveAndKeyCommands : ¬ Obligations.ReserveAndKeyCommands := by
  rintro ⟨⟨-, -, -, hReserve⟩, -⟩
  have hReady : shareBeforeRegisterWrite.CmdReady 0 0x0701 shareOfFive := ⟨rfl, rfl, by decide +kernel⟩
  obtain ⟨t, hExec, hField, -⟩ := hReserve shareBeforeRegisterWrite 0 shareOfFive hReady (by decide) (by decide) (by decide) (by decide +kernel)
  obtain ⟨st, r0, hStep⟩ := exec_setReservation_share hReady (by decide) rfl (by decide)
  rw [nextState_next _ (hStep.symm.trans hExec), State.settle_fget _ (by decide) (by decide),
    State.fget_congr _ _ (State.finish_mctp_regs (c := { shareOfFive with running := true }) (by decide +kernel) rfl st r0 0 [])] at hField
  exact absurd hField (by decide +kernel)
end Sys2Proof.Machine

namespace Sys2Proof.Machine

/-! ### Which parties are held (O12)

Of all that a row boundary does, only the boundary itself writes `held`: what it starts afterwards, walks, stitches and lines that wait, keeps it. Each
operation has one lemma, in the order of the model: `_adm` where it leaves the admission state whole, `_held` where it charges tokens or changes
operations, faults or the request list beside. -/

theorem foldl_keeps {α β γ : Type} (g : α → γ) {f : α → β → α} (h : ∀ a x, g (f a x) = g a) (l : List β) (a : α) : g (l.foldl f a) = g a := by
  induction l generalizing a with
  | nil => rfl
  | cons x l ih => exact (ih _).trans (h a x)

theorem State.foldl_adm {β : Type} {f : State → β → State} (h : ∀ s x, (f s x).adm = s.adm) (l : List β) (s : State) :
    (l.foldl f s).adm = s.adm := foldl_keeps State.adm h l s

theorem State.foldl_held {β : Type} {f : State → β → State} (h : ∀ s x, (f s x).adm.held = s.adm.held) (l : List β) (s : State) :
    (l.foldl f s).adm.held = s.adm.held := foldl_keeps (fun s : State => s.adm.held) h l s

@[simp] theorem State.ite_adm (c : Prop) [Decidable c] (s t : State) : (if c then s else t).adm = if c then s.adm else t.adm := apply_ite _ _ _ _

@[simp] theorem Adm.ite_held (c : Prop) [Decidable c] (a b : Adm) : (if c then a else b).held = if c then a.held else b.held := apply_ite _ _ _ _

/-! #### Operations and their charges -/

@[simp] theorem State.raise_adm (s : State) (off : Nat) (f : Field) : (s.raise off f).adm = s.adm := rfl
@[simp] theorem State.addCnt_adm (s : State) (off : Nat) : (s.addCnt off).adm = s.adm := rfl

@[simp] theorem State.ingest_adm (s : State) (log : Nat) (e : Event) : (s.ingest log e).adm = s.adm := by
  unfold State.ingest
  dsimp only
  (repeat' split) <;> simp

@[simp] theorem State.record_adm (s : State) (log : Nat) (e : Event) : (s.record log e).adm = s.adm := by
  unfold State.record
  split <;> simp

@[simp] theorem State.charge_held (s : State) (party n : Nat) : (s.charge party n).adm.held = s.adm.held := rfl
@[simp] theorem State.openFault_held (s : State) (f : Nat) : (s.openFault f).adm.held = s.adm.held := by simp [State.openFault]
@[simp] theorem State.closeFault_held (s : State) (f : Nat) : (s.closeFault f).adm.held = s.adm.held := by simp [State.closeFault]
@[simp] theorem State.medPut_adm (s : State) (phn st d j : Nat) (v : Stored) : (s.medPut phn st d j v).adm = s.adm := rfl
@[simp] theorem State.addOp_held (s : State) (o : Op) : (s.addOp o).2.adm.held = s.adm.held := rfl
@[simp] theorem State.freeOp_held (s : State) (id : Nat) : (s.freeOp id).adm.held = s.adm.held := rfl
@[simp] theorem State.setRead_held (s : State) (id : Nat) (o : Op) (r : ReadOp) : (s.setRead id o r).adm.held = s.adm.held := rfl
@[simp] theorem State.setStripe_held (s : State) (id : Nat) (o : Op) (r : StripeOp) : (s.setStripe id o r).adm.held = s.adm.held := rfl

/-! #### Working memory words -/

@[simp] theorem State.disarm_adm (s : State) : s.disarm.adm = s.adm := by simp [State.disarm]

@[simp] theorem State.lineWrite_adm (s : State) (wma : Option Nat) : (s.lineWrite wma).adm = s.adm := by
  unfold State.lineWrite
  split <;> simp

@[simp] theorem State.logStat_adm (s : State) : s.logStat.adm = s.adm := rfl

@[simp] theorem State.ceLog_adm (s : State) (dev wma bit : Nat) (ue hard : Bool) : (s.ceLog dev wma bit ue hard).adm = s.adm := by
  unfold State.ceLog
  extract_lets
  split
  · simp
  · split
    · rfl
    · rw [State.logStat_adm, State.raise_adm, State.setReg_adm]

@[simp] theorem State.devFail_held (s : State) (d : Nat) : (s.devFail d).adm.held = s.adm.held := by
  unfold State.devFail
  dsimp only
  (repeat' split) <;> simp

@[simp] theorem State.remap_held (s : State) (dev wma : Nat) : (s.remap dev wma).adm.held = s.adm.held := by
  unfold State.remap
  dsimp only
  split
  · rfl
  · split
    · split
      · simp
      · exact congrArg Adm.held (State.setReg_adm ..)
    · simp

@[simp] theorem State.noteUe_held (s : State) (dev wma : Nat) : (s.noteUe dev wma).adm.held = s.adm.held := by simp [State.noteUe]

@[simp] theorem State.wordFix_held (s : State) (wma : Nat) (e : WordErr) : (s.wordFix wma e).adm.held = s.adm.held := by
  unfold State.wordFix
  (repeat' split) <;> simp

@[simp] theorem State.checkWords_held (s : State) (w : Nat) (errs : List WordErr) : (s.checkWords w errs).2.adm.held = s.adm.held := by
  unfold State.checkWords
  dsimp only
  split
  · rfl
  · split
    · simp
    · exact (State.foldl_held (fun s e => s.wordFix_held w e) _ _).trans (by simp)

@[simp] theorem State.badEntry_adm (s : State) (sys : Bool) (idx : Nat) : (s.badEntry sys idx).adm = s.adm := by simp [State.badEntry]

@[simp] theorem State.spoilEntries_adm (s : State) (sys : Bool) (first : Nat) : (s.spoilEntries sys first).adm = s.adm := by
  unfold State.spoilEntries
  exact State.foldl_adm (fun s x => by (repeat' split) <;> simp) _ _

@[simp] theorem State.drainLine_held (s : State) (w : Nat) : (s.drainLine w).adm.held = s.adm.held := by
  unfold State.drainLine
  (repeat' split) <;> simp

@[simp] theorem State.narrowWrite_held (s : State) (wma k : Nat) (v : W64) : (s.narrowWrite wma k v).adm.held = s.adm.held := by
  unfold State.narrowWrite
  (repeat' split) <;> simp

@[simp] theorem State.setEntry_held (s : State) (sys : Bool) (idx : Nat) (e : MapEntry) :
    (s.setEntry sys idx e).adm.held = s.adm.held := by simp [State.setEntry]

/-! #### Directory, nodes and caches -/

@[simp] theorem State.setNode_adm (s : State) (lvl idx : Nat) (b : CBlock) : (s.setNode lvl idx b).adm = s.adm := rfl
@[simp] theorem State.putCached_adm (s : State) (lvl idx : Nat) (c : CacheNode) : (s.putCached lvl idx c).adm = s.adm := rfl
@[simp] theorem State.ccStat_adm (s : State) : s.ccStat.adm = s.adm := rfl
@[simp] theorem State.countLookup_adm (s : State) (miss : List (Nat × Nat)) (master : Nat) :
    (s.countLookup miss master).adm = s.adm := by simp [State.countLookup]
@[simp] theorem State.noteMaj_adm (s : State) (maj : Nat) : (s.noteMaj maj).adm = s.adm := by simp [State.noteMaj]

@[simp] theorem State.dirtyNode_adm (s : State) (lvl idx due : Nat) (b : CBlock) : (s.dirtyNode lvl idx due b).adm = s.adm := by
  unfold State.dirtyNode
  split <;> simp

@[simp] theorem State.raiseLeaf_adm (s : State) (line due : Nat) : (s.raiseLeaf line due).2.adm = s.adm := by
  unfold State.raiseLeaf
  dsimp only
  split <;> simp

@[simp] theorem State.zeroPatch_adm (s : State) (p due : Nat) : (s.zeroPatch p due).adm = s.adm := by simp [State.zeroPatch]

@[simp] theorem State.raisePinned_adm (fuel : Nat) (s : State) (lvl idx : Nat) : (State.raisePinned fuel s lvl idx).adm = s.adm := by
  induction fuel generalizing s lvl idx with
  | zero => rfl
  | succ fuel ih =>
    unfold State.raisePinned
    split
    · rfl
    · dsimp only
      rw [ih]
      simp

@[simp] theorem State.raiseParent_adm (s : State) (lvl idx due : Nat) : (s.raiseParent lvl idx due).adm = s.adm := by
  unfold State.raiseParent
  split
  · simp
  · simp

@[simp] theorem State.areaLost_adm (s : State) (a b : Nat) : (s.areaLost a b).adm = s.adm := by
  unfold State.areaLost
  exact State.foldl_adm (fun s k => State.foldl_adm (fun s n => by simp) _ _) _ _

@[simp] theorem State.recreate_adm (s : State) (lvl idx due : Nat) : (s.recreate lvl idx due).adm = s.adm := by simp [State.recreate]

/-! #### The pool and merge buffers -/

@[simp] theorem State.setCache_adm (s : State) (c : Tbl CacheLine) : (s.setCache c).adm = s.adm := rfl
@[simp] theorem State.cachePut_adm (s : State) (k : Nat) (c : CacheLine) : (s.cachePut k c).adm = s.adm := by simp [State.cachePut]

@[simp] theorem State.cacheUpdate_adm (s : State) (line : Nat) (d : Line) (poison : Bool) : (s.cacheUpdate line d poison).adm = s.adm := by
  unfold State.cacheUpdate
  split <;> simp

@[simp] theorem State.noteWrote_adm (s : State) (line : Nat) : (s.noteWrote line).adm = s.adm := rfl
@[simp] theorem State.cacheDrop_adm (s : State) (p : Nat → Bool) : (s.cacheDrop p).adm = s.adm := rfl
@[simp] theorem State.poolSet_adm (s : State) (line : Nat) (p : PoolLine) : (s.poolSet line p).adm = s.adm := by simp [State.poolSet]

theorem State.poolInsert_adm {s t : State} {line : Nat} {p : PoolLine} {must : Bool} (h : s.poolInsert line p must = some t) : t.adm = s.adm := by
  unfold State.poolInsert at h
  dsimp only at h
  (repeat' split at h) <;> simp at h <;> subst h <;> simp

@[simp] theorem State.poolOverwrite_adm (s : State) (line : Nat) (p : PoolLine) (data : Line) (key : Nat) (poison : Bool) (accept master : Nat) :
    (s.poolOverwrite line p data key poison accept master).adm = s.adm := by simp [State.poolOverwrite]
@[simp] theorem State.setMb_adm (s : State) (mb : Tbl MbEntry) : (s.setMb mb).adm = s.adm := rfl

@[simp] theorem State.histCount_adm (s : State) (bound ld t : Nat) : (s.histCount bound ld t).adm = s.adm := by
  unfold State.histCount
  (repeat' split) <;> simp

@[simp] theorem State.lateCount_adm (s : State) (kind ld dl : Nat) : (s.lateCount kind ld dl).adm = s.adm := by simp [State.lateCount]

@[simp] theorem State.complete_held (s : State) (seq : Nat) (d : Option Line) (poison : Bool) : (s.complete seq d poison).adm.held = s.adm.held := by
  unfold State.complete
  (repeat' split) <;> simp

@[simp] theorem State.setPath_held (s : State) (seq path : Nat) : (s.setPath seq path).adm.held = s.adm.held := rfl
@[simp] theorem State.setRouted_held (s : State) (seq : Nat) : (s.setRouted seq).adm.held = s.adm.held := rfl

@[simp] theorem State.dropEvent_adm (s : State) (cls dpa ld : Nat) (args : List Nat) (same : Event → Bool) :
    (s.dropEvent cls dpa ld args same).adm = s.adm := by
  unfold State.dropEvent
  (repeat' split) <;> simp

@[simp] theorem State.unpoison_adm (s : State) (ld dpa : Nat) : (s.unpoison ld dpa).adm = s.adm := rfl

@[simp] theorem State.notePoison_adm (s : State) (ld dpa : Nat) (inj : Bool) : (s.notePoison ld dpa inj).adm = s.adm := by
  unfold State.notePoison
  dsimp only
  (repeat' split) <;> simp

@[simp] theorem State.mediaEvent_adm (s : State) (line ch die part by' : Nat) :
    (s.mediaEvent line ch die part by').adm = s.adm := by simp [State.mediaEvent]

/-! #### What is lost, and poison -/

@[simp] theorem State.setRegion_adm (s : State) (k r st : Nat) : (s.setRegion k r st).adm = s.adm := rfl
@[simp] theorem State.setSpill_adm (s : State) (k : Nat) (q : List SpillLine) : (s.setSpill k q).adm = s.adm := by simp [State.setSpill]

@[simp] theorem State.dropOps_held (s : State) (ids : List Nat) : (s.dropOps ids).adm.held = s.adm.held := by
  unfold State.dropOps
  exact (State.foldl_held (fun s i => s.freeOp_held i) _ _).trans (State.foldl_held (fun s i => s.closeFault_held _) _ _)

@[simp] theorem State.regather_held (s : State) : s.regather.adm.held = s.adm.held := by
  unfold State.regather
  refine (State.foldl_held (fun s x => ?_) _ _).trans (s.dropOps_held _)
  dsimp only
  split <;> rfl

@[simp] theorem State.spoilNode_adm (s : State) (n : Nat) : (s.spoilNode n).adm = s.adm := by
  unfold State.spoilNode
  (repeat' split) <;> simp

@[simp] theorem State.spoilSpill_adm (s : State) (k n : Nat) : (s.spoilSpill k n).adm = s.adm := by
  unfold State.spoilSpill
  (repeat' split) <;> simp

@[simp] theorem State.spoilPool_adm (s : State) (n : Nat) : (s.spoilPool n).1.adm = s.adm := by
  unfold State.spoilPool
  split <;> simp

@[simp] theorem State.spoilBuffers_held (s : State) (n : Nat) : (s.spoilBuffers n).1.adm.held = s.adm.held := by
  unfold State.spoilBuffers
  (repeat' split) <;> simp

@[simp] theorem State.lineGone_held (s : State) (w : Nat) : (s.lineGone w).adm.held = s.adm.held := by
  unfold State.lineGone
  dsimp only
  (repeat' split) <;> simp

@[simp] theorem State.checkLine_held (s : State) (w : Nat) (errs : List WordErr) :
    (s.checkLine w errs).adm.held = s.adm.held := by simp [State.checkLine]
@[simp] theorem State.wmRead_held (s : State) (w : Nat) : (s.wmRead w).adm.held = s.adm.held := by simp [State.wmRead]

@[simp] theorem State.nodesRead_held (s : State) (p : Nat) : (s.nodesRead p).adm.held = s.adm.held := by
  unfold State.nodesRead
  exact State.foldl_held (fun s x => by (repeat' split) <;> simp) _ _

/-! #### Senses and stripe rebuilds -/

@[simp] theorem State.mbIssued_adm (s : State) : s.mbIssued.adm = s.adm := by simp [State.mbIssued]

@[simp] theorem State.senseStart_held (s : State) : s.senseStart.adm.held = s.adm.held := by
  unfold State.senseStart
  rw [State.mbIssued_adm]
  refine State.foldl_held (fun s e => ?_) _ _
  (repeat' split) <;> simp

@[simp] theorem State.partDone_held (s : State) (parent d : Nat) (v : Option Stored) : (s.partDone parent d v).adm.held = s.adm.held := by
  unfold State.partDone
  (repeat' split) <;> simp

@[simp] theorem State.rebuildStart_held (s : State) (id : Nat) : (s.rebuildStart id).adm.held = s.adm.held := by
  unfold State.rebuildStart
  split
  · rfl
  · split
    · simp
    · refine (State.foldl_held (fun s d => ?_) _ _).trans (s.setRead_held _ _ _)
      (repeat' split) <;> simp

@[simp] theorem State.rebuildPump_held (s : State) : s.rebuildPump.adm.held = s.adm.held := by
  unfold State.rebuildPump
  exact State.foldl_held (fun s x => by simp) _ _

@[simp] theorem State.issueRead_held (s : State) (line key phn st d j : Nat) (needCtr : Bool) (purpose : Purpose)
    (deadline rank ld cls master : Nat) :
    (s.issueRead line key phn st d j needCtr purpose deadline rank ld cls master).2.adm.held = s.adm.held := by simp [State.issueRead]

/-! #### Placing and routing lines -/

@[simp] theorem State.zeroFirst_adm (s : State) (line : Nat) : (s.zeroFirst line).adm = s.adm := by simp [State.zeroFirst]

@[simp] theorem State.spillPut_adm (s : State) (k : Nat) (l : SpillLine) : (s.spillPut k l).adm = s.adm := by
  unfold State.spillPut
  extract_lets
  split
  · rw [State.lineWrite_adm, State.setSpill_adm]
  · rw [State.fadd_adm, State.setSpill_adm, State.foldl_adm fun s r => by simp]

@[simp] theorem State.pageReads_held (s : State) (n line phn st d due rank ld : Nat) (counted : Bool) :
    (s.pageReads n line phn st d due rank ld counted).adm.held = s.adm.held := by
  unfold State.pageReads
  rw [State.foldl_held (fun s x => s.issueRead_held ..), State.charge_held]

theorem State.mbPlace_held {s t : State} {p : Put} {e : MapEntry} {held : Bool} (h : s.mbPlace p e held = some t) : t.adm.held = s.adm.held := by
  unfold State.mbPlace at h
  dsimp only at h
  (repeat' split at h) <;> simp at h <;> subst h <;> simp

@[simp] theorem State.placed_adm (s : State) (p : Put) : (s.placed p).adm = s.adm := by simp [State.placed]

@[simp] theorem State.placeThrough_held (s : State) (p : Put) (e : MapEntry) (held : Bool) : (s.placeThrough p e held).2.adm.held = s.adm.held := by
  unfold State.placeThrough
  split
  · rename_i hPlace
    simp [State.mbPlace_held hPlace]
  · rfl

@[simp] theorem State.placeLine_held (s : State) (p : Put) : (s.placeLine p).2.adm.held = s.adm.held := by
  unfold State.placeLine
  extract_lets e
  split
  · simp
  · split
    · split
      · rename_i hPut
        simp [State.poolInsert_adm hPut]
      · rfl
    · split
      · simp
      · split
        · split
          · rename_i hPut
            simp [State.poolInsert_adm hPut]
          · simp
        · split <;> simp

@[simp] theorem State.hitRead_held (s : State) (line : Nat) : (s.hitRead line).adm.held = s.adm.held := by
  unfold State.hitRead
  (repeat' split) <;> simp

@[simp] theorem State.countHit_adm (s : State) (line master : Nat) : (s.countHit line master).adm = s.adm := by simp [State.countHit]

@[simp] theorem State.missRead_held (s : State) (line : Nat) (w : Waiter) (writes : Bool) (deadline rank ld cls master : Nat) :
    (s.missRead line w writes deadline rank ld cls master).adm.held = s.adm.held := by
  unfold State.missRead
  (repeat' split) <;> simp

@[simp] theorem State.sealedWrite_adm (s : State) (ld dpa lhn : Nat) : (s.sealedWrite ld dpa lhn).adm = s.adm := by simp [State.sealedWrite]
@[simp] theorem State.copiesBad_adm (s : State) (line : Nat) : (s.copiesBad line).adm = s.adm := rfl
@[simp] theorem State.deadWrite_adm (s : State) (ld dpa line : Nat) : (s.deadWrite ld dpa line).adm = s.adm := by simp [State.deadWrite]

@[simp] theorem State.notApplied_adm (s : State) (f : WriteFate) (ld dpa line : Nat) : (s.notApplied f ld dpa line).adm = s.adm := by
  unfold State.notApplied
  split <;> simp

@[simp] theorem State.mirrorPut_adm (s : State) (k : Nat) (m : MirrorLine) : (s.mirrorPut k m).adm = s.adm := by simp [State.mirrorPut]
@[simp] theorem State.mirrorFill_adm (s : State) (k : Nat) : (s.mirrorFill k).adm = s.adm := by simp [State.mirrorFill]
@[simp] theorem State.holdLine_held (s : State) (seq : Nat) (data : Line) : (s.holdLine seq data).adm.held = s.adm.held := rfl
@[simp] theorem State.takePolicy_held (s : State) (seq : Nat) (e : DlEntry) : (s.takePolicy seq e).adm.held = s.adm.held := rfl

@[simp] theorem State.routeFull_held (s : State) (seq : Nat) (e : DlEntry) (data : Line) : (s.routeFull seq e data).adm.held = s.adm.held := by
  have placed : ∀ {t : State} {p : Put} {k : Placed}, ((s.zeroFirst e.line).unpoison e.ld e.dpa).placeLine p = (k, t) →
      t.adm.held = s.adm.held := fun h => by
    simpa using congrArg (·.2.adm.held) h.symm
  unfold State.routeFull
  extract_lets s0 lhn spill
  split
  · split
    · rename_i hPlace
      simp [placed hPlace]
    · rename_i hPlace
      simp [placed hPlace]
  · have spilt (t : State) : (spill t).adm = t.adm := by
      simp only [spill]
      split <;> simp
    split <;> rename_i hPlace <;> simp [placed hPlace, spilt]

@[simp] theorem State.salvage_adm (s : State) (e : DlEntry) (cause : Nat) : (s.salvage e cause).adm = s.adm := by
  unfold State.salvage
  split <;> simp

theorem State.routeHeld_held (s : State) (seq : Nat) (e : DlEntry) {f : State → State} (h : (f s).adm.held = s.adm.held) :
    (s.routeHeld seq e f).adm.held = s.adm.held := by
  unfold State.routeHeld
  split
  · exact h
  · simp

@[simp] theorem State.mergeAndRoute_held (s : State) (seq : Nat) (e : DlEntry) (old : Line) (poison : Bool) (cause : Nat) :
    (s.mergeAndRoute seq e old poison cause).adm.held = s.adm.held := by
  unfold State.mergeAndRoute
  exact State.routeHeld_held _ _ _ (by simp)

@[simp] theorem State.holdReq_held (s : State) (seq : Nat) : (s.holdReq seq).adm.held = s.adm.held := rfl

@[simp] theorem State.missReq_held (s : State) (seq : Nat) : (s.missReq seq).adm.held = s.adm.held := by
  unfold State.missReq
  split <;> simp

@[simp] theorem State.partPath_held (s : State) (seq : Nat) (e : DlEntry) : (s.partPath seq e).adm.held = s.adm.held := by simp [State.partPath]

@[simp] theorem State.routeReq_held (s : State) (seq : Nat) : (s.routeReq seq).adm.held = s.adm.held := by
  unfold State.routeReq
  dsimp only
  (repeat' split) <;> simp

/-! #### Stripe operations -/

@[simp] theorem State.countProg_adm (s : State) (ev : Nat) (p : Program) : (s.countProg ev p).adm = s.adm := by simp [State.countProg]
@[simp] theorem State.setRmw_adm (s : State) (phn st : Nat) : (s.setRmw phn st).adm = s.adm := rfl
@[simp] theorem State.dropRmw_adm (s : State) (phn st : Nat) : (s.dropRmw phn st).adm = s.adm := rfl
@[simp] theorem State.addProg_adm (s : State) (phn st d : Nat) (lines : Tbl Stored) (moves : Nat) (op : Option Nat) (deadline : Nat) :
    (s.addProg phn st d lines moves op deadline).2.adm = s.adm := rfl
@[simp] theorem State.addOther_adm (s : State) (kind : PgmKind) (ch die part phn st d : Nat) (lines : Tbl Stored) (op : Option Nat) (deadline : Nat) :
    (s.addOther kind ch die part phn st d lines op deadline).2.adm = s.adm := rfl
@[simp] theorem State.addCopy_adm (s : State) (src dst st d : Nat) (lines : Tbl Stored) (op deadline : Nat) :
    (s.addCopy src dst st d lines op deadline).2.adm = s.adm := rfl

@[simp] theorem State.writePage_adm (s : State) (phn st d : Nat) (lines : Tbl Stored) : (s.writePage phn st d lines).adm = s.adm := by
  unfold State.writePage
  exact State.foldl_adm (fun s x => by simp) _ _

@[simp] theorem State.stagePage_adm (s : State) (phn st d : Nat) (img : Tbl Stored) : (s.stagePage phn st d img).adm = s.adm := rfl

@[simp] theorem State.raiseAll_adm (l : List SLine) (s : State) (due : Nat) : (State.raiseAll l s due).2.adm = s.adm := by
  induction l generalizing s with
  | nil => rfl
  | cons x l ih =>
    unfold State.raiseAll
    dsimp only
    rw [ih]
    simp

@[simp] theorem State.progPages_held (s : State) (id phn st wep : Nat) (new : Tbl Stored) (moves : Nat → Nat) (stage : Nat → Bool) (due : Nat) :
    (s.progPages id phn st wep new moves stage due).2.adm.held = s.adm.held := by
  unfold State.progPages
  refine foldl_keeps (fun a : List Nat × State => a.2.adm.held) (fun a d => ?_) _ _
  dsimp only
  by_cases h : a.2.degradedPos (chanOf phn st d) (phnAdie phn)
  · simp only [h, if_true]
    split <;> simp
  · simp only [h]
    split <;> simp

@[simp] theorem State.newCt_held (s : State) (phn st : Nat) (new : Tbl Stored) (staged : Nat → Bool) :
    (s.newCt phn st new staged).adm.held = s.adm.held := rfl
@[simp] theorem State.countCrypt_adm (s : State) (n master : Nat) (lhn : Option Nat) :
    (s.countCrypt n master lhn).adm = s.adm := by simp [State.countCrypt]

@[simp] theorem State.writeGo_held (s : State) (id : Nat) (o : Op) (r : StripeOp) : (s.writeGo id o r).adm.held = s.adm.held := by
  unfold State.writeGo
  dsimp only
  split <;> simp

@[simp] theorem State.refreshGo_held (s : State) (id : Nat) (o : Op) (r : StripeOp) : (s.refreshGo id o r).adm.held = s.adm.held := by
  unfold State.refreshGo
  exact State.foldl_held (fun s x => by simp) _ _

@[simp] theorem State.rebuildGo_held (s : State) (id ch : Nat) (o : Op) (r : StripeOp) : (s.rebuildGo id ch o r).adm.held = s.adm.held := by
  unfold State.rebuildGo
  exact State.foldl_held (fun s d => by simp) _ _

theorem State.held_of_foldl_eq {f : List Nat × State → Nat → List Nat × State} (h : ∀ a x, (f a x).2.adm.held = a.2.adm.held)
    {l ids : List Nat} {a : List Nat × State} {t : State} (hFold : l.foldl f a = (ids, t)) : t.adm.held = a.2.adm.held := by
  rw [← foldl_keeps (fun a : List Nat × State => a.2.adm.held) h l a, hFold]

@[simp] theorem State.recomputeGo_held (s : State) (id : Nat) (o : Op) (r : StripeOp) : (s.recomputeGo id o r).adm.held = s.adm.held := by
  unfold State.recomputeGo
  extract_lets par
  split
  rename_i ids t hPages
  have kept : t.adm.held = s.adm.held := (State.held_of_foldl_eq (fun a d => by dsimp only; split <;> simp) hPages).trans (by simp)
  split <;> simp [kept]

@[simp] theorem State.copyGo_held (s : State) (id : Nat) (o : Op) (r : StripeOp) (g : Mig) : (s.copyGo id o r g).adm.held = s.adm.held := by
  unfold State.copyGo
  extract_lets newer s0 newer0 staged
  have h0 : s0.adm.held = s.adm.held := State.foldl_held (fun t x => by split <;> simp) _ _
  split
  rename_i all s1 hRaise
  have h1 : s1.adm.held = s.adm.held := by simpa [h0] using congrArg (·.2.adm.held) hRaise.symm
  extract_lets wep extra s2 src s3
  have h3 : s3.adm.held = s.adm.held := by simp [s3, s2, h1]
  split
  rename_i ids s4 hProg
  have h4 : s4.adm.held = s.adm.held := by simpa [h3] using congrArg (·.2.adm.held) hProg.symm
  extract_lets data par page
  split
  rename_i ids' s5 hCopies
  have h5 : s5.adm.held = s4.adm.held := State.held_of_foldl_eq (fun a d => by simp) hCopies
  simp [h5, h4]

@[simp] theorem State.stripeGo_held (s : State) (id : Nat) : (s.stripeGo id).adm.held = s.adm.held := by
  unfold State.stripeGo
  (repeat' split) <;> simp

@[simp] theorem State.stripePump_held (s : State) : s.stripePump.adm.held = s.adm.held := by
  unfold State.stripePump
  exact State.foldl_held (fun s x => by simp) _ _

@[simp] theorem State.walkStart_held (s : State) (kind : SKind) (phn st : Nat) (lhn : Option Nat) (ds : List Nat) (pages due cls : Nat) :
    (s.walkStart kind phn st lhn ds pages due cls).adm.held = s.adm.held := by
  unfold State.walkStart
  exact State.foldl_held (fun s x => by (repeat' split) <;> simp) _ _

@[simp] theorem State.freeStat_adm (s : State) (free : Nat) : (s.freeStat free).adm = s.adm := by simp [State.freeStat]
@[simp] theorem State.setFree_adm (s : State) (phn : Nat) (v : Bool) : (s.setFree phn v).adm = s.adm := by simp [State.setFree]

@[simp] theorem State.startMig_held (s : State) (sys : Bool) (idx : Nat) (kind : MigKind) (due : Nat) :
    (s.startMig sys idx kind due).adm.held = s.adm.held := by
  unfold State.startMig
  dsimp only
  (repeat' split) <;> simp

@[simp] theorem State.ledgerAdd_adm (s : State) (phn n : Nat) : (s.ledgerAdd phn n).adm = s.adm := by simp [State.ledgerAdd]
@[simp] theorem State.unbindWear_adm (s : State) (phn heat : Nat) : (s.unbindWear phn heat).adm = s.adm := by simp [State.unbindWear]

@[simp] theorem State.retireNext_held (s : State) : s.retireNext.adm.held = s.adm.held := by
  unfold State.retireNext
  exact State.foldl_held (fun s x => by simp) _ _

@[simp] theorem State.copyHank_adm (s : State) (src dst : Nat) : (s.copyHank src dst).adm = s.adm := rfl
@[simp] theorem State.markRetired_adm (s : State) (phn : Nat) : (s.markRetired phn).adm = s.adm := rfl

@[simp] theorem State.replaceAnchor_adm (s : State) (n phn : Nat) : (s.replaceAnchor n phn).adm = s.adm := by
  unfold State.replaceAnchor
  split <;> simp

@[simp] theorem State.recompute_held (s : State) (phn st mask due : Nat) :
    (s.recompute phn st mask due).adm.held = s.adm.held := by simp [State.recompute]

@[simp] theorem State.recomputePump_held (s : State) : s.recomputePump.adm.held = s.adm.held := by
  unfold State.recomputePump
  exact State.foldl_held (fun s x => by simp) _ _

/-! #### Walks over pages -/

@[simp] theorem State.copyWalk_held (s : State) (m : Nat) : (s.copyWalk m).adm.held = s.adm.held := by
  unfold State.copyWalk
  (repeat' split) <;> simp

@[simp] theorem State.evacNext_held (s : State) : s.evacNext.adm.held = s.adm.held := by
  unfold State.evacNext
  (repeat' split) <;> simp

@[simp] theorem State.rebuildWalk_held (s : State) (ch : Nat) : (s.rebuildWalk ch).adm.held = s.adm.held := by simp [State.rebuildWalk]

@[simp] theorem State.swatchPump_held (s : State) : s.swatchPump.adm.held = s.adm.held := by
  unfold State.swatchPump
  exact State.foldl_held (fun s x => by (repeat' split) <;> simp) _ _

@[simp] theorem State.walks_held (s : State) : s.walks.adm.held = s.adm.held := by
  unfold State.walks
  extract_lets s0 s1 s2
  rw [State.swatchPump_held, State.foldl_held fun t ch => t.rebuildWalk_held ch, State.foldl_held fun t m => t.copyWalk_held m]
  have h0 : s0.adm.held = s.adm.held := by simp [s0]
  simp [s1, h0]

/-! #### Commands and waiting lines -/

@[simp] theorem State.toBuffer_adm (s : State) (c : Cmd) (bytes : List Byte) : (s.toBuffer c bytes).adm = s.adm := by
  unfold State.toBuffer
  split
  · rfl
  · split
    · exact State.foldl_adm (fun s x => s.out_adm _) _ _
    · rfl

@[simp] theorem State.msixCount_adm (s : State) (n : Nat) (noirq : Bool) : (s.msixCount n noirq).adm = s.adm := by simp [State.msixCount]
@[simp] theorem State.ringStat_adm (s : State) (n : Nat) : (s.ringStat n).adm = s.adm := by simp [State.ringStat]
@[simp] theorem State.writeCqe_adm (s : State) (n tag status r0 r1 : Nat) (noirq : Bool) :
    (s.writeCqe n tag status r0 r1 noirq).adm = s.adm := by simp [State.writeCqe]
@[simp] theorem State.mbIdle_adm (s : State) (mb : Mailbox) : (s.mbIdle mb).adm = s.adm := rfl
@[simp] theorem State.unwrite_adm (s : State) (ring : Nat) (c : Cmd) (status r0 : Nat) :
    (s.unwrite ring c status r0).adm = s.adm := by simp [State.unwrite]
@[simp] theorem State.haltMark_adm (s : State) (n cause : Nat) : (s.haltMark n cause).adm = s.adm := by simp [State.haltMark]
@[simp] theorem State.dropRefs_adm (s : State) (id : Nat) : (s.dropRefs id).adm = s.adm := rfl

@[simp] theorem State.cqError_adm (s : State) (n : Nat) : (s.cqError n).adm = s.adm := by
  unfold State.cqError
  split
  · simp
  · dsimp only
    rw [State.ringStat_adm]
    exact (State.foldl_adm (fun s e => by simp) _ _).trans (s.haltMark_adm n 3)

@[simp] theorem State.finish_adm (s : State) (id status r0 r1 : Nat) (bytes : List Byte) : (s.finish id status r0 r1 bytes).adm = s.adm := by
  unfold State.finish
  (repeat' split) <;> simp

@[simp] theorem State.tryWrite_held (s : State) (w : WaitLine) : (s.tryWrite w).2.adm.held = s.adm.held := by
  unfold State.tryWrite
  extract_lets lhn s1 s2 put spill
  have h2 : s2.adm = s.adm := by
    simp only [s2, s1]
    (repeat' split) <;> simp
  have spilt (t : State) : (spill t).adm = t.adm := by
    simp only [spill]
    (repeat' split) <;> simp
  have placed : ∀ {t : State} {p : Put} {k : Placed}, s2.placeLine p = (k, t) → t.adm.held = s.adm.held := fun h => by
    simpa [h2] using congrArg (·.2.adm.held) h.symm
  split
  · split <;> rename_i hPlace <;> simp [placed hPlace]
  · split <;> rename_i hPlace <;> simp [placed hPlace, spilt]

@[simp] theorem State.lineGoes_adm (s : State) (w : WaitLine) (work : List Nat) : (s.lineGoes w work).adm = s.adm := by
  unfold State.lineGoes
  dsimp only
  split <;> simp

@[simp] theorem State.retryLine_held (s : State) : s.retryLine.adm.held = s.adm.held := by
  unfold State.retryLine
  split
  · rfl
  · extract_lets tlc s1
    split
    · split <;> rename_i hTry <;> simpa [s1] using congrArg (·.2.adm.held) hTry.symm
    · split
      simp [s1]

@[simp] theorem State.retryStuck_held (s : State) : s.retryStuck.adm.held = s.adm.held := by
  unfold State.retryStuck
  extract_lets s1 s2 s3 s4
  have h2 : s2.adm.held = s.adm.held := by
    refine (State.foldl_held (fun t q => ?_) _ _).trans ?_
    · split
      · rfl
      · split <;> simp [State.routeHeld_held]
    · simp [s1]
  have h3 : s3.adm.held = s.adm.held := (State.foldl_held (fun t _ => t.retryLine_held) _ _).trans h2
  have h4 : s4.adm.held = s.adm.held := by simp [s4, h3]
  split <;> simp [h4]

/-! #### The boundary itself -/

@[simp] theorem State.tryStitch_adm (s : State) (id : Nat) : (s.tryStitch id).adm = s.adm := by
  unfold State.tryStitch
  split <;> simp

@[simp] theorem State.startStitch_adm (s : State) (id : Nat) : (s.startStitch id).adm = s.adm := by
  unfold State.startStitch
  split <;> simp

@[simp] theorem State.pwrScale_adm (s : State) : s.pwrScale.adm = s.adm := rfl

/-! ### The LIMIT of a logical device (O12) -/

theorem State.pwrScale_reg (s : State) {off : Nat} (hLimit : off ≠ Reg.PWR_LIMIT) (hThrottle : off ≠ Reg.ADM_THROTTLE) :
    s.pwrScale.reg off = s.reg off := by
  rw [State.pwrScale, State.reg_fset_other _ _ _ _ hThrottle, State.reg_fset_other _ _ _ _ hLimit, State.reg_fset_other _ _ _ _ hLimit]

theorem State.pwrScale_tokens (s : State) : s.pwrScale.tokens = s.tokens := by
  simp only [State.tokens, State.fget]
  rw [State.pwrScale_reg s (by decide) (by decide)]

/-- R66's rule is one of the two for which new shares hold a party; it does not look at the load. -/
theorem State.newShares_overLimit (s : State) (loaded : Bool) (scale : Nat) {n : Nat} (hn : n < 16) (hLimit : limitOf (s.reg (Reg.ADM_RESV n)) ≠ 0)
    (hOver : s.tokens * limitOf (s.reg (Reg.ADM_RESV n)) < s.adm.charged.getD n 0 * 4096) : (s.newShares loaded scale).2.2.getD n false = true := by
  have hRow : n < 24 := by omega
  have hWord : ((List.range 24).map fun p => s.reg (resvReg p)).getD n 0 = s.reg (Reg.ADM_RESV n) := by
    simp [List.getD_eq_getElem?_getD, hRow, resvReg, hn]
  simp only [State.newShares]
  rw [List.getD_eq_getElem?_getD, List.getElem?_map, List.getElem?_range hRow]
  simp only [Option.map_some, Option.getD_some, hWord]
  refine Bool.or_eq_true_iff.2 (.inr ?_)
  simpa [hn, hLimit] using hOver

/-- What a boundary does after it has set the balances keeps which parties are held. -/
theorem State.rowBoundary_held (s : State) :
    ∃ loaded scale, s.rowBoundary.adm.held = (s.pwrScale.newShares loaded scale).2.2 := by
  unfold State.rowBoundary
  extract_lets s0 loaded scale
  refine ⟨loaded, scale, ?_⟩
  split
  rename_i ws bal held hShares
  extract_lets s1 s2 adm med s3 s4
  have hHeld : s4.adm.held = held := by simp [s4, s3]
  rw [State.retryStuck_held, hShares, ← hHeld]
  exact State.foldl_held (fun t e => by simp) _ _

/-- Settles O12: the words and tokens that R66's rule reads are those that stood before the boundary. -/
theorem limitHoldsItsDevice : Obligations.LimitHoldsItsDevice := by
  intro s n hTick hNew hOn hn hLimit hOver
  refine ⟨s.rowBoundary.settle, exec_rowBoundary hTick hNew (.inl hOn), ?_⟩
  have hWord : s.pwrScale.reg (Reg.ADM_RESV n) = s.reg (Reg.ADM_RESV n) :=
    s.pwrScale_reg (by simp only [Reg.ADM_RESV, Reg.PWR_LIMIT]; omega) (by simp only [Reg.ADM_RESV, Reg.ADM_THROTTLE]; omega)
  obtain ⟨loaded, scale, hHeld⟩ := s.rowBoundary_held
  rw [State.settle_adm, hHeld]
  apply State.newShares_overLimit _ _ _ hn
  · rwa [hWord]
  · rwa [hWord, State.pwrScale_tokens, State.pwrScale_adm]
end Sys2Proof.Machine

namespace Sys2Proof.Machine

/-! ### The ends of senses, stitches and rebuilds beside an entry that is still OPENED (O13, O14, O15, O20)

Where senses start, an entry all of whose page reads have been issued goes from OPENED to READ (R187), and TLC_WT_STAT is written as it follows the merge
buffer. The four statements below keep the merge buffer, or that register, in every state. -/

/-- A page program of the write-back `op` that runs its second stitch. -/
def secondStitch (op : Nat) : Program :=
  { kind := .page, ch := 0, die := 0, part := 0, phn := 5, s := 0, d := 0, lines := [], toMove := 0, stitches := 1, deferrals := 0, start := some 0,
    running := true, op := some op, deadline := 0 }

/-- A write-back whose only program is 0. -/
def backOfProgram0 : StripeOp :=
  { kind := .writeBack, phn := 5, s := 0, lines := [], need := 0, olds := [], nodes := [], full := false, started := true, left := [0], failed := [],
    reparity := false, pages := 0 }

/-- An operation of the medium's own work, as `State.walkStart` enters one. -/
def internalOp (k : OpKind) : Op := { kind := k, deadline := 0, rank := 2, ld := 16, seq := 0, cls := 1, master := 18 }

/-- A module that is on, with one medium operation, and `openedEntry` in the merge buffer. -/
def openedBeside (k : OpKind) : State :=
  { State.reset with
    power := .on
    adm := { Adm.init with ops := [(0, internalOp k)], nextOp := 1 }
    tlc := { Tlc.init with mb := [(0, openedEntry)] } }

/-- The operation is a write-back whose only program verifies. -/
def openedBesideProgram : State :=
  { openedBeside (.stripe backOfProgram0) with med := { Medium.init with progs := [(0, secondStitch 0)], nextProg := 1 } }

theorem exec_stitchEnd_running {s : State} {prog : Nat} {p : Program} (verified : Bool) (hProg : tget s.med.progs prog = some p)
    (hRuns : p.running = true) :
    exec (.stitchEnd prog verified) s = nextState ((s.stitchEnds prog p verified).partitionFree.dieWatch p.ch p.die).retryStuck := by
  unfold exec
  simp only [execStitchEnd, hProg, hRuns, if_true]

theorem openedBesideProgram_mb :
    ((openedBesideProgram.stitchEnds 0 (secondStitch 0) true).partitionFree.dieWatch 0 0).retryStuck.tlc.mb =
      [(0, { openedEntry with state := .read })] := by decide +kernel

/-- Refutes O13: the end of a program is followed by the start of the next senses, where the entry that was OPENED goes on to READ (R187); the clause of a
write-back whose programs are not all done keeps the merge buffer as it was. The state is `openedBesideProgram`. -/
theorem not_transfersAndStitches : ¬ Obligations.TransfersAndStitches := by
  rintro ⟨-, -, -, hBack, -, -⟩
  obtain ⟨t, hExec, -, -, -, -, -, hMb⟩ := hBack openedBesideProgram 0 0 (internalOp (.stripe backOfProgram0)) (secondStitch 0) backOfProgram0
    rfl rfl rfl rfl rfl rfl rfl rfl (by decide) (by decide) rfl rfl rfl
  rw [nextState_next _ ((exec_stitchEnd_running true rfl rfl).symm.trans hExec), State.settle_tlc] at hMb
  exact absurd (openedBesideProgram_mb.symm.trans hMb) (by decide)

/-- A read of line 0 of hank 5, its sense under way. -/
def readIn (stage : RStage) : ReadOp :=
  { line := 0, phn := 5, s := 0, d := 0, j := 0, stage := stage, stored := blankStored, key := 0, nodes := [], engine := 0, onset := none,
    purpose := .serve [] false, busy := true, thr := 0, need := 0, bad := [] }

/-- The operation is the sense of a line that INJECT_FAULT has corrupted beyond decode. -/
def openedBesideSense : State :=
  { openedBeside (.read (readIn .queued)) with med := { Medium.init with corrupt := [medKey 5 0 0 0] } }

theorem exec_senseComplete_undecoded {s : State} {op : Nat} {x : Sense} {o : Op} {r : ReadOp} (hRead : s.readOp op = some (o, r))
    (hStage : r.stage = .queued) (hBusy : r.busy = true) (hFails : s.decodeOf r x = none) :
    exec (.senseComplete op x) s = nextState (((s.count 0x0020 (chanOf r.phn r.s r.d) 1 o.cls o.master (lhnFor r)).setRead op o
      { r with stage := .valley, busy := false }).partitionFree) := by
  unfold exec
  simp only [execSenseComplete, hRead, hStage, hBusy, hFails, and_self, if_true]

/-- Refutes O14: after the sense the next senses start, where the entry that was OPENED goes on to READ (R187) and TLC_WT_STAT is computed anew from the
merge buffer; the clause of a sense that does not decode lets no register change but the performance counters. The state is `openedBesideSense`, whose
register shows no entry yet. -/
theorem not_sensesLatchTheLine : ¬ Obligations.SensesLatchTheLine := by
  rintro ⟨-, hFails, -, -⟩
  have hNone : openedBesideSense.decodeOf (readIn .queued) 0 = none := by decide +kernel
  obtain ⟨t, hExec, -, -, -, -, hRegs⟩ :=
    hFails openedBesideSense 0 0 (internalOp (.read (readIn .queued))) (readIn .queued) rfl rfl rfl hNone
  have hKept : t.reg Reg.TLC_WT_STAT = openedBesideSense.reg Reg.TLC_WT_STAT := hRegs Reg.TLC_WT_STAT (by decide) (by decide)
  rw [nextState_next _ ((exec_senseComplete_undecoded rfl rfl rfl hNone).symm.trans hExec), State.settle_reg _ (by decide)] at hKept
  exact absurd hKept (by decide +kernel)

theorem exec_stripeRebuildComplete_decoded {s : State} {op : Nat} {o : Op} {r : ReadOp} (hRead : s.readOp op = some (o, r))
    (hStage : r.stage = .rebuild) (hNeed : r.need = 0) (hBad : r.bad = []) (hSound : s.isSuspect r.phn r.s = false) :
    exec (.stripeRebuildComplete op true) s =
      nextState ((if r.onset.isSome then s.queueRefresh r.phn r.s r.d else s).readArrives op o r).retryStuck := by
  unfold exec
  simp [execStripeRebuildComplete, hRead, hStage, hNeed, hBad, hSound]

/-- The operation is the rebuild of a line whose last read has come. -/
def openedBesideRebuild : State := openedBeside (.read (readIn .rebuild))

theorem openedBesideRebuild_mb :
    (openedBesideRebuild.readArrives 0 (internalOp (.read (readIn .rebuild))) (readIn .rebuild)).retryStuck.tlc.mb =
      [(0, { openedEntry with state := .read })] := by decide +kernel

/-- Refutes O15: the rebuild's end is followed by the start of the next senses, where the entry that was OPENED goes on to READ (R187); the first clause keeps
the merge buffer. The state is `openedBesideRebuild`. -/
theorem not_stripeRebuildServesOrPoisons : ¬ Obligations.StripeRebuildServesOrPoisons := by
  rintro ⟨hServes, -⟩
  obtain ⟨t, e, hExec, -, -, -, hKeeps, -⟩ := hServes openedBesideRebuild 0 (internalOp (.read (readIn .rebuild))) (readIn .rebuild) [] false rfl rfl rfl rfl
    rfl rfl (by decide) rfl
  have hKept : t.tlc = openedBesideRebuild.tlc := hKeeps.2 .tlc (by decide)
  rw [nextState_next _ ((exec_stripeRebuildComplete_decoded rfl rfl rfl rfl rfl).symm.trans hExec), State.settle_tlc] at hKept
  exact absurd (openedBesideRebuild_mb.symm.trans (congrArg Tlc.mb hKept)) (by decide)

/-- A module whose DRIFT is ready, page 16 of stripe 127 of hank 5 queued for refresh, and `openedEntry` in the merge buffer. -/
def openedBesideRefresh : State :=
  { (State.reset.setReg Reg.RDY_STATUS (BitVec.ofNat 64 (2 ^ rDRIFT))).fset (Reg.MCH_STATE (chanOf 5 127 16)) Fld.MCH_STATE_ENGINE 1 with
    power := .on
    med := { Medium.init with refreshQ := [(5, 127, 16, 900)] }
    tlc := { Tlc.init with mb := [(0, openedEntry)] } }

theorem exec_refreshVisit_due {s : State} {phn st d : Nat} (hOn : s.power = .on) (hDrift : s.ready rDRIFT = true)
    (hRange : phn < 2 ^ 23 ∧ st < 128 ∧ d ≤ 16) (hSense : s.canSense phn st d = true) (hFree : s.stripeBusy phn st = false)
    (hRoom : s.walkRoom phn st [d] = true) (hDue : s.refreshDue phn st d = true) :
    exec (.refreshVisit phn st d) s = nextState ((s.sweepStep phn st d).refreshPage phn st d) := by
  unfold exec
  simp only [execRefreshVisit, if_pos (And.intro hOn (And.intro hDrift hRange)), hSense, if_pos (And.intro hDue (And.intro hFree hRoom)), if_true]

/-- Refutes O20: the read of the page's first line starts the next senses, where the entry that was OPENED goes on to READ (R187) and TLC_WT_STAT is computed
anew from the merge buffer; the first clause lets MCH_REFRESH alone change among the registers. The state is `openedBesideRefresh`, whose register shows no
entry yet. -/
theorem not_refreshVisitStagesThePage : ¬ Obligations.RefreshVisitStagesThePage := by
  rintro ⟨⟨hVisit, -⟩, -⟩
  have hOn : openedBesideRefresh.power = .on := rfl
  have hDrift : openedBesideRefresh.ready rDRIFT = true := by decide +kernel
  have hRange : 5 < 2 ^ 23 ∧ 127 < 128 ∧ 16 ≤ 16 := by decide
  have hSense : openedBesideRefresh.canSense 5 127 16 = true := by decide +kernel
  have hFree : openedBesideRefresh.stripeBusy 5 127 = false := by decide +kernel
  have hRoom : openedBesideRefresh.walkRoom 5 127 [16] = true := by decide +kernel
  have hDue : openedBesideRefresh.refreshDue 5 127 16 = true := by decide +kernel
  obtain ⟨t, o, r, hExec, -, -, -, -, -, -, -, -, -, -, -, -, -, hRegs⟩ :=
    hVisit openedBesideRefresh 5 127 16 hOn hDrift hRange.1 hRange.2.1 hRange.2.2 hSense hFree hRoom hDue
  have hKept : t.reg Reg.TLC_WT_STAT = openedBesideRefresh.reg Reg.TLC_WT_STAT := hRegs Reg.TLC_WT_STAT (by decide) (by decide)
  rw [nextState_next _ ((exec_refreshVisit_due hOn hDrift hRange hSense hFree hRoom hDue).symm.trans hExec), State.settle_reg _ (by decide)] at hKept
  exact absurd hKept (by decide +kernel)

/-! ### A rebuild that ends while the die of another index is lost (O21) -/

/-- Channel 0 has rebuilt index 0 onto die 8 while die 1, which serves index 1, has failed too. -/
def rebuiltBesideLostDie : State :=
  let s0 := State.reset.setReg Reg.RDY_STATUS (BitVec.ofNat 64 (2 ^ rDRIFT))
  let s1 := ((s0.fset (Reg.MCH_STATE 0) Fld.MCH_STATE_ENGINE 1).fset (Reg.MCH_STATE 0) Fld.MCH_STATE_REBUILD 1).fset (Reg.MCH_STATE 0)
    Fld.MCH_STATE_DIE_FAILED 3
  let s2 := (s1.fset (Reg.MCH_DIESUB 0) Fld.MCH_DIESUB_MAP 0x76543210).fset (Reg.MCH_DIESUB 0) Fld.MCH_DIESUB_REB_VALID 1
  (s2.fset (Reg.MCH_REBUILD 0) Fld.MCH_REBUILD_TARGET 8).fset (Reg.MCH_REBUILD 0) Fld.MCH_REBUILD_DONE (2 ^ 26)

/-- MCH_DIESUB once the rebuild of the index REB_ADIE is done: its MAP names the target for that index. -/
def State.rebuiltMap (s : State) (ch : Nat) : State :=
  let a := s.fget (Reg.MCH_DIESUB ch) Fld.MCH_DIESUB_REB_ADIE
  let m := s.fget (Reg.MCH_DIESUB ch) Fld.MCH_DIESUB_MAP
  s.fset (Reg.MCH_DIESUB ch) Fld.MCH_DIESUB_MAP (m - m / 16 ^ a % 16 * 16 ^ a + s.fget (Reg.MCH_REBUILD ch) Fld.MCH_REBUILD_TARGET * 16 ^ a)

/-- The end of a rebuild names the next index whose die is lost, and REB_VALID stands. -/
theorem exec_dieRebuildDone_lost {s : State} {ch b : Nat} (hCh : ch < 34) (hRuns : s.fget (Reg.MCH_STATE ch) Fld.MCH_STATE_REBUILD = 1)
    (hDrift : s.ready rDRIFT = true) (hDone : s.fget (Reg.MCH_REBUILD ch) Fld.MCH_REBUILD_DONE = 2 ^ 26)
    (hLost : (s.rebuiltMap ch).lostIndex ch = some b) :
    exec (.dieRebuildDone ch) s =
      nextState (((s.rebuiltMap ch).fset (Reg.MCH_DIESUB ch) Fld.MCH_DIESUB_REB_ADIE b).fset (Reg.MCH_STATE ch) Fld.MCH_STATE_REBUILD 0) := by
  unfold State.rebuiltMap at *
  unfold exec
  simp only [execDieRebuildDone, if_pos (And.intro hCh (And.intro hRuns (And.intro hDrift hDone))), hLost]

/-- Refutes O21: when the die of another active index has failed too, the end of a rebuild names that index in REB_ADIE and leaves REB_VALID 1 (R119); the
third clause says 0 whatever the other dies do. The state is `rebuiltBesideLostDie`. -/
theorem not_diesAndChannelsRecover : ¬ Obligations.DiesAndChannelsRecover := by
  rintro ⟨⟨-, -, hEnds⟩, -⟩
  have hRuns : rebuiltBesideLostDie.fget (Reg.MCH_STATE 0) Fld.MCH_STATE_REBUILD = 1 := by decide +kernel
  have hDrift : rebuiltBesideLostDie.ready rDRIFT = true := by decide +kernel
  have hDone : rebuiltBesideLostDie.fget (Reg.MCH_REBUILD 0) Fld.MCH_REBUILD_DONE = 2 ^ 26 := by decide +kernel
  have hLost : (rebuiltBesideLostDie.rebuiltMap 0).lostIndex 0 = some 1 := by decide +kernel
  obtain ⟨t, hExec, -, -, hValid, -, -⟩ := hEnds rebuiltBesideLostDie 0 (by decide) hRuns hDrift hDone
  rw [nextState_next _ ((exec_dieRebuildDone_lost (by decide) hRuns hDrift hDone hLost).symm.trans hExec),
    State.settle_fget _ (by decide) (by decide)] at hValid
  exact absurd hValid (by decide +kernel)

end Sys2Proof.Machine

namespace Sys2Proof.Machine

/-! ### A drift step (O19): medium time, and what changes registers alone -/

/-- The codes of a drift step: channel, die, and the valley codes of its swatch pages. -/
abbrev DriftCodes := List (Nat × Nat × List (Nat × Nat))

/-- From `s` to `u` nothing has changed but registers. -/
def RegsOnly (s u : State) : Prop := u = { s with regs := u.regs }

theorem RegsOnly.trans {s u v : State} (h : RegsOnly s u) (h' : RegsOnly u v) : RegsOnly s v :=
  Eq.trans h' (by rw [show u = _ from h])

theorem RegsOnly.med {s u : State} (h : RegsOnly s u) : u.med = s.med := (congrArg State.med h).trans rfl

theorem RegsOnly.foldl {α : Type} {f : State → α → State} (h : ∀ s x, RegsOnly s (f s x)) (l : List α) (s : State) : RegsOnly s (l.foldl f s) := by
  induction l generalizing s with
  | nil => rfl
  | cons x l ih => exact (h s x).trans (ih _)

theorem RegsOnly.same_part {s u : State} (h : RegsOnly s u) {p : Part} (hp : p ≠ .regs) : p.same s u := by
  rw [show u = _ from h]
  cases p with
  | regs => exact absurd rfl hp
  | cmds => exact ⟨rfl, rfl⟩
  | _ => rfl

theorem State.fset_regsOnly (s : State) (off : Nat) (f : Field) (v : Nat) : RegsOnly s (s.fset off f v) := rfl

theorem State.setMedTime_regsOnly (s : State) (t : Nat) : RegsOnly s (s.setMedTime t) := rfl

theorem State.setMedTime_reg (s : State) (t : Nat) {off : Nat} (h : off ≠ Reg.MCH_EPOCH) : (s.setMedTime t).reg off = s.reg off := by
  unfold State.setMedTime
  rw [State.reg_fset_other _ _ _ _ h, State.reg_fset_other _ _ _ _ h]

theorem State.setMedTime_medTime (s : State) {t : Nat} (h : t < 2 ^ 38) : (s.setMedTime t).medTime = t := by
  have hEpoch : t / 64 < 2 ^ fwidth Fld.MCH_EPOCH_EPOCH := by
    rw [show fwidth Fld.MCH_EPOCH_EPOCH = 32 from rfl]
    omega
  have hStep : t % 64 < 2 ^ fwidth Fld.MCH_EPOCH_STEP := by
    rw [show fwidth Fld.MCH_EPOCH_STEP = 6 from rfl]
    omega
  unfold State.setMedTime State.medTime
  rw [State.fget_fset_apart _ _ _ _ (by decide) (by decide) (by decide), State.fget_fset_same _ _ _ _ (by decide) hEpoch,
    State.fget_fset_same _ _ _ _ (by decide) hStep]
  omega

theorem State.setMedTime_label (s : State) (t : Nat) : (s.setMedTime t).label = s.label := by
  unfold State.setMedTime State.label
  rw [State.fget_fset_apart _ _ _ _ (by decide) (by decide) (by decide), State.fget_fset_apart _ _ _ _ (by decide) (by decide) (by decide)]

theorem State.medTime_congr {s u : State} (h : u.reg Reg.MCH_EPOCH = s.reg Reg.MCH_EPOCH) : u.medTime = s.medTime := by
  simp only [State.medTime, State.fget, h]

theorem State.label_congr {s u : State} (h : u.reg Reg.MCH_EPOCH = s.reg Reg.MCH_EPOCH) : u.label = s.label := by simp only [State.label, State.fget, h]

/-! #### The refit of one model keeps the bound of R106 -/

theorem refitOk_refl (base nu : Nat) : refitOk base nu base nu = true := by simp [refitOk]

/-- A model moved part of the way to another does not pass the greater of the two. -/
theorem partWay_le_max (a b : Nat) {k : Nat} (h : k ≤ 16) : partWay a b k ≤ max a b := by
  unfold partWay
  interval_cases k <;> omega

theorem fitOf_le (pts : List (Nat × Nat)) : (fitOf pts).1 ≤ 255 ∧ (fitOf pts).2 ≤ 255 := by
  unfold fitOf
  dsimp only
  split
  · exact ⟨Nat.min_le_left _ _, Nat.zero_le _⟩
  · exact ⟨Nat.min_le_left _ _, Nat.min_le_left _ _⟩

/-- A refit either leaves the model or goes a number of sixteenths of the way that keeps the bound. -/
theorem refitTo_cases (base nu : Nat) (pts : List (Nat × Nat)) :
    refitTo base nu pts = (base, nu) ∨ ∃ k ≤ 16, refitTo base nu pts = (partWay base (fitOf pts).1 k, partWay nu (fitOf pts).2 k) ∧
      refitOk base nu (partWay base (fitOf pts).1 k) (partWay nu (fitOf pts).2 k) = true := by
  unfold refitTo
  dsimp only
  split
  next k hFind =>
    have hMem := List.mem_of_find?_eq_some hFind
    rw [List.mem_reverse, List.mem_range] at hMem
    exact .inr ⟨k, by omega, rfl, List.find?_some (p := fun k => refitOk base nu (partWay base (fitOf pts).1 k) (partWay nu (fitOf pts).2 k)) hFind⟩
  next => exact .inl rfl

theorem refitOk_refitTo (base nu : Nat) (pts : List (Nat × Nat)) : refitOk base nu (refitTo base nu pts).1 (refitTo base nu pts).2 = true := by
  obtain hSame | ⟨k, -, hTo, hOk⟩ := refitTo_cases base nu pts
  · rw [hSame]
    exact refitOk_refl base nu
  · rw [hTo]
    exact hOk

theorem refitTo_lt {base nu : Nat} (pts : List (Nat × Nat)) (hBase : base < 256) (hNu : nu < 4096) :
    (refitTo base nu pts).1 < 256 ∧ (refitTo base nu pts).2 < 4096 := by
  obtain hSame | ⟨k, hk, hTo, -⟩ := refitTo_cases base nu pts
  · rw [hSame]
    exact ⟨hBase, hNu⟩
  · obtain ⟨hFitBase, hFitNu⟩ := fitOf_le pts
    have hMaxBase := partWay_le_max base (fitOf pts).1 hk
    have hMaxNu := partWay_le_max nu (fitOf pts).2 hk
    rw [hTo]
    dsimp only
    omega

/-! #### The refit of one die -/

theorem mem_allDies {x : Nat × Nat} : x ∈ allDies ↔ x.1 < 34 ∧ x.2 < 9 := by
  obtain ⟨ch, die⟩ := x
  simp only [allDies, List.mem_map, List.mem_range, Prod.mk.injEq]
  constructor
  · rintro ⟨k, hk, rfl, rfl⟩
    omega
  · rintro ⟨hCh, hDie⟩
    exact ⟨9 * ch + die, by omega, by omega, by omega⟩

theorem allDies_nodup : allDies.Nodup := by
  refine List.nodup_range.map fun k j h => ?_
  simp only [Prod.mk.injEq] at h
  omega

/-- The register of a die's model. -/
def driftReg (x : Nat × Nat) : Nat := Reg.MCH_DRIFT x.1 x.2

theorem driftReg_ne {x y : Nat × Nat} (hx : x ∈ allDies) (hy : y ∈ allDies) (h : x ≠ y) : driftReg x ≠ driftReg y := by
  rw [mem_allDies] at hx hy
  obtain ⟨i, j⟩ := x
  obtain ⟨k, l⟩ := y
  simp only [ne_eq, Prod.mk.injEq, driftReg, Reg.MCH_DRIFT] at *
  omega

theorem driftReg_notMem_pmcRegs {x : Nat × Nat} (hx : x ∈ allDies) : driftReg x ∉ pmcRegs := by
  rw [mem_allDies] at hx
  simp only [pmcRegs, driftReg, Reg.MCH_DRIFT, Reg.PMC_CNT, List.mem_map, List.mem_range, not_exists, not_and]
  omega

theorem driftReg_ne_epoch {x : Nat × Nat} (hx : x ∈ allDies) : driftReg x ≠ Reg.MCH_EPOCH := by
  rw [mem_allDies] at hx
  simp only [driftReg, Reg.MCH_DRIFT, Reg.MCH_EPOCH]
  omega

theorem driftReg_ne_dclkStat {x : Nat × Nat} (hx : x ∈ allDies) : driftReg x ≠ Reg.MCH_DCLK_STAT := by
  rw [mem_allDies] at hx
  simp only [driftReg, Reg.MCH_DRIFT, Reg.MCH_DCLK_STAT]
  omega

/-- No live field lies among the registers of the dies' models. -/
theorem quietReg_driftReg {x : Nat × Nat} (hx : x ∈ allDies) : quietReg (driftReg x) = true := by
  have hLive : (liveFields.all fun y => decide (y.1 < 0x40100 ∨ 0x4E000 ≤ y.1)) = true := by decide
  rw [mem_allDies] at hx
  refine List.all_eq_true.2 fun y hy => bne_iff_ne.2 ?_
  have hy := of_decide_eq_true (List.all_eq_true.1 hLive y hy)
  simp only [driftReg, Reg.MCH_DRIFT]
  omega

/-- The model of a die: BASE and NU. -/
def State.driftModel (s : State) (x : Nat × Nat) : Nat × Nat := (s.fget (driftReg x) Fld.MCH_DRIFT_BASE, s.fget (driftReg x) Fld.MCH_DRIFT_NU)

theorem State.driftModel_congr {s u : State} {x : Nat × Nat} (h : u.reg (driftReg x) = s.reg (driftReg x)) : u.driftModel x = s.driftModel x := by
  simp only [State.driftModel, State.fget, h]

/-- The points that the codes of a drift step give for a die. -/
def State.stepPoints (s : State) (codes : DriftCodes) (x : Nat × Nat) : List (Nat × Nat) :=
  match codes.find? fun f => f.1 == x.1 && f.2.1 == x.2 with
  | some f => s.fitPoints x.1 x.2 s.medTime f.2.2
  | none => []

theorem State.stepPoints_congr {s u : State} (hMed : u.med = s.med) (hTime : u.medTime = s.medTime) (codes : DriftCodes)
    (x : Nat × Nat) : u.stepPoints codes x = s.stepPoints codes x := by
  simp only [State.stepPoints, State.fitPoints, hMed, hTime]

/-- The model that a drift step gives a die. -/
def State.refitted (s : State) (codes : DriftCodes) (x : Nat × Nat) : Nat × Nat :=
  if s.stepPoints codes x = [] then s.driftModel x else refitTo (s.driftModel x).1 (s.driftModel x).2 (s.stepPoints codes x)

/-- The senses of a die's swatch pages count, and its model is refitted if they give points. -/
def State.refitFrom (s : State) (x : Nat × Nat) (pts : List (Nat × Nat)) : State :=
  let s1 := s.count 0x0020 x.1 64 6 18 none
  if pts = [] then s1
  else
    let m := refitTo (s.driftModel x).1 (s.driftModel x).2 pts
    ((s1.fset (driftReg x) Fld.MCH_DRIFT_BASE m.1).fset (driftReg x) Fld.MCH_DRIFT_NU m.2).fsetSat (driftReg x) Fld.MCH_DRIFT_FITERR (fitErr m.1 m.2 pts)

/-- One die's turn in `State.refit`. -/
def State.refitDie (codes : DriftCodes) (s : State) (x : Nat × Nat) : State := s.refitFrom x (s.stepPoints codes x)

theorem State.refit_eq (s : State) (codes : DriftCodes) :
    s.refit codes = (allDies.filter fun x => s.dieResponds x.1 x.2).foldl (State.refitDie codes) s := by
  unfold State.refit
  congr 1
  funext u x
  unfold State.refitDie State.refitFrom State.stepPoints
  cases codes.find? fun f => f.1 == x.1 && f.2.1 == x.2 with
  | none => rfl
  | some f => simp only [List.isEmpty_iff, State.driftModel, driftReg]

theorem State.refitDie_regsOnly (codes : DriftCodes) (s : State) (x : Nat × Nat) : RegsOnly s (s.refitDie codes x) := by
  unfold State.refitDie State.refitFrom
  dsimp only
  split
  · exact s.count_eq ..
  · exact RegsOnly.trans (s.count_eq ..) (((State.fset_regsOnly ..).trans (State.fset_regsOnly ..)).trans (State.fset_regsOnly ..))

theorem State.refitDie_reg (codes : DriftCodes) (s : State) (x : Nat × Nat) {off : Nat} (hPmc : off ∉ pmcRegs)
    (hDrift : off ≠ driftReg x) : (s.refitDie codes x).reg off = s.reg off := by
  unfold State.refitDie State.refitFrom State.fsetSat
  dsimp only
  split
  · exact s.count_reg _ _ _ _ _ _ hPmc
  · rw [State.reg_fset_other _ _ _ _ hDrift, State.reg_fset_other _ _ _ _ hDrift, State.reg_fset_other _ _ _ _ hDrift, s.count_reg _ _ _ _ _ _ hPmc]

theorem State.driftModel_lt (s : State) (x : Nat × Nat) : (s.driftModel x).1 < 256 ∧ (s.driftModel x).2 < 4096 := ⟨getF_lt _ _, getF_lt _ _⟩

theorem State.driftModel_writes (s : State) (x : Nat × Nat) {b v e : Nat} (hb : b < 256) (hv : v < 4096) :
    (((s.fset (driftReg x) Fld.MCH_DRIFT_BASE b).fset (driftReg x) Fld.MCH_DRIFT_NU v).fsetSat (driftReg x) Fld.MCH_DRIFT_FITERR e).driftModel x =
      (b, v) := by
  unfold State.driftModel State.fsetSat
  rw [State.fget_fset_apart _ _ _ _ (by decide) (by decide) (by decide), State.fget_fset_apart _ _ _ _ (by decide) (by decide) (by decide),
    State.fget_fset_same _ _ _ _ (by decide) hb, State.fget_fset_apart _ _ _ _ (by decide) (by decide) (by decide),
    State.fget_fset_same _ _ _ _ (by decide) hv]

theorem State.refitDie_driftModel (codes : DriftCodes) (s : State) {x : Nat × Nat} (hx : x ∈ allDies) :
    (s.refitDie codes x).driftModel x = s.refitted codes x := by
  unfold State.refitDie State.refitFrom State.refitted
  dsimp only
  split
  · exact State.driftModel_congr (s.count_reg _ _ _ _ _ _ (driftReg_notMem_pmcRegs hx))
  · obtain ⟨hBase, hNu⟩ := s.driftModel_lt x
    obtain ⟨hBase', hNu'⟩ := refitTo_lt (s.stepPoints codes x) hBase hNu
    exact (State.driftModel_writes _ x hBase' hNu').trans Prod.mk.eta

theorem State.refitted_congr {s u : State} {x : Nat × Nat} (hMed : u.med = s.med) (hTime : u.medTime = s.medTime)
    (hModel : u.driftModel x = s.driftModel x) (codes : DriftCodes) : u.refitted codes x = s.refitted codes x := by
  simp only [State.refitted, State.stepPoints_congr hMed hTime, hModel]

/-- The bound of R106, for every die. -/
theorem State.refitOk_refitted (s : State) (codes : DriftCodes) (x : Nat × Nat) :
    refitOk (s.driftModel x).1 (s.driftModel x).2 (s.refitted codes x).1 (s.refitted codes x).2 = true := by
  unfold State.refitted
  split
  · exact refitOk_refl _ _
  · exact refitOk_refitTo _ _ _

/-! #### The refits of all dies -/

theorem State.refitDies_reg (codes : DriftCodes) (l : List (Nat × Nat)) (s : State) {off : Nat} (hPmc : off ∉ pmcRegs)
    (hDrift : off ∉ l.map driftReg) : (l.foldl (State.refitDie codes) s).reg off = s.reg off := by
  induction l generalizing s with
  | nil => rfl
  | cons y l ih =>
    rw [List.map_cons, List.mem_cons, not_or] at hDrift
    exact (ih _ hDrift.2).trans (s.refitDie_reg codes y hPmc hDrift.1)

/-- Each die of a list is refitted once, by what stood before. -/
theorem State.refitDies_driftModel (codes : DriftCodes) {l : List (Nat × Nat)} (hDies : ∀ y ∈ l, y ∈ allDies) (hNodup : l.Nodup)
    (s : State) {x : Nat × Nat} (hx : x ∈ allDies) :
    (l.foldl (State.refitDie codes) s).driftModel x = if x ∈ l then s.refitted codes x else s.driftModel x := by
  induction l generalizing s with
  | nil => rfl
  | cons y l ih =>
    obtain ⟨hNotMem, hNodup⟩ := List.nodup_cons.1 hNodup
    have hy := hDies y (List.mem_cons_self ..)
    rw [List.foldl_cons, ih (fun z hz => hDies z (List.mem_cons_of_mem _ hz)) hNodup]
    by_cases hEq : x = y
    · subst hEq
      rw [if_neg hNotMem, if_pos (List.mem_cons_self ..), s.refitDie_driftModel codes hx]
    · have hModel : (s.refitDie codes y).driftModel x = s.driftModel x :=
        State.driftModel_congr (s.refitDie_reg codes y (driftReg_notMem_pmcRegs hx) (driftReg_ne hx hy hEq))
      have hTime : (s.refitDie codes y).medTime = s.medTime :=
        State.medTime_congr (s.refitDie_reg codes y (by decide) (driftReg_ne_epoch hy).symm)
      rw [State.refitted_congr (s.refitDie_regsOnly codes y).med hTime hModel, hModel]
      simp only [List.mem_cons, hEq, false_or]

theorem State.refit_regsOnly (s : State) (codes : DriftCodes) : RegsOnly s (s.refit codes) := by
  rw [State.refit_eq]
  exact RegsOnly.foldl (State.refitDie_regsOnly codes) _ s

theorem State.refit_reg (s : State) (codes : DriftCodes) {off : Nat} (hPmc : off ∉ pmcRegs)
    (hDrift : off ∉ allDies.map driftReg) : (s.refit codes).reg off = s.reg off := by
  rw [State.refit_eq]
  refine State.refitDies_reg codes _ s hPmc fun h => hDrift ?_
  obtain ⟨x, hx, hOff⟩ := List.mem_map.1 h
  exact List.mem_map.2 ⟨x, List.mem_of_mem_filter hx, hOff⟩

theorem State.refit_driftModel (s : State) (codes : DriftCodes) {x : Nat × Nat} (hx : x ∈ allDies) :
    (s.refit codes).driftModel x = if s.dieResponds x.1 x.2 = true then s.refitted codes x else s.driftModel x := by
  rw [State.refit_eq, State.refitDies_driftModel codes (fun y => List.mem_of_mem_filter) (allDies_nodup.filter _) s hx]
  simp only [List.mem_filter, hx, true_and]

theorem notMem_driftRegs {off : Nat} (h : ∀ x ∈ allDies, driftReg x ≠ off) : off ∉ allDies.map driftReg := fun hMem => by
  obtain ⟨x, hx, hOff⟩ := List.mem_map.1 hMem
  exact h x hx hOff

/-! #### The label of the next epoch -/

theorem State.labelUsed_congr {s u : State} (hLines : u.med.lines = s.med.lines) (hProgs : u.med.progs = s.med.progs)
    (hBlank : u.med.blankWep = s.med.blankWep) (hAll : u.med.blankAll = s.med.blankAll)
    (hSense : ∀ phn st d, u.canSense phn st d = s.canSense phn st d) (w : Nat) : u.labelUsed w = s.labelUsed w := by
  have hPage : u.pageUnlisted = s.pageUnlisted := by
    funext n
    simp only [State.pageUnlisted, hSense, hBlank, hLines]
  have hHank : u.hankUnlisted = s.hankUnlisted := by
    funext phn
    simp only [State.hankUnlisted, hSense, hLines]
  unfold State.labelUsed
  rw [hLines, hProgs, hBlank, hAll, hHank, hPage]

theorem State.newLabel_reg (s : State) {off : Nat} (hEpoch : off ≠ Reg.MCH_EPOCH) (hStat : off ≠ Reg.MCH_DCLK_STAT) : s.newLabel.2.reg off = s.reg off := by
  unfold State.newLabel
  dsimp only
  split
  · exact State.reg_fset_other _ _ _ _ hStat
  · exact (State.reg_fset_other _ _ _ _ hStat).trans (State.reg_fset_other _ _ _ _ hEpoch)

theorem State.newLabel_eq (s : State) : s.newLabel.2 = { s with med := s.newLabel.2.med, regs := s.newLabel.2.regs } := by
  unfold State.newLabel
  dsimp only
  split <;> rfl

theorem State.newLabel_lines (s : State) : s.newLabel.2.med.lines = s.med.lines := by
  unfold State.newLabel
  dsimp only
  split <;> rfl

/-- The label table once the next label stands for medium time now. -/
def State.labelSet (s : State) : State :=
  { s with med := { s.med with labels := tput s.med.labels ((s.label + 1) % 64) (s.medTime / 64, s.medTime % 64) } }

/-- A label that no page carries is allocated. -/
theorem State.newLabel_free {s : State} (h : s.labelUsed ((s.label + 1) % 64) = false) :
    s.newLabel.2 = (s.labelSet.fset Reg.MCH_EPOCH Fld.MCH_EPOCH_LABEL ((s.label + 1) % 64)).fset Reg.MCH_DCLK_STAT Fld.MCH_DCLK_STAT_LABEL_HOLD 0 := by
  unfold State.newLabel
  dsimp only
  rw [if_neg (by rw [h]; exact Bool.false_ne_true)]
  rfl

theorem State.newLabel_free_label {s : State} (h : s.labelUsed ((s.label + 1) % 64) = false) : s.newLabel.2.label = (s.label + 1) % 64 := by
  have hFits : (s.label + 1) % 64 < 2 ^ fwidth Fld.MCH_EPOCH_LABEL := Nat.mod_lt _ (by decide)
  rw [State.newLabel_free h]
  generalize (s.label + 1) % 64 = w at hFits
  unfold State.label
  rw [State.fget_fset_other _ _ _ _ (by decide), State.fget_fset_same _ _ _ _ (by decide) hFits]

theorem State.newLabel_free_medTime {s : State} (h : s.labelUsed ((s.label + 1) % 64) = false) : s.newLabel.2.medTime = s.medTime := by
  rw [State.newLabel_free h]
  unfold State.medTime
  rw [State.fget_fset_other _ _ _ _ (by decide), State.fget_fset_apart _ _ _ _ (by decide) (by decide) (by decide),
    State.fget_fset_other _ _ _ _ (by decide), State.fget_fset_apart _ _ _ _ (by decide) (by decide) (by decide)]
  rfl

/-! #### The swatch programs -/

/-- One die's turn in `State.swatchPump`. -/
def State.swatchTurn (s : State) (x : Nat × Nat) : State :=
  if s.opRoom 1 && s.chanRoom x.1 1 then
    let s1 : State := { s with med := { s.med with swatchDue := s.med.swatchDue.erase x } }
    ((s1.addOther (.swatch (s.medTime / 64) (s.medTime % 64)) x.1 x.2 0 (2 ^ 23) 0 0 [] none (s.bgDeadline 2)).2).charge 18 8
  else s

theorem State.swatchPump_eq_foldl (s : State) : s.swatchPump = s.med.swatchDue.foldl State.swatchTurn s := rfl

/-- From `s` to `u` nothing has changed but admission, and of the medium the programs and the dies whose swatch page waits. -/
def PumpsOnly (s u : State) : Prop :=
  u = { s with
    adm := u.adm, med := { s.med with progs := u.med.progs, nextProg := u.med.nextProg, swatchDue := u.med.swatchDue } }

theorem PumpsOnly.trans {s u v : State} (h : PumpsOnly s u) (h' : PumpsOnly u v) : PumpsOnly s v :=
  Eq.trans h' (by rw [show u = _ from h])

theorem State.swatchTurn_pumpsOnly (s : State) (x : Nat × Nat) : PumpsOnly s (s.swatchTurn x) := by
  unfold State.swatchTurn
  split <;> rfl

theorem PumpsOnly.foldl_swatchTurn (l : List (Nat × Nat)) (s : State) : PumpsOnly s (l.foldl State.swatchTurn s) := by
  induction l generalizing s with
  | nil => rfl
  | cons x l ih => exact (s.swatchTurn_pumpsOnly x).trans (ih _)

theorem State.swatchPump_pumpsOnly (s : State) : PumpsOnly s s.swatchPump := PumpsOnly.foldl_swatchTurn _ s

theorem State.swatchProgram_eq (s : State) : s.swatchProgram = { s with
    adm := s.swatchProgram.adm
    med := { s.med with progs := s.swatchProgram.med.progs, nextProg := s.swatchProgram.med.nextProg, swatchDue := s.swatchProgram.med.swatchDue } } :=
  State.swatchPump_pumpsOnly _

theorem State.swatchProgram_lines (s : State) : s.swatchProgram.med.lines = s.med.lines := by rw [State.swatchProgram_eq]

/-- A die waits for its swatch page of medium time `t`, or the page's program is queued. -/
def State.SwatchServed (s : State) (t : Nat) (x : Nat × Nat) : Prop :=
  x ∈ s.med.swatchDue ∨ ∃ k p, k < s.med.nextProg ∧ tget s.med.progs k = some p ∧ p.ch = x.1 ∧ p.die = x.2 ∧ p.kind = .swatch (t / 64) (t % 64)

theorem State.swatchTurn_served {s : State} {t : Nat} {x : Nat × Nat} (hTime : s.medTime = t) (h : s.SwatchServed t x) (y : Nat × Nat) :
    (s.swatchTurn y).SwatchServed t x := by
  subst hTime
  unfold State.swatchTurn
  split
  · by_cases hEq : x = y
    · subst hEq
      exact .inr ⟨s.med.nextProg, _, Nat.lt_succ_self _, tget_tput_same _ _ _, rfl, rfl, rfl⟩
    · obtain hDue | ⟨k, p, hk, hGet, hProg⟩ := h
      · exact .inl ((List.mem_erase_of_ne hEq).2 hDue)
      · exact .inr ⟨k, p, Nat.lt_succ_of_lt hk, (tget_tput_other _ _ (Nat.ne_of_lt hk)).trans hGet, hProg⟩
  · exact h

theorem State.foldl_swatchTurn_served {t : Nat} {x : Nat × Nat} (l : List (Nat × Nat)) {s : State} (hTime : s.medTime = t) (h : s.SwatchServed t x) :
    (l.foldl State.swatchTurn s).SwatchServed t x := by
  induction l generalizing s with
  | nil => exact h
  | cons y l ih =>
    refine ih (Eq.trans (State.medTime_congr ?_) hTime) (State.swatchTurn_served hTime h y)
    rw [show s.swatchTurn y = _ from s.swatchTurn_pumpsOnly y]
    rfl

/-- Every die that responds is served at an epoch boundary (R107). -/
theorem State.swatchProgram_served (s : State) {x : Nat × Nat} (hx : x ∈ allDies) (hResponds : s.dieResponds x.1 x.2 = true) :
    s.swatchProgram.SwatchServed s.medTime x :=
  State.foldl_swatchTurn_served _ rfl (.inl (List.mem_filter.2 ⟨hx, hResponds⟩))

theorem mem_of_tget {α : Type} {t : Tbl α} {k : Nat} {v : α} (h : tget t k = some v) : (k, v) ∈ t := by
  induction t with
  | nil => simp [tget] at h
  | cons e t ih =>
    obtain ⟨i, w⟩ := e
    unfold tget at h
    split at h
    next hKey =>
      rw [hKey, Option.some.inj h]
      exact List.mem_cons_self ..
    next => exact List.mem_cons_of_mem _ (ih h)

/-! #### The command -/

/-- A drift step without what a new label brings. -/
def State.timeStepped (s : State) (codes : DriftCodes) : State :=
  let s1 := (s.setMedTime (s.medTime + 1)).refit codes
  { s1 with med := { s1.med with hankRescue := [], timeSaved := s.medTime + 1, windowSaved := s1.med.window } }

section
variable {s : State} {codes : DriftCodes}

theorem exec_driftStep_held (h : s.ready rDRIFT = false) : exec (.driftStep codes) s = nextState s := by
  unfold exec
  simp only [execDriftStep, h, Bool.false_eq_true, if_false]

theorem exec_driftStep_within (hDrift : s.ready rDRIFT = true) (hStep : (s.medTime + 1) % 64 ≠ 0)
    (hHold : (s.timeStepped codes).fget Reg.MCH_DCLK_STAT Fld.MCH_DCLK_STAT_LABEL_HOLD ≠ 1) :
    exec (.driftStep codes) s = nextState (s.timeStepped codes) := by
  unfold exec
  unfold State.timeStepped at *
  simp only [execDriftStep, hDrift, if_true, if_neg hStep, if_neg hHold]

theorem exec_driftStep_retries (hDrift : s.ready rDRIFT = true) (hStep : (s.medTime + 1) % 64 ≠ 0)
    (hHold : (s.timeStepped codes).fget Reg.MCH_DCLK_STAT Fld.MCH_DCLK_STAT_LABEL_HOLD = 1) :
    exec (.driftStep codes) s = nextState (s.timeStepped codes).newLabel.2 := by
  unfold exec
  unfold State.timeStepped at *
  simp only [execDriftStep, hDrift, if_true, if_neg hStep, if_pos hHold]

theorem exec_driftStep_boundary (hDrift : s.ready rDRIFT = true) (hStep : (s.medTime + 1) % 64 = 0) :
    exec (.driftStep codes) s = nextState (s.timeStepped codes).newLabel.2.swatchProgram := by
  unfold exec
  unfold State.timeStepped
  simp only [execDriftStep, hDrift, if_true, if_pos hStep]

end

theorem State.timeStepped_med (s : State) (codes : DriftCodes) :
    (s.timeStepped codes).med = { s.med with hankRescue := [], timeSaved := s.medTime + 1, windowSaved := s.med.window } := by
  have hMed : ((s.setMedTime (s.medTime + 1)).refit codes).med = s.med := (State.refit_regsOnly _ codes).med
  simp only [State.timeStepped, hMed]

theorem State.timeStepped_reg (s : State) (codes : DriftCodes) {off : Nat} (hEpoch : off ≠ Reg.MCH_EPOCH) (hPmc : off ∉ pmcRegs)
    (hDrift : off ∉ allDies.map driftReg) : (s.timeStepped codes).reg off = s.reg off :=
  (State.refit_reg _ codes hPmc hDrift).trans (s.setMedTime_reg _ hEpoch)

theorem State.timeStepped_epoch (s : State) (codes : DriftCodes) :
    (s.timeStepped codes).reg Reg.MCH_EPOCH = (s.setMedTime (s.medTime + 1)).reg Reg.MCH_EPOCH :=
  State.refit_reg _ codes (by decide) (notMem_driftRegs fun _ => driftReg_ne_epoch)

theorem State.timeStepped_medTime {s : State} (h : s.medTime + 1 < 2 ^ 38) (codes : DriftCodes) :
    (s.timeStepped codes).medTime = s.medTime + 1 := (State.medTime_congr (s.timeStepped_epoch codes)).trans (s.setMedTime_medTime h)

theorem State.timeStepped_label (s : State) (codes : DriftCodes) : (s.timeStepped codes).label = s.label :=
  (State.label_congr (s.timeStepped_epoch codes)).trans (s.setMedTime_label _)

theorem State.timeStepped_eq (s : State) (codes : DriftCodes) :
    s.timeStepped codes = { s with med := (s.timeStepped codes).med, regs := (s.timeStepped codes).regs } := by
  have h := (s.setMedTime_regsOnly (s.medTime + 1)).trans (State.refit_regsOnly _ codes)
  unfold State.timeStepped
  dsimp only
  rw [show (s.setMedTime (s.medTime + 1)).refit codes = _ from h]

theorem chanOf_lt (phn st d : Nat) : chanOf phn st d < 34 := by
  unfold chanOf phnGrp parityPos
  split <;> omega

theorem State.canSense_congr {s u : State} (hState : ∀ ch < 34, u.reg (Reg.MCH_STATE ch) = s.reg (Reg.MCH_STATE ch))
    (hSub : ∀ ch < 34, u.reg (Reg.MCH_DIESUB ch) = s.reg (Reg.MCH_DIESUB ch)) (phn st d : Nat) : u.canSense phn st d = s.canSense phn st d := by
  have hCh := chanOf_lt phn st d
  simp only [State.canSense, State.dieGone, State.dieOf, State.fbit, State.fget, hState _ hCh, hSub _ hCh]

theorem State.dieResponds_congr {s u : State} (hState : ∀ ch < 34, u.reg (Reg.MCH_STATE ch) = s.reg (Reg.MCH_STATE ch)) (ch die : Nat) :
    u.dieResponds ch die = s.dieResponds ch die := by
  by_cases hCh : ch < 34
  · simp only [State.dieResponds, State.fbit, State.fget, hState ch hCh]
  · simp only [State.dieResponds, hCh, decide_false, Bool.false_and]

/-- The registers that tell which dies respond and serve are none that a drift step writes. -/
theorem mchState_unwritten {ch : Nat} (h : ch < 34) : Reg.MCH_STATE ch ∉ Reg.MCH_EPOCH :: Reg.MCH_DCLK_STAT :: pmcRegs ++ allDies.map driftReg := by
  simp only [pmcRegs, Reg.MCH_STATE, Reg.MCH_EPOCH, Reg.MCH_DCLK_STAT, Reg.PMC_CNT, List.cons_append, List.mem_cons, List.mem_append, List.mem_map,
    List.mem_range, mem_allDies, driftReg, Reg.MCH_DRIFT]
  rintro (h | h | ⟨i, hi, h⟩ | ⟨x, hx, h⟩) <;> omega

theorem mchDiesub_unwritten {ch : Nat} (h : ch < 34) : Reg.MCH_DIESUB ch ∉ Reg.MCH_EPOCH :: Reg.MCH_DCLK_STAT :: pmcRegs ++ allDies.map driftReg := by
  simp only [pmcRegs, Reg.MCH_DIESUB, Reg.MCH_EPOCH, Reg.MCH_DCLK_STAT, Reg.PMC_CNT, List.cons_append, List.mem_cons, List.mem_append, List.mem_map,
    List.mem_range, mem_allDies, driftReg, Reg.MCH_DRIFT]
  rintro (h | h | ⟨i, hi, h⟩ | ⟨x, hx, h⟩) <;> omega

/-- The registers a drift step may write. -/
theorem State.timeStepped_unwritten (s : State) (codes : DriftCodes) {off : Nat}
    (h : off ∉ Reg.MCH_EPOCH :: Reg.MCH_DCLK_STAT :: pmcRegs ++ allDies.map driftReg) : (s.timeStepped codes).reg off = s.reg off := by
  simp only [List.cons_append, List.mem_cons, List.mem_append, not_or] at h
  obtain ⟨hEpoch, -, hPmc, hDrift⟩ := h
  exact s.timeStepped_reg codes hEpoch hPmc hDrift

theorem State.newLabel_unwritten {s : State} (codes : DriftCodes) {off : Nat}
    (h : off ∉ Reg.MCH_EPOCH :: Reg.MCH_DCLK_STAT :: pmcRegs ++ allDies.map driftReg) : (s.timeStepped codes).newLabel.2.reg off = s.reg off := by
  have hStepped := s.timeStepped_unwritten codes h
  simp only [List.cons_append, List.mem_cons, not_or] at h
  exact (State.newLabel_reg _ h.1 h.2.1).trans hStepped

theorem State.timeStepped_labelUsed (s : State) (codes : DriftCodes) (w : Nat) :
    (s.timeStepped codes).labelUsed w = s.labelUsed w := by
  have hMed := s.timeStepped_med codes
  refine State.labelUsed_congr ?_ ?_ ?_ ?_ (State.canSense_congr (fun ch hCh => s.timeStepped_unwritten codes (mchState_unwritten hCh))
    fun ch hCh => s.timeStepped_unwritten codes (mchDiesub_unwritten hCh)) w
  all_goals rw [hMed]

/-- The refits of a drift step, as its clauses read them. -/
theorem State.timeStepped_driftModel (s : State) (codes : DriftCodes) {x : Nat × Nat} (hx : x ∈ allDies) :
    (s.timeStepped codes).driftModel x =
      if s.dieResponds x.1 x.2 = true then (s.setMedTime (s.medTime + 1)).refitted codes x else s.driftModel x := by
  have hReg : (s.setMedTime (s.medTime + 1)).reg (driftReg x) = s.reg (driftReg x) := s.setMedTime_reg _ (driftReg_ne_epoch hx)
  have hRefit := State.refit_driftModel (s.setMedTime (s.medTime + 1)) codes hx
  rw [State.driftModel_congr hReg, State.dieResponds_congr (s := s) fun ch hCh => s.setMedTime_reg _ fun h => mchState_unwritten hCh (h ▸ List.mem_cons_self ..)]
    at hRefit
  exact hRefit

/-- Whatever a drift step does, the models of the dies are those it refits, once DRIFT is ready. -/
theorem exec_driftStep_driftModel {s : State} (codes : DriftCodes) (hDrift : s.ready rDRIFT = true) :
    ∃ t, exec (.driftStep codes) s = .next t ∧ ∀ x ∈ allDies, t.driftModel x = (s.timeStepped codes).driftModel x := by
  have hLabel : ∀ x ∈ allDies, (s.timeStepped codes).newLabel.2.driftModel x = (s.timeStepped codes).driftModel x := fun x hx =>
    State.driftModel_congr (State.newLabel_reg _ (driftReg_ne_epoch hx) (driftReg_ne_dclkStat hx))
  have hSettle : ∀ (u : State), ∀ x ∈ allDies, u.settle.driftModel x = u.driftModel x := fun u x hx =>
    State.driftModel_congr (u.settle_reg (quietReg_driftReg hx))
  by_cases hStep : (s.medTime + 1) % 64 = 0
  · refine ⟨_, exec_driftStep_boundary hDrift hStep, fun x hx => (hSettle _ x hx).trans (Eq.trans (State.driftModel_congr ?_) (hLabel x hx))⟩
    rw [State.swatchProgram_eq]
    rfl
  · by_cases hHold : (s.timeStepped codes).fget Reg.MCH_DCLK_STAT Fld.MCH_DCLK_STAT_LABEL_HOLD = 1
    · exact ⟨_, exec_driftStep_retries hDrift hStep hHold, fun x hx => (hSettle _ x hx).trans (hLabel x hx)⟩
    · exact ⟨_, exec_driftStep_within hDrift hStep hHold, hSettle _⟩

/-! #### The clauses of a drift step -/

theorem driftStep_within (s : State) (codes : DriftCodes) (hDrift : s.ready rDRIFT = true) (hStep : (s.medTime + 1) % 64 ≠ 0)
    (hTime : s.medTime + 1 < 2 ^ 38) (hHold : s.fget Reg.MCH_DCLK_STAT Fld.MCH_DCLK_STAT_LABEL_HOLD = 0) :
    ∃ t, exec (.driftStep codes) s = .next t ∧ t.medTime = s.medTime + 1 ∧ t.label = s.label ∧
      t.med = { s.med with hankRescue := [], timeSaved := s.medTime + 1, windowSaved := s.med.window } ∧
      Frame s t [.med] (Reg.MCH_EPOCH :: pmcRegs ++ allDies.map fun x => Reg.MCH_DRIFT x.1 x.2) := by
  have hQuiet : (s.timeStepped codes).settle.reg Reg.MCH_EPOCH = (s.timeStepped codes).reg Reg.MCH_EPOCH := State.settle_reg _ (by decide)
  have hHeld : (s.timeStepped codes).fget Reg.MCH_DCLK_STAT Fld.MCH_DCLK_STAT_LABEL_HOLD ≠ 1 := by
    unfold State.fget at hHold ⊢
    rw [s.timeStepped_reg codes (by decide) (by decide) (notMem_driftRegs fun _ => driftReg_ne_dclkStat), hHold]
    decide
  refine ⟨_, exec_driftStep_within hDrift hStep hHeld, (State.medTime_congr hQuiet).trans (State.timeStepped_medTime hTime codes),
    (State.label_congr hQuiet).trans (s.timeStepped_label codes), (State.settle_med _).trans (s.timeStepped_med codes),
    frame_settle ?_ (fun p hp => ?_) fun off hOff => ?_⟩
  · rw [s.timeStepped_eq]
  · simp only [List.mem_cons, List.not_mem_nil, or_false, not_or] at hp
    rw [s.timeStepped_eq]
    cases p with
    | regs | med => simp at hp
    | cmds => exact ⟨rfl, rfl⟩
    | _ => rfl
  · simp only [List.cons_append, List.mem_cons, List.mem_append, not_or] at hOff
    exact s.timeStepped_reg codes hOff.1 hOff.2.1 hOff.2.2

theorem driftStep_refits (s : State) (ch die : Nat) (codes : List (Nat × Nat)) (hDrift : s.ready rDRIFT = true) (hResponds : s.dieResponds ch die = true)
    (hTime : s.medTime + 1 < 2 ^ 38) (hPoints : s.fitPoints ch die (s.medTime + 1) codes ≠ []) :
    ∃ t, exec (.driftStep [(ch, die, codes)]) s = .next t ∧
      t.driftModel (ch, die) = refitTo (s.driftModel (ch, die)).1 (s.driftModel (ch, die)).2 (s.fitPoints ch die (s.medTime + 1) codes) := by
  have hx : (ch, die) ∈ allDies := by
    simp only [State.dieResponds, Bool.and_eq_true, decide_eq_true_eq] at hResponds
    exact mem_allDies.2 hResponds.1.1
  have hStepPoints : (s.setMedTime (s.medTime + 1)).stepPoints [(ch, die, codes)] (ch, die) = s.fitPoints ch die (s.medTime + 1) codes := by
    simp only [State.stepPoints, List.find?_cons, BEq.rfl, Bool.and_self, s.setMedTime_medTime hTime]
    rfl
  obtain ⟨t, hExec, hModel⟩ := exec_driftStep_driftModel [(ch, die, codes)] hDrift
  refine ⟨t, hExec, ?_⟩
  rw [hModel _ hx, s.timeStepped_driftModel _ hx, if_pos hResponds, State.refitted, hStepPoints, if_neg hPoints,
    State.driftModel_congr (s.setMedTime_reg _ (driftReg_ne_epoch hx))]

theorem driftStep_bounded (s : State) (ch die : Nat) (codes : DriftCodes) (hCh : ch < 34) (hDie : die < 9) :
    ∃ t, exec (.driftStep codes) s = .next t ∧
      refitOk (s.driftModel (ch, die)).1 (s.driftModel (ch, die)).2 (t.driftModel (ch, die)).1 (t.driftModel (ch, die)).2 = true := by
  have hx : (ch, die) ∈ allDies := mem_allDies.2 ⟨hCh, hDie⟩
  by_cases hDrift : s.ready rDRIFT = true
  · obtain ⟨t, hExec, hModel⟩ := exec_driftStep_driftModel codes hDrift
    refine ⟨t, hExec, ?_⟩
    rw [hModel _ hx, s.timeStepped_driftModel _ hx]
    split
    · have hOld : (s.setMedTime (s.medTime + 1)).driftModel (ch, die) = s.driftModel (ch, die) :=
        State.driftModel_congr (s.setMedTime_reg _ (driftReg_ne_epoch hx))
      have hOk := State.refitOk_refitted (s.setMedTime (s.medTime + 1)) codes (ch, die)
      rwa [hOld] at hOk
    · exact refitOk_refl _ _
  · refine ⟨_, exec_driftStep_held (Bool.eq_false_iff.2 hDrift), ?_⟩
    rw [State.driftModel_congr (s.settle_reg (quietReg_driftReg hx))]
    exact refitOk_refl _ _

section
variable {s : State} {codes : DriftCodes}

/-- The state after a drift step at an epoch boundary. -/
def State.epochStepped (s : State) (codes : DriftCodes) : State := (s.timeStepped codes).newLabel.2.swatchProgram

theorem State.epochStepped_eq : s.epochStepped codes =
    { s with adm := (s.epochStepped codes).adm, med := (s.epochStepped codes).med, regs := (s.epochStepped codes).regs } := by
  unfold State.epochStepped
  rw [State.swatchProgram_eq, State.newLabel_eq]
  generalize State.swatchProgram _ = v, (s.timeStepped codes).newLabel.2 = w
  rw [s.timeStepped_eq]

theorem State.epochStepped_reg (off : Nat) : (s.epochStepped codes).reg off = (s.timeStepped codes).newLabel.2.reg off := by
  unfold State.epochStepped
  rw [State.swatchProgram_eq]
  rfl

theorem State.epochStepped_lines : (s.epochStepped codes).med.lines = s.med.lines := by
  unfold State.epochStepped
  rw [State.swatchProgram_lines, State.newLabel_lines, s.timeStepped_med]

variable (hFree : s.labelUsed ((s.label + 1) % 64) = false)
include hFree

theorem State.timeStepped_nextFree : (s.timeStepped codes).labelUsed (((s.timeStepped codes).label + 1) % 64) = false := by
  rw [s.timeStepped_labelUsed, s.timeStepped_label]
  exact hFree

theorem State.epochStepped_medTime (hTime : s.medTime + 1 < 2 ^ 38) : (s.epochStepped codes).medTime = s.medTime + 1 :=
  (State.medTime_congr (State.epochStepped_reg _)).trans
    ((State.newLabel_free_medTime (State.timeStepped_nextFree hFree)).trans (State.timeStepped_medTime hTime codes))

theorem State.epochStepped_label : (s.epochStepped codes).label = (s.label + 1) % 64 := by
  rw [State.label_congr (State.epochStepped_reg _), State.newLabel_free_label (State.timeStepped_nextFree hFree), s.timeStepped_label]

theorem State.epochStepped_labels (hTime : s.medTime + 1 < 2 ^ 38) :
    tget (s.epochStepped codes).med.labels ((s.label + 1) % 64) = some ((s.medTime + 1) / 64, (s.medTime + 1) % 64) := by
  unfold State.epochStepped
  rw [State.swatchProgram_eq, State.newLabel_free (State.timeStepped_nextFree hFree), ← State.timeStepped_medTime hTime codes,
    ← s.timeStepped_label codes]
  exact tget_tput_same _ _ _

theorem State.epochStepped_served (hTime : s.medTime + 1 < 2 ^ 38) {x : Nat × Nat} (hx : x ∈ allDies) (hResponds : s.dieResponds x.1 x.2 = true) :
    (s.epochStepped codes).SwatchServed (s.medTime + 1) x := by
  have hTime' : (s.timeStepped codes).newLabel.2.medTime = s.medTime + 1 :=
    (State.newLabel_free_medTime (State.timeStepped_nextFree hFree)).trans (State.timeStepped_medTime hTime codes)
  have hSame : (s.timeStepped codes).newLabel.2.dieResponds x.1 x.2 = s.dieResponds x.1 x.2 :=
    State.dieResponds_congr (fun ch hCh => State.newLabel_unwritten codes (mchState_unwritten hCh)) _ _
  rw [← hTime']
  exact State.swatchProgram_served _ hx (hSame.trans hResponds)

theorem driftStep_boundary (hDrift : s.ready rDRIFT = true) (hStep : (s.medTime + 1) % 64 = 0) (hTime : s.medTime + 1 < 2 ^ 38) :
    ∃ t, exec (.driftStep codes) s = .next t ∧ t.medTime = s.medTime + 1 ∧ t.label = (s.label + 1) % 64 ∧
      tget t.med.labels ((s.label + 1) % 64) = some ((s.medTime + 1) / 64, 0) ∧
      (∀ x ∈ allDies, s.dieResponds x.1 x.2 = true → t.med.swatchDue.contains x = true ∨
        ∃ p ∈ t.med.progs, p.2.ch = x.1 ∧ p.2.die = x.2 ∧ p.2.kind = .swatch ((s.medTime + 1) / 64) 0) ∧
      t.med.lines = s.med.lines ∧
      Frame s t [.adm, .med] (Reg.MCH_EPOCH :: Reg.MCH_DCLK_STAT :: pmcRegs ++ allDies.map fun x => Reg.MCH_DRIFT x.1 x.2) := by
  have hEpoch : (s.epochStepped codes).settle.reg Reg.MCH_EPOCH = (s.epochStepped codes).reg Reg.MCH_EPOCH := State.settle_reg _ (by decide)
  refine ⟨_, exec_driftStep_boundary hDrift hStep, (State.medTime_congr hEpoch).trans (State.epochStepped_medTime hFree hTime),
    (State.label_congr hEpoch).trans (State.epochStepped_label hFree), ?_, fun x hx hResponds => ?_,
    (congrArg Medium.lines (State.settle_med _)).trans (State.epochStepped_lines), frame_settle ?_ (fun p hp => ?_) fun off hOff => ?_⟩
  · have hLabels := State.epochStepped_labels (codes := codes) hFree hTime
    rw [hStep] at hLabels
    exact (congrArg (fun m : Medium => tget m.labels _) (State.settle_med _)).trans hLabels
  · have hServed := State.epochStepped_served (codes := codes) hFree hTime hx hResponds
    rw [State.settle_med]
    obtain hDue | ⟨k, p, -, hGet, hCh, hDie, hKind⟩ := hServed
    · exact .inl (List.contains_iff_mem.2 hDue)
    · rw [hStep] at hKind
      exact .inr ⟨(k, p), mem_of_tget hGet, hCh, hDie, hKind⟩
  · exact (congrArg State.pending (State.epochStepped_eq)).trans rfl
  · simp only [List.mem_cons, List.not_mem_nil, or_false, not_or] at hp
    rw [show (s.timeStepped codes).newLabel.2.swatchProgram = _ from State.epochStepped_eq]
    cases p with
    | regs | adm | med => simp at hp
    | cmds => exact ⟨rfl, rfl⟩
    | _ => rfl
  · exact (State.epochStepped_reg off).trans (State.newLabel_unwritten codes hOff)

end

/-! ### The drift clock (O19) -/

/-- What MCH_DCLK and MCH_DCLK_STAT show of the host's gap. -/
def State.hostShown (s : State) (host conflict neg : Nat) : State :=
  let st := Reg.MCH_DCLK_STAT
  let s1 := (s.fset Reg.MCH_DCLK Fld.MCH_DCLK_GAP_HOST host).fset st Fld.MCH_DCLK_STAT_HOSTCHK 1
  (s1.fset st Fld.MCH_DCLK_STAT_CONFLICT conflict).fset st Fld.MCH_DCLK_STAT_NEGATIVE neg

/-- The host's gap has been checked. -/
def State.gapChecked (s : State) : State := { s with med := { s.med with gapDone := true } }

theorem State.gapChecked_reg (s : State) (off : Nat) : s.gapChecked.reg off = s.reg off := rfl

theorem State.hostCheck_cases (s : State) : s.hostCheck = s ∨ ∃ host conflict neg sev args,
    s.hostCheck = (s.hostShown host conflict neg).gapChecked.eventSev evDRIFT sev 0 0xFFFF 0 args := by
  unfold State.hostCheck
  split
  · exact .inl rfl
  · split
    · exact .inl rfl
    · exact .inr ⟨_, _, _, _, _, rfl⟩

theorem State.hostShown_reg (s : State) (host conflict neg : Nat) {off : Nat} (hDclk : off ≠ Reg.MCH_DCLK) (hStat : off ≠ Reg.MCH_DCLK_STAT) :
    (s.hostShown host conflict neg).reg off = s.reg off := by
  unfold State.hostShown
  dsimp only
  rw [State.reg_fset_other _ _ _ _ hStat, State.reg_fset_other _ _ _ _ hStat, State.reg_fset_other _ _ _ _ hStat, State.reg_fset_other _ _ _ _ hDclk]

/-- From `s` to `u` medium work has gone on and events were raised, but no line is written and the saved time stands. -/
def MediumWork (s u : State) : Prop :=
  u = { s with
    outbox := u.outbox, regs := u.regs, hwSet := u.hwSet, adm := u.adm, tlc := u.tlc, logs := u.logs, hist := u.hist
    med := { u.med with timeSaved := s.med.timeSaved, lines := s.med.lines } }

namespace MediumWork

theorem trans {s u v : State} (h : MediumWork s u) (h' : MediumWork u v) : MediumWork s v :=
  Eq.trans h' (by rw [show u = _ from h])

theorem foldl {α : Type} {f : State → α → State} (h : ∀ s x, MediumWork s (f s x)) (l : List α) (s : State) : MediumWork s (l.foldl f s) := by
  induction l generalizing s with
  | nil => rfl
  | cons x l ih => exact (h s x).trans (ih _)

theorem timeSaved {s u : State} (h : MediumWork s u) : u.med.timeSaved = s.med.timeSaved := (congrArg (fun s : State => s.med.timeSaved) h).trans rfl

theorem lines {s u : State} (h : MediumWork s u) : u.med.lines = s.med.lines := (congrArg (fun s : State => s.med.lines) h).trans rfl

theorem pending {s u : State} (h : MediumWork s u) : u.pending = s.pending := (congrArg State.pending h).trans rfl

theorem same_part {s u : State} (h : MediumWork s u) {p : Part} (hp : p ∉ eventParts ++ [.regs, .adm, .med, .tlc]) : p.same s u := by
  rw [show u = _ from h]
  cases p with
  | regs | outbox | adm | tlc | med | logs | hist => simp [eventParts] at hp
  | cmds => exact ⟨rfl, rfl⟩
  | _ => rfl

theorem of_regsOnly {s u : State} (h : RegsOnly s u) : MediumWork s u := by
  rw [show u = _ from h]
  rfl

theorem fset (s : State) (off : Nat) (f : Field) (v : Nat) : MediumWork s (s.fset off f v) := rfl

theorem count (s : State) (ev inst n cls master : Nat) (lhn : Option Nat) : MediumWork s (s.count ev inst n cls master lhn) := of_regsOnly (s.count_eq ..)

theorem eventSev (s : State) (cls sev akind ld addr : Nat) (args : List Nat) : MediumWork s (s.eventSev cls sev akind ld addr args) := by
  unfold State.eventSev
  rw [State.record_eq]
  rfl

theorem setReady (s : State) (n : Nat) (v : Bool) : MediumWork s (s.setReady n v) := by
  have hBit : MediumWork s (s.fsetBit Reg.RDY_STATUS Fld.RDY_STATUS_READY n v) := by
    unfold State.fsetBit
    dsimp only
    split <;> rfl
  unfold State.setReady
  dsimp only
  split
  · rfl
  · refine hBit.trans ?_
    cases v with
    | false =>
      split
      · exact eventSev ..
      · rfl
    | true =>
      refine trans (u := State.setReg _ (Reg.RDY_TIME n) (BitVec.ofNat 64 s.clk.now)) rfl ?_
      split
      · exact eventSev ..
      · rfl

theorem newLabel (s : State) : MediumWork s s.newLabel.2 := by
  unfold State.newLabel
  dsimp only
  split <;> rfl

theorem swatchProgram (s : State) : MediumWork s s.swatchProgram := by
  rw [State.swatchProgram_eq]
  rfl

theorem catchUp (s : State) : MediumWork s s.catchUp := by
  unfold State.catchUp
  dsimp only
  exact ((trans (u := { s with med := { s.med with sweepPages := 272 * 2 ^ 26 } }) rfl (fset ..)).trans (fset ..)).trans (fset ..)

theorem countProg (s : State) (ev : Nat) (p : Program) : MediumWork s (s.countProg ev p) := by
  unfold State.countProg
  exact count ..

theorem gapChecked (s : State) : MediumWork s s.gapChecked := rfl

theorem hostCheck (s : State) : MediumWork s s.hostCheck := by
  obtain hSame | ⟨host, conflict, neg, sev, args, hEvent⟩ := s.hostCheck_cases
  · rw [hSame]
    rfl
  · rw [hEvent]
    have hShown : MediumWork s (s.hostShown host conflict neg) := by
      unfold State.hostShown
      exact (((fset ..).trans (fset ..)).trans (fset ..)).trans (fset ..)
    exact (hShown.trans (gapChecked _)).trans (eventSev ..)

theorem tryStitch (s : State) (id : Nat) : MediumWork s (s.tryStitch id) := by
  unfold State.tryStitch
  split
  · rfl
  · split
    · rfl
    · dsimp only
      split
      · exact (trans (by rfl) (countProg ..)).trans (countProg ..)
      · exact trans (by rfl) (countProg ..)

theorem setMb (s : State) (mb : Tbl MbEntry) : MediumWork s (s.setMb mb) := by
  unfold State.setMb State.mbStat
  dsimp only
  exact ((trans (u := { s with tlc := { s.tlc with mb := mb } }) rfl (fset ..)).trans (fset ..)).trans (fset ..)

theorem mbIssued (s : State) : MediumWork s s.mbIssued := by
  unfold State.mbIssued
  split
  · exact setMb ..
  · rfl

theorem senseStart (s : State) : MediumWork s s.senseStart := by
  unfold State.senseStart
  refine (foldl (fun u e => ?_) _ s).trans (mbIssued _)
  split
  · split <;> rfl
  · rfl

theorem partitionFree (s : State) : MediumWork s s.partitionFree := by
  have hPress : MediumWork s s.pressStitches := foldl tryStitch _ s
  unfold State.partitionFree
  split
  · exact hPress
  · exact hPress.trans (senseStart _)

end MediumWork

/-! #### Medium time and readiness through the rest of the command -/

/-- The registers that medium work and an event may write. -/
def workRegs : List Nat := [Reg.MCH_DCLK, Reg.MCH_DCLK_STAT, Reg.HST_STAT, Reg.TLC_WT_STAT] ++ pmcRegs

theorem State.countProg_reg (s : State) (ev : Nat) (p : Program) {off : Nat} (h : off ∉ pmcRegs) : (s.countProg ev p).reg off = s.reg off := by
  unfold State.countProg
  exact s.count_reg _ _ _ _ _ _ h

theorem State.tryStitch_reg (s : State) (id : Nat) {off : Nat} (h : off ∉ pmcRegs) : (s.tryStitch id).reg off = s.reg off := by
  unfold State.tryStitch
  split
  · rfl
  · split
    · rfl
    · dsimp only
      split
      · exact (State.countProg_reg _ _ _ h).trans (State.countProg_reg _ _ _ h)
      · exact State.countProg_reg _ _ _ h

theorem State.mbIssued_reg (s : State) {off : Nat} (h : off ≠ Reg.TLC_WT_STAT) : s.mbIssued.reg off = s.reg off := by
  unfold State.mbIssued
  split
  · unfold State.setMb State.mbStat
    dsimp only
    rw [State.reg_fset_other _ _ _ _ h, State.reg_fset_other _ _ _ _ h, State.reg_fset_other _ _ _ _ h]
    rfl
  · rfl

theorem State.senseStart_reg (s : State) {off : Nat} (h : off ≠ Reg.TLC_WT_STAT) : s.senseStart.reg off = s.reg off := by
  unfold State.senseStart
  rw [State.mbIssued_reg _ h]
  refine foldl_keeps (fun s : State => s.reg off) (fun u e => ?_) _ s
  split
  · split <;> rfl
  · rfl

theorem State.partitionFree_reg (s : State) {off : Nat} (h : off ∉ workRegs) : s.partitionFree.reg off = s.reg off := by
  simp only [workRegs, List.mem_append, List.mem_cons, not_or] at h
  obtain ⟨⟨-, -, -, hWt, -⟩, hPmc⟩ := h
  have hPress : s.pressStitches.reg off = s.reg off := foldl_keeps (fun s : State => s.reg off) (fun u id => u.tryStitch_reg id hPmc) _ s
  unfold State.partitionFree
  split
  · exact hPress
  · exact (State.senseStart_reg _ hWt).trans hPress

theorem State.hostCheck_reg (s : State) {off : Nat} (h : off ∉ workRegs) : s.hostCheck.reg off = s.reg off := by
  simp only [workRegs, List.mem_append, List.mem_cons, not_or] at h
  obtain ⟨⟨hDclk, hStat, hHst, -⟩, -⟩ := h
  obtain hSame | ⟨host, conflict, neg, sev, args, hEvent⟩ := s.hostCheck_cases
  · rw [hSame]
  · rw [hEvent, State.eventSev_reg _ _ _ _ _ _ _ hHst, State.gapChecked_reg]
    exact s.hostShown_reg host conflict neg hDclk hStat

theorem State.fbit_fsetBit_true (s : State) (off : Nat) {f : Field} {b : Nat} (hFits : f.Fits) (hb : b < fwidth f) :
    (s.fsetBit off f b true).fbit off f b = true := by
  unfold State.fsetBit
  dsimp only
  split
  next hSet => exact hSet
  next hClear =>
    unfold State.fbit
    rw [if_pos rfl, State.fget_fset_mod _ _ _ _ hFits, Nat.testBit_mod_two_pow, Nat.add_comm, Nat.testBit_two_pow_add_eq]
    simp only [hb, decide_true, Bool.true_and, Bool.not_eq_true', Bool.eq_false_iff.2 hClear]

theorem State.ready_congr {s u : State} (h : u.reg Reg.RDY_STATUS = s.reg Reg.RDY_STATUS) (n : Nat) : u.ready n = s.ready n := by
  simp only [State.ready, State.fbit, State.fget, h]

theorem State.setReady_reg (s : State) (n : Nat) (v : Bool) {off : Nat} (hTime : off ≠ Reg.RDY_TIME n) (hHst : off ≠ Reg.HST_STAT)
    (hReady : s.ready n ≠ v) : (s.setReady n v).reg off = (s.fsetBit Reg.RDY_STATUS Fld.RDY_STATUS_READY n v).reg off := by
  unfold State.setReady
  dsimp only
  rw [if_neg hReady]
  cases v with
  | false =>
    split
    · exact State.event_reg _ _ _ _ _ _ hHst
    · rfl
  | true =>
    split
    · exact (State.event_reg _ _ _ _ _ _ hHst).trans (State.reg_setReg_other _ _ _ hTime)
    · exact State.reg_setReg_other _ _ _ hTime

theorem State.setReady_drift_ready (s : State) : (s.setReady rDRIFT true).ready rDRIFT = true := by
  by_cases h : s.ready rDRIFT = true
  · unfold State.setReady
    rw [if_pos h]
    exact h
  · rw [State.ready_congr (s.setReady_reg rDRIFT true (by decide) (by decide) h)]
    exact s.fbit_fsetBit_true Reg.RDY_STATUS (by decide) (by decide)

theorem State.setReady_drift_epoch (s : State) : (s.setReady rDRIFT true).reg Reg.MCH_EPOCH = s.reg Reg.MCH_EPOCH := by
  by_cases h : s.ready rDRIFT = true
  · unfold State.setReady
    rw [if_pos h]
  · rw [s.setReady_reg rDRIFT true (by decide) (by decide) h]
    unfold State.fsetBit
    dsimp only
    split
    · rfl
    · exact State.reg_fset_other _ _ _ _ (by decide)

/-! #### The command -/

/-- Medium time has been measured: DRIFT is ready, the host's gap is checked, and the senses that waited start (R108, R111). -/
def State.clockDone (u : State) : State := (u.setReady rDRIFT true).hostCheck.partitionFree

theorem State.clockDone_mediumWork (u : State) : MediumWork u u.clockDone :=
  ((MediumWork.setReady ..).trans (MediumWork.hostCheck _)).trans (MediumWork.partitionFree _)

theorem State.clockDone_reg (u : State) {off : Nat} (h : off ∉ workRegs) : u.clockDone.reg off = (u.setReady rDRIFT true).reg off :=
  (State.partitionFree_reg _ h).trans (State.hostCheck_reg _ h)

theorem State.clockDone_ready (u : State) : u.clockDone.ready rDRIFT = true :=
  (State.ready_congr (u.clockDone_reg (by decide)) _).trans u.setReady_drift_ready

theorem State.clockDone_medTime (u : State) : u.clockDone.medTime = u.medTime :=
  State.medTime_congr ((u.clockDone_reg (by decide)).trans u.setReady_drift_epoch)

/-- The saved time, as the drift clock sets it. -/
def State.withTimeSaved (s : State) (now : Nat) : State := { s with med := { s.med with timeSaved := now } }

/-- What MCH_DCLK and MCH_DCLK_STAT show of a gap that a number of dies measured, medium time set. -/
def State.gapShown (s : State) (now gap dies : Nat) (norec low : Bool) : State :=
  let st := Reg.MCH_DCLK_STAT
  let s1 := ((s.setMedTime now).fset Reg.MCH_DCLK Fld.MCH_DCLK_GAP_DRIFT (min gap (2 ^ 32 - 1))).fset st Fld.MCH_DCLK_STAT_DIES dies
  ((s1.fset st Fld.MCH_DCLK_STAT_SHORT (if gap < 1 then 1 else 0)).fset st Fld.MCH_DCLK_STAT_NOREC (if norec then 1 else 0)).fset
    st Fld.MCH_DCLK_STAT_LOWCONF (if low then 1 else 0)

/-- A gap of an epoch or more calls for a label and the catch-up sweep (R110, R115). -/
def State.gapCaughtUp (s : State) (gap : Nat) : State :=
  let st := Reg.MCH_DCLK_STAT
  if gap < 64 then (s.fset st Fld.MCH_DCLK_STAT_NEWLABEL 0).fset st Fld.MCH_DCLK_STAT_CATCHUP 0
  else
    let (made, x) := s.newLabel
    ((if made then x.swatchProgram else x).fset st Fld.MCH_DCLK_STAT_NEWLABEL (if made then 1 else 0)).catchUp

/-- The measurement itself, for the time `down` and whether it is recorded. -/
def State.gapMeasured (s : State) (v : List (Nat × Nat × Nat)) (norec : Bool) (down : Nat) : State :=
  let gaps := s.dieGaps v down
  let gap := median gaps
  let low := decide (2 * gaps.getD (gaps.length / 4) 0 < gaps.getD (gaps.length * 3 / 4) 0)
  let now := max (down + gap) s.med.timeSaved
  let s3 := ((s.withTimeSaved now).gapShown now gap gaps.length norec low).gapCaughtUp gap
  if norec || low then s3.event evDRIFT 0 0xFFFF 0 [gap] else s3

section
variable {s : State} (hMedia : s.ready rMEDIA = true) (hDrift : s.ready rDRIFT = false) (hHold : s.plat.coldHold = false)
include hMedia hDrift hHold

theorem exec_driftClock_recorded {e st : Nat} (hDown : s.med.eDown = some (e, st)) (v : List (Nat × Nat × Nat)) :
    exec (.driftClock v) s = nextState (s.gapMeasured v false (e * 64 + st)).clockDone := by
  change execDriftClock v s = _
  unfold execDriftClock
  rw [if_pos (And.intro hMedia (And.intro hDrift hHold)), hDown]
  rfl

theorem exec_driftClock_unrecorded (hDown : s.med.eDown = none) (v : List (Nat × Nat × Nat)) :
    exec (.driftClock v) s = nextState (s.gapMeasured v true (s.swatchEpoch * 64 + 63)).clockDone := by
  change execDriftClock v s = _
  unfold execDriftClock
  rw [if_pos (And.intro hMedia (And.intro hDrift hHold)), hDown]
  rfl

end

theorem State.gapShown_mediumWork (s : State) (now gap dies : Nat) (norec low : Bool) : MediumWork s (s.gapShown now gap dies norec low) := by
  unfold State.gapShown
  dsimp only
  exact (((((MediumWork.of_regsOnly (s.setMedTime_regsOnly now)).trans (MediumWork.fset ..)).trans (MediumWork.fset ..)).trans (MediumWork.fset ..)).trans
    (MediumWork.fset ..)).trans (MediumWork.fset ..)

theorem State.gapCaughtUp_mediumWork (s : State) (gap : Nat) : MediumWork s (s.gapCaughtUp gap) := by
  unfold State.gapCaughtUp
  dsimp only
  split
  · exact (MediumWork.fset ..).trans (MediumWork.fset ..)
  · refine MediumWork.trans ?_ ((MediumWork.fset ..).trans (MediumWork.catchUp _))
    split
    · exact (MediumWork.newLabel s).trans (MediumWork.swatchProgram _)
    · exact MediumWork.newLabel s

theorem State.gapMeasured_mediumWork (s : State) (v : List (Nat × Nat × Nat)) (norec : Bool) (down : Nat) :
    MediumWork (s.withTimeSaved (max (down + median (s.dieGaps v down)) s.med.timeSaved)) (s.gapMeasured v norec down) := by
  have hWork : ∀ now gap dies low, MediumWork (s.withTimeSaved now) (((s.withTimeSaved now).gapShown now gap dies norec low).gapCaughtUp gap) :=
    fun _ _ _ _ => (State.gapShown_mediumWork ..).trans (State.gapCaughtUp_mediumWork ..)
  unfold State.gapMeasured
  dsimp only
  split
  · exact (hWork ..).trans (MediumWork.eventSev ..)
  · exact hWork ..

/-- What holds once medium work has ended the command, whatever the saved time is set to. -/
theorem State.clockDone_keeps {s u : State} {now : Nat} (hWork : MediumWork (s.withTimeSaved now) u) (hNow : s.med.timeSaved ≤ now) :
    u.clockDone.settle.ready rDRIFT = true ∧ s.med.timeSaved ≤ u.clockDone.settle.med.timeSaved ∧ u.clockDone.settle.med.lines = s.med.lines ∧
      Keeps s u.clockDone.settle (eventParts ++ [.regs, .adm, .med, .tlc]) := by
  have hDone := hWork.trans u.clockDone_mediumWork
  refine ⟨(State.ready_congr (State.settle_reg _ (by decide)) _).trans u.clockDone_ready, ?_, ?_, ?_, fun p hp => Part.same_settle (fun h => ?_) ?_⟩
  · rw [State.settle_med, hDone.timeSaved]
    exact hNow
  · rw [State.settle_med, hDone.lines]
    rfl
  · rw [State.settle_pending, hDone.pending]
    rfl
  · subst h
    exact hp (by decide)
  · have hSame := hDone.same_part hp
    cases p with
    | med => exact absurd (by decide) hp
    | _ => exact hSame

theorem driftClock_sets (s : State) (v : List (Nat × Nat × Nat)) (hMedia : s.ready rMEDIA = true) (hDrift : s.ready rDRIFT = false)
    (hHold : s.plat.coldHold = false) :
    ∃ t, exec (.driftClock v) s = .next t ∧ t.ready rDRIFT = true ∧ s.med.timeSaved ≤ t.med.timeSaved ∧ t.med.lines = s.med.lines ∧
      Keeps s t (eventParts ++ [.regs, .adm, .med, .tlc]) := by
  cases hDown : s.med.eDown with
  | none =>
    exact ⟨_, exec_driftClock_unrecorded hMedia hDrift hHold hDown v, State.clockDone_keeps (s.gapMeasured_mediumWork v true _) (Nat.le_max_right _ _)⟩
  | some time =>
    exact ⟨_, exec_driftClock_recorded hMedia hDrift hHold hDown v, State.clockDone_keeps (s.gapMeasured_mediumWork v false _) (Nat.le_max_right _ _)⟩

theorem State.dieGaps_nil (s : State) (down : Nat) : s.dieGaps [] down = [] := by
  unfold State.dieGaps
  simp only [List.find?_nil, ite_self, List.filterMap_none]
  rfl

theorem State.gapShown_reg (s : State) (now gap dies : Nat) (norec low : Bool) {off : Nat} (hDclk : off ≠ Reg.MCH_DCLK) (hStat : off ≠ Reg.MCH_DCLK_STAT) :
    (s.gapShown now gap dies norec low).reg off = (s.setMedTime now).reg off := by
  unfold State.gapShown
  dsimp only
  rw [State.reg_fset_other _ _ _ _ hStat, State.reg_fset_other _ _ _ _ hStat, State.reg_fset_other _ _ _ _ hStat, State.reg_fset_other _ _ _ _ hStat,
    State.reg_fset_other _ _ _ _ hDclk]

theorem State.gapCaughtUp_reg_short (s : State) {gap off : Nat} (hShort : gap < 64) (hStat : off ≠ Reg.MCH_DCLK_STAT) :
    (s.gapCaughtUp gap).reg off = s.reg off := by
  unfold State.gapCaughtUp
  rw [if_pos hShort, State.reg_fset_other _ _ _ _ hStat, State.reg_fset_other _ _ _ _ hStat]

/-- Without a measurement the gap is zero and medium time is that of the record, or the saved one. -/
theorem State.gapMeasured_nil_medTime {s : State} {down : Nat} (hTime : max down s.med.timeSaved < 2 ^ 38) :
    (s.gapMeasured [] false down).medTime = max down s.med.timeSaved := by
  have hReg : (s.gapMeasured [] false down).reg Reg.MCH_EPOCH =
      ((s.withTimeSaved (max down s.med.timeSaved)).setMedTime (max down s.med.timeSaved)).reg Reg.MCH_EPOCH := by
    unfold State.gapMeasured
    simp only [State.dieGaps_nil, show median [] = 0 from rfl, List.length_nil, List.getD_nil, Nat.mul_zero, Nat.lt_irrefl, decide_false, Bool.or_false,
      Bool.false_eq_true, if_false, Nat.add_zero]
    exact (State.gapCaughtUp_reg_short _ (by decide) (by decide)).trans (State.gapShown_reg _ _ _ _ _ _ (by decide) (by decide))
  exact (State.medTime_congr hReg).trans (State.setMedTime_medTime _ hTime)

theorem driftClock_noGap (s : State) (e st : Nat) (hMedia : s.ready rMEDIA = true) (hDrift : s.ready rDRIFT = false)
    (hHold : s.plat.coldHold = false) (hDown : s.med.eDown = some (e, st)) (hTime : max (e * 64 + st) s.med.timeSaved < 2 ^ 38) :
    ∃ t, exec (.driftClock []) s = .next t ∧ t.medTime = max (e * 64 + st) s.med.timeSaved ∧ t.med.timeSaved = t.medTime := by
  have hMedTime : (s.gapMeasured [] false (e * 64 + st)).clockDone.settle.medTime = max (e * 64 + st) s.med.timeSaved := by
    rw [State.medTime_congr (State.settle_reg _ (by decide)), State.clockDone_medTime, State.gapMeasured_nil_medTime hTime]
  have hWork := (s.gapMeasured_mediumWork [] false (e * 64 + st)).trans (State.clockDone_mediumWork _)
  refine ⟨_, exec_driftClock_recorded hMedia hDrift hHold hDown [], hMedTime, ?_⟩
  rw [hMedTime, State.settle_med, hWork.timeSaved, State.dieGaps_nil]
  rfl

/-- Settles O19: a drift step writes medium time, the models of the dies that respond, each within the bound of R106, and at an epoch boundary the label and
the swatch programs; the drift clock sets the saved time, and what follows it is medium work that writes no line. -/
theorem driftPassesMediumTime : Obligations.DriftPassesMediumTime := by
  unfold Obligations.DriftPassesMediumTime
  refine ⟨⟨driftStep_within, fun s ch die codes hDrift hResponds hTime hPoints => ?_, driftStep_bounded,
    fun s codes hDrift hStep hTime hFree => driftStep_boundary hFree hDrift hStep hTime⟩,
    fun s v hMedia hDrift hHold => driftClock_sets s v hMedia hDrift hHold,
    fun s e st hMedia hDrift hHold hDown hTime => driftClock_noGap s e st hMedia hDrift hHold hDown hTime⟩
  exact driftStep_refits s ch die codes hDrift hResponds hTime hPoints

end Sys2Proof.Machine

namespace Sys2Proof.Machine

/-! ### Parts of the state that an operation keeps -/

namespace Keeps

variable {s t u : State} {ps qs : List Part}

theorem refl (s : State) (ps : List Part) : Keeps s s ps := ⟨rfl, fun p _ => by cases p <;> simp [Part.same, RegsKept]⟩

theorem trans (h : Keeps s t ps) (h' : Keeps t u ps) : Keeps s u ps := by
  refine ⟨h'.1.trans h.1, fun p hp => ?_⟩
  have hFirst := h.2 p hp
  have hThen := h'.2 p hp
  cases p with
  | regs => exact fun off hQuiet hOff => (hThen off hQuiet hOff).trans (hFirst off hQuiet hOff)
  | cmds => exact ⟨hThen.1.trans hFirst.1, hThen.2.trans hFirst.2⟩
  | _ => exact Eq.trans hThen hFirst

/-- Settling changes the live fields alone, which no part holds. -/
theorem settle (h : Keeps s u ps) : Keeps s u.settle ps := by
  refine h.trans ⟨u.settle_pending, fun p _ => ?_⟩
  cases p with
  | regs => exact fun off hQuiet _ => u.settle_reg hQuiet
  | cmds => exact ⟨u.settle_cmds, u.settle_nextCmd⟩
  | _ => simp [Part.same]

end Keeps

end Sys2Proof.Machine

namespace Sys2Proof.Machine

/-! ### The completion of a command (R377, R387) -/

theorem tget_map_same_key {α : Type} (f : Nat × α → Nat × α) (hKey : ∀ e, (f e).1 = e.1) (t : Tbl α) (k : Nat) :
    tget (t.map f) k = (tget t k).map fun v => (f (k, v)).2 := by
  induction t with
  | nil => rfl
  | cons e t ih =>
    obtain ⟨i, v⟩ := e
    by_cases h : i = k
    · subst h
      simp [tget, hKey]
    · simp [tget, hKey, h, ih]

theorem tget_filter_of_keeps {α : Type} {p : Nat × α → Bool} {t : Tbl α} {k : Nat} {v : α} (h : tget t k = some v) (hKeeps : p (k, v) = true) :
    tget (t.filter p) k = some v := by
  induction t with
  | nil => simp [tget] at h
  | cons e t ih =>
    obtain ⟨i, w⟩ := e
    by_cases hKey : i = k
    · subst hKey
      obtain rfl : w = v := by simpa [tget] using h
      simp [tget, hKeeps]
    · have hRest := ih (by simpa [tget, hKey] using h)
      by_cases hIn : p (i, w) = true
      · simpa [tget, List.filter_cons, hKey, hIn] using hRest
      · simpa [List.filter_cons, hIn] using hRest

theorem tget_filter_of_none {α : Type} (p : Nat × α → Bool) {t : Tbl α} {k : Nat} (h : tget t k = none) : tget (t.filter p) k = none := by
  induction t with
  | nil => rfl
  | cons e t ih =>
    obtain ⟨i, w⟩ := e
    have hKey : i ≠ k := fun hEq => by simp [tget, hEq] at h
    have hRest := ih (by simpa [tget, hKey] using h)
    by_cases hIn : p (i, w) = true
    · simpa [tget, List.filter_cons, hKey, hIn] using hRest
    · simpa [List.filter_cons, hIn] using hRest

/-- Of a command that has started, `c'` is what stands later: the same packet and progress, and no more work than before. -/
structure Cmd.Continues (c c' : Cmd) : Prop where
  running : c'.running = true
  started : c'.started = true
  pkt : c'.pkt = c.pkt
  done : c'.done = c.done
  work : c'.work.Sublist c.work

theorem Cmd.Continues.refl {c : Cmd} (hRunning : c.running = true) (hStarted : c.started = true) : c.Continues c :=
  ⟨hRunning, hStarted, rfl, rfl, List.Sublist.refl _⟩

theorem Cmd.Continues.trans {c c' c'' : Cmd} (h : c.Continues c') (h' : c'.Continues c'') : c.Continues c'' :=
  ⟨h'.running, h'.started, h'.pkt.trans h.pkt, h'.done.trans h.done, h'.work.trans h.work⟩

/-- From one command table to a later one no command has come, and each that had started continues, or has ended. -/
structure CmdsEnd (t t' : Tbl Cmd) : Prop where
  none_of_none : ∀ id, tget t id = none → tget t' id = none
  continues : ∀ id c c', tget t id = some c → c.running = true → c.started = true → tget t' id = some c' → c.Continues c'

namespace CmdsEnd

variable {t t' t'' : Tbl Cmd}

theorem refl (t : Tbl Cmd) : CmdsEnd t t :=
  ⟨fun _ h => h, fun _ c c' h hRunning hStarted h' => by
    obtain rfl : c = c' := Option.some.inj (h.symm.trans h')
    exact .refl hRunning hStarted⟩

theorem of_eq (h : t' = t) : CmdsEnd t t' := h ▸ refl t

theorem trans (h : CmdsEnd t t') (h' : CmdsEnd t' t'') : CmdsEnd t t'' := by
  refine ⟨fun id hNone => h'.none_of_none id (h.none_of_none id hNone), fun id c c'' hGet hRunning hStarted hGet'' => ?_⟩
  cases hMid : tget t' id with
  | none => rw [h'.none_of_none id hMid] at hGet''; cases hGet''
  | some c' =>
    have hFirst := h.continues id c c' hGet hRunning hStarted hMid
    exact hFirst.trans (h'.continues id c' c'' hMid hFirst.running hFirst.started hGet'')

theorem del (t : Tbl Cmd) (id : Nat) : CmdsEnd t (tdel t id) := by
  refine ⟨fun j h => tget_filter_of_none _ h, fun j c c' h hRunning hStarted h' => ?_⟩
  by_cases hj : j = id
  · rw [hj, tget_tdel_same] at h'
    cases h'
  · rw [tget_tdel_other _ hj, h] at h'
    exact Option.some.inj h' ▸ .refl hRunning hStarted

/-- A command is changed in what its continuing does not rest on. -/
theorem put {id : Nat} {c d : Cmd} (h : tget t id = some c) (hChange : c.running = true → c.started = true → c.Continues d) :
    CmdsEnd t (tput t id d) := by
  refine ⟨fun j hNone => ?_, fun j x x' hGet hRunning hStarted hGet' => ?_⟩
  · have hj : j ≠ id := fun hEq => by rw [hEq, h] at hNone; cases hNone
    rw [tget_tput_other _ _ hj, hNone]
  · by_cases hj : j = id
    · rw [hj, tget_tput_same] at hGet'
      rw [hj, h] at hGet
      obtain rfl := Option.some.inj hGet
      exact Option.some.inj hGet' ▸ hChange hRunning hStarted
    · rw [tget_tput_other _ _ hj, hGet] at hGet'
      exact Option.some.inj hGet' ▸ .refl hRunning hStarted

/-- Commands that have not started are left out. -/
theorem filter {p : Nat × Cmd → Bool} (h : ∀ e : Nat × Cmd, e ∈ t → e.2.running = true → e.2.started = true → p e = true) :
    CmdsEnd t (t.filter p) := by
  refine ⟨fun j hNone => tget_filter_of_none _ hNone, fun j c c' hGet hRunning hStarted hGet' => ?_⟩
  rw [tget_filter_of_keeps hGet (h (j, c) (mem_of_tget hGet) hRunning hStarted)] at hGet'
  exact Option.some.inj hGet' ▸ .refl hRunning hStarted

theorem map {f : Nat × Cmd → Nat × Cmd} (hKey : ∀ e, (f e).1 = e.1)
    (h : ∀ e : Nat × Cmd, e.2.running = true → e.2.started = true → e.2.Continues (f e).2) :
    CmdsEnd t (t.map f) := by
  refine ⟨fun j hNone => by rw [tget_map_same_key f hKey, hNone]; rfl, fun j c c' hGet hRunning hStarted hGet' => ?_⟩
  rw [tget_map_same_key f hKey, hGet] at hGet'
  exact Option.some.inj hGet' ▸ h (j, c) hRunning hStarted

end CmdsEnd

/-- From `s` to `u` commands have ended: nothing has changed but what their completion touches, and the other commands go on. -/
structure EndsOnly (s u : State) : Prop where
  rest : u = { s with
    regs := u.regs, hwSet := u.hwSet, outbox := u.outbox, logs := u.logs, hist := u.hist, linkA := u.linkA, linkB := u.linkB, chain := u.chain
    cxl := { s.cxl with mboxBusy := u.cxl.mboxBusy }, rings := u.rings, cmds := u.cmds, seals := u.seals }
  cmds : CmdsEnd s.cmds u.cmds

namespace EndsOnly

variable {s u v : State}

theorem refl (s : State) : EndsOnly s s := ⟨rfl, .refl _⟩

theorem trans (h : EndsOnly s u) (h' : EndsOnly u v) : EndsOnly s v := by
  refine ⟨Eq.trans h'.rest ?_, h.cmds.trans h'.cmds⟩
  rw [h.rest]

theorem foldl {α : Type} {f : State → α → State} (h : ∀ s x, EndsOnly s (f s x)) (l : List α) (s : State) : EndsOnly s (l.foldl f s) := by
  induction l generalizing s with
  | nil => exact refl s
  | cons x l ih => exact (h s x).trans (ih _)

theorem keeps (h : EndsOnly s u) : Keeps s u (.regs :: doneParts) := by
  rw [h.rest]
  refine ⟨rfl, fun p hp => ?_⟩
  cases p with
  | regs | outbox | logs | hist | linkA | linkB | chain | cxl | rings | cmds | seals => simp [doneParts, eventParts] at hp
  | _ => rfl

theorem lds (h : EndsOnly s u) : u.cxl.lds = s.cxl.lds := by
  rw [h.rest]

theorem ite {c : Prop} [Decidable c] (h : EndsOnly s u) (h' : EndsOnly s v) : EndsOnly s (if c then u else v) := by
  split
  · exact h
  · exact h'

/-- A change beside the command table. -/
theorem of_rest (h : u = { s with
    regs := u.regs, hwSet := u.hwSet, outbox := u.outbox, logs := u.logs, hist := u.hist, linkA := u.linkA, linkB := u.linkB, chain := u.chain
    cxl := { s.cxl with mboxBusy := u.cxl.mboxBusy }, rings := u.rings, seals := u.seals }) : EndsOnly s u :=
  ⟨by rw [h], .of_eq (by rw [h])⟩

theorem event (s : State) (cls akind ld addr : Nat) (args : List Nat) : EndsOnly s (s.event cls akind ld addr args) := by
  refine of_rest ?_
  unfold State.event State.eventSev
  rw [State.record_eq]

theorem dropRefs (s : State) (id : Nat) : EndsOnly s (s.dropRefs id) := of_rest rfl

theorem unwrite (s : State) (ring : Nat) (c : Cmd) (status r0 : Nat) : EndsOnly s (s.unwrite ring c status r0) := by
  unfold State.unwrite
  split
  · exact refl s
  · exact of_rest rfl

theorem ringStat (s : State) (n : Nat) : EndsOnly s (s.ringStat n) := by
  unfold State.ringStat
  split
  · exact of_rest rfl
  · exact refl s

theorem haltMark (s : State) (n cause : Nat) : EndsOnly s (s.haltMark n cause) := by
  unfold State.haltMark
  exact trans (of_rest rfl) (event ..)

/-- Commands that have not started are dropped from the table. -/
theorem dropCmds (s : State) {p : Nat × Cmd → Bool} (h : ∀ e : Nat × Cmd, e ∈ s.cmds → e.2.running = true → e.2.started = true → p e = true) :
    EndsOnly s { s with cmds := s.cmds.filter p } := ⟨rfl, .filter h⟩

theorem markCmds (s : State) (f : Nat × Cmd → Nat × Cmd) (hKey : ∀ e, (f e).1 = e.1)
    (h : ∀ e : Nat × Cmd, e.2.running = true → e.2.started = true → e.2.Continues (f e).2) : EndsOnly s { s with cmds := s.cmds.map f } :=
  ⟨rfl, .map hKey h⟩

/-- The commands that have not started are dropped, each reported as not written, and the others of the ring are to end after their hank. -/
theorem cqError (s : State) (n : Nat) : EndsOnly s (s.cqError n) := by
  unfold State.cqError
  split
  · exact ringStat ..
  · have hUnwrites (u : State) (gone : List (Nat × Cmd)) :
        EndsOnly u (gone.foldl (fun s e => (s.dropRefs e.1).unwrite n e.2 stABORTED 0) u) :=
      foldl (fun s e => (dropRefs s e.1).trans (unwrite ..)) gone u
    have hDropped : EndsOnly (s.haltMark n 3) { s.haltMark n 3 with
        cmds := (s.haltMark n 3).cmds.filter fun e => !((((s.haltMark n 3).ringCmds n).filter fun e => !(e.2.running && e.2.started)).contains e) } :=
      dropCmds _ fun e _ hRunning hStarted => by simp [hRunning, hStarted]
    refine ((haltMark s n 3).trans hDropped).trans ((hUnwrites _ _).trans ((markCmds _ _ (fun e => ?_) fun e hRunning hStarted => ?_).trans (ringStat ..)))
    · split <;> rfl
    · split
      · exact ⟨hRunning, hStarted, rfl, rfl, List.Sublist.refl _⟩
      · exact .refl hRunning hStarted

theorem toBuffer (s : State) (c : Cmd) (bytes : List Byte) : EndsOnly s (s.toBuffer c bytes) := by
  unfold State.toBuffer
  split
  · exact refl s
  · split
    · exact foldl (fun s (x : Nat × List Byte) => of_rest (u := s.out (.host x.1 x.2)) rfl) _ _
    · exact of_rest rfl

theorem msixCount (s : State) (n : Nat) (noirq : Bool) : EndsOnly s (s.msixCount n noirq) := by
  unfold State.msixCount
  split
  · exact refl s
  · dsimp only
    split <;> exact of_rest rfl

theorem writeCqe (s : State) (n tag status r0 r1 : Nat) (noirq : Bool) : EndsOnly s (s.writeCqe n tag status r0 r1 noirq) := by
  unfold State.writeCqe
  refine trans (of_rest ?_) (msixCount ..)
  split <;> rfl

end EndsOnly

/-- A command has left the table, and holds nothing outside it. -/
def State.ended (s : State) (id : Nat) : State := { s.dropRefs id with cmds := tdel s.cmds id }

theorem State.ended_ends (s : State) (id : Nat) : EndsOnly s (s.ended id) := ⟨rfl, .del ..⟩

theorem State.ended_cmds_self (s : State) (id : Nat) : tget (s.ended id).cmds id = none := tget_tdel_same ..

theorem State.finish_none {s : State} {id : Nat} (h : tget s.cmds id = none) (st r0 r1 : Nat) (bytes : List Byte) : s.finish id st r0 r1 bytes = s := by
  unfold State.finish
  rw [h]

/-- The answer on ring `n` of a command that has left the table (R377, R385). -/
def State.ringAnswer (u : State) (n : Nat) (c : Cmd) (st r0 r1 : Nat) (bytes : List Byte) : State :=
  let bad := c.host == .output && !bytes.isEmpty
  let v := u.toBuffer c (if bad then [] else bytes)
  if c.host == .cqWrite || v.cqDead n then (v.unwrite n c (if bad then stABORTED else st) r0).cqError n
  else (v.writeCqe n c.pkt.tag (if bad then stABORTED else st) (if bad then 0 else r0) (if bad then 0 else r1) (c.pkt.flags.testBit 9)).ringStat n

theorem EndsOnly.ringAnswer (u : State) (n : Nat) (c : Cmd) (st r0 r1 : Nat) (bytes : List Byte) : EndsOnly u (u.ringAnswer n c st r0 r1 bytes) := by
  unfold State.ringAnswer
  dsimp only
  generalize (c.host == .output && !bytes.isEmpty) = bad
  exact (toBuffer u c (if bad then [] else bytes)).trans (ite ((unwrite ..).trans (cqError ..)) ((writeCqe ..).trans (ringStat ..)))

section
variable {s : State} {id : Nat} {c : Cmd} (h : tget s.cmds id = some c)
include h

theorem State.finish_stopped (hStop : c.stopping = true) (st r0 r1 : Nat) (bytes : List Byte) :
    s.finish id st r0 r1 bytes = (s.ended id).unwrite (carrierNo c.carrier) c (c.endWith.getD st) r0 := by
  unfold State.finish
  simp only [h, hStop, if_true]
  rfl

theorem State.finish_ring {n : Nat} (hStop : c.stopping = false) (hRing : c.carrier = .ring n) (st r0 r1 : Nat) (bytes : List Byte) :
    s.finish id st r0 r1 bytes = (s.ended id).ringAnswer n c (c.endWith.getD st) r0 r1 bytes := by
  unfold State.finish
  simp only [h, hStop, hRing, Bool.false_eq_true, if_false]
  rfl

/-- Once a command has left the table, its answer is written, or its completion is reported as not written. -/
theorem State.finish_ends_ended (st r0 r1 : Nat) (bytes : List Byte) : EndsOnly (s.ended id) (s.finish id st r0 r1 bytes) := by
  cases hStop : c.stopping with
  | true => exact State.finish_stopped h hStop .. ▸ .unwrite ..
  | false =>
    cases hCarrier : c.carrier with
    | ring n => exact State.finish_ring h hStop hCarrier .. ▸ .ringAnswer ..
    | _ =>
      unfold State.finish
      simp only [h, hStop, hCarrier, Bool.false_eq_true, if_false]
      exact .of_rest rfl
end

theorem State.finish_ends (s : State) (id st r0 r1 : Nat) (bytes : List Byte) : EndsOnly s (s.finish id st r0 r1 bytes) := by
  cases h : tget s.cmds id with
  | none => rw [State.finish_none h]; exact .refl s
  | some c => exact (s.ended_ends id).trans (State.finish_ends_ended h ..)

theorem State.finish_gone (s : State) (id st r0 r1 : Nat) (bytes : List Byte) : tget (s.finish id st r0 r1 bytes).cmds id = none := by
  cases h : tget s.cmds id with
  | none => rw [State.finish_none h, h]
  | some c => exact (State.finish_ends_ended h ..).cmds.none_of_none id (s.ended_cmds_self id)

end Sys2Proof.Machine

namespace Sys2Proof.Machine

/-! ### Where the answer of a command goes (R377, R384) -/

theorem State.toBuffer_regs (s : State) (c : Cmd) (bytes : List Byte) : (s.toBuffer c bytes).regs = s.regs := by
  unfold State.toBuffer
  split
  · rfl
  · split
    · exact foldl_keeps State.regs (f := fun s (x : Nat × List Byte) => s.out (.host x.1 x.2)) (fun _ _ => rfl) _ s
    · rfl

theorem State.toBuffer_host {s : State} {c : Cmd} {bytes : List Byte} (hBytes : bytes ≠ []) (hWhole : c.pkt.flags.testBit 10 = false) :
    Out.host c.pkt.bufptr bytes ∈ (s.toBuffer c bytes).outbox := by
  unfold State.toBuffer
  simp [hBytes, hWhole]

theorem State.msixCount_regs (s : State) (n : Nat) (noirq : Bool) : (s.msixCount n noirq).regs = s.regs := by
  unfold State.msixCount
  split
  · rfl
  · dsimp only
    split <;> rfl

theorem State.mem_msixCount_outbox {s : State} {o : Out} (h : o ∈ s.outbox) (n : Nat) (noirq : Bool) : o ∈ (s.msixCount n noirq).outbox := by
  unfold State.msixCount
  split
  · exact h
  · dsimp only
    split
    · exact List.mem_cons_of_mem _ h
    · exact h

theorem State.ringStat_outbox (s : State) (n : Nat) : (s.ringStat n).outbox = s.outbox := by
  unfold State.ringStat
  split <;> rfl

theorem State.ringStat_reg (s : State) (n : Nat) {off : Nat} (h : off ≠ Reg.CRG_STAT n) : (s.ringStat n).reg off = s.reg off := by
  unfold State.ringStat
  split
  · exact State.reg_fset_other _ _ _ _ h
  · rfl

section
variable (s : State) (n tag st r0 r1 : Nat) (noirq : Bool)

theorem State.cqe_mem_writeCqe : Out.cqe n (s.fget (Reg.CRG_CQ_TAIL n) Fld.CRG_CQ_TAIL_TAIL) tag st (s.fget (Reg.CRG_CQ_TAIL n) Fld.CRG_CQ_TAIL_PHASE)
    (r0 % 2 ^ 64) (r1 % 2 ^ 64) s.clk.now ∈ (s.writeCqe n tag st r0 r1 noirq).outbox := by
  unfold State.writeCqe
  refine State.mem_msixCount_outbox ?_ ..
  split <;> exact List.mem_cons_self ..

theorem State.mem_writeCqe_outbox {o : Out} (h : o ∈ s.outbox) : o ∈ (s.writeCqe n tag st r0 r1 noirq).outbox := by
  unfold State.writeCqe
  refine State.mem_msixCount_outbox ?_ ..
  split <;> exact List.mem_cons_of_mem _ h

theorem State.writeCqe_done : (s.writeCqe n tag st r0 r1 noirq).reg (Reg.CRG_DONE n) = s.reg (Reg.CRG_DONE n) + 1 := by
  have hApart : Reg.CRG_DONE n ≠ Reg.CRG_CQ_TAIL n := by
    unfold Reg.CRG_DONE Reg.CRG_CQ_TAIL
    omega
  unfold State.writeCqe
  rw [State.reg_congr _ (State.msixCount_regs ..), State.reg_setReg_same]
  congr 1
  split
  · rw [State.reg_fset_other _ _ _ _ hApart, State.reg_fset_other _ _ _ _ hApart]
    rfl
  · rw [State.reg_fset_other _ _ _ _ hApart]
    rfl
end

/-- A ring whose completions can be written takes the answer of a command whose buffers meet no error. -/
theorem State.ringAnswer_carries {s u : State} {n : Nat} {c : Cmd} (hRegs : u.regs = s.regs) (hClk : u.clk = s.clk) (st r0 r1 : Nat) (bytes : List Byte)
    (hHost : c.host = .ok) : s.Carries (u.ringAnswer n c st r0 r1 bytes) c st r0 r1 bytes (.ring n) := by
  intro hRing hAlive
  have hRegs' : (u.toBuffer c bytes).regs = s.regs := (State.toBuffer_regs ..).trans hRegs
  have hDead : (u.toBuffer c bytes).cqDead n = false := by
    simpa only [State.cqDead, State.fget_congr _ _ hRegs'] using hAlive
  have hAnswer : u.ringAnswer n c st r0 r1 bytes =
      ((u.toBuffer c bytes).writeCqe n c.pkt.tag st r0 r1 (c.pkt.flags.testBit 9)).ringStat n := by
    simp [State.ringAnswer, hHost, hDead]
  have hApart : Reg.CRG_DONE n ≠ Reg.CRG_STAT n := by
    unfold Reg.CRG_DONE Reg.CRG_STAT
    omega
  rw [hAnswer, State.ringStat_outbox, State.ringStat_reg _ _ hApart, State.writeCqe_done, State.reg_congr _ hRegs']
  refine ⟨?_, fun hBytes hWhole => State.mem_writeCqe_outbox _ _ _ _ _ _ _ (State.toBuffer_host hBytes hWhole), rfl⟩
  have hQueue := State.cqe_mem_writeCqe (u.toBuffer c bytes) n c.pkt.tag st r0 r1 (c.pkt.flags.testBit 9)
  rwa [State.fget_congr _ _ hRegs', State.fget_congr _ _ hRegs', (EndsOnly.toBuffer u c bytes).keeps.2 .clk (by decide), hClk] at hQueue

/-- The answer of a command that nothing stopped stands where its carrier takes it. -/
theorem State.finish_carries {s : State} {id : Nat} {c : Cmd} (h : tget s.cmds id = some c) (st r0 r1 : Nat) (bytes : List Byte)
    (hStop : c.stopping = false) (hEnd : c.endWith = none) (hHost : c.host = .ok) (hOp : c.pkt.opcode < 65536) :
    s.Carries (s.finish id st r0 r1 bytes) c st r0 r1 bytes c.carrier := by
  have hPacket : isMbWrite c = false := by simp [isMbWrite, hOp]
  cases hCarrier : c.carrier with
  | ring n =>
    rw [State.finish_ring h hStop hCarrier, hEnd, Option.getD_none]
    have hAnswered := State.ringAnswer_carries (s := s) (u := s.ended id) (n := n) rfl rfl st r0 r1 bytes hHost
    exact hAnswered
  | _ =>
    unfold State.finish State.Carries
    simp only [h, hStop, hEnd, hCarrier, hPacket, Option.getD_none, Bool.false_eq_true, if_false]
    exact List.mem_cons_self ..

theorem State.Carries.settle {s u : State} {c : Cmd} {st r0 r1 : Nat} {bytes : List Byte} {p : Carrier} (h : s.Carries u c st r0 r1 bytes p) :
    s.Carries u.settle c st r0 r1 bytes p := by
  cases p with
  | ring n =>
    intro hRing hAlive
    obtain ⟨hQueue, hBuffer, hDone⟩ := h hRing hAlive
    have hQuiet : quietReg (Reg.CRG_DONE n) = true := (by decide : ∀ n < 8, quietReg (Reg.CRG_DONE n) = true) n hRing
    rw [State.settle_outbox, State.settle_reg _ hQuiet]
    exact ⟨hQueue, hBuffer, hDone⟩
  | _ => simpa [State.Carries] using h

/-- A command that ends at once, and whose meaning changes nothing else, is answered. -/
theorem State.answer_leaves {s : State} {id op st r0 r1 : Nat} {c : Cmd} {bytes : List Byte} {f : Cmd → State → Nat × Nat × Nat × List Byte × State}
    (hReady : s.CmdReady id op c) (hAnswer : f { c with running := true } (s.begun id c) = (st, r0, r1, bytes, s.begun id c)) :
    ∃ t, s.answer id op f = .next t ∧ s.Answered t id c st r0 r1 bytes ∧ Keeps s t (.regs :: doneParts) := by
  have hCmd : tget (s.begun id c).cmds id = some { c with running := true } := tget_tput_same ..
  have hBegun : Keeps s (s.begun id c) (.regs :: doneParts) := by
    refine ⟨rfl, fun p hp => ?_⟩
    cases p with
    | cmds => simp [doneParts] at hp
    | regs => exact fun _ _ _ => rfl
    | _ => rfl
  refine ⟨_, s.answer_ready f hReady, ?_⟩
  rw [hAnswer]
  refine ⟨⟨?_, fun hStop hEnd hHost hOp => ?_⟩, (hBegun.trans (State.finish_ends ..).keeps).settle⟩
  · rw [State.settle_cmds]
    exact State.finish_gone ..
  · exact (State.finish_carries hCmd st r0 r1 bytes hStop hEnd hHost hOp).settle

/-! ### Commands that only report (O50) -/

section
variable {s : State} {id : Nat} {c : Cmd}

theorem exec_identifyUnit_leaves (h : s.CmdReady id 0x0101 c) : ∃ t, exec (.identifyUnit id) s = .next t ∧ s.Answered t id c stOK
    (s.reg Reg.RDY_SERIAL).toNat (s.reg Reg.RDY_IDENT).toNat (whenAsked c (s.identity c.pkt.ld)) ∧ Keeps s t (.regs :: doneParts) := by
  unfold exec
  exact State.answer_leaves h rfl

theorem exec_getReadiness_leaves (h : s.CmdReady id 0x0102 c) : ∃ t, exec (.getReadiness id) s = .next t ∧ s.Answered t id c stOK
    (s.reg Reg.RDY_STATUS).toNat (s.reg Reg.RDY_SKEIN).toNat (whenAsked c s.readiness) ∧ Keeps s t (.regs :: doneParts) := by
  unfold exec
  exact State.answer_leaves h rfl

/-- The certificates that GET_CERT_CHAIN reads: those of entries 0 to 2, or that of entry 3 (R283). -/
theorem exec_getCertChain_leaves {chain : List Byte} (h : s.CmdReady id 0x0103 c) (hArg : c.pkt.arg0 ≤ 1)
    (hChain : chain = if c.pkt.arg0 = 0 then certChain else certBytes 3) (hStart : c.pkt.arg1 ≤ chain.length) :
    ∃ t, exec (.getCertChain id) s = .next t ∧ s.Answered t id c (if c.pkt.arg1 + c.pkt.buflen < chain.length then stPARTIAL else stOK)
      (if c.pkt.arg1 + c.pkt.buflen < chain.length then c.pkt.arg1 + c.pkt.buflen else 0) chain.length
      ((chain.drop c.pkt.arg1).take c.pkt.buflen) ∧ Keeps s t (.regs :: doneParts) := by
  unfold exec
  refine State.answer_leaves h ?_
  dsimp only
  rw [if_neg (Nat.not_lt.2 hArg), ← hChain, if_neg (Nat.not_lt.2 hStart)]
  split <;> rfl

theorem exec_getHealthExt_leaves (h : s.CmdReady id 0x0901 c) (hArg : c.pkt.arg0 ≤ 33) :
    ∃ t, exec (.getHealthExt id) s = .next t ∧ s.Answered t id c (if c.pkt.buflen / 64 < 34 - c.pkt.arg0 then stPARTIAL else stOK)
      (if c.pkt.buflen / 64 < 34 - c.pkt.arg0 then c.pkt.arg0 + c.pkt.buflen / 64 else s.lifeUsed) (min (34 - c.pkt.arg0) (c.pkt.buflen / 64))
      ((List.range (min (34 - c.pkt.arg0) (c.pkt.buflen / 64))).flatMap fun i => s.healthRecord (c.pkt.arg0 + i)) ∧ Keeps s t (.regs :: doneParts) := by
  have hRecord (ch : Nat) : (s.begun id c).healthRecord ch = s.healthRecord ch := rfl
  have hLife : (s.begun id c).lifeUsed = s.lifeUsed := by
    simp only [State.lifeUsed, State.meanPrograms, State.fget, State.reg, State.begun, State.setCmd]
  unfold exec
  refine State.answer_leaves h ?_
  dsimp only [partialOut]
  rw [if_neg (Nat.not_lt.2 hArg), hLife]
  simp only [hRecord]
  by_cases hPart : c.pkt.buflen / 64 < 34 - c.pkt.arg0
  · simp only [Nat.min_eq_right hPart.le, if_pos hPart, show stPARTIAL ≠ stOK by decide, if_false]
  · simp only [Nat.min_eq_left (Nat.not_lt.1 hPart), Nat.lt_irrefl, if_neg hPart, if_false, if_true]

theorem exec_gaugeStatus_leaves (h : s.CmdReady id 0x0A01 c) : ∃ t, exec (.gaugeStatus id) s = .next t ∧ s.Answered t id c stOK
    (s.reg Reg.GAU_CAP_LINES).toNat (s.reg Reg.GAU_E_USABLE).toNat (whenAsked c ((List.range 10).flatMap (fun i => le 8 (s.reg (0x050000 + 8 * i)).toNat) ++
      (List.range 12).flatMap fun b => le 8 (s.reg (Reg.GAU_BANK b)).toNat)) ∧ Keeps s t (.regs :: doneParts) := by
  unfold exec
  exact State.answer_leaves h rfl

theorem exec_getContract_leaves (h : s.CmdReady id 0x0702 c) : ∃ t, exec (.getContract id) s = .next t ∧ s.Answered t id c stOK
    (s.reg Reg.ADM_STATUS).toNat (s.reg Reg.ADM_OCC).toNat (whenAsked c (contractRegs.flatMap fun o => le 8 (s.reg o).toNat)) ∧
    Keeps s t (.regs :: doneParts) := by
  unfold exec
  exact State.answer_leaves h rfl

theorem exec_keyQuery_leaves (h : s.CmdReady id 0x0404 c) (hKey : c.pkt.keyidx ≤ 4095) : ∃ t, exec (.keyQuery id) s = .next t ∧ s.Answered t id c stOK
    (s.slotWord c.pkt.keyidx).toNat (s.slot c.pkt.keyidx).gen
    (whenAsked c (be 48 (Config.publicKey 1).1.toNat ++ be 48 (Config.publicKey 1).2.toNat)) ∧ Keeps s t (.regs :: doneParts) := by
  unfold exec
  refine State.answer_leaves h ?_
  dsimp only
  rw [if_neg (Nat.not_lt.2 hKey)]
  rfl

theorem exec_ratchetRead_leaves (h : s.CmdReady id 0x0C04 c) (hArg : c.pkt.arg0 ≤ 63) : ∃ t, exec (.ratchetRead id) s = .next t ∧
    s.Answered t id c stOK (s.ratchet c.pkt.arg0) 0
      (whenAsked c (be 96 (Config.ecdsaSign (ratchetMessage c.pkt.arg0 (s.ratchet c.pkt.arg0) c.pkt.arg1)).toNat)) ∧ Keeps s t (.regs :: doneParts) := by
  unfold exec
  refine State.answer_leaves h ?_
  dsimp only
  rw [if_neg (Nat.not_lt.2 hArg)]
  rfl

end

/-- Settles O50: each command is one that ends at once and changes nothing but its own place in the command table. -/
theorem reportsComplete : Obligations.ReportsComplete := fun _ _ _ =>
  ⟨exec_identifyUnit_leaves, exec_getReadiness_leaves,
    fun h hArg hStart => exec_getCertChain_leaves h (by omega) (by rw [if_pos hArg]) hStart,
    fun h hArg hStart => exec_getCertChain_leaves h (by omega) (by rw [if_neg (by omega)]) hStart,
    exec_getHealthExt_leaves, exec_gaugeStatus_leaves, exec_getContract_leaves, exec_keyQuery_leaves, exec_ratchetRead_leaves⟩

end Sys2Proof.Machine

namespace Sys2Proof.Machine

/-! ### Accesses to working memory (R163, R165) -/

/-- From `s` to `u` nothing has changed but what an access to working memory touches: its words, the records of its errors, and admission's faults. -/
def WmWork (s u : State) : Prop :=
  u = { s with
    outbox := u.outbox, freeCtr := u.freeCtr, regs := u.regs, hwSet := u.hwSet, wm := u.wm, logs := u.logs, hist := u.hist
    adm := { s.adm with faults := u.adm.faults, onset := u.adm.onset, intrs := u.adm.intrs } }

namespace WmWork

variable {s u v : State}

theorem refl (s : State) : WmWork s s := rfl

theorem trans (h : WmWork s u) (h' : WmWork u v) : WmWork s v := by
  refine Eq.trans h' ?_
  rw [show u = _ from h]

theorem ite {c : Prop} [Decidable c] (h : c → WmWork s u) (h' : ¬c → WmWork s v) : WmWork s (if c then u else v) := by
  split
  · exact h ‹_›
  · exact h' ‹_›

theorem foldl {α : Type} {f : State → α → State} (h : ∀ s x, WmWork s (f s x)) (l : List α) (s : State) : WmWork s (l.foldl f s) := by
  induction l generalizing s with
  | nil => exact refl s
  | cons x l ih => exact (h s x).trans (ih _)

theorem hanks (h : WmWork s u) : u.hanks = s.hanks := (congrArg State.hanks h).trans rfl
theorem med (h : WmWork s u) : u.med = s.med := (congrArg State.med h).trans rfl

theorem fset (s : State) (off : Nat) (f : Field) (v : Nat) : WmWork s (s.fset off f v) := rfl
theorem setReg (s : State) (off : Nat) (w : W64) : WmWork s (s.setReg off w) := rfl
theorem fadd (s : State) (off : Nat) (f : Field) (v : Nat) : WmWork s (s.fadd off f v) := rfl
theorem raise (s : State) (off : Nat) (f : Field) : WmWork s (s.raise off f) := rfl
theorem logStat (s : State) : WmWork s s.logStat := rfl

theorem fsetBit (s : State) (off : Nat) (f : Field) (b : Nat) (v : Bool) : WmWork s (s.fsetBit off f b v) :=
  ite (fun _ => refl s) fun _ => rfl

theorem eventSev (s : State) (cls sev akind ld addr : Nat) (args : List Nat) : WmWork s (s.eventSev cls sev akind ld addr args) := by
  unfold State.eventSev
  rw [State.record_eq]
  rfl

theorem event (s : State) (cls akind ld addr : Nat) (args : List Nat) : WmWork s (s.event cls akind ld addr args) := eventSev ..

theorem setWm (s : State) (wm : Wm) : WmWork s { s with wm := wm } := rfl

theorem disarm (s : State) : WmWork s s.disarm := by
  rw [State.disarm_eq]
  rfl

theorem lineWrite (s : State) (wma : Option Nat) : WmWork s (s.lineWrite wma) := by
  cases wma with
  | some w =>
    obtain ⟨wm, h | h⟩ := s.lineWrite_cases w
    · exact h ▸ setWm s wm
    · exact h ▸ (setWm s wm).trans (disarm _)
  | none =>
    unfold State.lineWrite
    refine ite (fun _ => refl s) fun _ => ite (fun _ => refl s) fun _ => trans ?_ (disarm _)
    exact rfl

theorem wmAccess (s : State) (n cls master : Nat) (lhn : Option Nat) : WmWork s (s.wmAccess n cls master lhn) := by
  unfold State.wmAccess
  rw [State.count_eq]
  rfl

theorem openFault (s : State) (f : Nat) : WmWork s (s.openFault f) := ite (fun _ => refl s) fun _ => rfl

theorem closeFault (s : State) (f : Nat) : WmWork s (s.closeFault f) := by
  unfold State.closeFault
  exact ite (fun _ => ite (fun _ => rfl) fun _ => rfl) fun _ => refl s

theorem ceLog (s : State) (dev wma bit : Nat) (ue hard : Bool) : WmWork s (s.ceLog dev wma bit ue hard) := by
  unfold State.ceLog
  extract_lets
  split
  · have hUe (u : State) (r : Nat) : WmWork u (if ue = true then u.fset r Fld.WME_CE_LOG_UE 1 else u) := ite (fun _ => fset ..) fun _ => refl u
    exact ite (fun _ => ((fadd ..).trans (hUe ..)).trans (fset ..)) fun _ => (fadd ..).trans (hUe ..)
  · split
    · exact raise ..
    · exact ((setReg ..).trans (raise ..)).trans (logStat _)

/-- A device that fails leaves its errors with it, and the rebuild into the spare begins, or working memory is degraded. -/
theorem devFail (s : State) (d : Nat) : WmWork s (s.devFail d) := by
  have hDegraded (u : State) : WmWork u ((u.fset Reg.WME_STATE Fld.WME_STATE_DEGRADED 1).eventSev evSPARE 2 4 0xFFFF d [10, 1]) := (fset ..).trans (eventSev ..)
  have hDisarm (u : State) : WmWork u (if s.fget Reg.WME_FLIP_CTL Fld.WME_FLIP_CTL_DEV = d then u.disarm else u) := ite (fun _ => disarm u) fun _ => refl u
  unfold State.devFail
  extract_lets st inSlot target s1 s2 degraded s3 mine wm s4
  have hFailed : WmWork s s2 := (((openFault s _).trans (fsetBit ..)).trans (event ..)).trans (hDisarm s1)
  have hRebuild : WmWork s2 s3 := by
    refine ite (fun _ => (fset ..).trans (hDegraded _)) fun _ => ite (fun _ => ?_) fun _ => refl _
    split
    · exact (((fset ..).trans (fset ..)).trans (fset ..)).trans (fset ..)
    · exact hDegraded _
  exact ite (fun _ => refl s) fun _ => ((hFailed.trans hRebuild).trans (setWm s3 s4.wm)).trans (closeFault ..)

theorem remap (s : State) (dev wma : Nat) : WmWork s (s.remap dev wma) := by
  unfold State.remap
  extract_lets valid mine full
  have hFull : WmWork s (full s) := ite (fun _ => setWm s _) fun _ => devFail ..
  refine ite (fun _ => refl s) fun _ => ?_
  split
  · exact ite (fun _ => hFull) fun _ => (setWm s _).trans (setReg ..)
  · exact hFull

theorem noteUe (s : State) (dev wma : Nat) : WmWork s (s.noteUe dev wma) := ite (fun _ => (setWm s _).trans (devFail ..)) fun _ => setWm s _

theorem wordFix (s : State) (wma : Nat) (e : WordErr) : WmWork s (s.wordFix wma e) := by
  unfold State.wordFix
  refine ite (fun _ => refl s) fun _ => ite (fun _ => devFail ..) fun _ => ?_
  have hNoted (u : State) (h : WmWork s u) (hard : Bool) : WmWork s (if hard = true then u.remap (s.slotDev e.slot) wma else u) :=
    ite (fun _ => h.trans (remap ..)) fun _ => h
  refine hNoted _ ?_ _
  split
  · exact (setReg ..).trans (ceLog ..)
  · exact ((setReg ..).trans (ceLog ..)).trans (noteUe ..)

theorem checkWords (s : State) (w : Nat) (errs : List WordErr) : WmWork s (s.checkWords w errs).2 := by
  unfold State.checkWords
  dsimp only
  split
  · exact refl s
  · split
    · exact lineWrite s (some w)
    · exact (lineWrite s (some w)).trans (foldl (fun s e => wordFix s w e) ..)

end WmWork

/-! ### The words of the map (R123, R126) -/

/-- From `s` to `u` nothing has changed but what a write of the map's words touches: accesses to working memory, and entries found bad there, of which
the check byte is spoiled. -/
structure MapWork (s u : State) : Prop where
  rest : u = { s with
    outbox := u.outbox, freeCtr := u.freeCtr, regs := u.regs, hwSet := u.hwSet, wm := u.wm, logs := u.logs, hist := u.hist
    adm := { s.adm with faults := u.adm.faults, onset := u.adm.onset, intrs := u.adm.intrs }
    hanks := { s.hanks with host := u.hanks.host, sys := u.hanks.sys, restore := u.hanks.restore } }
  entry : ∀ sys idx, u.entry sys idx = { s.entry sys idx with chk := (u.entry sys idx).chk }

theorem State.entry_congr {s u : State} (hHost : u.hanks.host = s.hanks.host) (hSys : u.hanks.sys = s.hanks.sys) (sys : Bool) (idx : Nat) :
    u.entry sys idx = s.entry sys idx := by
  simp only [State.entry, State.hostEntry, State.sysEntry, hHost, hSys]

theorem State.entry_putEntry_same (s : State) (sys : Bool) (idx : Nat) (e : MapEntry) : (s.putEntry sys idx e).entry sys idx = e := by
  cases sys with
  | false => exact dget_dput_same ..
  | true => exact dget_dput_same ..

theorem State.entry_putEntry_other (s : State) {sys sys' : Bool} {idx idx' : Nat} (e : MapEntry) (h : (sys', idx') ≠ (sys, idx)) :
    (s.putEntry sys idx e).entry sys' idx' = s.entry sys' idx' := by
  cases sys <;> cases sys'
  · exact dget_dput_other _ _ _ fun hEq => h (by rw [hEq])
  · rfl
  · rfl
  · exact dget_dput_other _ _ _ fun hEq => h (by rw [hEq])

namespace MapWork

variable {s u v : State}

theorem of_wm (h : WmWork s u) : MapWork s u := by
  have hHanks := h.hanks
  refine ⟨Eq.trans h ?_, fun sys idx => by rw [State.entry_congr (congrArg Hanks.host hHanks) (congrArg Hanks.sys hHanks)]⟩
  rw [hHanks]

theorem refl (s : State) : MapWork s s := of_wm rfl

theorem trans (h : MapWork s u) (h' : MapWork u v) : MapWork s v := by
  refine ⟨Eq.trans h'.rest ?_, fun sys idx => ?_⟩
  · rw [h.rest]
  · rw [h'.entry, h.entry]

theorem ite {c : Prop} [Decidable c] (h : c → MapWork s u) (h' : ¬c → MapWork s v) : MapWork s (if c then u else v) := by
  split
  · exact h ‹_›
  · exact h' ‹_›

theorem foldl {α : Type} {f : State → α → State} (h : ∀ s x, MapWork s (f s x)) (l : List α) (s : State) : MapWork s (l.foldl f s) := by
  induction l generalizing s with
  | nil => exact refl s
  | cons x l ih => exact (h s x).trans (ih _)

theorem hanks (h : MapWork s u) :
    u.hanks = { s.hanks with host := u.hanks.host, sys := u.hanks.sys, restore := u.hanks.restore } := (congrArg State.hanks h.rest).trans rfl

/-- The entry's check byte is spoiled. -/
theorem spoilEntry (s : State) (sys : Bool) (idx n : Nat) : MapWork s (s.putEntry sys idx { s.entry sys idx with chk := n }) := by
  refine ⟨?_, fun sys' idx' => ?_⟩
  · cases sys <;> rfl
  · by_cases h : (sys', idx') = (sys, idx)
    · obtain ⟨rfl, rfl⟩ := Prod.mk.inj h
      rw [State.entry_putEntry_same]
    · rw [State.entry_putEntry_other _ _ h]

theorem badEntry (s : State) (sys : Bool) (idx : Nat) : MapWork s (s.badEntry sys idx) := by
  have hNoted : MapWork s { s with hanks := { s.hanks with restore := s.hanks.restore ++ [(sys, idx)] } } :=
    ⟨rfl, fun _ _ => rfl⟩
  exact ite (fun _ => refl s) fun _ => hNoted.trans (of_wm (.event ..))

theorem spoilEntries (s : State) (sys : Bool) (first : Nat) : MapWork s (s.spoilEntries sys first) :=
  foldl (fun s _ => ite (fun _ => (spoilEntry s ..).trans (badEntry ..)) fun _ => refl s) _ s

theorem drainLine (s : State) (w : Nat) : MapWork s (s.drainLine w) := by
  have hWrite (n : Nat) (u : State) : WmWork u ((u.lineWrite (some w)).wmAccess n 1 18 none) := (WmWork.lineWrite ..).trans (.wmAccess ..)
  have hChecked (u : State) : MapWork u (if ((u.checkWords w []).1 && decide (wmRegion w ≤ 1)) = true
      then ((u.checkWords w []).2.spoilEntries (decide (wmRegion w = 1)) (8 * (w - if w < 786432 then 0 else 786432))).event evFAULT 4 0xFFFF w [wmRegion w]
      else (u.checkWords w []).2) :=
    ite (fun _ => ((of_wm (.checkWords ..)).trans (spoilEntries ..)).trans (of_wm (.event ..))) fun _ => of_wm (.checkWords ..)
  unfold State.drainLine
  split
  · exact refl s
  · rename_i e _
    dsimp only
    have hTaken : MapWork s { s with wm := { s.wm with narrow := tdel s.wm.narrow w } } := of_wm (.setWm ..)
    by_cases hFull : (e.mask == BitVec.allOnes 64) = true
    · simp only [hFull, if_true]
      exact hTaken.trans (of_wm (hWrite ..))
    · simp only [hFull]
      exact (hTaken.trans (hChecked _)).trans (of_wm (hWrite ..))

theorem narrowWrite (s : State) (wma k : Nat) (v : W64) : MapWork s (s.narrowWrite wma k v) := by
  unfold State.narrowWrite
  extract_lets put s1 e t wm s2 s3
  have hRoom : MapWork s s1 := by
    refine ite (fun _ => refl s) fun _ => ?_
    split
    · exact drainLine ..
    · exact refl s
  have hPut : MapWork s s3 := hRoom.trans (of_wm ((WmWork.setWm s1 s2.wm).trans (.fset s2 ..)))
  exact ite (fun _ => hPut.trans (drainLine ..)) fun _ => hPut

end MapWork
end Sys2Proof.Machine

namespace Sys2Proof.Machine

/-! ### Where nothing waits, a retry changes nothing -/

theorem State.setLink_link (s : State) (k : Nat) : s.setLink k (s.link k) = s := by
  unfold State.setLink State.link
  split <;> rfl

theorem State.mirrorFill_of_none {s : State} {k : Nat} (h : (s.link k).mirrorWait = []) : s.mirrorFill k = s := by
  have hSame : { s.link k with mirrorWait := [] } = s.link k := by rw [← h]
  simp only [State.mirrorFill, h, List.take_nil, List.drop_nil, List.foldl_nil]
  rw [hSame, State.setLink_link]

theorem State.waitingReqs_of_none {s : State} (h : ∀ e ∈ s.adm.dl, e.2.stuck = false) : s.waitingReqs = [] := by
  have hNone : (s.adm.dl.filter fun e => e.2.stuck) = [] := List.filter_eq_nil_iff.2 fun e he => by simp [h e he]
  rw [State.waitingReqs, hNone]
  rfl

/-- With no request, line, mirror write and parity page that waits, and no operation in flight, nothing is tried again. -/
theorem State.retryStuck_of_noWaits {s : State} (h : s.NoWaits) (hOps : s.adm.ops = []) : s.retryStuck = s := by
  obtain ⟨hDl, hLines, hMirrorA, hMirrorB, hSuspect⟩ := h
  unfold State.retryStuck
  rw [State.mirrorFill_of_none (k := 0) hMirrorA, State.mirrorFill_of_none (k := 1) hMirrorB]
  simp [State.waitingReqs_of_none hDl, hLines, hSuspect, hOps]

/-! ### A new map entry, and the free table -/

/-- The journal of the map, and the number of its next record. -/
def State.withJournal (s : State) (journal : List JRec) (seq : Nat) : State := { s with hanks := { s.hanks with journal := journal, seq := seq } }

/-- An entry is journalled and stands in the map; its word is written from there (R130). -/
def State.journalled (s : State) (sys : Bool) (idx : Nat) (e : MapEntry) : State :=
  ((s.withJournal (s.hanks.journal ++ [⟨s.hanks.seq, sys, idx, e.sealChk idx⟩]) ((s.hanks.seq + 1) % 2 ^ 31)).fadd
    Reg.TLC_JRNL Fld.TLC_JRNL_MAPJ 1).putEntry sys idx (e.sealChk idx)

section
variable (s : State) (sys : Bool) (idx : Nat) (e : MapEntry)

theorem State.setEntry_mapWork : MapWork (s.journalled sys idx e) (s.setEntry sys idx e) := .narrowWrite ..

theorem State.journalled_hanks : (s.journalled sys idx e).hanks = { s.hanks with
    host := (s.journalled sys idx e).hanks.host, sys := (s.journalled sys idx e).hanks.sys
    journal := s.hanks.journal ++ [⟨s.hanks.seq, sys, idx, e.sealChk idx⟩], seq := (s.hanks.seq + 1) % 2 ^ 31 } := by
  unfold State.journalled
  generalize (s.hanks.seq + 1) % 2 ^ 31 = q
  cases sys <;> rfl

theorem State.setEntry_entry_same : (s.setEntry sys idx e).entry sys idx = { e with chk := ((s.setEntry sys idx e).entry sys idx).chk } := by
  have hPut : (s.journalled sys idx e).entry sys idx = e.sealChk idx := State.entry_putEntry_same ..
  refine ((s.setEntry_mapWork sys idx e).entry sys idx).trans ?_
  rw [hPut, MapEntry.sealChk]

theorem State.setEntry_entry_other {sys' : Bool} {idx' : Nat} (h : (sys', idx') ≠ (sys, idx)) :
    (s.setEntry sys idx e).entry sys' idx' = { s.entry sys' idx' with chk := ((s.setEntry sys idx e).entry sys' idx').chk } := by
  have hPut : (s.journalled sys idx e).entry sys' idx' = s.entry sys' idx' := State.entry_putEntry_other _ _ h
  refine ((s.setEntry_mapWork sys idx e).entry sys' idx').trans ?_
  rw [hPut]
end

/-- From `s` to `u` nothing has changed but what keeping the map touches: entries and their journal, the free table and the wear ledger, and what the
writes of their words touch. -/
def MapKept (s u : State) : Prop :=
  u = { s with
    outbox := u.outbox, freeCtr := u.freeCtr, regs := u.regs, hwSet := u.hwSet, wm := u.wm, logs := u.logs, hist := u.hist
    adm := { s.adm with faults := u.adm.faults, onset := u.adm.onset, intrs := u.adm.intrs }
    hanks := { s.hanks with
      host := u.hanks.host, sys := u.hanks.sys, restore := u.hanks.restore, journal := u.hanks.journal, seq := u.hanks.seq, free := u.hanks.free
      wear := u.hanks.wear, wearSub := u.hanks.wearSub } }

namespace MapKept

variable {s u v : State}

theorem refl (s : State) : MapKept s s := rfl

theorem trans (h : MapKept s u) (h' : MapKept u v) : MapKept s v := by
  refine Eq.trans h' ?_
  rw [show u = _ from h]

theorem of_mapWork (h : MapWork s u) : MapKept s u := Eq.trans h.rest (by rw [h.rest])

theorem of_wm (h : WmWork s u) : MapKept s u := of_mapWork (.of_wm h)

theorem hanks (h : MapKept s u) : u.hanks = { s.hanks with
    host := u.hanks.host, sys := u.hanks.sys, restore := u.hanks.restore, journal := u.hanks.journal, seq := u.hanks.seq, free := u.hanks.free
    wear := u.hanks.wear, wearSub := u.hanks.wearSub } := (congrArg State.hanks h).trans rfl

theorem migs (h : MapKept s u) : u.hanks.migs = s.hanks.migs := (congrArg Hanks.migs h.hanks).trans rfl
theorem med (h : MapKept s u) : u.med = s.med := (congrArg State.med h).trans rfl
theorem tlc (h : MapKept s u) : u.tlc = s.tlc := (congrArg State.tlc h).trans rfl

theorem putEntry (s : State) (sys : Bool) (idx : Nat) (e : MapEntry) : MapKept s (s.putEntry sys idx e) := by
  cases sys <;> rfl

theorem setEntry (s : State) (sys : Bool) (idx : Nat) (e : MapEntry) : MapKept s (s.setEntry sys idx e) := by
  have hJournal (journal : List JRec) (seq : Nat) : MapKept s (s.withJournal journal seq) := rfl
  exact ((hJournal _ _).trans (of_wm (.fadd ..))).trans ((putEntry ..).trans (of_mapWork (s.setEntry_mapWork sys idx e)))

theorem setFree (s : State) (phn : Nat) (b : Bool) : MapKept s (s.setFree phn b) := by
  have hPut : MapKept s { s with hanks := { s.hanks with free := dput shippedFree s.hanks.free phn b } } := rfl
  exact hPut.trans (of_wm (.lineWrite ..))

end MapKept

theorem State.freeStat_wmWork (s : State) (free : Nat) : WmWork s (s.freeStat free) := by
  unfold State.freeStat
  extract_lets used s1 s2 mark s3
  have hMark (u : State) (th : Nat) (f : Field) : WmWork u (mark u th f) := .ite (fun _ => (WmWork.fset ..).trans (.event ..)) fun _ => .refl u
  have hCounted : WmWork s s2 := ((WmWork.fset ..).trans (.fset ..)).trans (.fset ..)
  have hMarked : WmWork s s3 := ((hCounted.trans (hMark ..)).trans (hMark ..)).trans (hMark ..)
  exact .ite (fun _ => hMarked.trans (((WmWork.fset ..).trans (.fset ..)).trans (.eventSev ..))) fun _ => hMarked

theorem State.setFree_isFree (s : State) (phn : Nat) (b : Bool) : (s.setFree phn b).isFree phn = b := by
  have hPut := congrArg Hanks.free
    (WmWork.lineWrite { s with hanks := { s.hanks with free := dput shippedFree s.hanks.free phn b } } (some (819200 + phn / 512))).hanks
  rw [State.isFree, State.setFree, hPut]
  exact dget_dput_same ..

theorem State.isFree_congr {s u : State} (h : u.hanks.free = s.hanks.free) (phn : Nat) : u.isFree phn = s.isFree phn := by
  rw [State.isFree, h, State.isFree]

theorem State.setEntry_free (s : State) (sys : Bool) (idx : Nat) (e : MapEntry) : (s.setEntry sys idx e).hanks.free = s.hanks.free := by
  rw [(s.setEntry_mapWork sys idx e).hanks, State.journalled_hanks]

end Sys2Proof.Machine

namespace Sys2Proof.Machine

/-! ### Map checkpoints and the restore of a bad map line (R126, R130) -/

/-- The next state of a step is settled, and shows what it settles. -/
theorem nextState_exists {r : Res} {u : State} {p : State → Prop} (h : r = nextState u) (hp : p u.settle) : ∃ t, r = .next t ∧ p t :=
  ⟨u.settle, h, hp⟩

/-- A settled state keeps what the state that it settles keeps, no register being touched. -/
theorem frame_settle_of_hanks {s u : State} {h : Hanks} (hu : u = { s with hanks := h }) : Frame s u.settle [.hanks] [] := by
  subst hu
  refine frame_settle rfl (fun p hp => ?_) fun _ _ => rfl
  cases p with
  | hanks => simp at hp
  | regs => simp at hp
  | cmds => exact ⟨rfl, rfl⟩
  | _ => rfl

theorem exec_mapCheckpoint_begins {s : State} (hReady : s.hanks.mapsReady = true) (hNone : s.hanks.ckptRun = none)
    (hMany : 16384 ≤ s.fget Reg.TLC_JRNL Fld.TLC_JRNL_MAPJ) :
    exec .mapCheckpoint s = nextState (State.fset { s with hanks := { s.hanks with ckptRun := some s.hanks.seq } } Reg.TLC_JRNL Fld.TLC_JRNL_MAPJ 0) := by
  unfold exec execMapCheckpoint
  rw [if_pos ⟨hReady, hNone, hMany⟩]

/-- A checkpoint that begins takes the count of the records appended back to zero. -/
theorem mapCheckpoint_begins {s : State} (hReady : s.hanks.mapsReady = true) (hNone : s.hanks.ckptRun = none)
    (hMany : 16384 ≤ s.fget Reg.TLC_JRNL Fld.TLC_JRNL_MAPJ) :
    ∃ t, exec .mapCheckpoint s = .next t ∧ t.hanks = { s.hanks with ckptRun := some s.hanks.seq } ∧
      t.fget Reg.TLC_JRNL Fld.TLC_JRNL_MAPJ = 0 ∧ Frame s t [.hanks] [Reg.TLC_JRNL] := by
  refine nextState_exists (exec_mapCheckpoint_begins hReady hNone hMany) ⟨?_, ?_, frame_settle ?_ (fun p hp => ?_) fun off hOff => ?_⟩
  · rw [State.settle_hanks, State.fset_hanks]
  · rw [State.settle_fget _ (by decide) (by decide)]
    exact State.fget_fset_same _ _ _ _ (by decide) (by decide)
  · rfl
  · cases p with
    | regs | hanks => simp at hp
    | cmds => exact ⟨rfl, rfl⟩
    | _ => rfl
  · exact State.reg_fset_other _ _ _ _ (by simpa using hOff)

/-- The image that a checkpoint completes is in the place of the one that is not the newest (R130). -/
def Hanks.withImage (h : Hanks) (toB : Bool) (img : Image) (journal : List JRec) : Hanks :=
  { (if toB then { h with imgB := img } else { h with imgA := img }) with ckptRun := none, journal := journal }

theorem Hanks.withImage_host (h : Hanks) (toB : Bool) (img : Image) (j : List JRec) : (h.withImage toB img j).host = h.host := by
  cases toB <;> rfl

theorem Hanks.withImage_sys (h : Hanks) (toB : Bool) (img : Image) (j : List JRec) : (h.withImage toB img j).sys = h.sys := by
  cases toB <;> rfl

/-- A completed image is the newest one: the other, if it is complete, is older. -/
theorem Hanks.withImage_newest {h : Hanks} {toB : Bool} {img : Image} (j : List JRec) (hDone : img.done = true) (hA : toB = true → h.imgA.done = true)
    (hNewer : jFrom h.imgA.seq img.seq = true) (hOlder : jFrom img.seq h.imgB.seq = false) : (h.withImage toB img j).newestImage = some img := by
  cases toB with
  | true => simp [Hanks.withImage, Hanks.newestImage, hDone, hA rfl, hNewer]
  | false => cases hB : h.imgB.done <;> simp [Hanks.withImage, Hanks.newestImage, hDone, hB, hOlder]

/-- The records that a checkpoint from record `q` leaves in the journal. -/
def Hanks.ckptKeeps (h : Hanks) (toB : Bool) (q : Nat) (r : JRec) : Bool :=
  jFrom q r.seq || ((if toB then h.imgA else h.imgB).done && jFrom (if toB then h.imgA else h.imgB).seq r.seq)

/-- The image of the map as it stands, complete from record `q` on. -/
def State.imageOf (s : State) (q : Nat) : Image :=
  { host := s.hanks.host, sys := s.hanks.sys, seq := q, done := true, digest := imageDigest s.hanks.host s.hanks.sys }

/-- Whether the next image goes to place B. -/
def State.imageToB (s : State) : Bool := s.hanks.imgA.done && s.fget Reg.TLC_CKPT Fld.TLC_CKPT_IMAGE == 0

/-- What stands when a checkpoint completes, before what waits is tried again. -/
def State.checkpointed (s : State) (q : Nat) : State :=
  ((State.charge { s with hanks := s.hanks.withImage s.imageToB (s.imageOf q) (s.hanks.journal.filter (s.hanks.ckptKeeps s.imageToB q)) } 17
    (48 * 17408)).fset Reg.TLC_CKPT Fld.TLC_CKPT_SEQ q).fset Reg.TLC_CKPT Fld.TLC_CKPT_IMAGE (if s.imageToB then 1 else 0)

theorem exec_mapCheckpointDone {s : State} {q : Nat} (hRun : s.hanks.ckptRun = some q) :
    exec .mapCheckpointDone s = nextState (s.checkpointed q).retryStuck := by
  have hStep : exec .mapCheckpointDone s = execMapCheckpointDone s := rfl
  rw [hStep, execMapCheckpointDone]
  cases hTo : s.imageToB with
  | true =>
    have hPlace : (s.hanks.imgA.done && s.fget Reg.TLC_CKPT Fld.TLC_CKPT_IMAGE == 0) = true := hTo
    simp only [hRun, hPlace, State.checkpointed, hTo, if_true]
    rfl
  | false =>
    have hPlace : (s.hanks.imgA.done && s.fget Reg.TLC_CKPT Fld.TLC_CKPT_IMAGE == 0) = false := hTo
    simp only [hRun, hPlace, State.checkpointed, hTo, Bool.false_eq_true, if_false]
    rfl

theorem State.checkpointed_noWaits {s : State} (h : s.NoWaits) (q : Nat) : (s.checkpointed q).NoWaits := by
  unfold State.checkpointed
  cases s.imageToB <;> exact h

theorem mapCheckpointDone_completes {s : State} {q : Nat} (hRun : s.hanks.ckptRun = some q) (hNewer : jFrom s.hanks.imgA.seq q = true)
    (hOlder : jFrom q s.hanks.imgB.seq = false) (hWaits : s.NoWaits) (hOps : s.adm.ops = []) :
    ∃ t, exec .mapCheckpointDone s = .next t ∧ t.hanks.ckptRun = none ∧ t.hanks.newestImage = some (s.imageOf q) ∧
      t.hanks.host = s.hanks.host ∧ t.hanks.sys = s.hanks.sys ∧ (∀ x ∈ s.hanks.journal, jFrom q x.seq = true → x ∈ t.hanks.journal) ∧
      Frame s t [.adm, .hanks] [Reg.TLC_CKPT] := by
  have hStep : exec .mapCheckpointDone s = nextState (s.checkpointed q) := by
    rw [exec_mapCheckpointDone hRun, State.retryStuck_of_noWaits (s.checkpointed_noWaits hWaits q) hOps]
  have hHanks : (s.checkpointed q).settle.hanks =
      s.hanks.withImage s.imageToB (s.imageOf q) (s.hanks.journal.filter (s.hanks.ckptKeeps s.imageToB q)) := State.settle_hanks _
  have hPlaceB (h : s.imageToB = true) : s.hanks.imgA.done = true := (Bool.and_eq_true_iff.1 h).1
  refine nextState_exists hStep ⟨?_, ?_, ?_, ?_, fun x hx hFrom => ?_, frame_settle rfl (fun p hp => ?_) fun off hOff => ?_⟩
  · rw [hHanks]
    rfl
  · rw [hHanks]
    exact Hanks.withImage_newest _ rfl hPlaceB hNewer hOlder
  · rw [hHanks, Hanks.withImage_host]
  · rw [hHanks, Hanks.withImage_sys]
  · rw [hHanks]
    exact List.mem_filter.2 ⟨hx, by simp [Hanks.ckptKeeps, hFrom]⟩
  · cases p with
    | regs | adm | hanks => simp at hp
    | cmds => exact ⟨rfl, rfl⟩
    | _ => rfl
  · have hOther : off ≠ Reg.TLC_CKPT := by simpa using hOff
    exact (State.reg_fset_other _ _ _ _ hOther).trans (State.reg_fset_other _ _ _ _ hOther)

/-- The entry of a bad line is put back. -/
def State.putBack (s : State) (sys : Bool) (idx : Nat) : State :=
  State.putEntry { s with hanks := { s.hanks with restore := s.hanks.restore.filter (· != (sys, idx)) } } sys idx (s.restored sys idx)

theorem State.putBack_eq (s : State) (sys : Bool) (idx : Nat) : s.putBack sys idx = { s with hanks := (s.putBack sys idx).hanks } := by
  cases sys <;> rfl

theorem State.putBack_hanks (s : State) (sys : Bool) (idx : Nat) : (s.putBack sys idx).hanks = { s.hanks with
    restore := s.hanks.restore.filter (· != (sys, idx)), host := (s.putBack sys idx).hanks.host, sys := (s.putBack sys idx).hanks.sys } := by
  cases sys <;> rfl

theorem State.putBack_noWaits {s : State} (h : s.NoWaits) (sys : Bool) (idx : Nat) : (s.putBack sys idx).NoWaits := by
  cases sys <;> exact h

theorem mapEntryRestore_restores {s : State} {sys : Bool} {idx : Nat} (hBad : (sys, idx) ∈ s.hanks.restore) (hWaits : s.NoWaits)
    (hOps : s.adm.ops = []) :
    ∃ t, exec (.mapEntryRestore sys idx) s = .next t ∧ t.entry sys idx = s.restored sys idx ∧ (sys, idx) ∉ t.hanks.restore ∧
      t.hanks.journal = s.hanks.journal ∧ Frame s t [.hanks] [] := by
  have hPutOps : (s.putBack sys idx).adm.ops = [] := by rw [s.putBack_eq]; exact hOps
  have hStep : exec (.mapEntryRestore sys idx) s = nextState (s.putBack sys idx) := by
    have hExec : exec (.mapEntryRestore sys idx) s = nextState (if s.hanks.restore.contains (sys, idx) then (s.putBack sys idx).retryStuck else s) := rfl
    rw [hExec, if_pos (List.contains_iff_mem.2 hBad), State.retryStuck_of_noWaits (s.putBack_noWaits hWaits sys idx) hPutOps]
  refine nextState_exists hStep ⟨?_, ?_, ?_, frame_settle_of_hanks (s.putBack_eq sys idx)⟩
  · rw [State.entry_congr (congrArg Hanks.host (State.settle_hanks _)) (congrArg Hanks.sys (State.settle_hanks _))]
    exact State.entry_putEntry_same ..
  · rw [State.settle_hanks, State.putBack_hanks]
    simp
  · rw [State.settle_hanks, State.putBack_hanks]

/-! ### The static sweep (R140) -/

theorem State.startMig_of_migrating {s : State} {sys : Bool} {idx : Nat} (h : (s.migOf sys idx).isSome = true) (kind : MigKind) (due : Nat) :
    s.startMig sys idx kind due = s := by
  unfold State.startMig
  simp only [h, Bool.true_or, if_true]

/-- The migration of a hank's data to a free hank, as it starts. -/
def State.newMig (s : State) (sys : Bool) (idx dst : Nat) (kind : MigKind) (due : Nat) : Mig :=
  { sys := sys, idx := idx, src := (s.entry sys idx).phn, dst := dst, kind := kind, state := .copying, bitmap := 0, again := 0, digest := 0, due := due,
    bad := false }

/-- A migration has a number, and the search for a free hank goes on behind its destination. -/
def State.withMig (s : State) (m : Mig) : State :=
  { s with hanks := { s.hanks with
    migs := tput s.hanks.migs s.hanks.nextMig m, nextMig := s.hanks.nextMig + 1, cursor := (m.dst + 1) % 2 ^ 23 } }

/-- A migration starts: its destination is no longer free, and its hank migrates. -/
def State.migrating (s : State) (m : Mig) : State :=
  (((s.withMig m).setFree m.dst false).freeStat ((s.withMig m).freeCount - 1)).setEntry m.sys m.idx
    { s.entry m.sys m.idx with state := if (s.entry m.sys m.idx).state = 1 then 2 else (s.entry m.sys m.idx).state }

theorem State.startMig_of_free {s : State} {sys : Bool} {idx dst : Nat} (hNone : s.migOf sys idx = none) (hRoom : s.migActive < 16)
    (hJournal : s.journalFull = false) (hFill : s.hanks.fillRebuild = false) (hEvac : s.hanks.evac = []) (hHeld : s.adm.held.getD 17 false = false)
    (hWear : s.fget Reg.TLC_MIG_STAT Fld.TLC_MIG_STAT_WEAR_PAUSED = 0)
    (hPick : State.pickFree s (s.entry sys idx).phn sys (2 ^ 23) s.hanks.cursor = some dst) (kind : MigKind) (due : Nat) :
    s.startMig sys idx kind due = s.migrating (s.newMig sys idx dst kind due) := by
  have hGo : ((s.migOf sys idx).isSome || decide (16 ≤ s.migActive) || s.journalFull || s.hanks.fillRebuild ||
      ((kind == .wear || kind == .static) && !s.hanks.evac.isEmpty) || ((kind == .wear || kind == .static) && s.adm.held.getD 17 false) ||
      (kind != .retire && s.fget Reg.TLC_MIG_STAT Fld.TLC_MIG_STAT_WEAR_PAUSED == 1)) = false := by
    rw [hNone, decide_eq_false (Nat.not_le.2 hRoom), hJournal, hFill, hEvac, hHeld, hWear]
    simp
  unfold State.startMig
  simp only [hGo, hPick]
  rfl

theorem State.migrating_mapKept (s : State) (m : Mig) : MapKept (s.withMig m) (s.migrating m) :=
  ((MapKept.setFree ..).trans (.of_wm (State.freeStat_wmWork ..))).trans (.setEntry ..)

theorem State.migrating_isFree (s : State) (m : Mig) : (s.migrating m).isFree m.dst = false := by
  rw [State.migrating, State.isFree_congr (State.setEntry_free ..), State.isFree_congr (congrArg Hanks.free (State.freeStat_wmWork ..).hanks)]
  exact State.setFree_isFree ..

/-- The sweep goes on to the next hank. -/
def State.sweptOn (s u : State) : State := { u with hanks := { u.hanks with sweep := (s.hanks.sweep + 1) % (hostHanks + sysHanks) } }

theorem exec_staticSweepVisit {s : State} {sys : Bool} {idx : Nat} (hOn : s.fget Reg.TLC_MIG_CTL Fld.TLC_MIG_CTL_STATIC_EN = 1)
    (hReady : s.hanks.mapsReady = true) (hHank : sweepHank s.hanks.sweep = (sys, idx))
    (hGoes : ¬((s.startMig sys idx .static (s.bgDeadline 1)).hanks.nextMig = s.hanks.nextMig ∧ (s.migOf sys idx).isNone = true)) :
    exec .staticSweepVisit s = nextState (s.sweptOn (s.startMig sys idx .static (s.bgDeadline 1))) := by
  have hStep : exec .staticSweepVisit s = execStaticSweepVisit s := rfl
  rw [hStep, execStaticSweepVisit, if_pos ⟨hOn, hReady⟩]
  simp only [hHank]
  rw [if_neg hGoes]
  rfl

theorem staticSweepVisit_starts {s : State} {sys : Bool} {idx dst : Nat} (hOn : s.fget Reg.TLC_MIG_CTL Fld.TLC_MIG_CTL_STATIC_EN = 1)
    (hReady : s.hanks.mapsReady = true) (hHank : sweepHank s.hanks.sweep = (sys, idx))
    (hStart : s.startMig sys idx .static (s.bgDeadline 1) = s.migrating (s.newMig sys idx dst .static (s.bgDeadline 1))) :
    ∃ t, exec .staticSweepVisit s = .next t ∧ t.hanks.sweep = (s.hanks.sweep + 1) % (hostHanks + sysHanks) ∧
      tget t.hanks.migs s.hanks.nextMig = some (s.newMig sys idx dst .static (s.bgDeadline 1)) ∧
      t.isFree dst = false ∧ t.med = s.med ∧ t.tlc = s.tlc := by
  have hKept := s.migrating_mapKept (s.newMig sys idx dst .static (s.bgDeadline 1))
  have hNext : (s.migrating (s.newMig sys idx dst .static (s.bgDeadline 1))).hanks.nextMig = s.hanks.nextMig + 1 :=
    congrArg Hanks.nextMig hKept.hanks
  have hMigs : (s.migrating (s.newMig sys idx dst .static (s.bgDeadline 1))).hanks.migs =
      tput s.hanks.migs s.hanks.nextMig (s.newMig sys idx dst .static (s.bgDeadline 1)) := hKept.migs
  have hStep := exec_staticSweepVisit hOn hReady hHank fun h => by
    rw [hStart, hNext] at h
    omega
  rw [hStart] at hStep
  refine nextState_exists hStep ⟨?_, ?_, ?_, ?_, ?_⟩
  · rw [State.settle_hanks]
    rfl
  · rw [State.settle_hanks, State.sweptOn, hMigs]
    exact tget_tput_same _ _ _
  · rw [State.isFree_congr (congrArg Hanks.free (State.settle_hanks _))]
    exact s.migrating_isFree _
  · exact (State.settle_med _).trans hKept.med
  · exact (State.settle_tlc _).trans hKept.tlc

/-- Settles O22: an image that completes is taken for the newest by the order of the two images' numbers; what stands in the map after a restore, and which
migration the sweep starts, is what the operations they go through leave; a sweep past a hank that migrates starts nothing. -/
theorem mapCheckpointsAndRestores : Obligations.MapCheckpointsAndRestores := by
  refine ⟨⟨fun s hReady hNone hMany => mapCheckpoint_begins hReady hNone hMany, fun s q hRun hNewer _ _ hOlder hWaits hOps =>
    mapCheckpointDone_completes hRun hNewer hOlder hWaits hOps, fun s sys idx hBad hWaits hOps => mapEntryRestore_restores hBad hWaits hOps⟩,
    fun s sys idx dst hOn hReady hHank hNone hRoom hJournal hFill hEvac hHeld hWear hPick => ?starts,
    fun s sys idx hOn hReady hHank hSome => ?passes⟩
  case starts =>
    exact staticSweepVisit_starts hOn hReady hHank (State.startMig_of_free hNone hRoom hJournal hFill hEvac hHeld hWear hPick ..)
  case passes =>
    have hStep := exec_staticSweepVisit hOn hReady hHank fun h => by
      rw [Option.isNone_iff_eq_none.1 h.2] at hSome
      cases hSome
    rw [State.startMig_of_migrating hSome] at hStep
    exact nextState_exists hStep ⟨State.settle_hanks _, frame_settle_of_hanks rfl⟩

end Sys2Proof.Machine

namespace Sys2Proof.Machine

/-- From `s` to `u` nothing has changed but admission and registers. -/
def AdmOnly (s u : State) : Prop := u = { s with adm := u.adm, regs := u.regs }

namespace AdmOnly

variable {s u v : State}

theorem trans (h : AdmOnly s u) (h' : AdmOnly u v) : AdmOnly s v := by
  refine Eq.trans h' ?_
  rw [show u = _ from h]

theorem foldl {α : Type} {f : State → α → State} (h : ∀ s x, AdmOnly s (f s x)) (l : List α) (s : State) : AdmOnly s (l.foldl f s) := by
  induction l generalizing s with
  | nil => rfl
  | cons x l ih => exact (h s x).trans (ih _)

theorem hanks (h : AdmOnly s u) : u.hanks = s.hanks := (congrArg State.hanks h).trans rfl

theorem freeOp (s : State) (id : Nat) : AdmOnly s (s.freeOp id) := rfl

theorem closeFault (s : State) (f : Nat) : AdmOnly s (s.closeFault f) := by
  unfold State.closeFault
  extract_lets rest s1 joins start s2
  split
  · split
    · exact rfl
    · exact rfl
  · exact rfl

theorem dropOps (s : State) (ids : List Nat) : AdmOnly s (s.dropOps ids) :=
  (foldl (fun s i => closeFault s (100000 + i)) _ s).trans (foldl freeOp ..)

end AdmOnly

/-! ### The release of a hank (R145) -/

theorem State.blankHank_hanks (s : State) (phn : Nat) : (s.blankHank phn).hanks = s.hanks := rfl

theorem State.ledgerAdd_hanks (s : State) (phn n : Nat) : (s.ledgerAdd phn n).hanks =
    { s.hanks with wear := (s.ledgerAdd phn n).hanks.wear, wearSub := (s.ledgerAdd phn n).hanks.wearSub } := by
  unfold State.ledgerAdd
  dsimp only
  split
  · rfl
  · rfl

theorem State.setFree_hanks (s : State) (phn : Nat) (b : Bool) : (s.setFree phn b).hanks =
    { s.hanks with free := dput shippedFree s.hanks.free phn b } := (WmWork.lineWrite ..).hanks

theorem State.freeStat_hanks (s : State) (free : Nat) : (s.freeStat free).hanks = s.hanks := (s.freeStat_wmWork free).hanks

theorem State.markRetired_hanks (s : State) (phn : Nat) : (s.markRetired phn).hanks = { s.hanks with wear := tput s.hanks.wear phn 0xFFFF } :=
  State.setReg_hanks ..

/-- A release changes the free table and the wear ledger, and no entry of the map. -/
theorem State.releaseHank_hanks (s : State) (phn : Nat) (retired : Bool) : (s.releaseHank phn retired).hanks = { s.hanks with
    free := (s.releaseHank phn retired).hanks.free, wear := (s.releaseHank phn retired).hanks.wear
    wearSub := (s.releaseHank phn retired).hanks.wearSub } := by
  cases retired with
  | true =>
    have h : (s.releaseHank phn true).hanks = _ := s.markRetired_hanks phn
    rw [h]
  | false =>
    have h : (s.releaseHank phn false).hanks = _ := (State.freeStat_hanks ..).trans (State.setFree_hanks ..)
    rw [h, State.ledgerAdd_hanks, State.blankHank_hanks]

theorem State.releaseHank_entry (s : State) (phn : Nat) (retired : Bool) (sys : Bool) (idx : Nat) :
    (s.releaseHank phn retired).entry sys idx = s.entry sys idx := by
  have h := s.releaseHank_hanks phn retired
  exact State.entry_congr (by rw [h]) (by rw [h]) sys idx

theorem State.releaseHank_isFree (s : State) (phn : Nat) : (s.releaseHank phn false).isFree phn = true := by
  have h : (s.releaseHank phn false).hanks.free = _ := congrArg Hanks.free (State.freeStat_hanks ..)
  exact (State.isFree_congr h phn).trans (State.setFree_isFree ..)

theorem State.releaseHank_retired (s : State) (phn : Nat) : tget (s.releaseHank phn true).hanks.wear phn = some 0xFFFF := by
  have h : (s.releaseHank phn true).hanks = _ := s.markRetired_hanks phn
  rw [h]
  exact tget_tput_same _ _ _

/-! ### A migration whose copy is discarded (R143) -/

/-- What was noted of the destination of a copy is forgotten, and a retirement is queued again. -/
def State.forgetCopy (s : State) (g : Mig) : State :=
  { s with hanks := { s.hanks with
    failedAt := s.hanks.failedAt.filter fun k => k / 128 != g.dst
    rmw := s.hanks.rmw.filter fun e => e.1 / 128 != g.dst
    suspect := s.hanks.suspect.filter fun e => e.1 / 128 != g.dst
    retireQ := if g.kind = .retire then s.hanks.retireQ ++ [(g.sys, g.idx, g.due)] else s.hanks.retireQ } }

/-- The migration is gone, the copier's operations that have not started are dropped, and the copy is forgotten. -/
def State.copyDropped (s : State) (m : Nat) (g : Mig) : State :=
  let gone : State := { s with hanks := { s.hanks with migs := tdel s.hanks.migs m } }
  (gone.dropOps (tkeys gone.adm.ops fun o => match o.kind with | .stripe r => r.kind == .copy m && !r.started | _ => false)).forgetCopy g

/-- The hank of a discarded migration no longer migrates. -/
def State.unmigrate (s : State) (g : Mig) : State :=
  if (s.entry g.sys g.idx).state = 2 then s.setEntry g.sys g.idx { s.entry g.sys g.idx with state := 1 } else s

theorem State.unmigrate_mapKept (s : State) (g : Mig) : MapKept s (s.unmigrate g) := by
  unfold State.unmigrate
  split
  · exact .setEntry ..
  · exact .refl s

theorem State.unmigrate_phn (s : State) (g : Mig) : ((s.unmigrate g).entry g.sys g.idx).phn = (s.entry g.sys g.idx).phn := by
  unfold State.unmigrate
  split
  · rw [State.setEntry_entry_same]
  · rfl

theorem State.setEntry_wear (s : State) (sys : Bool) (idx : Nat) (e : MapEntry) : (s.setEntry sys idx e).hanks.wear = s.hanks.wear := by
  rw [(s.setEntry_mapWork sys idx e).hanks, State.journalled_hanks]

theorem State.unmigrate_free (s : State) (g : Mig) : (s.unmigrate g).hanks.free = s.hanks.free := by
  unfold State.unmigrate
  split
  · exact State.setEntry_free ..
  · rfl

theorem State.unmigrate_wear (s : State) (g : Mig) : (s.unmigrate g).hanks.wear = s.hanks.wear := by
  unfold State.unmigrate
  split
  · exact State.setEntry_wear ..
  · rfl

/-- With nothing being programmed, a discard drops the copy, releases the destination, and lets the hank stand where it is. -/
theorem State.migDiscard_hanks {s : State} (hProgs : s.med.progs = []) (m : Nat) (g : Mig) :
    (s.migDiscard m g).hanks = (((s.copyDropped m g).releaseHank g.dst g.bad).unmigrate g).hanks := by
  unfold State.migDiscard
  extract_lets _ gone reading s' _ s0 s1 e s2
  have hNone : (tkeys gone.med.progs fun p => p.kind == .copy g.src) = [] := by
    have h : gone.med.progs = [] := hProgs
    rw [h]
    rfl
  have hDropped : s' = gone.dropOps reading := by
    unfold s'
    rw [hNone]
    rfl
  have hStart : s0 = s.copyDropped m g := by
    have h : s0 = s'.forgetCopy g := rfl
    rw [h, hDropped]
    rfl
  have hUnmigrated : s2 = ((s.copyDropped m g).releaseHank g.dst g.bad).unmigrate g := by
    have h : s2 = (s0.releaseHank g.dst g.bad).unmigrate g := rfl
    rw [h, hStart]
  rw [← hUnmigrated]
  split
  · rfl
  · rfl

section
variable (s : State) (m : Nat) (g : Mig)

theorem State.copyDropped_migs : (s.copyDropped m g).hanks.migs = tdel s.hanks.migs m :=
  congrArg Hanks.migs (AdmOnly.dropOps { s with hanks := { s.hanks with migs := tdel s.hanks.migs m } } _).hanks

theorem State.copyDropped_entry (sys : Bool) (idx : Nat) : (s.copyDropped m g).entry sys idx = s.entry sys idx := by
  have h := (AdmOnly.dropOps { s with hanks := { s.hanks with migs := tdel s.hanks.migs m } } (tkeys s.adm.ops fun o =>
    match o.kind with | .stripe r => r.kind == .copy m && !r.started | _ => false)).hanks
  exact State.entry_congr (congrArg Hanks.host h) (congrArg Hanks.sys h) sys idx

variable {s} (hProgs : s.med.progs = [])
include hProgs

theorem State.migDiscard_migs : tget (s.migDiscard m g).hanks.migs m = none := by
  rw [State.migDiscard_hanks hProgs, (State.unmigrate_mapKept ..).migs, State.releaseHank_hanks, State.copyDropped_migs]
  exact tget_tdel_same ..

theorem State.migDiscard_phn : ((s.migDiscard m g).entry g.sys g.idx).phn = (s.entry g.sys g.idx).phn := by
  have hKept := State.migDiscard_hanks hProgs m g
  rw [State.entry_congr (congrArg Hanks.host hKept) (congrArg Hanks.sys hKept), State.unmigrate_phn,
    State.releaseHank_entry, State.copyDropped_entry]

theorem State.migDiscard_isFree (hBad : g.bad = false) : (s.migDiscard m g).isFree g.dst = true := by
  rw [State.isFree_congr (congrArg Hanks.free (State.migDiscard_hanks hProgs m g)), State.isFree_congr (State.unmigrate_free ..), hBad]
  exact State.releaseHank_isFree ..

theorem State.migDiscard_retired (hBad : g.bad = true) : tget (s.migDiscard m g).hanks.wear g.dst = some 0xFFFF := by
  rw [State.migDiscard_hanks hProgs, State.unmigrate_wear, hBad]
  exact State.releaseHank_retired ..

end

/-! ### A commit of a copy that failed (O24) -/

/-- A migration of host hank 0 whose copy is complete, and a program of which failed. -/
def badCopy : Mig :=
  { sys := false, idx := 0, src := 0, dst := 900000, kind := .wear, state := .copied, bitmap := BitVec.allOnes 128, again := 0, digest := 0, due := 0,
    bad := true }

def badCopyStands : State := { State.reset with hanks := { Hanks.init with migs := [(0, badCopy)] } }

theorem exec_migrationCommit_bad {s : State} {m : Nat} {g : Mig} (hMig : tget s.hanks.migs m = some g) (hState : g.state = .copied)
    (hJournal : s.journalFull = false) (hBusy : s.hankBusy g.src = false) (hBad : g.bad = true) :
    exec (.migrationCommit m) s = nextState (s.migDiscard m g) := by
  have hStep : exec (.migrationCommit m) s = execMigrationCommit m s := rfl
  rw [hStep, execMigrationCommit]
  simp only [hMig]
  rw [if_pos ⟨hState, hJournal, hBusy⟩, if_pos hBad]

/-- Refutes O24: a copy a program of which failed is discarded when it would be committed, while the first clause says of every copy that stands that it
is committed. The state is `badCopyStands`, in which the migration has no entry left after the commit. -/
theorem not_migrationCommitsAndReleases : ¬ Obligations.MigrationCommitsAndReleases := by
  rintro ⟨hCommit, -⟩
  have hMig : tget badCopyStands.hanks.migs 0 = some badCopy := rfl
  have hJournal : badCopyStands.journalFull = false := by decide
  have hBusy : badCopyStands.hankBusy badCopy.src = false := by decide
  have hWaits : badCopyStands.NoWaits := by decide
  obtain ⟨t, hExec, -, -, -, -, hCommitted, -⟩ := hCommit badCopyStands 0 badCopy hMig rfl hJournal hBusy rfl hWaits rfl
  have hGone : tget t.hanks.migs 0 = none := by
    rw [nextState_next _ ((exec_migrationCommit_bad hMig rfl hJournal hBusy rfl).symm.trans hExec), State.settle_hanks]
    exact State.migDiscard_migs 0 badCopy rfl
  rw [hGone] at hCommitted
  cases hCommitted

end Sys2Proof.Machine

namespace Sys2Proof.Machine

/-! ### What the end of a hank's work leaves on the medium (O25) -/

theorem State.foldl_med {β : Type} {f : State → β → State} (h : ∀ s x, (f s x).med = s.med) (l : List β) (s : State) : (l.foldl f s).med = s.med :=
  foldl_keeps State.med h l s

theorem State.dirtyNode_med (s : State) (lvl idx due : Nat) (b : CBlock) : (s.dirtyNode lvl idx due b).med = s.med := by
  have hStat (u : State) : u.ccStat.med = u.med := rfl
  unfold State.dirtyNode
  extract_lets
  split
  · rw [hStat]
    split
    · rfl
    · exact (WmWork.lineWrite ..).med
  · exact hStat _

theorem State.noteMaj_med (s : State) (maj : Nat) : (s.noteMaj maj).med = s.med := by
  unfold State.noteMaj
  split
  · rfl
  · rfl

theorem State.zeroPatch_med (s : State) (p due : Nat) : (s.zeroPatch p due).med = s.med := (State.noteMaj_med ..).trans (State.dirtyNode_med ..)

theorem State.zeroHank_med (s : State) (lhn : Nat) : (s.zeroHank lhn).med = s.med := State.foldl_med (fun s _ => s.zeroPatch_med ..) _ s

theorem State.endWork_med (s : State) (lhn : Nat) : (s.endWork lhn).med = s.med := rfl

theorem State.fmAnswered_med (s : State) (lhn : Nat) : (s.fmAnswered lhn).med = s.med := by
  unfold State.fmAnswered
  split
  · dsimp only
    split
    · rfl
    · rfl
  · rfl

theorem State.plyRespond_med (s : State) (k op region status : Nat) (args : List Nat) : (s.plyRespond k op region status args).med = s.med :=
  State.setLink_med ..

theorem State.hankAnswered_med (s : State) (lhn : Nat) : (s.hankAnswered lhn).med = s.med :=
  (State.foldl_med (fun _ _ => (State.foldl_med (fun s _ => s.plyRespond_med ..) ..).trans (State.setLink_med ..)) _ _).trans (s.fmAnswered_med lhn)

/-- A write on the medium leaves the other lines as they read. -/
theorem State.medGet_medPut_other (s : State) {phn st d j phn' st' d' j' : Nat} (x : Stored) (h : medKey phn' st' d' j' ≠ medKey phn st d j) :
    (s.medPut phn st d j x).medGet phn' st' d' j' = s.medGet phn' st' d' j' := dget_dput_other _ _ _ h

/-- A parity page is none of the data pages. -/
theorem medKey_data_ne_parity {phn st d j phn' st' j' : Nat} (hd : d < 16) (hj : j < 8) (hj' : j' < 8) : medKey phn st d j ≠ medKey phn' st' 16 j' := by
  unfold medKey
  omega

/-- A parity page written anew leaves the data pages as they read. -/
theorem State.fixParity_medGet (s : State) (phn st : Nat) {phn' st' d j : Nat} (hd : d < 16) (hj : j < 8) :
    (s.fixParity phn st).medGet phn' st' d j = s.medGet phn' st' d j := by
  unfold State.fixParity
  refine List.foldlRecOn (motive := fun u : State => u.medGet phn' st' d j = s.medGet phn' st' d j) _ _ rfl fun u hu k hk => ?_
  exact (u.medGet_medPut_other _ (medKey_data_ne_parity hd hj (List.mem_range.1 hk))).trans hu

/-- Over a hank that stores nothing, an overwrite leaves the data pages blank, and a blank page reads with the label its hank was blanked under. -/
theorem State.overwriteHank_medGet_wep {s : State} (hLines : s.med.lines = []) (lhn : Nat) {phn st d j : Nat} (hd : d < 16) (hj : j < 8) :
    ((s.overwriteHank lhn).medGet phn st d j).wep = s.med.wepOf (medKey phn st d j / 17408) := by
  unfold State.overwriteHank
  dsimp only
  rw [foldl_keeps (fun u : State => u.medGet phn st d j) (fun (u : State) x => u.fixParity_medGet _ x hd hj), State.medGet, hLines]
  rfl

/-- A module that was blanked under label 1, with a secure discard of host hank 0 under way. -/
def blankedUnderLabelOne : State :=
  { State.reset with
    hanks := { Hanks.init with work := [(0, .secure none)] }
    med := { Medium.init with blankAll := 1 }
    energy := { Energy.init with halfA := { Energy.init.halfA with blanked := true }, halfB := { Energy.init.halfB with blanked := true } } }

/-- Of all that the end of a secure discard does, only the overwrite changes the medium. -/
theorem secureOverwriteDone_med {s t : State} {lhn : Nat} (hWork : tget s.hanks.work lhn = some (.secure none)) (hJournal : s.journalFull = false)
    (hMig : s.migOpen lhn = false) (hErase : s.eraseOf lhn = none) (hBusy : s.hankBusy (s.hostEntry lhn).phn = false)
    (hA : s.energy.halfA.blanked = true) (hB : s.energy.halfB.blanked = true) (hExec : execSecureOverwriteDone lhn s = .next t) :
    t.med = ((s.zeroHank lhn).overwriteHank lhn).med := by
  unfold execSecureOverwriteDone at hExec
  simp only [hWork, hJournal, hMig, hErase, hBusy, hA, hB, Option.isSome_none, Option.isNone_none, Bool.and_false, Bool.or_false, Bool.not_true,
    Bool.false_eq_true, if_false, State.hankDone] at hExec
  rw [nextState_next _ hExec, State.settle_med, State.hankAnswered_med, (MapKept.setEntry ..).med, State.endWork_med, State.charge_med]

/-- Refutes O25: the pages that a secure discard blanks read with the label their hank was blanked under, which is not always the label 0 that the third
clause states. In the state `blankedUnderLabelOne` it is 1. -/
theorem not_hankWorkEndsInZeros : ¬ Obligations.HankWorkEndsInZeros := by
  rintro ⟨-, -, hSecure⟩
  have hWork : tget blankedUnderLabelOne.hanks.work 0 = some (.secure none) := rfl
  have hJournal : blankedUnderLabelOne.journalFull = false := by decide
  have hMig : blankedUnderLabelOne.migOpen 0 = false := by decide
  have hErase : blankedUnderLabelOne.eraseOf 0 = none := by decide
  have hBusy : blankedUnderLabelOne.hankBusy (blankedUnderLabelOne.hostEntry 0).phn = false := rfl
  obtain ⟨t, hExec, -, -, -, hBlank⟩ := hSecure _ 0 hWork hJournal hMig hErase hBusy rfl rfl rfl rfl
  have hMed : t.med = ((blankedUnderLabelOne.zeroHank 0).overwriteHank 0).med :=
    secureOverwriteDone_med hWork hJournal hMig hErase hBusy rfl rfl hExec
  have hZeroed := blankedUnderLabelOne.zeroHank_med 0
  have hLabel (phn : Nat) : (t.medGet phn 0 0 0).wep = 1 := by
    rw [State.medGet, hMed]
    refine (State.overwriteHank_medGet_wep (by rw [hZeroed]; rfl) 0 (by decide) (by decide)).trans ?_
    rw [hZeroed]
    rfl
  have hRead := hLabel (blankedUnderLabelOne.hostEntry 0).phn
  rw [hBlank 0 0 0 (by decide) (by decide) (by decide)] at hRead
  exact absurd hRead (by decide)

end Sys2Proof.Machine

namespace Sys2Proof.Machine

/-! ### The heat of a hank, and the migration it may start (R138) -/

/-- From `s` to `u` a hank has been warmed: what keeping the map touches has changed, and migrations may have started, numbered from the next one on. -/
structure Warms (s u : State) : Prop where
  rest : u = { s with
    outbox := u.outbox, freeCtr := u.freeCtr, regs := u.regs, hwSet := u.hwSet, wm := u.wm, logs := u.logs, hist := u.hist, hanks := u.hanks
    adm := { s.adm with faults := u.adm.faults, onset := u.adm.onset, intrs := u.adm.intrs } }
  suspect : u.hanks.suspect = s.hanks.suspect
  nextMig : s.hanks.nextMig ≤ u.hanks.nextMig
  migs : ∀ m, m < s.hanks.nextMig → tget u.hanks.migs m = tget s.hanks.migs m

namespace Warms

variable {s u v : State}

theorem trans (h : Warms s u) (h' : Warms u v) : Warms s v := by
  refine ⟨Eq.trans h'.rest ?_, h'.suspect.trans h.suspect, h.nextMig.trans h'.nextMig, fun m hm => ?_⟩
  · rw [h.rest]
  · rw [h'.migs m (hm.trans_le h.nextMig), h.migs m hm]

theorem of_hanks {hanks : Hanks} (hSuspect : hanks.suspect = s.hanks.suspect) (hNext : hanks.nextMig = s.hanks.nextMig)
    (hMigs : hanks.migs = s.hanks.migs) : Warms s { s with hanks := hanks } :=
  ⟨rfl, hSuspect, hNext.ge, fun m _ => by rw [hMigs]⟩

theorem refl (s : State) : Warms s s := of_hanks rfl rfl rfl

theorem of_mapKept (h : MapKept s u) : Warms s u := by
  have hHanks := h.hanks
  refine ⟨Eq.trans h ?_, by rw [hHanks], by rw [hHanks], fun m _ => by rw [hHanks]⟩
  rw [← hHanks]

theorem startMig (s : State) (sys : Bool) (idx : Nat) (kind : MigKind) (due : Nat) : Warms s (s.startMig sys idx kind due) := by
  have hWith (m : Mig) : Warms s (s.withMig m) :=
    ⟨rfl, rfl, Nat.le_succ _, fun j hj => tget_tput_other _ _ (Nat.ne_of_lt hj)⟩
  unfold State.startMig
  dsimp only
  split
  · exact refl s
  · split
    · exact refl s
    · rename_i dst _
      exact (hWith (s.newMig sys idx dst kind due)).trans (of_mapKept (s.migrating_mapKept _))

theorem ledgerAdd (s : State) (phn n : Nat) : Warms s (s.ledgerAdd phn n) := by
  unfold State.ledgerAdd
  dsimp only
  split
  · exact refl s
  · exact of_hanks rfl rfl rfl

theorem heat (s : State) (phn : Nat) : Warms s (s.heat phn) := by
  unfold State.heat
  extract_lets n keep warm
  have hKeep (k : Nat) : Warms s (keep s k) := of_hanks rfl rfl rfl
  have hWarm (sys : Bool) (idx : Nat) : Warms s (warm sys idx) := by
    unfold warm
    dsimp only
    split
    · split
      · exact hKeep n
      · exact ((hKeep _).trans (of_mapKept (.setEntry ..))).trans (startMig ..)
    · exact (hKeep _).trans (of_mapKept (.putEntry ..))
  split
  · exact hKeep n
  · split
    · exact hWarm ..
    · exact hWarm ..
    · exact (hKeep 0).trans (ledgerAdd ..)

end Warms

/-! ### The pages that a program writes (R142) -/

/-- From `s` to `u` nothing has changed on the medium's side but its lines and their marks. -/
def PageOnly (s u : State) : Prop :=
  u = { s with med := { s.med with lines := u.med.lines, corrupt := u.med.corrupt, staged := u.med.staged, refreshQ := u.med.refreshQ } }

theorem State.writePage_pageOnly (s : State) (phn st d : Nat) (lines : Tbl Stored) : PageOnly s (s.writePage phn st d lines) := by
  unfold State.writePage
  refine List.foldlRecOn (motive := fun u : State => PageOnly s u) _ _ rfl fun u hu e _ => ?_
  have hPut : PageOnly u (u.medPut phn st d e.1 e.2) := rfl
  exact Eq.trans hPut (by rw [show u = _ from hu])

/-- The lines that a page written leaves rest on the lines that stood, and the labels under which the hanks were blanked. -/
theorem State.writePage_lines_congr {s u : State} (hLines : u.med.lines = s.med.lines) (hBlank : u.med.blank = s.med.blank) (phn st d : Nat)
    (lines : Tbl Stored) : (u.writePage phn st d lines).med.lines = (s.writePage phn st d lines).med.lines := by
  unfold State.writePage
  induction lines generalizing s u with
  | nil => exact hLines
  | cons e lines ih => exact ih (by simp only [State.medPut, hLines, hBlank]) hBlank

theorem State.pageDone_pageOnly (s : State) (p : Program) : PageOnly s (s.pageDone p) :=
  have hDone : PageOnly (s.writePage p.phn p.s p.d p.lines) (s.pageDone p) := rfl
  Eq.trans hDone (by rw [show s.writePage p.phn p.s p.d p.lines = _ from s.writePage_pageOnly ..])

/-! ### What presses -/

/-- From `s` to `u` programs that press have been given their stitch, and none has come. -/
structure PressOnly (s u : State) : Prop where
  rest : u = { s with regs := u.regs, med := { s.med with progs := u.med.progs, stitched := u.med.stitched, starts := u.med.starts } }
  none_of_none : ∀ id, tget s.med.progs id = none → tget u.med.progs id = none

namespace PressOnly

variable {s u v : State}

theorem refl (s : State) : PressOnly s s := ⟨rfl, fun _ h => h⟩

theorem trans (h : PressOnly s u) (h' : PressOnly u v) : PressOnly s v := by
  refine ⟨Eq.trans h'.rest ?_, fun id hNone => h'.none_of_none id (h.none_of_none id hNone)⟩
  rw [h.rest]

theorem countProg (s : State) (ev : Nat) (p : Program) : PressOnly s (s.countProg ev p) := by
  have h : s.countProg ev p = { s with regs := (s.countProg ev p).regs } := State.count_eq ..
  exact ⟨Eq.trans h (by rw [h]), fun id hNone => by rw [h]; exact hNone⟩

theorem tryStitch (s : State) (id : Nat) : PressOnly s (s.tryStitch id) := by
  unfold State.tryStitch
  split
  · exact refl s
  · rename_i p hProg
    split
    · exact refl s
    · extract_lets first p' _ s1 s2
      have hGiven : PressOnly s s1 := by
        refine ⟨rfl, fun j hNone => ?_⟩
        have hj : j ≠ id := fun hEq => by rw [hEq, hProg] at hNone; cases hNone
        exact (tget_tput_other _ _ hj).trans hNone
      split
      · exact (hGiven.trans (countProg ..)).trans (countProg ..)
      · exact hGiven.trans (countProg ..)

theorem pressStitches (s : State) : PressOnly s s.pressStitches := by
  unfold State.pressStitches
  exact List.foldlRecOn (motive := fun u : State => PressOnly s u) _ _ (refl s) fun u hu id _ => hu.trans (tryStitch u id)

end PressOnly

/-- With no rescue and no failed program noted, no die is found failing. -/
theorem State.dieWatch_of_none {s : State} (hRescues : s.med.rescues = []) (hFails : s.med.fails = []) (ch die : Nat) : s.dieWatch ch die = s := by
  unfold State.dieWatch
  rw [hRescues, hFails]
  rfl

end Sys2Proof.Machine

namespace Sys2Proof.Machine

/-! ### The end of a copied page (R142) -/

/-- A program leaves the table, and its stitches are noted. -/
def State.stitchesNoted (s : State) (prog : Nat) (p : Program) : State :=
  State.noteStitches { s with med := { s.med with progs := tdel s.med.progs prog } } p.ch p.die p.stitches

/-- A page of a copy that verifies is noted with its stitches, warms its hank, and stands in the destination. -/
def State.copyPaged (s : State) (prog : Nat) (p : Program) : State := ((s.stitchesNoted prog p).heat p.phn).pageDone p

section
variable (s : State) (prog : Nat) (p : Program)

theorem State.stitchesNoted_eq : s.stitchesNoted prog p = { s with
    regs := (s.stitchesNoted prog p).regs
    med := { s.med with progs := tdel s.med.progs prog, window := (s.stitchesNoted prog p).med.window } } := rfl

theorem State.copyPaged_warms : Warms (s.stitchesNoted prog p) ((s.stitchesNoted prog p).heat p.phn) := .heat ..

theorem State.copyPaged_pageOnly : PageOnly ((s.stitchesNoted prog p).heat p.phn) (s.copyPaged prog p) := State.pageDone_pageOnly ..

theorem State.copyPaged_eq : s.copyPaged prog p = { s with
    outbox := (s.copyPaged prog p).outbox, freeCtr := (s.copyPaged prog p).freeCtr, regs := (s.copyPaged prog p).regs
    hwSet := (s.copyPaged prog p).hwSet, wm := (s.copyPaged prog p).wm, logs := (s.copyPaged prog p).logs, hist := (s.copyPaged prog p).hist
    hanks := (s.copyPaged prog p).hanks
    adm := { s.adm with
      faults := (s.copyPaged prog p).adm.faults, onset := (s.copyPaged prog p).adm.onset, intrs := (s.copyPaged prog p).adm.intrs }
    med := { s.med with
      progs := tdel s.med.progs prog, window := (s.copyPaged prog p).med.window, lines := (s.copyPaged prog p).med.lines
      corrupt := (s.copyPaged prog p).med.corrupt, staged := (s.copyPaged prog p).med.staged
      refreshQ := (s.copyPaged prog p).med.refreshQ } } := by
  have hPage := s.copyPaged_pageOnly prog p
  have hHeat := (s.copyPaged_warms prog p).rest
  refine Eq.trans hPage ?_
  rw [hPage, hHeat, s.stitchesNoted_eq]

theorem State.copyPaged_hanks : (s.copyPaged prog p).hanks = ((s.stitchesNoted prog p).heat p.phn).hanks :=
  (congrArg State.hanks (s.copyPaged_pageOnly prog p)).trans rfl

theorem State.copyPaged_lines : (s.copyPaged prog p).med.lines = (s.writePage p.phn p.s p.d p.lines).med.lines := by
  have hMed : ((s.stitchesNoted prog p).heat p.phn).med = (s.stitchesNoted prog p).med :=
    (congrArg State.med (s.copyPaged_warms prog p).rest).trans rfl
  exact State.writePage_lines_congr (by rw [hMed]; rfl) (by rw [hMed]; rfl) ..

end

theorem State.progEnds_copy {s : State} {p : Program} {src op : Nat} (hKind : p.kind = .copy src) (hStitches : p.stitches ≠ 0)
    (hOp : p.op = some op) (prog : Nat) : s.progEnds prog p true = (s.copyPaged prog p).opProgEnds prog op p true := by
  unfold State.progEnds
  simp only [hKind, hOp, hStitches, if_false, if_true]
  rfl

/-- With the last page of its stripe, a copy's operation ends. -/
theorem State.opProgEnds_copy {s : State} {prog op m : Nat} {o : Op} {r : StripeOp} (hOp : s.stripeOp op = some (o, r)) (hKind : r.kind = .copy m)
    (hLeft : r.left = [prog]) (p : Program) : s.opProgEnds prog op p true = ((s.copyEnds m (r.without prog p true)).freeOp op).retryStuck := by
  have hNone : (r.without prog p true).left = [] := by simp [StripeOp.without, hLeft]
  have hKind' : (r.without prog p true).kind = .copy m := hKind
  unfold State.opProgEnds
  simp only [hOp, hNone, hKind', SKind.writes, State.stripeEnds]
  rfl

/-- What the copy of a stripe leaves when no parity page is suspect: no mark of the stripe's, and its bit in the migration. -/
def Hanks.stripeCopied (h : Hanks) (m : Nat) (g : Mig) (r : StripeOp) : Hanks :=
  { h with
    rmw := tdel (tdel h.rmw (stripeKey g.dst r.s)) (stripeKey r.phn r.s), suspect := []
    migs := tput h.migs m { g with bitmap := g.bitmap ||| (1#128 <<< r.s) } }

theorem State.copyEnds_copying {s : State} {m : Nat} {g : Mig} (hMig : tget s.hanks.migs m = some g) (hState : g.state = .copying)
    (hSuspect : s.hanks.suspect = []) (r : StripeOp) : s.copyEnds m r = { s with hanks := s.hanks.stripeCopied m g r } := by
  have hDrop (u : State) (hu : u.hanks.suspect = []) (phn st : Nat) :
      u.dropRmw phn st = { u with hanks := { u.hanks with rmw := tdel u.hanks.rmw (stripeKey phn st), suspect := [] } } := by
    rw [State.dropRmw, hu]
    rfl
  have hClear (u : State) (hu : u.hanks.suspect = []) (phn st : Nat) : u.clearRmw phn st = u.dropRmw phn st := by
    have hClean : u.isSuspect phn st = false := by rw [State.isSuspect, hu]; rfl
    rw [State.clearRmw, hClean]
    rfl
  unfold State.copyEnds
  simp only [hMig]
  rw [if_pos hState, hDrop s hSuspect, hClear _ rfl, hDrop _ rfl]
  rfl

/-- A stitch that is not the first and verifies ends its program. -/
theorem exec_stitchEnd_verified {s : State} {prog : Nat} {p : Program} (hProg : tget s.med.progs prog = some p) (hRunning : p.running = true)
    (hStitches : 1 ≤ p.stitches) : exec (.stitchEnd prog true) s = nextState
      ((((s.progEnds prog { p with stitches := p.stitches + 1, running := false } true).partitionFree).dieWatch p.ch p.die).retryStuck) := by
  have hPulse : (pulseOf (p.stitches + 1) != .reset) = true := by
    have h : ¬p.stitches + 1 = 1 := by omega
    unfold pulseOf
    rw [if_neg h]
    split
    · rfl
    · rfl
  have hEnds : s.stitchEnds prog p true = s.progEnds prog { p with stitches := p.stitches + 1, running := false } true := by
    unfold State.stitchEnds
    simp only [hPulse, Bool.true_and, if_true]
  have hStep : exec (.stitchEnd prog true) s = execStitchEnd prog true s := rfl
  rw [hStep, execStitchEnd]
  simp only [hProg]
  rw [if_pos hRunning, hEnds]

/-- What stands when the last page of a stripe's copy has ended, and the stripe's operation with it. -/
def State.stripeCopied (s : State) (prog op m : Nat) (p : Program) (r : StripeOp) : State :=
  ((s.copyPaged prog p).copyEnds m (r.without prog p true)).freeOp op

section
variable {s : State} {prog op m : Nat} {p : Program} {g : Mig} {r : StripeOp}

/-- A migration keeps its number while its hank is warmed: one that starts takes the next. -/
theorem State.copyPaged_mig (hMig : tget s.hanks.migs m = some g) (hOld : m < s.hanks.nextMig) :
    tget (s.copyPaged prog p).hanks.migs m = some g := by
  rw [State.copyPaged_hanks, (s.copyPaged_warms prog p).migs m hOld]
  exact hMig

theorem State.copyPaged_suspect : (s.copyPaged prog p).hanks.suspect = s.hanks.suspect := by
  rw [State.copyPaged_hanks, (s.copyPaged_warms prog p).suspect]
  rfl

variable (hMig : tget s.hanks.migs m = some g) (hState : g.state = .copying) (hOld : m < s.hanks.nextMig) (hWaits : s.NoWaits)
include hMig hState hOld hWaits

theorem State.stripeCopied_eq : s.stripeCopied prog op m p r = { s.copyPaged prog p with
    adm := { (s.copyPaged prog p).adm with ops := tdel (s.copyPaged prog p).adm.ops op }
    hanks := (s.copyPaged prog p).hanks.stripeCopied m g r } := by
  obtain ⟨-, -, -, -, hSuspect⟩ := hWaits
  rw [State.stripeCopied, State.copyEnds_copying (State.copyPaged_mig hMig hOld) hState (State.copyPaged_suspect.trans hSuspect)]
  rfl

theorem State.stripeCopied_noWaits : (s.stripeCopied prog op m p r).NoWaits := by
  have ⟨hDl, hLines, hMirrorA, hMirrorB, _⟩ := hWaits
  rw [State.stripeCopied_eq hMig hState hOld hWaits, s.copyPaged_eq]
  exact ⟨hDl, hLines, hMirrorA, hMirrorB, rfl⟩

/-- The operation of the stripe was the only one in flight. -/
theorem State.stripeCopied_ops {o : Op} (hOp : s.stripeOp op = some (o, r)) (hOne : s.adm.ops.length = 1) :
    (s.stripeCopied prog op m p r).adm.ops = [] := by
  obtain ⟨x, hOps⟩ := List.length_eq_one_iff.1 hOne
  have hKey : x.1 = op := by
    by_contra hOther
    have hNone : tget s.adm.ops op = none := by
      rw [hOps]
      simp [tget, hOther]
    simp [State.stripeOp, hNone] at hOp
  rw [State.stripeCopied_eq hMig hState hOld hWaits, s.copyPaged_eq, ← hKey]
  simp [hOps, tdel]

/-- Where nothing else is in flight, what presses is all that follows the end of a stripe's copy. -/
theorem exec_stitchEnd_stripeCopied {o : Op} (hProg : tget s.med.progs prog = some p) (hRunning : p.running = true) (hKind : p.kind = .copy g.src)
    (hPOp : p.op = some op) (hOp : s.stripeOp op = some (o, r)) (hRKind : r.kind = .copy m) (hLeft : r.left = [prog]) (hStitches : 1 ≤ p.stitches)
    (hOne : s.adm.ops.length = 1) (hRescues : s.med.rescues = []) (hFails : s.med.fails = []) : exec (.stitchEnd prog true) s =
      nextState (s.stripeCopied prog op m { p with stitches := p.stitches + 1, running := false } r).pressStitches := by
  let p' : Program := { p with stitches := p.stitches + 1, running := false }
  have hWaits' : (s.stripeCopied prog op m p' r).NoWaits := State.stripeCopied_noWaits hMig hState hOld hWaits
  have hOps : (s.stripeCopied prog op m p' r).adm.ops = [] := State.stripeCopied_ops hMig hState hOld hWaits hOp hOne
  have hOp' : (s.copyPaged prog p').stripeOp op = some (o, r) := by
    rw [s.copyPaged_eq]
    exact hOp
  have hEnds : s.progEnds prog p' true = s.stripeCopied prog op m p' r := by
    rw [State.progEnds_copy (p := p') hKind (Nat.succ_ne_zero _) hPOp, State.opProgEnds_copy hOp' hRKind hLeft]
    exact State.retryStuck_of_noWaits hWaits' hOps
  have hFree : (s.stripeCopied prog op m p' r).partitionFree = (s.stripeCopied prog op m p' r).pressStitches := by
    rw [State.partitionFree, hOps]
    rfl
  have hPress := (PressOnly.pressStitches (s.stripeCopied prog op m p' r)).rest
  have hNotes : (s.stripeCopied prog op m p' r).med.rescues = [] ∧ (s.stripeCopied prog op m p' r).med.fails = [] := by
    rw [State.stripeCopied_eq hMig hState hOld hWaits, s.copyPaged_eq]
    exact ⟨hRescues, hFails⟩
  have hWatch : (s.stripeCopied prog op m p' r).pressStitches.dieWatch p.ch p.die = (s.stripeCopied prog op m p' r).pressStitches := by
    refine State.dieWatch_of_none ?_ ?_ ..
    · rw [hPress]
      exact hNotes.1
    · rw [hPress]
      exact hNotes.2
  have hRetry : (s.stripeCopied prog op m p' r).pressStitches.retryStuck = (s.stripeCopied prog op m p' r).pressStitches := by
    refine State.retryStuck_of_noWaits ?_ ?_
    · rw [hPress]
      exact hWaits'
    · rw [hPress]
      exact hOps
  rw [exec_stitchEnd_verified hProg hRunning hStitches, hEnds, hFree, hWatch, hRetry]

theorem stitchEnd_stripeCopied {o : Op} (hProg : tget s.med.progs prog = some p) (hRunning : p.running = true) (hKind : p.kind = .copy g.src)
    (hPOp : p.op = some op) (hOp : s.stripeOp op = some (o, r)) (hRKind : r.kind = .copy m) (hLeft : r.left = [prog]) (hStitches : 1 ≤ p.stitches)
    (hOne : s.adm.ops.length = 1) (hRescues : s.med.rescues = []) (hFails : s.med.fails = []) :
    ∃ t, exec (.stitchEnd prog true) s = .next t ∧ tget t.med.progs prog = none ∧ tget t.adm.ops op = none ∧
      tget t.hanks.migs m = some { g with bitmap := g.bitmap ||| (1#128 <<< r.s) } ∧
      t.med.lines = (s.writePage p.phn p.s p.d p.lines).med.lines ∧ t.tlc.pool = s.tlc.pool ∧ t.adm.dl = s.adm.dl := by
  let p' : Program := { p with stitches := p.stitches + 1, running := false }
  have hEq : s.stripeCopied prog op m p' r = _ := State.stripeCopied_eq hMig hState hOld hWaits
  have hPress := PressOnly.pressStitches (s.stripeCopied prog op m p' r)
  refine nextState_exists (exec_stitchEnd_stripeCopied hMig hState hOld hWaits hProg hRunning hKind hPOp hOp hRKind hLeft hStitches hOne hRescues hFails)
    ⟨?_, ?_, ?_, ?_, ?_, ?_⟩
  · rw [State.settle_med]
    refine hPress.none_of_none prog ?_
    rw [hEq, s.copyPaged_eq]
    exact tget_tdel_same ..
  · rw [State.settle_adm, hPress.rest, State.stripeCopied_ops hMig hState hOld hWaits hOp hOne]
    rfl
  · rw [State.settle_hanks, hPress.rest, hEq]
    exact tget_tput_same _ _ _
  · rw [State.settle_med, hPress.rest, hEq]
    exact s.copyPaged_lines prog p'
  · rw [State.settle_tlc, hPress.rest, hEq, s.copyPaged_eq]
  · rw [State.settle_adm, hPress.rest, hEq, s.copyPaged_eq]

end

end Sys2Proof.Machine

namespace Sys2Proof.Machine

/-! ### The end of a copy, and its verification (R142, R143) -/

/-- The migration stands as `g`. -/
def State.putMig (s : State) (m : Nat) (g : Mig) : State := { s with hanks := { s.hanks with migs := tput s.hanks.migs m g } }

theorem migrationCopyDone_verifies {s : State} {m : Nat} {g : Mig} (hMig : tget s.hanks.migs m = some g) (hState : g.state = .copying)
    (hAll : g.bitmap = BitVec.allOnes 128) :
    ∃ t, exec (.migrationCopyDone m) s = .next t ∧
      t.hanks = { s.hanks with migs := tput s.hanks.migs m { g with state := .verifying } } ∧ Frame s t [.hanks] [] := by
  have hStep : exec (.migrationCopyDone m) s = nextState (s.putMig m { g with state := .verifying }) := by
    have hExec : exec (.migrationCopyDone m) s = execMigrationCopyDone m s := rfl
    rw [hExec, execMigrationCopyDone]
    simp only [hMig]
    rw [if_pos ⟨hState, hAll⟩]
    rfl
  exact nextState_exists hStep ⟨State.settle_hanks _, frame_settle_of_hanks rfl⟩

theorem migrationCopyDone_waits {s : State} {m : Nat} {g : Mig} (hMig : tget s.hanks.migs m = some g) (hLeft : g.bitmap ≠ BitVec.allOnes 128) :
    ∃ t, exec (.migrationCopyDone m) s = .next t ∧ Keeps s t [] := by
  have hStep : exec (.migrationCopyDone m) s = nextState s := by
    have hExec : exec (.migrationCopyDone m) s = execMigrationCopyDone m s := rfl
    rw [hExec, execMigrationCopyDone]
    simp only [hMig]
    rw [if_neg fun h => hLeft h.2]
  exact nextState_exists hStep (Keeps.refl s []).settle

/-- The verification has been charged for, and the migration stands as `g`. -/
def State.verified (s : State) (m : Nat) (g : Mig) : State := { s.charge 17 16384 with hanks := { s.hanks with migs := tput s.hanks.migs m g } }

theorem State.verified_frame (s : State) (m : Nat) (g : Mig) : Frame s (s.verified m g).settle [.adm, .hanks] [] := by
  refine frame_settle rfl (fun p hp => ?_) fun _ _ => rfl
  cases p with
  | regs | adm | hanks => simp at hp
  | cmds => exact ⟨rfl, rfl⟩
  | _ => rfl

theorem nextState_verified {r : Res} {s : State} {m : Nat} {g : Mig} (h : r = nextState (s.verified m g)) :
    ∃ t, r = .next t ∧ tget t.hanks.migs m = some g ∧ Frame s t [.adm, .hanks] [] := by
  refine nextState_exists h ⟨?_, s.verified_frame m g⟩
  rw [State.settle_hanks]
  exact tget_tput_same _ _ _

section
variable {s : State} {m : Nat} {found : List Nat} {g : Mig} (hMig : tget s.hanks.migs m = some g) (hState : g.state = .verifying)
include hMig hState

theorem exec_migrationVerifyDone : exec (.migrationVerifyDone m found) s = nextState (
    if s.mismatches g found = 0 ∧ g.bad = false then s.verified m { g with state := .copied, digest := s.hankDigest g.dst }
    else if g.bad = false ∧ s.mismatches g found &&& g.again = 0 then s.verified m { g with
      state := .copying, bitmap := g.bitmap &&& ~~~(s.mismatches g found), again := g.again ||| s.mismatches g found }
    else if s.journalFull then s
    else (s.charge 17 16384).migDiscard m g) := by
  have hStep : exec (.migrationVerifyDone m found) s = execMigrationVerifyDone m found s := rfl
  rw [hStep, execMigrationVerifyDone]
  simp only [hMig]
  rw [if_neg (not_not.2 hState)]
  rfl

theorem migrationVerifyDone_copied (hBad : g.bad = false) (hSame : s.mismatches g found = 0) :
    ∃ t, exec (.migrationVerifyDone m found) s = .next t ∧
      tget t.hanks.migs m = some { g with state := .copied, digest := s.hankDigest g.dst } ∧ Frame s t [.adm, .hanks] [] := by
  have hStep := exec_migrationVerifyDone (found := found) hMig hState
  rw [if_pos ⟨hSame, hBad⟩] at hStep
  exact nextState_verified hStep

theorem migrationVerifyDone_again (hBad : g.bad = false) (hDiffers : s.mismatches g found ≠ 0) (hFirst : s.mismatches g found &&& g.again = 0) :
    ∃ t, exec (.migrationVerifyDone m found) s = .next t ∧
      tget t.hanks.migs m = some { g with
        state := .copying, bitmap := g.bitmap &&& ~~~(s.mismatches g found), again := g.again ||| s.mismatches g found } ∧
      Frame s t [.adm, .hanks] [] := by
  have hStep := exec_migrationVerifyDone (found := found) hMig hState
  rw [if_neg fun h => hDiffers h.1, if_pos ⟨hBad, hFirst⟩] at hStep
  exact nextState_verified hStep

/-- A copy that differs again, or a program of which failed, is discarded. -/
theorem exec_migrationVerifyDone_discards (hNot : g.bad = true ∨ s.mismatches g found &&& g.again ≠ 0) (hJournal : s.journalFull = false) :
    exec (.migrationVerifyDone m found) s = nextState ((s.charge 17 16384).migDiscard m g) := by
  have hCopied : ¬(s.mismatches g found = 0 ∧ g.bad = false) := by
    rintro ⟨hSame, hBad⟩
    obtain hBad' | hAgain := hNot
    · rw [hBad] at hBad'
      cases hBad'
    · exact hAgain (by rw [hSame]; exact BitVec.zero_and)
  have hFirst : ¬(g.bad = false ∧ s.mismatches g found &&& g.again = 0) := by
    rintro ⟨hBad, hNone⟩
    obtain hBad' | hAgain := hNot
    · rw [hBad] at hBad'
      cases hBad'
    · exact hAgain hNone
  rw [exec_migrationVerifyDone hMig hState, if_neg hCopied, if_neg hFirst, hJournal]
  rfl

end

/-- What a discarded migration leaves of itself and of its hank: no entry, and the source bound. -/
theorem State.migDiscard_settled {s : State} (hProgs : s.med.progs = []) (m : Nat) (g : Mig) :
    tget (s.migDiscard m g).settle.hanks.migs m = none ∧ ((s.migDiscard m g).settle.entry g.sys g.idx).phn = (s.entry g.sys g.idx).phn := by
  have hHanks := State.settle_hanks (s.migDiscard m g)
  refine ⟨?_, ?_⟩
  · rw [hHanks]
    exact State.migDiscard_migs m g hProgs
  · rw [State.entry_congr (congrArg Hanks.host hHanks) (congrArg Hanks.sys hHanks)]
    exact State.migDiscard_phn m g hProgs

/-- Settles O23: the copier's clause follows the last stitch of a stripe through the end of its program and of its operation, with nothing else in flight to
go on after it; verification takes one of the three branches of its definition, and a discarded copy leaves what `migDiscard` leaves. -/
theorem migrationCopiesAndVerifies : Obligations.MigrationCopiesAndVerifies := by
  refine ⟨⟨?copier, fun s m g hMig hState hAll => migrationCopyDone_verifies hMig hState hAll,
    fun s m g hMig hLeft => migrationCopyDone_waits hMig hLeft⟩,
    fun s m found g hMig hState hBad hSame => migrationVerifyDone_copied hMig hState hBad hSame,
    fun s m found g hMig hState hBad hDiffers hFirst => migrationVerifyDone_again hMig hState hBad hDiffers hFirst,
    fun s m found g hMig hState hBad hAgain hJournal hProgs => ?free, fun s m found g hMig hState hBad hJournal hProgs => ?retired⟩
  case copier =>
    intro s m prog op g p o r hMig hState hOld hProg hRunning hKind hPOp hOp hRKind hLeft hStitches hWaits hOne hRescues hFails
    exact stitchEnd_stripeCopied hMig hState hOld hWaits hProg hRunning hKind hPOp hOp hRKind hLeft hStitches hOne hRescues hFails
  case free =>
    have hCharged : (s.charge 17 16384).med.progs = [] := hProgs
    obtain ⟨hGone, hBound⟩ := State.migDiscard_settled hCharged m g
    refine nextState_exists (exec_migrationVerifyDone_discards hMig hState (.inr hAgain) hJournal) ⟨hGone, ?_, hBound⟩
    rw [State.isFree_congr (congrArg Hanks.free (State.settle_hanks _))]
    exact State.migDiscard_isFree m g hCharged hBad
  case retired =>
    have hCharged : (s.charge 17 16384).med.progs = [] := hProgs
    obtain ⟨hGone, hBound⟩ := State.migDiscard_settled hCharged m g
    refine nextState_exists (exec_migrationVerifyDone_discards hMig hState (.inl hBad) hJournal) ⟨hGone, ?_, hBound⟩
    rw [State.settle_hanks]
    exact State.migDiscard_retired m g hCharged hBad

end Sys2Proof.Machine

namespace Sys2Proof.Machine

/-! ### The line cache takes a line that was read (R177) -/

/-- From `s` to `u` a line has been placed in the line cache, and the MSHRs may have changed. -/
structure Fills (s u : State) : Prop where
  rest : u = { s with
    regs := u.regs, wm := u.wm, tlc := { s.tlc with cache := u.tlc.cache, mshr := u.tlc.mshr, filled := u.tlc.filled } }
  devload : u.reg Reg.ADM_DEVLOAD = s.reg Reg.ADM_DEVLOAD

namespace Fills

variable {s u v : State}

theorem refl (s : State) : Fills s s := ⟨rfl, rfl⟩

theorem trans (h : Fills s u) (h' : Fills u v) : Fills s v := by
  refine ⟨Eq.trans h'.rest ?_, h'.devload.trans h.devload⟩
  rw [h.rest]

theorem lineWrite (s : State) (w : Nat) : Fills s (s.lineWrite (some w)) := by
  refine ⟨?_, s.lineWrite_reg w (by decide)⟩
  obtain ⟨wm, h | h⟩ := s.lineWrite_cases w
  · rw [h]
  · rw [h, State.disarm_eq]

theorem setCache (s : State) (t : Tbl CacheLine) : Fills s (s.setCache t) := ⟨rfl, rfl⟩

theorem cachePut (s : State) (k : Nat) (c : CacheLine) : Fills s (s.cachePut k c) := (setCache ..).trans (lineWrite ..)

theorem cacheFill (s : State) (line : Nat) (d : Line) : Fills s (s.cacheFill line d) := by
  have hLfsr (x : Nat) : Fills s (s.fset Reg.TLC_LFSR Fld.TLC_LFSR_STATE x) := ⟨rfl, State.reg_fset_other _ _ _ _ (by decide)⟩
  unfold State.cacheFill
  split
  · exact refl s
  · split
    · exact cachePut ..
    · split
      · exact cachePut ..
      · exact (hLfsr _).trans (cachePut ..)

theorem noteFilled (s : State) (line : Nat) : Fills s (s.noteFilled line) := ⟨rfl, rfl⟩

theorem freeMshr (s : State) (line id : Nat) : Fills s (s.freeMshr line id) := by
  unfold State.freeMshr
  split
  · split
    · exact ⟨rfl, rfl⟩
    · exact refl s
  · exact refl s

end Fills

/-! ### A host read that ends (R77, R127, R268) -/

/-- The line of a read has been taken into the cache where it is to be, and the read is no longer noted. -/
def State.readLanded (s : State) (id line : Nat) (d : Line) (takes : Bool) : State :=
  (if takes then (s.cacheFill line d).noteFilled line else s).freeMshr line id

theorem State.readLanded_fills (s : State) (id line : Nat) (d : Line) (takes : Bool) : Fills s (s.readLanded id line d takes) := by
  cases takes with
  | true => exact ((Fills.cacheFill ..).trans (.noteFilled ..)).trans (.freeMshr ..)
  | false => exact .freeMshr ..

/-- Neither the pool nor the merge buffer holds a newer line than the one read. -/
theorem State.newest_of_none {s : State} {line : Nat} (hPool : s.poolGet line = none) (hMb : s.mbGet line = none) (d : Line) (poison : Bool) :
    s.newest line d poison = (d, poison) := by
  simp only [State.newest, hPool, hMb]

theorem State.serveHost_read {s : State} {q : Nat} {e : DlEntry} (hEntry : tget s.adm.dl q = some e) (hKind : e.kind = .read) (d : Line) (poison : Bool)
    (cause : Nat) : s.serveHost q d poison cause = s.complete q (some d) poison := by
  simp only [State.serveHost, hEntry, hKind]

theorem State.poolGet_congr {s u : State} (h : u.tlc.pool = s.tlc.pool) (line : Nat) : u.poolGet line = s.poolGet line := by
  rw [State.poolGet, h, State.poolGet]

theorem State.mbGet_congr {s u : State} (h : u.tlc.mb = s.tlc.mb) (line : Nat) : u.mbGet line = s.mbGet line := by
  rw [State.mbGet, h, State.mbGet]

/-- Whether the cache takes the line of a read: it is to, and no write has come to the line since (R177). -/
def State.readTakes (s : State) (line : Nat) (fill poison : Bool) : Bool :=
  fill && !(match tget s.tlc.mshr line with | some m => m.wrote | none => true) && !poison

theorem State.readDone_serve {r : ReadOp} {q : Nat} {fill : Bool} (hPurpose : r.purpose = .serve [.host q] fill) (hOnset : r.onset = none) (s : State)
    (id : Nat) (d : Line) (poison : Bool) (cause : Nat) :
    s.readDone id r d poison cause = ((s.readLanded id r.line d (s.readTakes r.line fill poison)).freeOp id).serveHost q
      (((s.readLanded id r.line d (s.readTakes r.line fill poison)).freeOp id).newest r.line d poison).1
      (((s.readLanded id r.line d (s.readTakes r.line fill poison)).freeOp id).newest r.line d poison).2 cause := by
  unfold State.readDone
  simp only [hPurpose, hOnset]
  rfl

section
variable {s : State} {id q : Nat} {r : ReadOp} {fill : Bool} {e : DlEntry} {dl : Nat} (hPurpose : r.purpose = .serve [.host q] fill)
  (hOnset : r.onset = none) (hPool : s.poolGet r.line = none) (hMb : s.mbGet r.line = none) (hEntry : tget s.adm.dl q = some e) (hKind : e.kind = .read)
  (hDl : e.deadline = some dl) (hTime : s.clk.now ≤ dl)
include hPurpose hOnset hPool hMb hEntry hKind hDl hTime

/-- A read that one host request waits for ends with its data response: the operation and the deadline entry are free. -/
theorem State.readDone_host (d : Line) (poison : Bool) (cause : Nat) : ∃ u, Fills s u ∧ s.readDone id r d poison cause = { u with
    outbox := .data e.ld e.dpa d poison (s.devload e.ld) :: s.outbox
    adm := { s.adm with ops := tdel s.adm.ops id, dl := tdel s.adm.dl q }, hist := (s.readDone id r d poison cause).hist } := by
  have hFills := s.readLanded_fills id r.line d (s.readTakes r.line fill poison)
  have hServe := State.readDone_serve hPurpose hOnset s id d poison cause
  generalize s.readLanded id r.line d (s.readTakes r.line fill poison) = u at hFills hServe
  have hRest := hFills.rest
  have hTlc : u.tlc.pool = s.tlc.pool ∧ u.tlc.mb = s.tlc.mb := by
    rw [hRest]
    exact ⟨rfl, rfl⟩
  have hNewest : (u.freeOp id).newest r.line d poison = (d, poison) :=
    State.newest_of_none ((State.poolGet_congr (s := s) hTlc.1 _).trans hPool) ((State.mbGet_congr (s := s) hTlc.2 _).trans hMb) ..
  have hAdm : u.adm = s.adm := (congrArg State.adm hRest).trans rfl
  have hOutbox : u.outbox = s.outbox := (congrArg State.outbox hRest).trans rfl
  have hNow : (u.freeOp id).clk.now ≤ dl := ((congrArg (fun s : State => s.clk.now) hRest).trans rfl).trans_le hTime
  have hFree : tget (u.freeOp id).adm.dl q = some e := by
    rw [State.freeOp, hAdm]
    exact hEntry
  have hLoad : (u.freeOp id).devload e.ld = s.devload e.ld :=
    State.devload_congr hFills.devload ((congrArg (fun s : State => s.cxl.mld) hRest).trans rfl) e.ld
  refine ⟨u, hFills, ?_⟩
  rw [hNewest, State.serveHost_read hFree hKind, State.complete_in_time hFree hDl hNow] at hServe
  rw [hServe, hLoad]
  simp only [State.freeOp, hAdm, hOutbox, DlEntry.response, hKind]
  rfl

end

/-! ### The reads that wait for an engine -/

/-- From `s` to `u` reads that wait for a crypto engine have one: no operation has come. -/
structure PumpOnly (s u : State) : Prop where
  rest : u = { s with adm := { s.adm with ops := u.adm.ops } }
  none_of_none : ∀ id, tget s.adm.ops id = none → tget u.adm.ops id = none

theorem State.readOp_some {s : State} {id : Nat} {o : Op} {r : ReadOp} (h : s.readOp id = some (o, r)) : ∃ x, tget s.adm.ops id = some x := by
  unfold State.readOp at h
  split at h
  · exact ⟨_, ‹_›⟩
  · cases h

theorem State.cryptoPump_pumpOnly (s : State) : PumpOnly s s.cryptoPump := by
  unfold State.cryptoPump
  refine List.foldlRecOn (motive := fun u : State => PumpOnly s u) _ _ ⟨rfl, fun _ h => h⟩ fun u hu x _ => ?_
  obtain ⟨hRest, hNone⟩ := hu
  split
  · rename_i o r hRead
    refine ⟨?_, fun id h => ?_⟩
    · rw [hRest]
      rfl
    · have hOther : id ≠ x.1 := fun hEq => by
        obtain ⟨y, hSome⟩ := State.readOp_some hRead
        rw [← hEq, hNone id h] at hSome
        cases hSome
      exact (tget_tput_other _ _ hOther).trans (hNone id h)
  · exact ⟨hRest, hNone⟩

/-! ### The end of a decryption (R244, R245) -/

section
variable {s : State} {op : Nat} {o : Op} {r : ReadOp}

theorem exec_lineDecryptDone (hRead : s.readOp op = some (o, r)) (hStage : r.stage = .crypto) (hNodes : r.nodes = []) (hEngine : r.engine < 2)
    (hOn : s.engineOn r.engine = true) (hFirst : s.engineFirst op o r = false) (engineOk : Bool) : exec (.lineDecryptDone op engineOk) s =
      nextState (((s.count 0x0030 r.engine 1 o.cls o.master (lhnFor r)).decrypt op r o.deadline engineOk).cryptoPump) := by
  have hStep : exec (.lineDecryptDone op engineOk) s = execLineDecryptDone op engineOk s := rfl
  rw [hStep, execLineDecryptDone]
  simp only [hRead]
  rw [if_pos ⟨hStage, hNodes, hEngine, hOn, hFirst⟩]

theorem State.decrypt_zero (hKey : s.keyLive r.key = true) (hZero : s.lineZero r.line = true) (due : Nat) (engineOk : Bool) :
    s.decrypt op r due engineOk = s.readDone op r 0 false 0 := by
  simp only [State.decrypt, hKey, hZero, Bool.not_true, Bool.false_eq_true, if_false, if_true]

theorem State.decrypt_tagOk (hKey : s.keyLive r.key = true) (hZero : s.lineZero r.line = false) (hLost : s.lineLost r.line = false)
    (hPoison : r.stored.poison = false) (hTag : s.tagOk r.line r.key r.stored = true) (due : Nat) :
    s.decrypt op r due true = s.readDone op r (s.open' r.line r.key r.stored) false 0 := by
  simp only [State.decrypt, hKey, hZero, hLost, hPoison, hTag, Bool.not_true, Bool.false_eq_true, if_false, if_true]

variable {q dl : Nat} {e : DlEntry} {fill : Bool} (hPurpose : r.purpose = .serve [.host q] fill) (hOnset : r.onset = none)
  (hPool : s.poolGet r.line = none) (hMb : s.mbGet r.line = none) (hEntry : tget s.adm.dl q = some e) (hKind : e.kind = .read)
  (hDl : e.deadline = some dl) (hTime : s.clk.now ≤ dl)
include hPurpose hOnset hPool hMb hEntry hKind hDl hTime

/-- A line that has been decrypted, counted and handed to the host: no operation has it, no deadline entry waits for it, and the line itself is where it
was. -/
theorem readDone_ends {res : Res} (ev inst n cls master : Nat) (lhn : Option Nat) (d : Line)
    (hStep : res = nextState ((s.count ev inst n cls master lhn).readDone op r d false 0).cryptoPump) :
    ∃ t, res = .next t ∧ t.outbox = .data e.ld e.dpa d false (s.devload e.ld) :: s.outbox ∧ tget t.adm.ops op = none ∧ tget t.adm.dl q = none ∧
      t.med = s.med ∧ t.tlc.pool = s.tlc.pool ∧ t.tlc.mb = s.tlc.mb ∧ t.crypto = s.crypto := by
  have hCount := s.count_eq ev inst n cls master lhn
  have hLoad : (s.count ev inst n cls master lhn).devload e.ld = s.devload e.ld :=
    State.devload_congr (State.count_reg _ _ _ _ _ _ _ (by decide)) (by rw [State.count_cxl]) e.ld
  generalize s.count ev inst n cls master lhn = c at hStep hCount hLoad
  have hTlc : c.tlc = s.tlc := (congrArg State.tlc hCount).trans rfl
  have hNow : c.clk.now ≤ dl := ((congrArg (fun s : State => s.clk.now) hCount).trans rfl).trans_le hTime
  have hAdm : c.adm = s.adm := (congrArg State.adm hCount).trans rfl
  obtain ⟨u, hFills, hDone⟩ := State.readDone_host (s := c) (id := op) hPurpose hOnset ((State.poolGet_congr (s := s) (by rw [hTlc]) _).trans hPool)
    ((State.mbGet_congr (s := s) (by rw [hTlc]) _).trans hMb) (by rw [hAdm]; exact hEntry) hKind hDl hNow d false 0
  have hPump := State.cryptoPump_pumpOnly (c.readDone op r d false 0)
  have hRest := hPump.rest
  refine nextState_exists hStep ⟨?_, ?_, ?_, ?_, ?_, ?_, ?_⟩
  · rw [State.settle_outbox, hRest, hDone, hLoad, hCount]
  · rw [State.settle_adm]
    refine hPump.none_of_none op ?_
    rw [hDone]
    exact tget_tdel_same ..
  · rw [State.settle_adm, hRest, hDone]
    exact tget_tdel_same ..
  · rw [State.settle_med, hRest, hDone, hFills.rest, hCount]
  · rw [State.settle_tlc, hRest, hDone, hFills.rest, hCount]
  · rw [State.settle_tlc, hRest, hDone, hFills.rest, hCount]
  · rw [State.settle_crypto, hRest, hDone, hFills.rest, hCount]

end

/-- What a line decrypts to rests on the crypto engines' part of the state. -/
theorem State.crypto_congr {s u : State} (h : u.crypto = s.crypto) (line key : Nat) (v : Stored) :
    u.keyLive key = s.keyLive key ∧ u.lineZero line = s.lineZero line ∧ u.lineLost line = s.lineLost line ∧ u.tagOk line key v = s.tagOk line key v ∧
      u.open' line key v = s.open' line key v := by
  simp only [State.keyLive, State.slot, State.lineZero, State.lineLost, State.tagOk, State.open', State.keyMat, State.nodeNow, State.cached, State.node, h,
    and_self]

/-- Settles O16: on either branch of the decryption the read is done with its data, which the host request that waits for it is given; the line cache may
take the line, and the reads that wait for an engine move up. -/
theorem decryptionEndsTheRead : Obligations.DecryptionEndsTheRead := by
  refine ⟨fun s op q o r e fill d hRead hStage hNodes hEngine hKey hOn hFirst hPurpose hOnset hPool hMb hEntry hKind hDl hTime hZero => ?zero,
    fun s op q o r e fill d hRead hStage hNodes hEngine hKey hOn hFirst hPurpose hOnset hPool hMb hEntry hKind hDl hTime hZero hLost hPoison hTag => ?tagged⟩
  case zero =>
    have hStep := exec_lineDecryptDone hRead hStage hNodes hEngine hOn hFirst true
    obtain ⟨hKeyC, hZeroC, -⟩ := State.crypto_congr (s.count_crypto 0x0030 r.engine 1 o.cls o.master (lhnFor r)) r.line r.key r.stored
    rw [State.decrypt_zero (hKeyC.trans hKey) (hZeroC.trans hZero)] at hStep
    exact readDone_ends hPurpose hOnset hPool hMb hEntry hKind hDl hTime _ _ _ _ _ _ _ hStep
  case tagged =>
    have hStep := exec_lineDecryptDone hRead hStage hNodes hEngine hOn hFirst true
    obtain ⟨hKeyC, hZeroC, hLostC, hTagC, hOpenC⟩ :=
      State.crypto_congr (s.count_crypto 0x0030 r.engine 1 o.cls o.master (lhnFor r)) r.line r.key r.stored
    rw [State.decrypt_tagOk (hKeyC.trans hKey) (hZeroC.trans hZero) (hLostC.trans hLost) hPoison (hTagC.trans hTag), hOpenC] at hStep
    exact readDone_ends hPurpose hOnset hPool hMb hEntry hKind hDl hTime _ _ _ _ _ _ _ hStep

end Sys2Proof.Machine

namespace Sys2Proof.Machine

/-! ### What drops the lines of a hank leaves (R152 to R154) -/

/-- From `s` to `u` the hanks and the logical devices stand as they did, and commands may have ended. -/
structure HanksStand (s u : State) : Prop where
  hanks : u.hanks = s.hanks
  lds : u.cxl.lds = s.cxl.lds
  cmds : CmdsEnd s.cmds u.cmds

namespace HanksStand

variable {s u v : State}

theorem of_parts (hHanks : u.hanks = s.hanks) (hCxl : u.cxl = s.cxl) (hCmds : u.cmds = s.cmds) : HanksStand s u :=
  ⟨hHanks, by rw [hCxl], .of_eq hCmds⟩

theorem refl (s : State) : HanksStand s s := of_parts rfl rfl rfl

theorem trans (h : HanksStand s u) (h' : HanksStand u v) : HanksStand s v := ⟨h'.hanks.trans h.hanks, h'.lds.trans h.lds, h.cmds.trans h'.cmds⟩

theorem foldl {α : Type} {f : State → α → State} (h : ∀ s x, HanksStand s (f s x)) (l : List α) (s : State) : HanksStand s (l.foldl f s) := by
  induction l generalizing s with
  | nil => exact refl s
  | cons x l ih => exact (h s x).trans (ih _)

theorem of_ends (h : EndsOnly s u) : HanksStand s u := ⟨(congrArg State.hanks h.rest).trans rfl, h.lds, h.cmds⟩

theorem of_adm (h : AdmOnly s u) : HanksStand s u :=
  of_parts h.hanks ((congrArg State.cxl h).trans rfl) ((congrArg State.cmds h).trans rfl)

theorem finish (s : State) (id st r0 r1 : Nat) (bytes : List Byte) : HanksStand s (s.finish id st r0 r1 bytes) := of_ends (s.finish_ends ..)

theorem setCmd {id : Nat} {c d : Cmd} (h : tget s.cmds id = some c) (hChange : c.running = true → c.started = true → c.Continues d) :
    HanksStand s (s.setCmd id d) := ⟨rfl, rfl, .put h hChange⟩

/-- Work that is done leaves the commands that wait for it, and ends those that wait for nothing else. -/
theorem workDone (s : State) (p : Nat → Bool) : HanksStand s (s.workDone p) := by
  refine foldl (fun u id => ?_) _ s
  split
  · exact refl u
  · rename_i c hGet
    dsimp only
    split
    · exact finish ..
    · exact setCmd hGet fun hRunning hStarted => ⟨hRunning, hStarted, rfl, rfl, List.filter_sublist⟩

theorem setTlc (s : State) (tlc : Tlc) : HanksStand s { s with tlc := tlc } := of_parts rfl rfl rfl

theorem setCache (s : State) (c : Tbl CacheLine) : HanksStand s (s.setCache c) := setTlc ..

theorem maintEnd (s : State) (m : Maint) : HanksStand s (s.maintEnd m) := by
  unfold State.maintEnd
  extract_lets finished gone
  have hFinished (u : State) : HanksStand u (finished u) := by
    unfold finished
    dsimp only
    split
    · split
      · exact (setTlc ..).trans (finish ..)
      · exact setTlc ..
    · exact setTlc ..
  have hGone (p : Nat × CacheLine → Bool) : HanksStand s (gone p) := by
    unfold gone
    dsimp only
    split
    · split
      · rename_i c hGet
        exact setCmd hGet fun hRunning hStarted => ⟨hRunning, hStarted, rfl, rfl, List.Sublist.refl _⟩
      · exact refl s
    · exact refl s
  split
  · exact hFinished s
  · split
    · exact (hGone _).trans (of_parts rfl rfl rfl)
    · split
      · exact ((hGone _).trans (setCache ..)).trans (hFinished _)
      · exact ((hGone _).trans (setCache ..)).trans (hFinished _)

theorem lineDurable (s : State) (line : Nat) : HanksStand s (s.lineDurable line) := by
  unfold State.lineDurable
  extract_lets s1
  have hDone : HanksStand s s1 := workDone ..
  split
  · split
    · dsimp only
      split
      · exact hDone.trans (maintEnd ..)
      · exact hDone.trans (setTlc ..)
    · exact hDone
  · exact hDone

theorem count (s : State) (ev inst n cls master : Nat) (lhn : Option Nat) : HanksStand s (s.count ev inst n cls master lhn) :=
  of_parts (State.count_hanks ..) (State.count_cxl ..) (State.count_cmds ..)

theorem fset (s : State) (off : Nat) (f : Field) (v : Nat) : HanksStand s (s.fset off f v) := of_parts rfl rfl rfl

theorem setReg (s : State) (off : Nat) (w : W64) : HanksStand s (s.setReg off w) := of_parts rfl rfl rfl

theorem event (s : State) (cls akind ld addr : Nat) (args : List Nat) : HanksStand s (s.event cls akind ld addr args) := of_ends (.event ..)

theorem lateCount (s : State) (kind ld dl : Nat) : HanksStand s (s.lateCount kind ld dl) := by
  unfold State.lateCount
  dsimp only
  split
  · exact refl s
  · split
    · exact (count ..).trans (setReg ..)
    · exact ((count ..).trans (setReg ..)).trans (event ..)

theorem histCount (s : State) (bound ld t : Nat) : HanksStand s (s.histCount bound ld t) := by
  rw [State.histCount_eq]
  exact of_parts rfl rfl rfl

theorem complete (s : State) (seq : Nat) (d : Option Line) (poison : Bool) : HanksStand s (s.complete seq d poison) := by
  unfold State.complete
  split
  · exact refl s
  · extract_lets o _ s1
    have hOut : HanksStand s s1 := of_parts rfl rfl rfl
    split
    · exact hOut
    · exact (hOut.trans (lateCount ..)).trans (histCount ..)

theorem setMb (s : State) (mb : Tbl MbEntry) : HanksStand s (s.setMb mb) :=
  (setTlc s { s.tlc with mb := mb }).trans (((fset ..).trans (fset ..)).trans (fset ..))

theorem entryCompletes (s : State) (e : MbEntry) : HanksStand s (s.entryCompletes e) :=
  (((foldl (fun s q => complete s q none false) _ s).trans (setReg ..)).trans (count ..)).trans (workDone ..)

theorem dropOps (s : State) (ids : List Nat) : HanksStand s (s.dropOps ids) := of_adm (.dropOps ..)

theorem entryGone (s : State) (n : Nat) (e : MbEntry) : HanksStand s (s.entryGone n e) := ((entryCompletes ..).trans (setMb ..)).trans (dropOps ..)

theorem replayWrote (s : State) (line : Nat) : HanksStand s (s.replayWrote line) := by
  unfold State.replayWrote
  split
  · exact of_parts rfl rfl rfl
  · exact refl s

theorem poolDrop (s : State) (line : Nat) : HanksStand s (s.poolDrop line) := of_parts rfl rfl rfl

theorem dropLines (s : State) (lhn : Nat) : HanksStand s (s.dropLines lhn) := by
  have hPool (l : List Nat) (u : State) : HanksStand u (l.foldl (fun s l => ((s.replayWrote l).poolDrop l).lineDurable l) u) :=
    foldl (fun s l => ((replayWrote ..).trans (poolDrop ..)).trans (lineDurable ..)) l u
  have hEntries (l : List (Nat × MbEntry)) (u : State) : HanksStand u (l.foldl (fun s e => s.entryGone e.1 e.2) u) :=
    foldl (fun s e => entryGone ..) l u
  exact (((dropOps ..).trans (hPool ..)).trans (hEntries ..)).trans (of_parts rfl rfl rfl)

/-! #### The replica's ERASE (R335) -/

theorem setLink (s : State) (k : Nat) (l : Link) : HanksStand s (s.setLink k l) :=
  of_parts (State.setLink_hanks ..) (State.setLink_cxl ..) (State.setLink_cmds ..)

theorem txPut (s : State) (k : Nat) (b : PktBody) (deadline : Nat) : HanksStand s (s.txPut k b deadline) := setLink ..

theorem sendOps (s : State) (k : Nat) (kinds : List Nat) : HanksStand s (s.sendOps k kinds) := by
  refine (setLink ..).trans (foldl (fun u x => ?_) _ _)
  dsimp only
  split
  · exact (txPut ..).trans (txPut ..)
  · exact txPut ..

theorem plyPump (s : State) (k : Nat) : HanksStand s (s.plyPump k) := by
  unfold State.plyPump
  split
  · exact (((sendOps ..).trans (sendOps ..)).trans (sendOps ..)).trans (sendOps ..)
  · exact refl s

theorem plyErase (s : State) (lhn kind : Nat) (cmd : Option Nat) : HanksStand s (s.plyErase lhn kind cmd).2.2 := by
  unfold State.plyErase
  split
  · exact refl s
  · dsimp only
    split
    · exact (setLink ..).trans (plyPump ..)
    · dsimp only
      split
      · exact setLink ..
      · exact (setLink ..).trans ((fset ..).trans (event ..))

/-! #### A key slot that its last hank leaves (R255) -/

theorem setSlot (s : State) (n : Nat) (k : KeySlot) : HanksStand s (s.setSlot n k) := of_parts rfl rfl rfl

theorem slotTotals (s : State) : HanksStand s s.slotTotals := (fset ..).trans (fset ..)

theorem slotLeft (s : State) (n : Nat) : HanksStand s (s.slotLeft n) := by
  unfold State.slotLeft
  split
  · exact ((setSlot ..).trans (slotTotals _)).trans (event ..)
  · exact refl s

end HanksStand

end Sys2Proof.Machine

namespace Sys2Proof.Machine

/-! ### The work on one hank leaves the others (R152 to R154) -/

/-- From `s` to `u` host hank `l` stands as it did, but for its check byte, and so does the work on it. -/
structure HankKept (l : Nat) (s u : State) : Prop where
  entry : u.hostEntry l = { s.hostEntry l with chk := (u.hostEntry l).chk }
  work : tget u.hanks.work l = tget s.hanks.work l

/-- From `s` to `u` the logical devices stand as they did, and commands may have ended. -/
structure CmdsGoOn (s u : State) : Prop where
  lds : u.cxl.lds = s.cxl.lds
  cmds : CmdsEnd s.cmds u.cmds

theorem HanksStand.goOn {s u : State} (h : HanksStand s u) : CmdsGoOn s u := ⟨h.lds, h.cmds⟩

theorem CmdsGoOn.trans {s u v : State} (h : CmdsGoOn s u) (h' : CmdsGoOn u v) : CmdsGoOn s v := ⟨h'.lds.trans h.lds, h.cmds.trans h'.cmds⟩

theorem State.setEntry_goOn (s : State) (sys : Bool) (idx : Nat) (e : MapEntry) : CmdsGoOn s (s.setEntry sys idx e) := by
  have h := MapKept.setEntry s sys idx e
  exact ⟨(congrArg (fun s : State => s.cxl.lds) h).trans rfl, .of_eq ((congrArg State.cmds h).trans rfl)⟩

theorem State.beginWork_goOn (s : State) (lhn : Nat) (w : HankWork) : CmdsGoOn s (s.beginWork lhn w) := ⟨rfl, .refl _⟩

theorem State.setEntry_hostEntry_same (s : State) (l : Nat) (e : MapEntry) :
    (s.setEntry false l e).hostEntry l = { e with chk := ((s.setEntry false l e).hostEntry l).chk } := s.setEntry_entry_same false l e

theorem State.setEntry_work (s : State) (sys : Bool) (idx : Nat) (e : MapEntry) : (s.setEntry sys idx e).hanks.work = s.hanks.work :=
  (congrArg Hanks.work (MapKept.setEntry s sys idx e).hanks).trans rfl

theorem State.hostEntry_congr {s u : State} (h : u.hanks.host = s.hanks.host) (l : Nat) : u.hostEntry l = s.hostEntry l := by
  rw [State.hostEntry, h, State.hostEntry]

theorem State.beginWork_work (s : State) (lhn : Nat) (w : HankWork) : tget (s.beginWork lhn w).hanks.work lhn = some w := tget_tput_same _ _ _

namespace HankKept

variable {l : Nat} {s u v : State}

theorem trans (h : HankKept l s u) (h' : HankKept l u v) : HankKept l s v := by
  refine ⟨h'.entry.trans ?_, h'.work.trans h.work⟩
  rw [h.entry]

theorem of_hanks (hHost : u.hanks.host = s.hanks.host) (hWork : u.hanks.work = s.hanks.work) : HankKept l s u := by
  refine ⟨?_, by rw [hWork]⟩
  rw [State.hostEntry_congr hHost]

theorem of_stand (h : HanksStand s u) : HankKept l s u := of_hanks (by rw [h.hanks]) (by rw [h.hanks])

theorem refl (s : State) : HankKept l s s := of_hanks rfl rfl

theorem setCmd (s : State) (id : Nat) (c : Cmd) : HankKept l s (s.setCmd id c) := of_hanks rfl rfl

theorem setEntry {lhn : Nat} (h : l ≠ lhn) (s : State) (e : MapEntry) : HankKept l s (s.setEntry false lhn e) := by
  refine ⟨s.setEntry_entry_other false lhn e (sys' := false) fun hEq => h (Prod.mk.inj hEq).2, ?_⟩
  rw [State.setEntry_work]

theorem beginWork {lhn : Nat} (h : l ≠ lhn) (s : State) (w : HankWork) : HankKept l s (s.beginWork lhn w) := ⟨rfl, tget_tput_other _ _ h⟩

theorem hintOne {lhn : Nat} (h : l ≠ lhn) (s : State) : HankKept l s (s.hintOne lhn) := by
  have hHint := (of_stand (l := l) (.dropLines s lhn)).trans (setEntry h _ { (s.dropLines lhn).hostEntry lhn with hint := true })
  unfold State.hintOne
  dsimp only
  split
  · exact hHint
  · exact hHint
  · exact hHint.trans (beginWork h ..)

theorem secureBegin {lhn : Nat} (h : l ≠ lhn) (s : State) (cmd : Option Nat) : HankKept l s (s.secureBegin lhn cmd) :=
  ((of_stand (.dropLines s lhn)).trans (setEntry h ..)).trans (beginWork h ..)

theorem zeroBegin {lhn : Nat} (h : l ≠ lhn) (s : State) (key : Nat) (cmd : Option Nat) : HankKept l s (s.zeroBegin lhn key cmd) :=
  ((of_stand (.dropLines s lhn)).trans (setEntry h ..)).trans (beginWork h ..)

end HankKept

/-! ### How the work on a hank begins -/

theorem State.hintOne_goOn (s : State) (lhn : Nat) : CmdsGoOn s (s.hintOne lhn) := by
  have hHint := (HanksStand.dropLines s lhn).goOn.trans (State.setEntry_goOn _ false lhn { (s.dropLines lhn).hostEntry lhn with hint := true })
  unfold State.hintOne
  dsimp only
  split
  · exact hHint
  · exact hHint
  · exact hHint.trans (State.beginWork_goOn ..)

/-- A hint discard sets HINT and leaves the rest of the entry. -/
theorem State.hintOne_entry (s : State) (l : Nat) :
    (s.hintOne l).hostEntry l = { s.hostEntry l with hint := true, chk := ((s.hintOne l).hostEntry l).chk } := by
  have hSame : (s.dropLines l).hostEntry l = s.hostEntry l := State.hostEntry_congr (by rw [(HanksStand.dropLines s l).hanks]) l
  have hSet := State.setEntry_hostEntry_same (s.dropLines l) l { (s.dropLines l).hostEntry l with hint := true }
  have hHint : (s.hintOne l).hostEntry l = ((s.dropLines l).setEntry false l { (s.dropLines l).hostEntry l with hint := true }).hostEntry l := by
    unfold State.hintOne
    dsimp only
    split
    · rfl
    · rfl
    · rfl
  rw [hHint, hSet, hSame]

theorem State.hintOne_work {s : State} {l : Nat} (h : tget s.hanks.work l = none) : tget (s.hintOne l).hanks.work l = some .hint := by
  unfold State.hintOne
  simp only [h]
  exact State.beginWork_work ..

theorem State.secureBegin_entry (s : State) (l : Nat) (cmd : Option Nat) : ((s.secureBegin l cmd).hostEntry l).state = 4 := by
  have h : (s.secureBegin l cmd).hostEntry l = _ := State.setEntry_hostEntry_same ..
  rw [h]

theorem State.secureBegin_work (s : State) (l : Nat) (cmd : Option Nat) : tget (s.secureBegin l cmd).hanks.work l = some (.secure cmd) :=
  State.beginWork_work ..

theorem State.zeroBegin_entry (s : State) (l key : Nat) (cmd : Option Nat) :
    ((s.zeroBegin l key cmd).hostEntry l).state = 3 ∧ ((s.zeroBegin l key cmd).hostEntry l).key = key := by
  have h : (s.zeroBegin l key cmd).hostEntry l = _ := State.setEntry_hostEntry_same ..
  rw [h]
  exact ⟨rfl, rfl⟩

theorem State.zeroBegin_work (s : State) (l key : Nat) (cmd : Option Nat) : tget (s.zeroBegin l key cmd).hanks.work l = some (.zero cmd) :=
  State.beginWork_work ..

/-! ### A range goes from hank to hank (R152, R385) -/

theorem HanksStand.cmdUnwait (s : State) (id w status : Nat) : HanksStand s (s.cmdUnwait id w status) := by
  unfold State.cmdUnwait
  split
  · exact refl s
  · rename_i c hGet
    dsimp only
    split
    · exact finish ..
    · exact setCmd hGet fun hRunning hStarted => ⟨hRunning, hStarted, rfl, rfl, List.erase_sublist⟩

theorem HanksStand.rangeEnd (s : State) (id : Nat) (stop : Option Nat) : HanksStand s (s.rangeEnd id stop) := by
  unfold State.rangeEnd
  split
  · exact refl s
  · exact finish ..
  · exact cmdUnwait ..

/-- The next hank that a range command takes. -/
def State.rangeHank (s : State) (c : Cmd) : Nat := s.ldBase c.pkt.ld + c.pkt.arg0 + c.done

theorem State.rangeHank_congr {s u : State} (h : u.cxl.lds = s.cxl.lds) {c d : Cmd} (hPkt : d.pkt = c.pkt) (hDone : d.done = c.done) :
    u.rangeHank d = s.rangeHank c := by
  rw [State.rangeHank, State.rangeHank, State.ldBase, State.ldBase, h, hPkt, hDone]

/-- Command `id`, while it is there, runs and is past hank `l` of its range. -/
def State.RangePast (s : State) (id l : Nat) : Prop := ∀ c, tget s.cmds id = some c → c.running = true ∧ c.started = true ∧ l < s.rangeHank c

theorem State.RangePast.goOn {s u : State} {id l : Nat} (h : s.RangePast id l) (hGo : CmdsGoOn s u) : u.RangePast id l := by
  intro c' hGet'
  cases hGet : tget s.cmds id with
  | none => rw [hGo.cmds.none_of_none id hGet] at hGet'; cases hGet'
  | some c =>
    obtain ⟨hRunning, hStarted, hPast⟩ := h c hGet
    have hCont := hGo.cmds.continues id c c' hGet hRunning hStarted hGet'
    exact ⟨hCont.running, hCont.started, by rwa [State.rangeHank_congr hGo.lds hCont.pkt hCont.done]⟩

/-- A command that has taken hank `l` and is noted with it is past it. -/
theorem State.rangePast_setCmd {s u : State} {id l : Nat} {c : Cmd} (hGo : u.cxl.lds = s.cxl.lds) (hRunning : c.running = true)
    (hStarted : c.started = true) (hPast : l < s.rangeHank c) : (u.setCmd id c).RangePast id l := by
  intro c' hGet
  rw [State.setCmd, tget_tput_same] at hGet
  obtain rfl := Option.some.inj hGet
  exact ⟨hRunning, hStarted, hPast.trans_eq (State.rangeHank_congr (u := u.setCmd id c) hGo rfl rfl).symm⟩

/-- Work that begins on another hank leaves hank `l`. -/
theorem HankKept.hankBegin {l lhn : Nat} (h : l ≠ lhn) (s : State) (id : Nat) (c : Cmd) : HankKept l s (s.hankBegin id lhn c) := by
  unfold State.hankBegin
  extract_lets secure key
  have hErase := HanksStand.plyErase s lhn (if secure = true then 1 else 0) (some id)
  generalize s.plyErase lhn (if secure = true then 1 else 0) (some id) = x at hErase
  obtain ⟨down, w, s1⟩ := x
  dsimp -zeta only
  extract_lets c1 s2
  have hNoted : HankKept l s s2 := (of_stand hErase).trans (setCmd ..)
  split
  · exact hNoted.trans (secureBegin h ..)
  · split
    · exact (hNoted.trans (zeroBegin h ..)).trans (of_stand (.slotLeft ..))
    · exact hNoted.trans (zeroBegin h ..)

end Sys2Proof.Machine

namespace Sys2Proof.Machine

/-! ### The steps of a range -/

/-- The erase of a hank's replica has been asked for, and a hint discard has taken the hank. -/
def State.hintNoted (s : State) (id : Nat) (c : Cmd) : State :=
  (s.plyErase (s.rangeHank c) 0 none).2.2.setCmd id { c with
    done := c.done + 1, started := true, status := if (s.plyErase (s.rangeHank c) 0 none).1 then stPLY_DEGRADED else c.status }

theorem State.rangeGo_none {s : State} {id : Nat} (h : tget s.cmds id = none) (n : Nat) : State.rangeGo n s id = s := by
  cases n with
  | zero => simp only [State.rangeGo, State.rangeEnd, h]
  | succ n => rw [State.rangeGo, h]

/-- The step that a range takes with its next hank. -/
theorem State.rangeGo_some {s : State} {id : Nat} {c : Cmd} (h : tget s.cmds id = some c) (n : Nat) : State.rangeGo (n + 1) s id =
    if c.pkt.opcode = 0x0402 ∧ (s.hostEntry (s.rangeHank c)).key = c.pkt.keyidx then State.rangeGo n (s.setCmd id { c with done := c.done + 1 }) id
    else if s.sealedOrBusy (s.rangeHank c) then s.rangeEnd id (some stSEALED)
    else if s.hankWaits c (s.rangeHank c) then s
    else if c.pkt.opcode = 0x0301 ∧ s.isSecure c (s.rangeHank c) = false then State.rangeGo n ((s.hintNoted id c).hintOne (s.rangeHank c)) id
    else s.hankBegin id (s.rangeHank c) c := by
  rw [State.rangeGo, h]
  rfl

theorem State.hintNoted_kept (s : State) (id l : Nat) (c : Cmd) : HankKept l s (s.hintNoted id c) :=
  (HankKept.of_stand (.plyErase ..)).trans (.setCmd ..)

theorem State.hintNoted_past {s : State} {id l : Nat} {c : Cmd} (hRunning : c.running = true) (hPast : l < s.rangeHank c + 1) :
    (s.hintNoted id c).RangePast id l := by
  refine State.rangePast_setCmd (s := s) (HanksStand.plyErase ..).lds hRunning rfl ?_
  rw [State.rangeHank] at hPast ⊢
  exact hPast

/-- A range that is past a hank leaves it. -/
theorem State.rangeGo_kept {id l : Nat} (n : Nat) (s : State) (h : s.RangePast id l) : HankKept l s (State.rangeGo n s id) := by
  induction n generalizing s with
  | zero => exact .of_stand (.rangeEnd ..)
  | succ n ih =>
    cases hGet : tget s.cmds id with
    | none =>
      rw [State.rangeGo_none hGet]
      exact .refl s
    | some c =>
      obtain ⟨hRunning, hStarted, hPast⟩ := h c hGet
      have hOther : l ≠ s.rangeHank c := Nat.ne_of_lt hPast
      rw [State.rangeGo_some hGet]
      split
      · refine (HankKept.setCmd ..).trans (ih _ (State.rangePast_setCmd (s := s) rfl hRunning hStarted ?_))
        rw [State.rangeHank] at hPast ⊢
        exact Nat.lt_succ_of_lt hPast
      · split
        · exact .of_stand (.rangeEnd ..)
        · split
          · exact .refl s
          · split
            · have hNext := (State.hintNoted_past (id := id) hRunning (Nat.lt_succ_of_lt hPast)).goOn (State.hintOne_goOn _ (s.rangeHank c))
              exact ((s.hintNoted_kept id l c).trans (.hintOne hOther _)).trans (ih _ hNext)
            · exact .hankBegin hOther ..

/-- With no hank left and no work but the range itself, a range command ends. -/
theorem State.rangeGo_zero_gone {s : State} {id : Nat} (h : ∀ c, tget s.cmds id = some c → c.work.Sublist [wRange]) :
    tget (State.rangeGo 0 s id).cmds id = none := by
  cases hGet : tget s.cmds id with
  | none => rw [State.rangeGo_none hGet, hGet]
  | some c =>
    have hNothing : (c.work.erase wRange).isEmpty = true := by
      obtain hWork | hWork := List.sublist_singleton.1 (h c hGet)
      · simp [hWork]
      · simp [hWork]
    simp only [State.rangeGo, State.rangeEnd, State.cmdUnwait, hGet, hNothing, if_true]
    exact State.finish_gone ..

/-! ### A command on hanks starts -/

/-- A range command as it starts, with the range its only work. -/
def Cmd.ranging (c : Cmd) : Cmd := { c with running := true, work := [wRange] }

def State.rangeBegun (s : State) (id : Nat) (c : Cmd) : State := (s.begun id c).setCmd id c.ranging

theorem State.rangeBegun_cmd (s : State) (id : Nat) (c : Cmd) : tget (s.rangeBegun id c).cmds id = some c.ranging := tget_tput_same _ _ _

theorem State.runRange_starts {s : State} {id op : Nat} {c : Cmd} (h : s.CmdReady id op c) {check : Cmd → Option Nat}
    (hCheck : check { c with running := true } = none) (hDone : c.done = 0) :
    s.runRange id op check = nextState (State.rangeGo c.pkt.arg1 (s.rangeBegun id c) id) := by
  have ⟨hGet, _, hMay⟩ := h
  have hIdle : c.running = false := by
    cases hRunning : c.running with
    | false => rfl
    | true => simp [State.mayStart, hRunning] at hMay
  have hGap : atGap c = false := by simp [atGap, hIdle]
  have hNext : State.rangeNext (s.rangeBegun id c) id = State.rangeGo c.pkt.arg1 (s.rangeBegun id c) id := by
    simp only [State.rangeNext, State.rangeBegun_cmd, Cmd.ranging, hDone, Nat.sub_zero]
  unfold State.runRange
  simp only [hGet, hGap, Bool.false_eq_true, false_and, and_false, if_false]
  rw [s.start_ready _ h, hCheck]
  exact congrArg nextState hNext

end Sys2Proof.Machine

namespace Sys2Proof.Machine

/-! ### DISCARD, ZERO_HANKS and KEY_BIND (O54) -/

theorem State.settle_hostEntry (s : State) (l : Nat) : s.settle.hostEntry l = s.hostEntry l :=
  State.hostEntry_congr (congrArg Hanks.host s.settle_hanks) l

theorem State.rangeBegun_rangeHank {s : State} {id l : Nat} {c : Cmd} (hDone : c.done = 0) (hL : l = s.ldBase c.pkt.ld + c.pkt.arg0) :
    (s.rangeBegun id c).rangeHank c.ranging = l := by
  have h : (s.rangeBegun id c).rangeHank c.ranging = s.ldBase c.pkt.ld + c.pkt.arg0 + c.done := rfl
  rw [h, hDone, hL, Nat.add_zero]

/-- What stands once a hint discard is done with its first hank. -/
def State.hinted (s : State) (id l : Nat) (c : Cmd) : State := ((s.rangeBegun id c).hintNoted id c.ranging).hintOne l

/-- The first hank of a range that is neither sealed nor waits, nor bound to its key already: a hint discard is done with it at once, and other work
begins. -/
theorem State.rangeGo_first {s : State} {id l : Nat} {c : Cmd} (hDone : c.done = 0) (hL : l = s.ldBase c.pkt.ld + c.pkt.arg0)
    (hSealed : s.sealedOrBusy l = false) (hWaits : s.hankWaits c l = false)
    (hKey : ¬(c.pkt.opcode = 0x0402 ∧ (s.hostEntry l).key = c.pkt.keyidx)) (n : Nat) : State.rangeGo (n + 1) (s.rangeBegun id c) id =
      if c.pkt.opcode = 0x0301 ∧ s.isSecure c l = false then State.rangeGo n (s.hinted id l c) id
      else (s.rangeBegun id c).hankBegin id l c.ranging := by
  have hFree : ¬(s.rangeBegun id c).sealedOrBusy l = true := by
    have h : (s.rangeBegun id c).sealedOrBusy l = s.sealedOrBusy l := rfl
    simp [h, hSealed]
  have hGoes : ¬(s.rangeBegun id c).hankWaits c.ranging l = true := by
    have h : (s.rangeBegun id c).hankWaits c.ranging l = s.hankWaits c l := rfl
    simp [h, hWaits]
  rw [State.rangeGo_some (s.rangeBegun_cmd id c) n, State.rangeBegun_rangeHank hDone hL]
  exact (if_neg hKey).trans ((if_neg hFree).trans (if_neg hGoes))

/-- Work that begins on a hank for DISCARD or ZERO_HANKS, by what the replica's ERASE and the noted command leave. -/
theorem State.hankBegin_secure {s : State} {id lhn : Nat} {c : Cmd} (hOp : c.pkt.opcode = 0x0301) :
    ∃ u : State, s.hankBegin id lhn c = u.secureBegin lhn (some id) := by
  unfold State.hankBegin
  simp only [hOp, BEq.rfl, if_true]
  exact ⟨_, rfl⟩

theorem State.hankBegin_zero {s : State} {id lhn : Nat} {c : Cmd} (hOp : c.pkt.opcode = 0x0302) :
    ∃ u : State, s.hankBegin id lhn c = u.zeroBegin lhn (s.hostEntry lhn).key (some id) := by
  unfold State.hankBegin
  simp only [hOp]
  exact ⟨_, rfl⟩

theorem State.hankBegin_bind {s : State} {id lhn : Nat} {c : Cmd} (hOp : c.pkt.opcode = 0x0402) :
    ∃ (u : State) (key : Nat), s.hankBegin id lhn c = (u.zeroBegin lhn c.pkt.keyidx (some id)).slotLeft key := by
  unfold State.hankBegin
  simp only [hOp]
  exact ⟨_, _, rfl⟩

/-- The range of a command that may start lies in its LD. -/
theorem rangeCheck_none {s : State} {c : Cmd} (h : s.hanksInLd c.pkt = true) : rangeCheck s { c with running := true } = none := by
  simp only [rangeCheck, h, if_true]

/-- The checks of KEY_BIND: the range, and a slot that is LOADED (R254). -/
def State.bindCheck (s : State) (c : Cmd) : Option Nat :=
  if !(s.hanksInLd c.pkt) || decide (4096 ≤ c.pkt.keyidx) then some stRANGE
  else if (s.slot c.pkt.keyidx).state = 0 ∨ (s.slot c.pkt.keyidx).state = 4 then some stKEY_ABSENT
  else if (s.slot c.pkt.keyidx).state = 2 ∨ (s.slot c.pkt.keyidx).state = 3 then some stKEY_IN_USE
  else none

section
variable {s : State} {id l n : Nat} {c : Cmd} (hDone : c.done = 0) (hArg : c.pkt.arg1 = n + 1) (hRange : s.hanksInLd c.pkt = true)
  (hL : l = s.ldBase c.pkt.ld + c.pkt.arg0) (hSealed : s.sealedOrBusy l = false) (hJournal : s.journalFull = false)
include hDone hArg hRange hL hSealed hJournal

theorem exec_discard_hint (hReady : s.CmdReady id 0x0301 c) (hSecure : s.isSecure c l = false) :
    exec (.discard id) s = nextState (State.rangeGo n (s.hinted id l c) id) := by
  have ⟨_, hOp, _⟩ := hReady
  have hWaits : s.hankWaits c l = false := by simp [State.hankWaits, hJournal, hOp]
  have hStep : exec (.discard id) s = s.runRange id 0x0301 (rangeCheck s) := rfl
  rw [hStep, State.runRange_starts hReady (rangeCheck_none hRange) hDone, hArg,
    State.rangeGo_first hDone hL hSealed hWaits (fun h => absurd (hOp.symm.trans h.1) (by decide)), if_pos ⟨hOp, hSecure⟩]

theorem exec_discard_secure (hReady : s.CmdReady id 0x0301 c) (hSecure : s.isSecure c l = true) :
    ∃ u : State, exec (.discard id) s = nextState (u.secureBegin l (some id)) := by
  have ⟨_, hOp, _⟩ := hReady
  have hWaits : s.hankWaits c l = false := by simp [State.hankWaits, hJournal, hOp]
  have hStep : exec (.discard id) s = s.runRange id 0x0301 (rangeCheck s) := rfl
  obtain ⟨u, hBegin⟩ := State.hankBegin_secure (s := s.rangeBegun id c) (id := id) (lhn := l) (c := c.ranging) hOp
  refine ⟨u, ?_⟩
  rw [hStep, State.runRange_starts hReady (rangeCheck_none hRange) hDone, hArg,
    State.rangeGo_first hDone hL hSealed hWaits (fun h => absurd (hOp.symm.trans h.1) (by decide)), if_neg (by simp [hSecure]), hBegin]

theorem exec_zeroHanks_zero (hReady : s.CmdReady id 0x0302 c) :
    ∃ u : State, exec (.zeroHanks id) s = nextState (u.zeroBegin l (s.hostEntry l).key (some id)) := by
  have ⟨_, hOp, _⟩ := hReady
  have hWaits : s.hankWaits c l = false := by simp [State.hankWaits, hJournal, hOp]
  have hStep : exec (.zeroHanks id) s = s.runRange id 0x0302 (rangeCheck s) := rfl
  obtain ⟨u, hBegin⟩ := State.hankBegin_zero (s := s.rangeBegun id c) (id := id) (lhn := l) (c := c.ranging) hOp
  refine ⟨u, ?_⟩
  rw [hStep, State.runRange_starts hReady (rangeCheck_none hRange) hDone, hArg,
    State.rangeGo_first hDone hL hSealed hWaits (fun h => absurd (hOp.symm.trans h.1) (by decide)),
    if_neg (fun h => absurd (hOp.symm.trans h.1) (by decide)), hBegin]
  rfl

theorem exec_keyBind_zero (hReady : s.CmdReady id 0x0402 c) (hSlot : c.pkt.keyidx < 4096) (hLoaded : (s.slot c.pkt.keyidx).state = 1)
    (hKey : (s.hostEntry l).key ≠ c.pkt.keyidx) (hMig : s.migOf false l = none) :
    ∃ (u : State) (key : Nat), exec (.keyBind id) s = nextState ((u.zeroBegin l c.pkt.keyidx (some id)).slotLeft key) := by
  have ⟨_, hOp, _⟩ := hReady
  have hWaits : s.hankWaits c l = false := by simp [State.hankWaits, hJournal, hMig]
  have hCheck : s.bindCheck { c with running := true } = none := by
    have hFits : ¬4096 ≤ c.pkt.keyidx := Nat.not_le.2 hSlot
    simp [State.bindCheck, hRange, hFits, hLoaded]
  have hStep : exec (.keyBind id) s = s.runRange id 0x0402 s.bindCheck := rfl
  obtain ⟨u, key, hBegin⟩ := State.hankBegin_bind (s := s.rangeBegun id c) (id := id) (lhn := l) (c := c.ranging) hOp
  refine ⟨u, key, ?_⟩
  rw [hStep, State.runRange_starts hReady hCheck hDone, hArg, State.rangeGo_first hDone hL hSealed hWaits fun h => hKey h.2,
    if_neg (fun h => absurd (hOp.symm.trans h.1) (by decide)), hBegin]
  rfl

end

theorem State.hintNoted_hanks (s : State) (id : Nat) (c : Cmd) : (s.hintNoted id c).hanks = s.hanks := (HanksStand.plyErase ..).hanks

theorem State.hintNoted_cmd (s : State) (id : Nat) (c : Cmd) : ∃ d : Cmd, tget (s.hintNoted id c).cmds id = some d ∧ d.running = c.running ∧
    d.started = true ∧ d.work = c.work := ⟨_, tget_tput_same _ _ _, rfl, rfl, rfl⟩

theorem State.hinted_entry (s : State) (id l : Nat) (c : Cmd) :
    (s.hinted id l c).hostEntry l = { s.hostEntry l with hint := true, chk := ((s.hinted id l c).hostEntry l).chk } := by
  have hSame : ((s.rangeBegun id c).hintNoted id c.ranging).hostEntry l = s.hostEntry l :=
    State.hostEntry_congr (congrArg Hanks.host (State.hintNoted_hanks ..)) l
  exact (State.hintOne_entry ..).trans (by rw [hSame, State.hinted])

theorem State.hinted_work {s : State} {l : Nat} (h : tget s.hanks.work l = none) (id : Nat) (c : Cmd) :
    tget (s.hinted id l c).hanks.work l = some .hint := by
  refine State.hintOne_work ?_
  rw [State.hintNoted_hanks]
  exact h

theorem State.hinted_past {s : State} {id l : Nat} {c : Cmd} (hDone : c.done = 0) (hL : l = s.ldBase c.pkt.ld + c.pkt.arg0) :
    (s.hinted id l c).RangePast id l :=
  (State.hintNoted_past rfl (by rw [State.rangeBegun_rangeHank hDone hL]; exact Nat.lt_succ_self l)).goOn (State.hintOne_goOn ..)

/-- A hint discard has no work of its own but the range. -/
theorem State.hinted_cmd_work {s : State} {id l : Nat} {c c' : Cmd} (h : tget (s.hinted id l c).cmds id = some c') : c'.work.Sublist [wRange] := by
  obtain ⟨d, hGet, hRunning, hStarted, hWork⟩ := (s.rangeBegun id c).hintNoted_cmd id c.ranging
  have hCont := (State.hintOne_goOn ((s.rangeBegun id c).hintNoted id c.ranging) l).cmds.continues id d c' hGet hRunning hStarted h
  have hSub := hCont.work
  rw [hWork] at hSub
  exact hSub

/-- Settles O54: a command that may start takes its first hank by one step of its range, whatever its neighbour is asked. A hint discard goes on with hanks
past the first, which leave that one alone, and is done when there is none; the other commands wait for the work that they begin. -/
theorem hankCommands : Obligations.HankCommands := by
  intro s id l c hSome hDone hRange hL hSealed hJournal hMapped
  obtain ⟨n, hArg⟩ := Nat.exists_eq_succ_of_ne_zero (Nat.pos_iff_ne_zero.1 hSome)
  refine ⟨fun hReady hSecure => ?hint, fun hReady hSecure => ?secure, fun hReady => ?zero, fun hReady hSlot hLoaded hKey hMig => ?bind⟩
  case hint =>
    have hPast := State.hinted_past (s := s) (id := id) hDone hL
    have hKept := State.rangeGo_kept n _ hPast
    have hEntry := s.hinted_entry id l c
    refine nextState_exists (exec_discard_hint hDone hArg hRange hL hSealed hJournal hReady hSecure) ⟨?_, ?_, fun hNone => ?_, fun hOne => ?_⟩
    · rw [State.settle_hostEntry, hKept.entry, hEntry]
    · rw [State.settle_hostEntry, hKept.entry, hEntry]
      exact hMapped
    · rw [State.settle_hanks, hKept.work]
      exact State.hinted_work hNone id c
    · obtain rfl : n = 0 := Nat.succ.inj (hArg.symm.trans hOne)
      rw [State.settle_cmds]
      exact State.rangeGo_zero_gone fun c' hGet => State.hinted_cmd_work hGet
  case secure =>
    obtain ⟨u, hStep⟩ := exec_discard_secure hDone hArg hRange hL hSealed hJournal hReady hSecure
    refine nextState_exists hStep ⟨?_, ?_⟩
    · rw [State.settle_hostEntry, State.secureBegin_entry]
    · rw [State.settle_hanks, State.secureBegin_work]
  case zero =>
    obtain ⟨u, hStep⟩ := exec_zeroHanks_zero hDone hArg hRange hL hSealed hJournal hReady
    have ⟨hState, hKey⟩ := u.zeroBegin_entry l (s.hostEntry l).key (some id)
    refine nextState_exists hStep ⟨?_, ?_, ?_⟩
    · rw [State.settle_hostEntry, hState]
    · rw [State.settle_hostEntry, hKey]
    · rw [State.settle_hanks, State.zeroBegin_work]
  case bind =>
    obtain ⟨u, key, hStep⟩ := exec_keyBind_zero hDone hArg hRange hL hSealed hJournal hReady hSlot hLoaded hKey hMig
    have hHanks := (HanksStand.slotLeft (u.zeroBegin l c.pkt.keyidx (some id)) key).hanks
    have ⟨hState, hBound⟩ := u.zeroBegin_entry l c.pkt.keyidx (some id)
    refine nextState_exists hStep ⟨?_, ?_, ?_⟩
    · rw [State.settle_hostEntry, State.hostEntry_congr (congrArg Hanks.host hHanks), hState]
    · rw [State.settle_hostEntry, State.hostEntry_congr (congrArg Hanks.host hHanks), hBound]
    · rw [State.settle_hanks, hHanks, State.zeroBegin_work]

end Sys2Proof.Machine

namespace Sys2Proof.Machine

/-! ### A line of working memory in which nothing stands wrong (R163, R172) -/

section
variable {s : State} (hClean : s.wm.errs = [])
include hClean

theorem State.wrongBits_of_clean (dev wma : Nat) : s.wrongBits dev wma = 0 := by
  simp [State.wrongBits, hClean, dget, tget]

theorem State.bitsSet_wrongBits_of_clean (dev wma : Nat) : bitsSet (s.wrongBits dev wma) = [] := by
  simp [bitsSet, State.wrongBits_of_clean hClean]

theorem State.flipErrs_of_clean (w : Nat) : s.flipErrs w = [] := by
  simp [State.flipErrs, State.bitsSet_wrongBits_of_clean hClean]

theorem State.unflagged_of_clean (w : Nat) : s.unflagged w = false := by
  simp [State.unflagged, State.bitsSet_wrongBits_of_clean hClean]

theorem State.checkWords_of_clean (w : Nat) : s.checkWords w [] = (false, s) := by
  simp [State.checkWords, State.flipErrs_of_clean hClean, State.unflagged_of_clean hClean]

theorem State.lineWrite_of_clean (hArmed : s.fget Reg.WME_FLIP_CTL Fld.WME_FLIP_CTL_ARMED = 0) (w : Nat) : s.lineWrite (some w) = s := by
  simp [State.lineWrite, hClean, hArmed]
end

/-! ### A scrub of a line that two worn words take away (O26) -/

/-- The scrubber reads its next line, with the errors that its devices show, and its cursor moves on (R175). -/
def State.scrubbed (s : State) (errs : List WordErr) : State :=
  let w := s.fget Reg.WME_SCRUB_CTL Fld.WME_SCRUB_CTL_CURSOR
  let moved := (((s.checkLine w errs).charge 16 1).wmAccess 1 7 18 none).fset Reg.WME_SCRUB_CTL Fld.WME_SCRUB_CTL_CURSOR ((w + 1) % 2 ^ 22)
  if w + 1 = 2 ^ 22 then moved.fadd Reg.WME_SCRUB_CTL Fld.WME_SCRUB_CTL_PASSES 1 else moved

theorem exec_scrubLine_runs {s : State} (hEn : s.fget Reg.WME_SCRUB_CTL Fld.WME_SCRUB_CTL_EN = 1) (hHeld : s.adm.held.getD 16 false = false)
    (hReady : s.ready rWMEM = true) (hOn : s.fget Reg.PWR_REQ Fld.PWR_REQ_D11_OFF = 0) (errs : List WordErr) :
    exec (.scrubLine errs) s = nextState (s.scrubbed errs) := by
  show execScrubLine errs s = _
  unfold execScrubLine
  rw [if_pos ⟨hEn, hHeld, hReady, hOn⟩]
  rfl

/-- Beside the scrubber's own register and the counters a scrub changes what the check of its line changes. -/
theorem State.scrubbed_reg (s : State) (errs : List WordErr) {off : Nat} (hCtl : off ≠ Reg.WME_SCRUB_CTL) (hPmc : off ∉ pmcRegs) :
    (s.scrubbed errs).reg off = (s.checkLine (s.fget Reg.WME_SCRUB_CTL Fld.WME_SCRUB_CTL_CURSOR) errs).reg off := by
  unfold State.scrubbed
  extract_lets w moved
  have hMoved : moved.reg off = (s.checkLine w errs).reg off := (State.reg_fset_other _ _ _ _ hCtl).trans (State.wmAccess_reg _ _ _ _ _ hPmc)
  split
  · exact (State.reg_fset_other _ _ _ _ hCtl).trans hMoved
  · exact hMoved

/-- A module without redundancy left whose scrubber comes to line 0, where a word of device 0 and one of device 1 are worn and have no spare word. -/
def twoWornWords : State :=
  let s := ((State.reset.setReg Reg.RDY_STATUS (BitVec.ofNat 64 (2 ^ rWMEM))).fset Reg.WME_SCRUB_CTL Fld.WME_SCRUB_CTL_EN 1).fset
    Reg.WME_STATE Fld.WME_STATE_DEGRADED 1
  { s with power := .on, wm := { Wm.init with hard := [wordKey 0 0, wordKey 1 0] } }

/-- Refutes O26: a line two of whose words are worn without a spare word has lost both, so that a further error in it is not corrected (R170, R171) and does
not count, while the second clause asks only that no device is failed and no wrong bit is stored. Devices that an INJECT_FAULT failed and that pass their
check (R391) may leave such words of the others with FAILED 0. The state is `twoWornWords`. -/
theorem not_scrubberChecksALine : ¬ Obligations.ScrubberChecksALine := by
  rintro ⟨⟨-, hCorrected⟩, -⟩
  have hEn : twoWornWords.fget Reg.WME_SCRUB_CTL Fld.WME_SCRUB_CTL_EN = 1 := by decide +kernel
  have hHeld : twoWornWords.adm.held.getD 16 false = false := by decide +kernel
  have hReady : twoWornWords.ready rWMEM = true := by decide +kernel
  have hOn : twoWornWords.fget Reg.PWR_REQ Fld.PWR_REQ_D11_OFF = 0 := by decide +kernel
  obtain ⟨t, hExec, hCount, -⟩ := hCorrected twoWornWords 2 5 hEn hHeld hReady hOn rfl (by decide +kernel) (by decide +kernel) (by decide) (by decide)
    (by decide +kernel)
  rw [nextState_next _ ((exec_scrubLine_runs hEn hHeld hReady hOn _).symm.trans hExec), State.settle_reg _ (by decide),
    State.scrubbed_reg _ _ (by decide) (by decide)] at hCount
  exact absurd hCount (by decide +kernel)

/-! ### A narrow-write entry drains (O27) -/

/-- An entry leaves the narrow-write buffer. -/
def State.narrowTaken (s : State) (w : Nat) : State := { s with wm := { s.wm with narrow := tdel s.wm.narrow w } }

/-- An entry that drains counts the line's write, and its read unless the entry covers the line. -/
theorem State.drainLine_of_clean {s : State} {w : Nat} {e : Narrow} (hEntry : tget s.wm.narrow w = some e)
    (hArmed : s.fget Reg.WME_FLIP_CTL Fld.WME_FLIP_CTL_ARMED = 0) (hClean : s.wm.errs = []) :
    s.drainLine w = (s.narrowTaken w).wmAccess (if e.mask = BitVec.allOnes 64 then 1 else 2) 1 18 none := by
  have hRead : (s.narrowTaken w).checkWords w [] = (false, s.narrowTaken w) :=
    State.checkWords_of_clean (s := s.narrowTaken w) hClean w
  have hWritten : (s.narrowTaken w).lineWrite (some w) = s.narrowTaken w :=
    State.lineWrite_of_clean (s := s.narrowTaken w) hClean hArmed w
  unfold State.narrowTaken at *
  unfold State.drainLine
  generalize BitVec.allOnes 64 = full
  by_cases hMask : e.mask = full
  · simp [hEntry, hMask, hWritten]
  · simp [hEntry, hMask, hRead, hWritten]

theorem State.wmAccess_rest (s : State) (n cls master : Nat) (lhn : Option Nat) : s.wmAccess n cls master lhn =
    { s with regs := (s.wmAccess n cls master lhn).regs, hist := (s.wmAccess n cls master lhn).hist } := by
  have h := s.wmAccess_countsOnly n cls master lhn
  rwa [CountsOnly, State.wmAccess_adm, State.wmAccess_tlc] at h

theorem State.wmAccess_bytes (s : State) (n cls master : Nat) (lhn : Option Nat) :
    (s.wmAccess n cls master lhn).hist.bytes = lset s.hist.bytes 3 (s.hist.bytes.getD 3 0 + 64 * n) := by
  simp [State.wmAccess, State.bytes]

theorem narrowWriteDrain_leaves (s : State) (wma : Nat) (e : Narrow) (hEntry : tget s.wm.narrow wma = some e)
    (hArmed : s.fget Reg.WME_FLIP_CTL Fld.WME_FLIP_CTL_ARMED = 0) (hClean : s.wm.errs = []) :
    ∃ t, exec (.narrowWriteDrain wma) s = .next t ∧ t.wm = { s.wm with narrow := tdel s.wm.narrow wma } ∧
      t.hist.bytes = lset s.hist.bytes 3 (s.hist.bytes.getD 3 0 + (if e.mask = BitVec.allOnes 64 then 64 else 128)) ∧
      Frame s t [.wm, .hist] pmcRegs := by
  have hStep : exec (.narrowWriteDrain wma) s = nextState (s.drainLine wma) := rfl
  rw [State.drainLine_of_clean hEntry hArmed hClean] at hStep
  refine nextState_exists hStep ⟨?_, ?_, frame_settle ?_ (fun p hp => ?_) fun off hOff => ?_⟩
  · rw [State.settle_wm, State.wmAccess_wm]
    rfl
  · rw [State.settle_hist, State.wmAccess_bytes]
    split
    · rfl
    · rfl
  · rw [State.wmAccess_pending]
    rfl
  · rw [State.wmAccess_rest]
    cases p with
    | regs | wm | hist => simp at hp
    | cmds => exact ⟨rfl, rfl⟩
    | _ => rfl
  · exact State.wmAccess_reg _ _ _ _ _ hOff

/-! ### The correction log (R173) -/

/-- A settled state keeps what the state that it settles keeps, of which registers alone have changed. -/
theorem frame_settle_of_regsOnly {s u : State} {rs : List Nat} (h : RegsOnly s u) (hRegs : ∀ off, off ∉ rs → u.reg off = s.reg off) :
    Frame s u.settle [] rs :=
  frame_settle ((congrArg State.pending h).trans rfl) (fun _ hp => h.same_part fun hEq => hp (hEq ▸ List.mem_cons_self ..)) hRegs

theorem quietReg_ceLog {n : Nat} (h : n < 16) : quietReg (Reg.WME_CE_LOG n) = true :=
  (by decide : ∀ n < 16, quietReg (Reg.WME_CE_LOG n) = true) n h

theorem ceLog_ne_stat (n : Nat) : Reg.WME_CE_LOG n ≠ Reg.WME_CE_LOG_STAT := by
  unfold Reg.WME_CE_LOG Reg.WME_CE_LOG_STAT
  omega

theorem ceLog_injective {n k : Nat} (h : n ≠ k) : Reg.WME_CE_LOG n ≠ Reg.WME_CE_LOG k := by
  unfold Reg.WME_CE_LOG
  omega

section
variable (s : State)

/-- The number of valid entries of the log. -/
def State.ceLogCount : Nat := ((List.range 16).filter fun n => s.fget (Reg.WME_CE_LOG n) Fld.WME_CE_LOG_VALID == 1).length

theorem State.logStat_reg {off : Nat} (h : off ≠ Reg.WME_CE_LOG_STAT) : s.logStat.reg off = s.reg off := State.reg_fset_other _ _ _ _ h

theorem State.logStat_count : s.logStat.fget Reg.WME_CE_LOG_STAT Fld.WME_CE_LOG_STAT_COUNT = s.ceLogCount := by
  have hMost : s.ceLogCount ≤ 16 := (List.length_filter_le _ _).trans_eq List.length_range
  exact State.fget_fset_same _ _ _ _ (by decide) (hMost.trans_lt (by decide))

theorem State.logStat_overrun : s.logStat.fget Reg.WME_CE_LOG_STAT Fld.WME_CE_LOG_STAT_OVERRUN = s.fget Reg.WME_CE_LOG_STAT Fld.WME_CE_LOG_STAT_OVERRUN :=
  State.fget_fset_apart _ _ _ _ (by decide) (by decide) (by decide)

theorem State.logStat_entry (n : Nat) (f : Field) : s.logStat.fget (Reg.WME_CE_LOG n) f = s.fget (Reg.WME_CE_LOG n) f :=
  State.fget_fset_other _ _ _ _ (ceLog_ne_stat n)

/-- An entry of the log is freed. -/
def State.ceLogDrop (n : Nat) : State := s.fset (Reg.WME_CE_LOG n) Fld.WME_CE_LOG_VALID 0

theorem State.ceLogDrop_valid (n k : Nat) : (s.ceLogDrop n).fget (Reg.WME_CE_LOG k) Fld.WME_CE_LOG_VALID =
    if k = n then 0 else s.fget (Reg.WME_CE_LOG k) Fld.WME_CE_LOG_VALID := by
  split
  · rename_i hSame
    rw [hSame]
    exact State.fget_fset_same _ _ _ _ (by decide) (by decide)
  · rename_i hOther
    exact State.fget_fset_other _ _ _ _ (ceLog_injective hOther)

theorem State.ceLogDrop_count (n : Nat) : (s.ceLogDrop n).ceLogCount =
    ((List.range 16).filter fun k => k != n && s.fget (Reg.WME_CE_LOG k) Fld.WME_CE_LOG_VALID == 1).length := by
  unfold State.ceLogCount
  congr 2
  funext k
  rw [State.ceLogDrop_valid]
  by_cases h : k = n
  · simp [h]
  · simp [h]

/-- The entries of a list are freed. -/
def State.ceLogDropAll (l : List Nat) : State := l.foldl State.ceLogDrop s

theorem State.ceLogDropAll_regsOnly (l : List Nat) : RegsOnly s (s.ceLogDropAll l) := RegsOnly.foldl (fun _ _ => State.fset_regsOnly ..) l s

theorem State.ceLogDropAll_reg (l : List Nat) {off : Nat} (h : off ∉ l.map Reg.WME_CE_LOG) : (s.ceLogDropAll l).reg off = s.reg off := by
  induction l generalizing s with
  | nil => rfl
  | cons n l ih =>
    obtain ⟨hHead, hTail⟩ := not_or.1 (List.mem_cons.not.1 h)
    exact (ih _ hTail).trans (State.reg_fset_other _ _ _ _ hHead)

theorem State.ceLogDropAll_valid (l : List Nat) {k : Nat} (h : k ∈ l ∨ s.fget (Reg.WME_CE_LOG k) Fld.WME_CE_LOG_VALID = 0) :
    (s.ceLogDropAll l).fget (Reg.WME_CE_LOG k) Fld.WME_CE_LOG_VALID = 0 := by
  induction l generalizing s with
  | nil => exact h.resolve_left List.not_mem_nil
  | cons n l ih =>
    refine ih (s.ceLogDrop n) ?_
    rw [State.ceLogDrop_valid]
    by_cases hHead : k = n
    · exact .inr (if_pos hHead)
    · rw [if_neg hHead]
      exact h.imp_left fun hMem => (List.mem_cons.1 hMem).resolve_left hHead
end

theorem wmeCeLogFree_leaves (s : State) (n : Nat) (v : W64) (hn : n < 16) (hValid : getF v Fld.WME_CE_LOG_VALID = 1)
    (hNow : s.setNow (Reg.WME_CE_LOG n) Fld.WME_CE_LOG_VALID = 0) :
    ∃ t, exec (.wmeCeLogFree n v) s = .next t ∧ t.fget (Reg.WME_CE_LOG n) Fld.WME_CE_LOG_VALID = 0 ∧
      t.fget (Reg.WME_CE_LOG n) Fld.WME_CE_LOG_WMA = s.fget (Reg.WME_CE_LOG n) Fld.WME_CE_LOG_WMA ∧
      t.fget Reg.WME_CE_LOG_STAT Fld.WME_CE_LOG_STAT_COUNT =
        ((List.range 16).filter fun k => k != n && s.fget (Reg.WME_CE_LOG k) Fld.WME_CE_LOG_VALID == 1).length ∧
      Frame s t [] [Reg.WME_CE_LOG n, Reg.WME_CE_LOG_STAT] := by
  have hStep : exec (.wmeCeLogFree n v) s = nextState (s.ceLogDrop n).logStat := by
    show nextState (s.ceLogFree n v) = _
    unfold State.ceLogFree
    rw [hNow, if_pos ⟨hn, hValid⟩]
    rfl
  have hSettled (f : Field) : (s.ceLogDrop n).logStat.settle.fget (Reg.WME_CE_LOG n) f = (s.ceLogDrop n).fget (Reg.WME_CE_LOG n) f := by
    rw [State.fget, State.settle_reg _ (quietReg_ceLog hn)]
    exact State.logStat_entry ..
  refine nextState_exists hStep ⟨?_, ?_, ?_, frame_settle_of_regsOnly rfl fun off hOff => ?_⟩
  · rw [hSettled, State.ceLogDrop_valid, if_pos rfl]
  · rw [hSettled]
    exact State.fget_fset_apart _ _ _ _ (by decide) (by decide) (by decide)
  · rw [State.settle_fget _ (by decide) (by decide), State.logStat_count, State.ceLogDrop_count]
  · obtain ⟨hEntry, hStat⟩ : off ≠ Reg.WME_CE_LOG n ∧ off ≠ Reg.WME_CE_LOG_STAT := by simpa using hOff
    exact (State.logStat_reg _ hStat).trans (State.reg_fset_other _ _ _ _ hEntry)

theorem wmeCeLogClear_leaves (s : State) (v : W64) (hClear : getF v Fld.WME_CE_LOG_STAT_CLEAR = 1) :
    ∃ t, exec (.wmeCeLogClear v) s = .next t ∧ (∀ n, n < 16 → t.fget (Reg.WME_CE_LOG n) Fld.WME_CE_LOG_VALID = 0) ∧
      t.fget Reg.WME_CE_LOG_STAT Fld.WME_CE_LOG_STAT_COUNT = 0 ∧ t.fget Reg.WME_CE_LOG_STAT Fld.WME_CE_LOG_STAT_OVERRUN = 0 ∧
      Frame s t [] (Reg.WME_CE_LOG_STAT :: (List.range 16).map Reg.WME_CE_LOG) := by
  let u := (s.fset Reg.WME_CE_LOG_STAT Fld.WME_CE_LOG_STAT_OVERRUN 0).ceLogDropAll (List.range 16)
  have hStep : exec (.wmeCeLogClear v) s = nextState u.logStat := by
    show nextState (s.ceLogClear v) = _
    unfold State.ceLogClear
    rw [if_pos hClear, if_pos hClear]
    rfl
  have hFree {n : Nat} (hn : n < 16) : u.fget (Reg.WME_CE_LOG n) Fld.WME_CE_LOG_VALID = 0 :=
    State.ceLogDropAll_valid _ _ (.inl (List.mem_range.2 hn))
  refine nextState_exists hStep ⟨fun n hn => ?_, ?_, ?_, frame_settle_of_regsOnly ?_ fun off hOff => ?_⟩
  · rw [State.fget, State.settle_reg _ (quietReg_ceLog hn)]
    exact (State.logStat_entry ..).trans (hFree hn)
  · rw [State.settle_fget _ (by decide) (by decide), State.logStat_count, State.ceLogCount, List.length_eq_zero_iff, List.filter_eq_nil_iff]
    intro n hn
    simp [hFree (List.mem_range.1 hn)]
  · rw [State.settle_fget _ (by decide) (by decide), State.logStat_overrun, State.fget, State.ceLogDropAll_reg _ _ (by decide)]
    exact State.fget_fset_same _ _ _ _ (by decide) (by decide)
  · exact RegsOnly.trans (State.fset_regsOnly ..) (RegsOnly.trans (State.ceLogDropAll_regsOnly ..) (State.fset_regsOnly ..))
  · obtain ⟨hStat, hEntries⟩ := not_or.1 (List.mem_cons.not.1 hOff)
    exact (State.logStat_reg _ hStat).trans ((State.ceLogDropAll_reg _ _ hEntries).trans (State.reg_fset_other _ _ _ _ hStat))

/-! ### The flip mask's control (R174) -/

/-- A write of WME_FLIP_CTL is noted for the tick when it has a 1 in ARMED (R17). -/
def State.armNoted (s : State) (v : W64) : State :=
  { s with clk := { s.clk with armAgain := s.clk.armAgain || getF v Fld.WME_FLIP_CTL_ARMED == 1 } }

theorem flipArm_disarmed (s : State) (v : W64) (h : s.fget Reg.WME_FLIP_CTL Fld.WME_FLIP_CTL_ARMED = 0) :
    ∃ t, exec (.flipArm v) s = .next t ∧ t.reg Reg.WME_FLIP_CTL = v &&& 0xC000FF0F003FFFFF ∧ Frame s t [.clk] [Reg.WME_FLIP_CTL] := by
  have hStep : exec (.flipArm v) s = nextState ((s.armNoted v).setReg Reg.WME_FLIP_CTL (v &&& 0xC000FF0F003FFFFF)) := by
    show nextState (s.flipCtl v) = _
    unfold State.flipCtl
    rw [if_neg (by omega)]
    rfl
  refine nextState_exists hStep ⟨?_, frame_settle rfl (fun p hp => ?_) fun off hOff => State.reg_setReg_other _ _ _ (by simpa using hOff)⟩
  · rw [State.settle_reg _ (by decide), State.reg_setReg_same]
  · cases p with
    | regs | clk => simp at hp
    | cmds => exact ⟨rfl, rfl⟩
    | _ => rfl

theorem flipArm_armed (s : State) (v : W64) (h : s.fget Reg.WME_FLIP_CTL Fld.WME_FLIP_CTL_ARMED = 1) :
    ∃ t, exec (.flipArm v) s = .next t ∧ Keeps s t [.clk] := by
  have hStep : exec (.flipArm v) s = nextState (s.armNoted v) := by
    show nextState (s.flipCtl v) = _
    unfold State.flipCtl
    rw [if_pos h]
    rfl
  refine nextState_exists hStep (Keeps.settle ⟨rfl, fun p hp => ?_⟩)
  cases p with
  | clk => simp at hp
  | regs => exact fun _ _ _ => rfl
  | cmds => exact ⟨rfl, rfl⟩
  | _ => rfl

/-! ### Maintenance of the line cache (R181, R182) -/

/-- A settled state keeps what the state that it settles keeps, of which the line cache's part and registers alone have changed. -/
theorem frame_settle_of_tlc {s u : State} {rs : List Nat} (h : u = { s with tlc := u.tlc, regs := u.regs })
    (hRegs : ∀ off, off ∉ rs → u.reg off = s.reg off) : Frame s u.settle [.tlc] rs := by
  refine frame_settle ((congrArg State.pending h).trans rfl) (fun p hp => ?_) hRegs
  rw [h]
  cases p with
  | regs | tlc => simp at hp
  | cmds => exact ⟨rfl, rfl⟩
  | _ => rfl

/-- The operation that a write of TLC_MAINT asks for. -/
def maintOfWord (op : Nat) (v : W64) : Maint :=
  { op := op, scope := getF v Fld.TLC_MAINT_SCOPE, a := getF v Fld.TLC_MAINT_SET, b := getF v Fld.TLC_MAINT_WAY, cmd := none, left := [], inval := false }

/-- TLC_MAINT takes the write. -/
def State.maintTaken (s : State) (op : Nat) (v : W64) : State := s.setReg Reg.TLC_MAINT (setF (v &&& 0x0FFFFE33) Fld.TLC_MAINT_OP op)

theorem State.maintTaken_reg (s : State) (op : Nat) (v : W64) {off : Nat} (h : off ≠ Reg.TLC_MAINT) : (s.maintTaken op v).reg off = s.reg off :=
  State.reg_setReg_other _ _ _ h

theorem State.maintWrite_idle {s : State} {op : Nat} {v : W64} (hIdle : s.tlc.maint = none) (hScope : getF v Fld.TLC_MAINT_SCOPE ≠ 3) (hOp : op ≠ 0) :
    s.maintWrite op v = (s.maintTaken op v).maintStart (maintOfWord op v) := by
  simp only [State.maintWrite, hIdle, Option.isSome_none, Bool.false_eq_true, false_or, if_neg hScope, if_neg hOp]
  rfl

theorem State.maintWrite_busy {s : State} (h : s.tlc.maint.isSome = true) (op : Nat) (v : W64) : s.maintWrite op v = s := by
  simp [State.maintWrite, h]

/-- The line cache's part of the state is replaced. -/
def State.withTlc (s : State) (x : Tlc) : State := { s with tlc := x }

@[simp] theorem State.withTlc_settle_tlc (s : State) (x : Tlc) : (s.withTlc x).settle.tlc = x := State.settle_tlc _

theorem State.maintTaken_withTlc_frame (s : State) (op : Nat) (v : W64) (x : Tlc) : Frame s ((s.maintTaken op v).withTlc x).settle [.tlc] [Reg.TLC_MAINT] :=
  frame_settle_of_tlc rfl fun _ hOff => State.maintTaken_reg s op v (by simpa using hOff)

section
variable (s : State) (m : Maint)

/-- An operation that has no dirty line to wait for. -/
theorem State.maintStart_nothingDirty (h : m.op = 2 ∨ s.tlc.pool = []) :
    s.maintStart m = (s.withTlc { s.tlc with maint := some { m with left := [] } }).maintEnd m := by
  obtain hOp | hPool := h
  · simp [State.maintStart, State.withTlc, hOp]
  · simp [State.maintStart, State.withTlc, hPool]

/-- An invalidate of one set and way, written by software, is done. -/
theorem State.maintEnd_way (hOp : m.op ≠ 1) (hScope : m.scope = 2) (hCmd : m.cmd = none) :
    s.maintEnd m = s.withTlc { s.tlc with cache := tdel s.tlc.cache (16 * m.a + m.b), maint := none } := by
  simp [State.maintEnd, State.withTlc, hOp, hScope, hCmd, State.setCache]

/-- An invalidate of one set, written by software, is done. -/
theorem State.maintEnd_set (hOp : m.op ≠ 1) (hScope : m.scope = 1) (hCmd : m.cmd = none) :
    s.maintEnd m = s.withTlc { s.tlc with cache := s.tlc.cache.filter (fun e => cacheSet e.2.line != m.a), maint := none } := by
  simp [State.maintEnd, State.withTlc, hOp, hScope, hCmd, State.cacheDrop, State.setCache, Maint.covers, bne]

/-- An invalidate of all lines, written by software, starts a full invalidation. -/
theorem State.maintEnd_all (hOp : m.op ≠ 1) (hScope : m.scope = 0) (hCmd : m.cmd = none) :
    s.maintEnd m = s.withTlc { s.tlc with inval := true, maint := some { m with left := [], inval := true } } := by
  simp [State.maintEnd, State.withTlc, hOp, hScope, hCmd, State.invalStart]

/-- A line of the pool that falls due with the maintenance that writes it back. -/
def PoolLine.dueBy (p : PoolLine) (due : Nat) : PoolLine := { p with due := min p.due due }

/-- A clean of all lines, written by software, runs until every dirty line is written, each due within the window of class 3. -/
theorem State.maintStart_cleanAll (hOp : m.op = 1) (hScope : m.scope = 0) (hCmd : m.cmd = none) (hDirty : s.tlc.pool ≠ []) :
    s.maintStart m = s.withTlc { s.tlc with
      maint := some { m with left := s.tlc.pool.map Prod.fst }, pool := s.tlc.pool.map fun q => (q.1, q.2.dueBy (s.bgDeadline 3)) } := by
  unfold State.maintStart
  extract_lets mine due tlc s1
  have hMine : mine = s.tlc.pool.map Prod.fst := by simp [mine, hOp, Maint.covers, hScope]
  have hDue : s.maintDue m = s.bgDeadline 3 := by simp [State.maintDue, hCmd]
  have hPool : s.tlc.pool.map due = s.tlc.pool.map fun q => (q.1, q.2.dueBy (s.bgDeadline 3)) :=
    List.map_congr_left fun q hq => by
      have hHeld : mine.contains q.1 = true := List.contains_iff_mem.2 (hMine ▸ List.mem_map_of_mem hq)
      simp only [due, hHeld, if_true, hDue, PoolLine.dueBy]
  rw [if_neg (by simp [hMine, hDirty])]
  simp only [s1, tlc, hMine, hPool]
  rfl
end

theorem State.maintTaken_bgDeadline (s : State) (op : Nat) (v : W64) : (s.maintTaken op v).bgDeadline 3 = s.bgDeadline 3 := by
  simp only [State.bgDeadline, State.window, State.resvNow]
  rw [State.maintTaken_reg _ _ _ (by decide)]
  rfl

/-- After a step BUSY shows whether an operation runs. -/
theorem State.settle_maintBusy {s : State} (h : s.tlc.maint.isSome = true) : s.settle.fget Reg.TLC_MAINT Fld.TLC_MAINT_BUSY = 1 := by
  have hLive := s.settle_live (Reg.TLC_MAINT, Fld.TLC_MAINT_BUSY, fun s => bitOf s.tlc.maint.isSome) (by simp [liveFields])
  rw [hLive]
  simp [h, bitOf, liveValue, fwidth, Fld.TLC_MAINT_BUSY]

theorem fullInvalidationDone_idle (s : State) (hInval : s.tlc.inval = true) (hPll : s.clk.pll = true) (hIdle : s.tlc.maint = none) :
    exec .fullInvalidationDone s = nextState { s with tlc := { s.tlc with inval := false, cache := [] } } := by
  show execFullInvalidationDone s = _
  simp [execFullInvalidationDone, hInval, hPll, hIdle, State.setCache]

theorem tlcMaintClean_dirty (s : State) (v : W64) (line : Nat) (p : PoolLine) (hIdle : s.tlc.maint = none) (hScope : getF v Fld.TLC_MAINT_SCOPE = 0)
    (hLine : s.poolGet line = some p) :
    ∃ t m q, exec (.tlcMaintClean v) s = .next t ∧ t.tlc.maint = some m ∧ m.op = 1 ∧ line ∈ m.left ∧ t.poolGet line = some q ∧
      q.due = min p.due (s.bgDeadline 3) ∧ q.data = p.data ∧ t.fget Reg.TLC_MAINT Fld.TLC_MAINT_BUSY = 1 ∧ t.tlc.cache = s.tlc.cache ∧
      Frame s t [.tlc] [Reg.TLC_MAINT] := by
  have hDirty : (s.maintTaken 1 v).tlc.pool ≠ [] := fun hNone => by simp [State.poolGet, show s.tlc.pool = [] from hNone, tget] at hLine
  have hStep : exec (.tlcMaintClean v) s = nextState (s.maintWrite 1 v) := rfl
  rw [State.maintWrite_idle hIdle (by omega) (by decide), State.maintStart_cleanAll _ _ rfl hScope rfl hDirty, State.maintTaken_bgDeadline] at hStep
  refine ⟨_, { maintOfWord 1 v with left := s.tlc.pool.map Prod.fst }, p.dueBy (s.bgDeadline 3), hStep, ?_, rfl, ?_, ?_, rfl, rfl,
    State.settle_maintBusy rfl, ?_, State.maintTaken_withTlc_frame ..⟩
  · rw [State.withTlc_settle_tlc]
    rfl
  · exact List.mem_map_of_mem (mem_of_tget hLine)
  · rw [State.poolGet, State.withTlc_settle_tlc]
    exact (tget_map_same_key (fun q => (q.1, q.2.dueBy (s.bgDeadline 3))) (fun _ => rfl) _ _).trans (congrArg (Option.map _) hLine)
  · rw [State.withTlc_settle_tlc]
    rfl

theorem tlcMaintInvalidate_way (s : State) (v : W64) (hIdle : s.tlc.maint = none) (hScope : getF v Fld.TLC_MAINT_SCOPE = 2) :
    ∃ t, exec (.tlcMaintInvalidate v) s = .next t ∧ t.tlc.maint = none ∧
      t.tlc.cache = tdel s.tlc.cache (16 * getF v Fld.TLC_MAINT_SET + getF v Fld.TLC_MAINT_WAY) ∧ t.tlc.pool = s.tlc.pool ∧
      Frame s t [.tlc] [Reg.TLC_MAINT] := by
  have hDone : s.maintWrite 2 v = (s.maintTaken 2 v).withTlc { s.tlc with
      cache := tdel s.tlc.cache (16 * getF v Fld.TLC_MAINT_SET + getF v Fld.TLC_MAINT_WAY), maint := none } := by
    rw [State.maintWrite_idle hIdle (by omega) (by decide), State.maintStart_nothingDirty _ _ (.inl rfl),
      State.maintEnd_way _ _ (show 2 ≠ 1 by decide) hScope rfl]
    rfl
  refine nextState_exists (congrArg nextState hDone) ⟨?_, ?_, ?_, State.maintTaken_withTlc_frame ..⟩
  all_goals rw [State.withTlc_settle_tlc]

theorem tlcMaintInvalidate_set (s : State) (v : W64) (hIdle : s.tlc.maint = none) (hScope : getF v Fld.TLC_MAINT_SCOPE = 1) :
    ∃ t, exec (.tlcMaintInvalidate v) s = .next t ∧ t.tlc.maint = none ∧
      t.tlc.cache = s.tlc.cache.filter (fun e => cacheSet e.2.line != getF v Fld.TLC_MAINT_SET) ∧ t.tlc.pool = s.tlc.pool := by
  have hDone : s.maintWrite 2 v = (s.maintTaken 2 v).withTlc { s.tlc with
      cache := s.tlc.cache.filter (fun e => cacheSet e.2.line != getF v Fld.TLC_MAINT_SET), maint := none } := by
    rw [State.maintWrite_idle hIdle (by omega) (by decide), State.maintStart_nothingDirty _ _ (.inl rfl),
      State.maintEnd_set _ _ (show 2 ≠ 1 by decide) hScope rfl]
    rfl
  refine nextState_exists (congrArg nextState hDone) ⟨?_, ?_, ?_⟩
  all_goals rw [State.withTlc_settle_tlc]

theorem tlcMaintCleanInvalidate_clean (s : State) (v : W64) (hIdle : s.tlc.maint = none) (hScope : getF v Fld.TLC_MAINT_SCOPE = 0)
    (hPool : s.tlc.pool = []) :
    ∃ t, exec (.tlcMaintCleanInvalidate v) s = .next t ∧ t.tlc.inval = true ∧ t.tlc.maint.isSome = true ∧
      t.fget Reg.TLC_MAINT Fld.TLC_MAINT_BUSY = 1 := by
  have hRuns : s.maintWrite 3 v = (s.maintTaken 3 v).withTlc { s.tlc with
      inval := true, maint := some { maintOfWord 3 v with left := [], inval := true } } := by
    rw [State.maintWrite_idle hIdle (by omega) (by decide), State.maintStart_nothingDirty (s.maintTaken 3 v) _ (.inr hPool),
      State.maintEnd_all _ _ (show 3 ≠ 1 by decide) hScope rfl]
    rfl
  refine nextState_exists (congrArg nextState hRuns) ⟨?_, ?_, State.settle_maintBusy rfl⟩
  · rw [State.withTlc_settle_tlc]
  · rw [State.withTlc_settle_tlc]
    rfl

theorem tlcMaint_busy (s : State) (v : W64) (h : s.tlc.maint.isSome = true) :
    exec (.tlcMaintClean v) s = nextState s ∧ exec (.tlcMaintInvalidate v) s = nextState s ∧ exec (.tlcMaintCleanInvalidate v) s = nextState s :=
  ⟨congrArg nextState (State.maintWrite_busy h 1 v), congrArg nextState (State.maintWrite_busy h 2 v),
    congrArg nextState (State.maintWrite_busy h 3 v)⟩

/-! ### Region attributes (R183) -/

/-- A field that lies within a mask reads through it. -/
theorem getF_and_of_full (w : W64) {m : W64} {f : Field} (h : getF m f = 2 ^ fwidth f - 1) : getF (w &&& m) f = getF w f := by
  refine Nat.eq_of_testBit_eq fun i => ?_
  have hBit : (getF m f).testBit i = decide (i < fwidth f) := by rw [h, Nat.testBit_two_pow_sub_one]
  rw [testBit_getF] at hBit
  rw [testBit_getF, testBit_getF, BitVec.getLsbD_and]
  by_cases hi : i < fwidth f
  · rw [show m.getLsbD (f.lo + i) = true by simpa [hi] using hBit, Bool.and_true]
  · simp [hi]

/-- The registers that a lookup of attributes reads. -/
def attrRegs : List Nat := Reg.TLC_ATTR_DFLT :: (List.range 64).map Reg.TLC_ATTR

theorem attr_mem_attrRegs {n : Nat} (h : n < 64) : Reg.TLC_ATTR n ∈ attrRegs := List.mem_cons_of_mem _ (List.mem_map_of_mem (List.mem_range.2 h))

theorem quietReg_attrRegs {off : Nat} (h : off ∈ attrRegs) : quietReg off = true := (by decide : ∀ off ∈ attrRegs, quietReg off = true) off h

/-- What a lookup of attributes finds rests on the values in force alone. -/
theorem State.attrOf_congr {s t : State} (h : ∀ off ∈ attrRegs, ∀ f, t.attrField off f = s.attrField off f) (lhn : Nat) : t.attrOf lhn = s.attrOf lhn := by
  have hEntry {n : Nat} (hn : n < 64) (f : Field) := h _ (attr_mem_attrRegs hn) f
  unfold State.attrOf
  rw [List.find?_congr fun n hn => by rw [hEntry (List.mem_range.1 hn), hEntry (List.mem_range.1 hn), hEntry (List.mem_range.1 hn)]]
  split
  · rename_i n hFound
    have hn : n < 64 := List.mem_range.1 (List.mem_of_find?_eq_some hFound)
    simp only [hEntry hn]
  · simp only [h Reg.TLC_ATTR_DFLT (List.mem_cons_self ..)]

/-- The lowest entry, where it holds a hank, is the one that a lookup finds. -/
theorem State.attrOf_first {s : State} {lhn : Nat} (hValid : s.attrField (Reg.TLC_ATTR 0) Fld.TLC_ATTR_VALID = 1)
    (hBase : s.attrField (Reg.TLC_ATTR 0) Fld.TLC_ATTR_BASE ≤ lhn) (hLimit : lhn ≤ s.attrField (Reg.TLC_ATTR 0) Fld.TLC_ATTR_LIMIT) :
    s.attrOf lhn = (s.attrField (Reg.TLC_ATTR 0) Fld.TLC_ATTR_WPOL, s.attrField (Reg.TLC_ATTR 0) Fld.TLC_ATTR_ALLOC,
      s.attrField (Reg.TLC_ATTR 0) Fld.TLC_ATTR_DISC) := by
  unfold State.attrOf
  rw [List.range_succ_eq_map, List.find?_cons_of_pos (by simp [hValid, hBase, hLimit])]

/-- What TLC_ATTR[n] holds after a write: the reserved bits stay 0. -/
def attrStored (v : W64) : W64 := v &&& 0xFFFFFFFFFFFE003B

/-- An entry of the region attributes is replaced: what it held stays in force for this tick. -/
def State.attrReplaced (s : State) (n : Nat) (v : W64) : State := (s.keepAttr (Reg.TLC_ATTR n)).setReg (Reg.TLC_ATTR n) (attrStored v)

section
variable (s : State) (n : Nat) (v : W64)

theorem exec_tlcAttrWrite_accepted (hn : n < 64) (hOpen : s.rwlLocked = false) (hRange : getF v Fld.TLC_ATTR_BASE ≤ getF v Fld.TLC_ATTR_LIMIT)
    (hHanks : getF v Fld.TLC_ATTR_LIMIT < hostHanks) (hPol : getF v Fld.TLC_ATTR_WPOL < 2) (hAlloc : getF v Fld.TLC_ATTR_ALLOC ≠ 3) :
    exec (.tlcAttrWrite n v) s = nextState (s.attrReplaced n v) := by
  have hFine : ¬(64 ≤ n ∨ s.rwlLocked = true ∨ (getF v Fld.TLC_ATTR_VALID = 1 ∧ (getF v Fld.TLC_ATTR_LIMIT < getF v Fld.TLC_ATTR_BASE ∨
      hostHanks ≤ getF v Fld.TLC_ATTR_LIMIT ∨ 2 ≤ getF v Fld.TLC_ATTR_WPOL ∨ getF v Fld.TLC_ATTR_ALLOC = 3))) := by
    rintro (h | h | ⟨-, h | h | h | h⟩)
    · omega
    · simp [hOpen] at h
    · omega
    · omega
    · omega
    · exact hAlloc h
  show nextState (s.attrWrite n v) = _
  unfold State.attrWrite
  rw [if_neg hFine]
  rfl

theorem State.keepAttr_eq (off : Nat) : s.keepAttr off = { s with tlc := (s.keepAttr off).tlc } := by
  unfold State.keepAttr
  split
  · rfl
  · rfl

theorem State.keepAttr_reg (off o : Nat) : (s.keepAttr off).reg o = s.reg o := by
  rw [State.keepAttr_eq]
  rfl

theorem State.attrReplaced_rest : s.attrReplaced n v = { s with tlc := (s.attrReplaced n v).tlc, regs := (s.attrReplaced n v).regs } := by
  unfold State.attrReplaced
  rw [State.keepAttr_eq]
  rfl

theorem State.attrReplaced_reg {off : Nat} (h : off ≠ Reg.TLC_ATTR n) : (s.attrReplaced n v).reg off = s.reg off :=
  (State.reg_setReg_other _ _ _ h).trans (s.keepAttr_reg _ _)

/-- The values in force in the tick of the write are those from before it. -/
theorem State.attrReplaced_attrField (off : Nat) (f : Field) : (s.attrReplaced n v).attrField off f = s.attrField off f := by
  by_cases hOff : off = Reg.TLC_ATTR n
  · subst hOff
    cases hKept : tget s.tlc.attrs0 (Reg.TLC_ATTR n) with
    | some w => simp [State.attrField, State.attrReplaced, State.keepAttr, dget, hKept]
    | none => simp [State.attrField, State.attrReplaced, State.keepAttr, dget, hKept]
  · have hKept : tget (s.keepAttr (Reg.TLC_ATTR n)).tlc.attrs0 off = tget s.tlc.attrs0 off := by
      unfold State.keepAttr
      split
      · rfl
      · exact tget_tput_other _ _ hOff
    show getF ((tget (s.keepAttr (Reg.TLC_ATTR n)).tlc.attrs0 off).getD ((s.attrReplaced n v).reg off)) f = _
    rw [State.attrReplaced_reg s n v hOff, hKept]
    rfl
end

theorem State.settle_attrField (s : State) {off : Nat} (h : off ∈ attrRegs) (f : Field) : s.settle.attrField off f = s.attrField off f := by
  simp [State.attrField, dget, State.settle_reg _ (quietReg_attrRegs h)]

theorem tlcAttrWrite_replaces (s : State) (n : Nat) (v : W64) (hn : n < 64) (hOpen : s.rwlLocked = false)
    (hRange : getF v Fld.TLC_ATTR_BASE ≤ getF v Fld.TLC_ATTR_LIMIT) (hHanks : getF v Fld.TLC_ATTR_LIMIT < hostHanks)
    (hPol : getF v Fld.TLC_ATTR_WPOL < 2) (hAlloc : getF v Fld.TLC_ATTR_ALLOC ≠ 3) :
    ∃ t, exec (.tlcAttrWrite n v) s = .next t ∧ t.reg (Reg.TLC_ATTR n) = v &&& 0xFFFFFFFFFFFE003B ∧ (∀ lhn, t.attrOf lhn = s.attrOf lhn) ∧
      Frame s t [.tlc] [Reg.TLC_ATTR n] := by
  refine nextState_exists (exec_tlcAttrWrite_accepted s n v hn hOpen hRange hHanks hPol hAlloc) ⟨?_, State.attrOf_congr fun off hOff f => ?_,
    frame_settle_of_tlc (State.attrReplaced_rest ..) fun off hOff => State.attrReplaced_reg _ _ _ (by simpa using hOff)⟩
  · rw [State.settle_reg _ (quietReg_attrRegs (attr_mem_attrRegs hn))]
    exact State.reg_setReg_same ..
  · rw [State.settle_attrField _ hOff, State.attrReplaced_attrField]

/-- From the next tick on the entry 0 that was written is found before every other. -/
theorem tlcAttrWrite_first (s : State) (lhn : Nat) (v : W64) (hOpen : s.rwlLocked = false) (hValid : getF v Fld.TLC_ATTR_VALID = 1)
    (hBase : getF v Fld.TLC_ATTR_BASE ≤ lhn) (hLimit : lhn ≤ getF v Fld.TLC_ATTR_LIMIT) (hHanks : getF v Fld.TLC_ATTR_LIMIT < hostHanks)
    (hPol : getF v Fld.TLC_ATTR_WPOL < 2) (hAlloc : getF v Fld.TLC_ATTR_ALLOC ≠ 3) :
    ∃ t, exec (.tlcAttrWrite 0 v) s = .next t ∧
      ({ t with tlc := { t.tlc with attrs0 := [] } } : State).attrOf lhn = (getF v Fld.TLC_ATTR_WPOL, getF v Fld.TLC_ATTR_ALLOC, getF v Fld.TLC_ATTR_DISC) := by
  refine nextState_exists (exec_tlcAttrWrite_accepted s 0 v (by decide) hOpen (hBase.trans hLimit) hHanks hPol hAlloc) ?_
  have hReg : (s.attrReplaced 0 v).settle.reg (Reg.TLC_ATTR 0) = attrStored v :=
    (State.settle_reg _ (quietReg_attrRegs (attr_mem_attrRegs (by decide)))).trans (State.reg_setReg_same ..)
  generalize (s.attrReplaced 0 v).settle = t at hReg ⊢
  have hField {f : Field} (hFull : getF 0xFFFFFFFFFFFE003B f = 2 ^ fwidth f - 1) :
      ({ t with tlc := { t.tlc with attrs0 := [] } } : State).attrField (Reg.TLC_ATTR 0) f = getF v f :=
    (congrArg (getF · f) hReg).trans (getF_and_of_full v hFull)
  rw [State.attrOf_first, hField (by decide), hField (by decide), hField (by decide)]
  · rw [hField (by decide), hValid]
  · rwa [hField (by decide)]
  · rwa [hField (by decide)]

theorem tlcAttrWrite_locked (s : State) (n : Nat) (v : W64) (h : s.rwlLocked = true) : exec (.tlcAttrWrite n v) s = nextState s := by
  show nextState (s.attrWrite n v) = _
  unfold State.attrWrite
  rw [if_pos (.inr (.inl h))]

/-- Settles O27, command by command: with no wrong bit stored and the flip mask not armed a line's read and write change nothing else, the log's entries are freed
one after another, a maintenance operation without dirty lines ends as it starts, and a lookup of attributes rests on the values in force. -/
theorem workingMemoryAndCache : Obligations.WorkingMemoryAndCache :=
  ⟨narrowWriteDrain_leaves, ⟨wmeCeLogFree_leaves, wmeCeLogClear_leaves⟩, ⟨flipArm_disarmed, flipArm_armed⟩,
    ⟨fullInvalidationDone_idle, tlcMaintClean_dirty, tlcMaintInvalidate_way, tlcMaintInvalidate_set, tlcMaintCleanInvalidate_clean, tlcMaint_busy⟩,
    ⟨tlcAttrWrite_replaces, tlcAttrWrite_first, tlcAttrWrite_locked⟩⟩

end Sys2Proof.Machine

namespace Sys2Proof.Machine

/-! ### A bind-off during which P12V failed for a time (O30) -/

theorem State.atPhase_iff {s : State} {p : Nat} : s.atPhase p = true ↔
    s.power = .bindoff ∧ s.energy.drained = true ∧ s.energy.low = false ∧ s.energy.rcd.noImage = false ∧ s.energy.rcd.phase = p := by
  simp [State.atPhase, and_assoc]

@[simp] theorem State.powerDown_power (s : State) (p : Power) : (s.powerDown p).power = p := rfl

/-- The state at COMPLETE, before the sequence ends: the record and the header are COMPLETE, the wear of the image is counted, and the histograms and medium time
are saved (R209, R213). -/
def State.imageCompleted (s : State) : State :=
  let t := s.medTime
  let r := s.energy.rcd
  let wall : Option Int := if s.clk.wallSet then some (s.wallOf s.clk.now) else none
  let r1 : BindRec := { r with phase := 4, aPhase := 4, watermark := r.total, medium := some (t / 64, t % 64), wall := wall }
  let s1 := ((((s.setHalf r.half (r1.header true (s.half r.half))).imageWear r1).setRcd r1).histFlush).mediumSaved
  let s2 : State := { s1 with med := { s1.med with eDown := some (t / 64, t % 64), wallDown := wall } }
  (s2.fadd Reg.GAU_BINDOFF_CNT Fld.GAU_BINDOFF_CNT_CLEAN 1).lastBindoff 1 (s.energy.vbus / 200)

theorem exec_bindoffComplete_image {s : State} (h : s.atPhase 3 = true) : exec .bindoffComplete s = nextState s.imageCompleted.bindoffEnds := by
  obtain ⟨-, -, -, hImage, -⟩ := State.atPhase_iff.1 h
  show execBindoffComplete s = _
  unfold execBindoffComplete
  rw [if_neg (fun hNone => by simp [hImage] at hNone), if_pos h]
  rfl

/-- With the supply good again, a bind-off during which it failed ends in the wait for P12V to be stable, whatever its trigger (R206, R219). -/
theorem State.bindoffEnds_fell {s : State} (hUp : s.clk.p12v = true) (hFree : s.energy.pwrdis = false) (hFell : s.energy.p12vFell = true)
    (hPrep : s.energy.prepareCmd = none) : s.bindoffEnds = s.powerDown .waitP12v := by
  simp [State.bindoffEnds, hUp, hFree, hFell, hPrep]

/-- The dump of a bind-off that PREPARE_POWER_LOSS started is written, and P12V, which failed meanwhile, is good again. -/
def supplyDippedInDump : State :=
  { State.reset with
    power := .bindoff
    clk := { State.reset.clk with p12v := true }
    energy := { State.reset.energy with drained := true, trig := 3, p12vFell := true, rcd := { State.reset.energy.rcd with phase := 3 } } }

/-- Refutes O30: after a bind-off during which P12V failed for a time the module waits for P12V to be stable and casts on from cold (R206, R219); the second clause
on COMPLETE says that with the supply good it is BOUND, and does not ask that the supply was good throughout. The state is `supplyDippedInDump`. -/
theorem not_bindoffRunsToItsEnd : ¬ Obligations.BindoffRunsToItsEnd := by
  rintro ⟨-, -, hBound, -⟩
  have hPhase : supplyDippedInDump.atPhase 3 = true := by decide
  have hEnds : supplyDippedInDump.imageCompleted.bindoffEnds = supplyDippedInDump.imageCompleted.powerDown .waitP12v :=
    State.bindoffEnds_fell (by decide +kernel) (by decide +kernel) (by decide +kernel) (by decide +kernel)
  obtain ⟨t, hExec, hPower, -⟩ := hBound supplyDippedInDump hPhase rfl rfl rfl rfl
  rw [nextState_next _ ((exec_bindoffComplete_image hPhase).symm.trans hExec), State.settle_power, hEnds, State.powerDown_power] at hPower
  exact absurd hPower (by decide)

end Sys2Proof.Machine

namespace Sys2Proof.Machine

/-! ### The registers that a completion writes (R377, R387) -/

theorem State.fget_fset_elsewhere (s : State) {o off : Nat} {f g : Field} (v : Nat) (hf : f.Fits) (hg : g.Fits) (h : f.hi < g.lo ∨ g.hi < f.lo) :
    (s.fset off f v).fget o g = s.fget o g := by
  by_cases hSame : o = off
  · rw [hSame, State.fget_fset_apart _ _ _ _ hg hf h]
  · exact State.fget_fset_other _ _ _ _ hSame

/-- A register that no completion writes: it is none of those that a ring's completions write, nor that of the history's state. -/
def Uncompleted (off : Nat) : Prop := (∀ n, off ≠ Reg.CRG_STAT n ∧ off ≠ Reg.CRG_CQ_TAIL n ∧ off ≠ Reg.CRG_DONE n) ∧ off ≠ Reg.HST_STAT

theorem State.unwrite_regs (s : State) (ring : Nat) (c : Cmd) (st r0 : Nat) : (s.unwrite ring c st r0).regs = s.regs := by
  unfold State.unwrite
  split <;> rfl

theorem State.ite_reg {c : Prop} [Decidable c] {s u v : State} {off : Nat} (hu : u.reg off = s.reg off) (hv : v.reg off = s.reg off) :
    (if c then u else v).reg off = s.reg off := by
  split
  · exact hu
  · exact hv

theorem State.reg_withRings (s : State) (x : Rings) (off : Nat) : ({ s with rings := x } : State).reg off = s.reg off := rfl

section
variable {off : Nat} (h : Uncompleted off)
include h

theorem State.writeCqe_reg (s : State) (n tag st r0 r1 : Nat) (noirq : Bool) : (s.writeCqe n tag st r0 r1 noirq).reg off = s.reg off := by
  obtain ⟨-, hTail, hDone⟩ := h.1 n
  unfold State.writeCqe
  dsimp only
  rw [State.reg_congr _ (State.msixCount_regs ..), State.reg_setReg_other _ _ _ hDone]
  split
  · rw [State.reg_fset_other _ _ _ _ hTail, State.reg_fset_other _ _ _ _ hTail]
    rfl
  · rw [State.reg_fset_other _ _ _ _ hTail]
    rfl

theorem State.haltMark_reg (s : State) (n cause : Nat) : (s.haltMark n cause).reg off = s.reg off := by
  unfold State.haltMark
  rw [State.event_reg _ _ _ _ _ _ h.2]
  rw [State.reg_withRings, State.reg_fset_other _ _ _ _ (h.1 n).1, State.reg_fset_other _ _ _ _ (h.1 n).1]

theorem State.cqError_reg (s : State) (n : Nat) : (s.cqError n).reg off = s.reg off := by
  have hUnwrites (u : State) (gone : List (Nat × Cmd)) : (gone.foldl (fun s e => (s.dropRefs e.1).unwrite n e.2 stABORTED 0) u).regs = u.regs :=
    foldl_keeps State.regs (fun s (e : Nat × Cmd) => (s.dropRefs e.1).unwrite_regs n e.2 stABORTED 0) gone u
  unfold State.cqError
  split
  · exact State.ringStat_reg _ _ (h.1 n).1
  · refine (State.ringStat_reg _ _ (h.1 n).1).trans ((State.reg_congr off ?_).trans (State.haltMark_reg h s n 3))
    exact (hUnwrites { s.haltMark n 3 with cmds := _ } _).trans rfl

theorem State.ringAnswer_reg (s : State) (n : Nat) (c : Cmd) (st r0 r1 : Nat) (bytes : List Byte) : (s.ringAnswer n c st r0 r1 bytes).reg off = s.reg off := by
  unfold State.ringAnswer
  dsimp only
  refine State.ite_reg ?_ ?_
  · rw [State.cqError_reg h, State.reg_congr _ (State.unwrite_regs ..), State.reg_congr _ (State.toBuffer_regs ..)]
  · rw [State.ringStat_reg _ _ (h.1 n).1, State.writeCqe_reg h, State.reg_congr _ (State.toBuffer_regs ..)]

/-- A command that ends leaves such a register as it was. -/
theorem State.finish_reg (s : State) (id st r0 r1 : Nat) (bytes : List Byte) : (s.finish id st r0 r1 bytes).reg off = s.reg off := by
  cases hCmd : tget s.cmds id with
  | none => rw [State.finish_none hCmd]
  | some c =>
    cases hStop : c.stopping with
    | true =>
      rw [State.finish_stopped hCmd hStop]
      exact State.reg_congr off (State.unwrite_regs ..)
    | false =>
      cases hCarrier : c.carrier with
      | ring n =>
        rw [State.finish_ring hCmd hStop hCarrier]
        exact State.ringAnswer_reg h ..
      | _ =>
        unfold State.finish
        simp only [hCmd, hStop, hCarrier, Bool.false_eq_true, if_false]
        rfl
end

theorem uncompleted_thmShutdown : Uncompleted Reg.THM_SHUTDOWN := by
  refine ⟨fun n => ?_, by decide⟩
  simp only [Reg.THM_SHUTDOWN, Reg.CRG_STAT, Reg.CRG_CQ_TAIL, Reg.CRG_DONE]
  omega

/-! ### The test that a bind-off abandons (Table 6-20) -/

theorem Keeps.mono {s t : State} {ps qs : List Part} (h : Keeps s t ps) (hSub : ps ⊆ qs) : Keeps s t qs :=
  ⟨h.1, fun p hp => h.2 p fun hMem => hp (hSub hMem)⟩

/-- The bank of an abandoned test reconnects, an active one at its own voltage. -/
def State.testLeft (s : State) (b : Nat) : State :=
  State.setBankState { s with energy := { s.energy with test := none, testSpare := false, apart := if s.energy.testSpare then none else some b } } b
    (if s.energy.testSpare then 1 else 0)

/-- The SELF_TESTs of the reserve end ABORTED. -/
def State.selfTestsAborted (s : State) : State :=
  (tkeys s.cmds fun c => c.running && c.pkt.opcode == 0x0D02 && c.pkt.arg0 == 5).foldl (fun s id =>
    match tget s.cmds id with
    | some c => s.finish id stABORTED c.done c.extra []
    | none => s) s

/-- A test under way is abandoned, and the GAUGE_TEST that it served ends ABORTED when the rings can write it. -/
def State.bankAbandoned (s : State) (ringsUp : Bool) : State :=
  match s.energy.test with
  | none => s
  | some (b, cmd) =>
    match cmd with
    | some id => if ringsUp then (s.testLeft b).finish id stABORTED ((s.testLeft b).reg (Reg.GAU_BANK b)).toNat 0 [] else s.testLeft b
    | none => s.testLeft b

theorem State.abandonTest_eq (s : State) (ringsUp : Bool) :
    s.abandonTest ringsUp = (if ringsUp then s.selfTestsAborted else s).bankAbandoned ringsUp := rfl

/-- What the end of a command and the reconnection of a bank keep, an abandoned test keeps. -/
theorem State.abandonTest_of_closed {motive : State → Prop} (hFinish : ∀ u id st r0 r1, motive u → motive (u.finish id st r0 r1 []))
    (hLeft : ∀ u b, motive u → motive (u.testLeft b)) {s : State} (h : motive s) (ringsUp : Bool) : motive (s.abandonTest ringsUp) := by
  have hTests : motive s.selfTestsAborted := by
    refine List.foldlRecOn _ _ h fun u hu id _ => ?_
    split
    · exact hFinish _ _ _ _ _ hu
    · exact hu
  have hBank (u : State) (hu : motive u) : motive (u.bankAbandoned ringsUp) := by
    unfold State.bankAbandoned
    split
    · exact hu
    · split
      · split
        · exact hFinish _ _ _ _ _ (hLeft _ _ hu)
        · exact hLeft _ _ hu
      · exact hLeft _ _ hu
  rw [State.abandonTest_eq]
  cases ringsUp with
  | true => exact hBank _ hTests
  | false => exact hBank _ h

/-- The parts that an abandoned test may change: those of a completion, and the reserve. -/
theorem State.abandonTest_keeps (s : State) (ringsUp : Bool) : Keeps s (s.abandonTest ringsUp) (.regs :: .energy :: doneParts) := by
  refine State.abandonTest_of_closed (motive := fun u => Keeps s u (.regs :: .energy :: doneParts)) (fun u id st r0 r1 hu => ?_)
    (fun u b hu => hu.trans ?_) (Keeps.refl ..) ringsUp
  · exact hu.trans ((u.finish_ends ..).keeps.mono (by decide))
  · refine ⟨rfl, fun p hp => ?_⟩
    cases p with
    | regs | energy => simp at hp
    | cmds => exact ⟨rfl, rfl⟩
    | _ => rfl

theorem State.finish_energy (s : State) (id st r0 r1 : Nat) (bytes : List Byte) : (s.finish id st r0 r1 bytes).energy = s.energy :=
  (s.finish_ends ..).keeps.2 .energy (by decide)

theorem State.abandonTest_pwrdis (s : State) (ringsUp : Bool) : (s.abandonTest ringsUp).energy.pwrdis = s.energy.pwrdis := by
  refine State.abandonTest_of_closed (motive := fun u => u.energy.pwrdis = s.energy.pwrdis) (fun u id st r0 r1 hu => ?_) (fun u b hu => hu) rfl ringsUp
  rw [State.finish_energy, hu]

/-- A field beside the state of a bank stays, in a register that no completion writes. -/
theorem State.abandonTest_fget (s : State) (ringsUp : Bool) {off : Nat} {g : Field} (h : Uncompleted off) (hg : g.Fits) (hHigh : 2 < g.lo) :
    (s.abandonTest ringsUp).fget off g = s.fget off g := by
  refine State.abandonTest_of_closed (motive := fun u => u.fget off g = s.fget off g) (fun u id st r0 r1 hu => ?_) (fun u b hu => ?_) rfl ringsUp
  · rw [← hu, State.fget, State.finish_reg h, State.fget]
  · rw [← hu, State.testLeft, State.setBankState, State.fget_fset_elsewhere _ _ (by decide) hg (.inl hHigh)]
    rfl

/-! ### The start of a bind-off (R204, R213) -/

/-- The record that a bind-off starts: an image entry with the next SEQ and the other half when the newest image has been replayed, else the attempt entry
alone. -/
def State.bindoffRecord (s : State) (trig : Nat) : BindRec :=
  let r := s.energy.rcd
  let r1 : BindRec := { r with aTrig := trig, aTick := s.clk.now, aPhase := 0, noImage := !(s.replayDone && s.clk.pll) }
  if s.replayDone && s.clk.pll then
    { r1 with
      seq := r.seq + 1, half := !r.half, trig := trig, tick := s.clk.now, phase := 0, cut := false, counted := false, nCtr := 0
      nMb := 0, nSpill := 0, nPool := 0, watermark := 0, medium := none, wall := none }
  else r1

theorem State.bindoffRecord_attempt (s : State) (trig : Nat) : (s.bindoffRecord trig).aTrig = trig ∧ (s.bindoffRecord trig).aTick = s.clk.now := by
  unfold State.bindoffRecord
  dsimp only
  split <;> exact ⟨rfl, rfl⟩

theorem State.bindoffRecord_image {s : State} (hReplayed : s.replayDone = true) (hPll : s.clk.pll = true) (trig : Nat) :
    (s.bindoffRecord trig).seq = s.energy.rcd.seq + 1 ∧ (s.bindoffRecord trig).half = !s.energy.rcd.half ∧ (s.bindoffRecord trig).phase = 0 ∧
      (s.bindoffRecord trig).trig = trig ∧ (s.bindoffRecord trig).noImage = false := by
  simp [State.bindoffRecord, hReplayed, hPll]

theorem State.bindoffRecord_noImage {s : State} (h : s.replayDone = false) (trig : Nat) :
    (s.bindoffRecord trig).seq = s.energy.rcd.seq ∧ (s.bindoffRecord trig).noImage = true := by
  simp [State.bindoffRecord, h]

/-- The state with its test abandoned, once main power runs a bind-off whose record is written. -/
def State.bindoffRuns (s : State) (trig : Nat) : State :=
  let s0 := s.abandonTest (trig == 3 || (trig == 4 && s.clk.p12v))
  State.setRcd { s0 with power := .bindoff, energy := { s0.energy with trig := trig, drained := false, low := false, p12vFell := false } } (s.bindoffRecord trig)

theorem State.bindoffStart_eq (s : State) (trig : Nat) :
    s.bindoffStart trig = ((s.bindoffRuns trig).fset Reg.GAU_STAT Fld.GAU_STAT_STATE 2).fset Reg.GAU_STAT Fld.GAU_STAT_TRIG trig := rfl

theorem State.bindoffStart_power (s : State) (trig : Nat) : (s.bindoffStart trig).power = .bindoff := by
  rw [State.bindoffStart_eq]
  rfl

theorem State.bindoffStart_rcd (s : State) (trig : Nat) : (s.bindoffStart trig).energy.rcd = s.bindoffRecord trig := by
  rw [State.bindoffStart_eq]
  rfl

theorem State.bindoffStart_drained (s : State) (trig : Nat) : (s.bindoffStart trig).energy.drained = false := by
  rw [State.bindoffStart_eq]
  rfl

theorem State.bindoffStart_pwrdis (s : State) (trig : Nat) : (s.bindoffStart trig).energy.pwrdis = s.energy.pwrdis := by
  rw [State.bindoffStart_eq]
  exact s.abandonTest_pwrdis _

theorem State.bindoffStart_state (s : State) (trig : Nat) : (s.bindoffStart trig).fget Reg.GAU_STAT Fld.GAU_STAT_STATE = 2 := by
  rw [State.bindoffStart_eq, State.fget_fset_apart _ _ _ _ (by decide) (by decide) (by decide), State.fget_fset_same _ _ _ _ (by decide) (by decide)]

theorem State.bindoffStart_trig (s : State) {trig : Nat} (h : trig < 16) : (s.bindoffStart trig).fget Reg.GAU_STAT Fld.GAU_STAT_TRIG = trig := by
  rw [State.bindoffStart_eq, State.fget_fset_same _ _ _ _ (by decide) h]

theorem State.bindoffStart_fget (s : State) (trig : Nat) {off : Nat} {g : Field} (h : Uncompleted off) (hStat : off ≠ Reg.GAU_STAT) (hg : g.Fits)
    (hHigh : 2 < g.lo) : (s.bindoffStart trig).fget off g = s.fget off g := by
  rw [State.bindoffStart_eq, State.fget_fset_other _ _ _ _ hStat, State.fget_fset_other _ _ _ _ hStat]
  exact s.abandonTest_fget _ h hg hHigh

/-- The parts that the start of a bind-off may change. -/
theorem State.bindoffStart_keeps (s : State) (trig : Nat) : Keeps s (s.bindoffStart trig) (.power :: .regs :: .energy :: doneParts) := by
  rw [State.bindoffStart_eq]
  refine ((s.abandonTest_keeps (trig == 3 || (trig == 4 && s.clk.p12v))).mono (List.subset_cons_self ..)).trans ?_
  refine ⟨rfl, fun p hp => ?_⟩
  cases p with
  | power | regs | energy => simp at hp
  | cmds => exact ⟨rfl, rfl⟩
  | _ => rfl

theorem State.bindoffStart_stores (s : State) (trig : Nat) : (s.bindoffStart trig).tlc = s.tlc ∧ (s.bindoffStart trig).med = s.med :=
  ⟨(s.bindoffStart_keeps trig).2 .tlc (by decide), (s.bindoffStart_keeps trig).2 .med (by decide)⟩

theorem State.settle_gauStat (s : State) (f : Field) : s.settle.fget Reg.GAU_STAT f = s.fget Reg.GAU_STAT f := by
  rw [State.fget, State.settle_reg _ (by decide), State.fget]

/-! ### The triggers (R204, R207, R430) -/

theorem State.bindoffFrom_carried {s : State} (h : s.reserveCarries = true) (trig : Nat) : s.bindoffFrom trig = s.bindoffStart trig := by
  rw [State.bindoffFrom, if_pos h]

/-- The state in which P12V has failed, and that in which PWRDIS is asserted. -/
def State.supplyFailed (s : State) : State := { s with clk := { s.clk with p12v := false } }
def State.pwrdisAsserted (s : State) : State := { s with energy := { s.energy with pwrdis := true } }

theorem exec_powerFail_on {s : State} (hOn : s.power = .on) (hCarries : s.reserveCarries = true) :
    exec .powerFail s = nextState (s.supplyFailed.bindoffStart 1) := by
  show execPowerFail s = _
  unfold execPowerFail
  dsimp only
  split
  case h_1 => exact congrArg nextState (State.bindoffFrom_carried (s := s.supplyFailed) hCarries 1)
  all_goals next hOther => exact absurd (hOther.symm.trans hOn) (by decide)

theorem exec_pwrdisAssert_on {s : State} (hOn : s.power = .on) (hCarries : s.reserveCarries = true) :
    exec .pwrdisAssert s = nextState (s.pwrdisAsserted.bindoffStart 2) := by
  show execPwrdisAssert s = _
  unfold execPwrdisAssert
  dsimp only
  split
  case h_1 => exact congrArg nextState (State.bindoffFrom_carried (s := s.pwrdisAsserted) hCarries 2)
  case h_2 hBound => exact absurd (hBound.symm.trans hOn) (by decide)
  case h_3 hOther _ => exact absurd hOn hOther

theorem exec_thermalBindoff_on {s : State} (hOn : s.power = .on) (hCritical : s.adm.critical = true) (hDone : s.adm.dl = []) :
    exec .thermalBindoff s = nextState (s.thermalRecord.bindoffStart 4) := by
  show execThermalBindoff s = _
  rw [execThermalBindoff, if_pos ⟨hCritical, hDone⟩, if_pos hOn]

theorem powerFail_starts (s : State) (hOn : s.power = .on) (hCarries : s.reserveCarries = true) :
    ∃ t, exec .powerFail s = .next t ∧ t.power = .bindoff ∧ t.clk.p12v = false ∧ t.fget Reg.GAU_STAT Fld.GAU_STAT_STATE = 2 ∧
      t.fget Reg.GAU_STAT Fld.GAU_STAT_TRIG = 1 ∧ t.energy.drained = false ∧ t.energy.rcd.aTrig = 1 ∧ t.energy.rcd.aTick = s.clk.now ∧
      (s.replayDone = true → s.clk.pll = true → t.energy.rcd.seq = s.energy.rcd.seq + 1 ∧ t.energy.rcd.half = !s.energy.rcd.half ∧
        t.energy.rcd.phase = 0 ∧ t.energy.rcd.trig = 1 ∧ t.energy.rcd.noImage = false) ∧
      (s.replayDone = false → t.energy.rcd.seq = s.energy.rcd.seq ∧ t.energy.rcd.noImage = true) ∧ t.tlc = s.tlc ∧ t.med = s.med := by
  refine nextState_exists (exec_powerFail_on hOn hCarries) ?_
  have hClk : (s.supplyFailed.bindoffStart 1).clk = s.supplyFailed.clk := (State.bindoffStart_keeps ..).2 .clk (by decide)
  obtain ⟨hTrig, hTick⟩ := s.supplyFailed.bindoffRecord_attempt 1
  obtain ⟨hTlc, hMed⟩ := s.supplyFailed.bindoffStart_stores 1
  simp only [State.settle_power, State.settle_clk, State.settle_energy, State.settle_tlc, State.settle_med, State.settle_gauStat, State.bindoffStart_rcd]
  exact ⟨State.bindoffStart_power .., by rw [hClk]; rfl, State.bindoffStart_state .., State.bindoffStart_trig _ (by decide),
    State.bindoffStart_drained .., hTrig, hTick, fun hReplayed hPll => State.bindoffRecord_image (s := s.supplyFailed) hReplayed hPll 1,
    fun hNone => State.bindoffRecord_noImage (s := s.supplyFailed) hNone 1, hTlc, hMed⟩

theorem pwrdisAssert_starts (s : State) (hOn : s.power = .on) (hCarries : s.reserveCarries = true) :
    ∃ t, exec .pwrdisAssert s = .next t ∧ t.power = .bindoff ∧ t.energy.pwrdis = true ∧ t.fget Reg.GAU_STAT Fld.GAU_STAT_STATE = 2 ∧
      t.fget Reg.GAU_STAT Fld.GAU_STAT_TRIG = 2 ∧ t.energy.rcd.aTrig = 2 ∧ t.clk = s.clk ∧ t.tlc = s.tlc ∧ t.med = s.med := by
  refine nextState_exists (exec_pwrdisAssert_on hOn hCarries) ?_
  obtain ⟨hTlc, hMed⟩ := s.pwrdisAsserted.bindoffStart_stores 2
  simp only [State.settle_power, State.settle_clk, State.settle_energy, State.settle_tlc, State.settle_med, State.settle_gauStat, State.bindoffStart_rcd,
    State.bindoffStart_pwrdis]
  exact ⟨State.bindoffStart_power .., rfl, State.bindoffStart_state .., State.bindoffStart_trig _ (by decide), (State.bindoffRecord_attempt ..).1,
    (State.bindoffStart_keeps ..).2 .clk (by decide), hTlc, hMed⟩

/-- THM_SHUTDOWN counts a shutdown, and names its zone, its sensor and the temperature there. -/
def State.shutdownShown (s : State) (z k : Nat) (v : Int) : State :=
  let s1 := (s.fadd Reg.THM_SHUTDOWN Fld.THM_SHUTDOWN_COUNT 1).fset Reg.THM_SHUTDOWN Fld.THM_SHUTDOWN_ZONE z
  (s1.fset Reg.THM_SHUTDOWN Fld.THM_SHUTDOWN_SENSOR k).fset Reg.THM_SHUTDOWN Fld.THM_SHUTDOWN_TEMP (v % 65536).toNat

section
variable {s : State} {z k : Nat} {v : Int} (h : s.plat.thermCrit = some (z, k, v))
include h

theorem State.thermalRecord_eq : s.thermalRecord =
    { s.shutdownShown z k v with plat := { s.plat with thermRec := some (s.clk.now, s.wallOf s.clk.now) } } := by
  unfold State.thermalRecord
  rw [h]
  rfl

theorem State.thermalRecord_stores : s.thermalRecord.tlc = s.tlc ∧ s.thermalRecord.med = s.med := by
  rw [State.thermalRecord_eq h]
  exact ⟨rfl, rfl⟩

theorem State.thermalRecord_fget (f : Field) : s.thermalRecord.fget Reg.THM_SHUTDOWN f = (s.shutdownShown z k v).fget Reg.THM_SHUTDOWN f :=
  State.fget_congr _ _ (by rw [State.thermalRecord_eq h])

theorem State.thermalRecord_zone (hz : z < 5) : s.thermalRecord.fget Reg.THM_SHUTDOWN Fld.THM_SHUTDOWN_ZONE = z := by
  rw [State.thermalRecord_fget h, State.shutdownShown, State.fget_fset_apart _ _ _ _ (by decide) (by decide) (by decide),
    State.fget_fset_apart _ _ _ _ (by decide) (by decide) (by decide), State.fget_fset_same _ _ _ _ (by decide) (hz.trans (by decide))]

theorem State.thermalRecord_sensor (hk : k < 58) : s.thermalRecord.fget Reg.THM_SHUTDOWN Fld.THM_SHUTDOWN_SENSOR = k := by
  rw [State.thermalRecord_fget h, State.shutdownShown, State.fget_fset_apart _ _ _ _ (by decide) (by decide) (by decide),
    State.fget_fset_same _ _ _ _ (by decide) (hk.trans (by decide))]
end

theorem thermalBindoff_starts (s : State) (z k : Nat) (v : Int) (hOn : s.power = .on) (hCritical : s.adm.critical = true) (hDone : s.adm.dl = [])
    (hCrit : s.plat.thermCrit = some (z, k, v)) (hz : z < 5) (hk : k < 58) :
    ∃ t, exec .thermalBindoff s = .next t ∧ t.power = .bindoff ∧ t.fget Reg.GAU_STAT Fld.GAU_STAT_TRIG = 4 ∧
      t.fget Reg.THM_SHUTDOWN Fld.THM_SHUTDOWN_ZONE = z ∧ t.fget Reg.THM_SHUTDOWN Fld.THM_SHUTDOWN_SENSOR = k ∧
      t.plat.thermRec = some (s.clk.now, s.wallOf s.clk.now) ∧ t.tlc = s.tlc ∧ t.med = s.med := by
  refine nextState_exists (exec_thermalBindoff_on hOn hCritical hDone) ?_
  have hPlat : (s.thermalRecord.bindoffStart 4).plat = s.thermalRecord.plat := (State.bindoffStart_keeps ..).2 .plat (by decide)
  obtain ⟨hTlc, hMed⟩ := s.thermalRecord.bindoffStart_stores 4
  obtain ⟨hTlc', hMed'⟩ := State.thermalRecord_stores hCrit
  refine ⟨?_, ?_, ?_, ?_, ?_, ?_, ?_⟩
  · rw [State.settle_power, State.bindoffStart_power]
  · rw [State.settle_gauStat, State.bindoffStart_trig _ (by decide)]
  · rw [State.settle_fget _ (by decide) (by decide), State.bindoffStart_fget _ _ uncompleted_thmShutdown (by decide) (by decide) (by decide),
      State.thermalRecord_zone hCrit hz]
  · rw [State.settle_fget _ (by decide) (by decide), State.bindoffStart_fget _ _ uncompleted_thmShutdown (by decide) (by decide) (by decide),
      State.thermalRecord_sensor hCrit hk]
  · rw [State.settle_plat, hPlat, State.thermalRecord_eq hCrit]
  · rw [State.settle_tlc, hTlc, hTlc']
  · rw [State.settle_med, hMed, hMed']

/-- Settles O29, trigger by trigger: a bind-off starts by `State.bindoffStart`, which abandons the bank test, writes the record and sets STATE and TRIG. -/
theorem bindoffStarts : Obligations.BindoffStarts := ⟨powerFail_starts, pwrdisAssert_starts, thermalBindoff_starts⟩

end Sys2Proof.Machine

namespace Sys2Proof.Machine

/-! ### What sets fields of a list and raises events -/

/-- From `s` to `u` nothing has changed but registers, and what an event touches. -/
def EventsOnly (s u : State) : Prop := u = { s with regs := u.regs, hwSet := u.hwSet, outbox := u.outbox, logs := u.logs, hist := u.hist }

theorem EventsOnly.trans {s u v : State} (h : EventsOnly s u) (h' : EventsOnly u v) : EventsOnly s v := Eq.trans h' (by rw [show u = _ from h])

/-- From `s` to `u` fields of a list have been set, and events raised, one after the other. -/
inductive Shows (fields : List (Nat × Field)) (s : State) : State → Prop
  | refl : Shows fields s s
  | set {u : State} {off : Nat} {f : Field} (v : Nat) (h : Shows fields s u) (hMem : (off, f) ∈ fields) : Shows fields s (u.fset off f v)
  | event {u : State} (cls sev akind ld addr : Nat) (args : List Nat) (h : Shows fields s u) : Shows fields s (u.eventSev cls sev akind ld addr args)

/-- No event writes to the register, and no field of the list shares a bit with its field. -/
def clearOf (fields : List (Nat × Field)) (o : Nat) (g : Field) : Bool :=
  o != Reg.HST_STAT && fields.all fun x => decide (x.2.lo ≤ x.2.hi) && decide (x.2.hi < 64) && (x.1 != o || apart x.2 g)

namespace Shows

variable {fields more : List (Nat × Field)} {s u v : State}

theorem trans (h : Shows fields s u) (h' : Shows fields u v) : Shows fields s v := by
  induction h' with
  | refl => exact h
  | set x _ hMem ih => exact ih.set x hMem
  | event cls sev akind ld addr args _ ih => exact ih.event cls sev akind ld addr args

theorem mono (h : Shows fields s u) (hSub : fields ⊆ more) : Shows more s u := by
  induction h with
  | refl => exact refl
  | set x _ hMem ih => exact ih.set x (hSub hMem)
  | event cls sev akind ld addr args _ ih => exact ih.event cls sev akind ld addr args

theorem ite {c : Prop} [Decidable c] (h : Shows fields s u) (h' : Shows fields s v) : Shows fields s (if c then u else v) := by
  split
  · exact h
  · exact h'

theorem foldl {α : Type} {f : State → α → State} (l : List α) (h : ∀ u, ∀ x ∈ l, Shows fields u (f u x)) : Shows fields s (l.foldl f s) :=
  List.foldlRecOn l f refl fun u hu x hx => hu.trans (h u x hx)

theorem eventsOnly (h : Shows fields s u) : EventsOnly s u := by
  induction h with
  | refl => rfl
  | set x _ _ ih => exact ih.trans rfl
  | event cls sev akind ld addr args _ ih => exact ih.trans (State.record_eq ..)

theorem energy (h : Shows fields s u) : u.energy = s.energy := (congrArg State.energy h.eventsOnly).trans rfl
theorem cmds (h : Shows fields s u) : u.cmds = s.cmds := (congrArg State.cmds h.eventsOnly).trans rfl
theorem power (h : Shows fields s u) : u.power = s.power := (congrArg State.power h.eventsOnly).trans rfl
theorem freeCtr (h : Shows fields s u) : u.freeCtr = s.freeCtr := (congrArg State.freeCtr h.eventsOnly).trans rfl

theorem keeps (h : Shows fields s u) : Keeps s u (eventParts ++ [.regs]) := by
  rw [show u = _ from h.eventsOnly]
  refine ⟨rfl, fun p hp => ?_⟩
  cases p with
  | regs | outbox | logs | hist => simp [eventParts] at hp
  | cmds => exact ⟨rfl, rfl⟩
  | _ => rfl

/-- A field that shares no bit with one of the list is as before. -/
theorem fget (h : Shows fields s u) {o : Nat} {g : Field} (hg : g.Fits) (hClear : clearOf fields o g = true) : u.fget o g = s.fget o g := by
  simp only [clearOf, Bool.and_eq_true, bne_iff_ne, ne_eq, List.all_eq_true, decide_eq_true_eq, Bool.or_eq_true, apart_iff] at hClear
  obtain ⟨hHst, hApart⟩ := hClear
  induction h with
  | refl => rfl
  | @set u off f x _ hMem ih =>
    obtain ⟨⟨hLo, hHi⟩, hOther⟩ := hApart _ hMem
    rw [← ih]
    rcases hOther with hOther | hOther
    · exact State.fget_fset_other _ _ _ _ (Ne.symm hOther)
    · exact State.fget_fset_elsewhere _ _ ⟨hLo, hHi⟩ hg hOther
  | @event u cls sev akind ld addr args _ ih => rw [← ih, State.fget, State.eventSev_reg _ _ _ _ _ _ _ hHst, State.fget]

end Shows

theorem State.event_shows (s : State) (cls akind ld addr : Nat) (args : List Nat) (fields : List (Nat × Field)) :
    Shows fields s (s.event cls akind ld addr args) := .event _ _ _ _ _ _ .refl

/-! ### The recompute of the gauge (R195, R198 to R203) -/

/-- The fields of its banks that a recompute sets, and all those that it sets beside its bus. -/
def bankFields : List (Nat × Field) :=
  (List.range 12).flatMap fun b => [(Reg.GAU_BANK b, Fld.GAU_BANK_CAP), (Reg.GAU_BANK b, Fld.GAU_BANK_PCT), (Reg.GAU_BANK b, Fld.GAU_BANK_AGE)]
def lifeFields : List (Nat × Field) :=
  [(Reg.TLC_WT_STAT, Fld.TLC_WT_STAT_NOFREE), (Reg.GAU_STAT, Fld.GAU_STAT_RES_LIFE), (Reg.GAU_STAT, Fld.GAU_STAT_N_ACTIVE),
   (Reg.GAU_STAT, Fld.GAU_STAT_SPARES), (Reg.GAU_STAT, Fld.GAU_STAT_W50), (Reg.GAU_STAT, Fld.GAU_STAT_W75), (Reg.GAU_STAT, Fld.GAU_STAT_W90),
   (Reg.GAU_STAT, Fld.GAU_STAT_BELOW_RATED)]
def capFields : List (Nat × Field) :=
  [(Reg.GAU_E_USABLE, Fld.GAU_E_USABLE_E_USABLE), (Reg.GAU_E_USABLE, Fld.GAU_E_USABLE_E_FULL), (Reg.GAU_PARAM, Fld.GAU_PARAM_E_LINE),
   (Reg.GAU_CAP_LINES, Fld.GAU_CAP_LINES_CAP), (Reg.GAU_CAP_LINES, Fld.GAU_CAP_LINES_UNCAPPED)]
def busFields : List (Nat × Field) :=
  [(Reg.GAU_BUS, Fld.GAU_BUS_C_TOT), (Reg.GAU_BUS, Fld.GAU_BUS_R_PAR), (Reg.GAU_BUS, Fld.GAU_BUS_V_END), (Reg.GAU_BUS, Fld.GAU_BUS_V_BUS)]
def gaugeFields : List (Nat × Field) := bankFields ++ busFields ++ capFields ++ lifeFields

/-- What a recompute shows of the bus, of the energy and the cap, and of the reserve's life. -/
def State.busShown (s : State) (c r e : Nat) : State :=
  (((s.fset Reg.GAU_BUS Fld.GAU_BUS_C_TOT c).fset Reg.GAU_BUS Fld.GAU_BUS_R_PAR r).fset Reg.GAU_BUS Fld.GAU_BUS_V_END e).fset Reg.GAU_BUS
    Fld.GAU_BUS_V_BUS s.energy.vbus
def State.capShown (s : State) (e full line un : Nat) : State :=
  (((((s.fset Reg.GAU_E_USABLE Fld.GAU_E_USABLE_E_USABLE e).fset Reg.GAU_E_USABLE Fld.GAU_E_USABLE_E_FULL full).fset Reg.GAU_PARAM Fld.GAU_PARAM_E_LINE
    line).fset Reg.GAU_CAP_LINES Fld.GAU_CAP_LINES_CAP (min 2097152 un)).fsetSat Reg.GAU_CAP_LINES Fld.GAU_CAP_LINES_UNCAPPED un)
def State.lifeShown (s : State) (noFree life active spares rated : Nat) : State :=
  let g := Reg.GAU_STAT
  let s1 := s.fset Reg.TLC_WT_STAT Fld.TLC_WT_STAT_NOFREE noFree
  let s5 := ((s1.fset g Fld.GAU_STAT_RES_LIFE life).fset g Fld.GAU_STAT_N_ACTIVE active).fset g Fld.GAU_STAT_SPARES spares
  let s6 := ((s5.lifeMark life 50 Fld.GAU_STAT_W50).lifeMark life 75 Fld.GAU_STAT_W75).lifeMark life 90 Fld.GAU_STAT_W90
  if rated < 2097152 ∧ s6.fget g Fld.GAU_STAT_BELOW_RATED = 0 then
    (s6.fset g Fld.GAU_STAT_BELOW_RATED 1).eventSev evGAUGE 0 0 0xFFFF 0 [rated]
  else s6

/-- A recompute shows the banks, the bus, the energy with the cap, and the life; the cap without its minimum is 0 with two phases or fewer (R198). -/
theorem State.recompute'_shown (s : State) : ∃ c r v e full line un noFree life active spares rated,
    s.recompute' = ((s.bankRegs.busShown c r v).capShown e full line un).lifeShown noFree life active spares rated ∧ (s.bankRegs.energy.phases ≤ 2 → un = 0) :=
  ⟨_, _, _, _, _, _, _, _, _, _, _, _, rfl, fun h => if_pos h⟩

theorem State.bankRegs_shows (s : State) : Shows bankFields s s.bankRegs := by
  refine .foldl _ fun u b hb => ?_
  have hMem (f : Field) (hf : f ∈ [Fld.GAU_BANK_CAP, Fld.GAU_BANK_PCT, Fld.GAU_BANK_AGE]) : (Reg.GAU_BANK b, f) ∈ bankFields :=
    List.mem_flatMap.2 ⟨b, hb, by simpa using hf⟩
  exact ((Shows.refl.set _ (hMem _ (by simp))).set _ (hMem _ (by simp))).set _ (hMem _ (by simp))

theorem State.busShown_shows (s : State) (c r e : Nat) : Shows busFields s (s.busShown c r e) :=
  (((Shows.refl.set _ (by simp [busFields])).set _ (by simp [busFields])).set _ (by simp [busFields])).set _ (by simp [busFields])

theorem State.capShown_shows (s : State) (e full line un : Nat) : Shows capFields s (s.capShown e full line un) :=
  ((((Shows.refl.set _ (by simp [capFields])).set _ (by simp [capFields])).set _ (by simp [capFields])).set _ (by simp [capFields])).set _
    (by simp [capFields])

theorem State.lifeMark_shows (s : State) (life th : Nat) {f : Field} (h : (Reg.GAU_STAT, f) ∈ lifeFields) : Shows lifeFields s (s.lifeMark life th f) :=
  .ite (.event _ _ _ _ _ _ (.set _ .refl h)) .refl

theorem State.lifeShown_shows (s : State) (noFree life active spares rated : Nat) : Shows lifeFields s (s.lifeShown noFree life active spares rated) := by
  have hMarks (u : State) : Shows lifeFields u
      (((u.lifeMark life 50 Fld.GAU_STAT_W50).lifeMark life 75 Fld.GAU_STAT_W75).lifeMark life 90 Fld.GAU_STAT_W90) :=
    ((u.lifeMark_shows _ _ (by simp [lifeFields])).trans (State.lifeMark_shows _ _ _ (by simp [lifeFields]))).trans
      (State.lifeMark_shows _ _ _ (by simp [lifeFields]))
  have hLife : Shows lifeFields s ((((s.fset Reg.TLC_WT_STAT Fld.TLC_WT_STAT_NOFREE noFree).fset Reg.GAU_STAT Fld.GAU_STAT_RES_LIFE life).fset Reg.GAU_STAT
      Fld.GAU_STAT_N_ACTIVE active).fset Reg.GAU_STAT Fld.GAU_STAT_SPARES spares) :=
    (((Shows.refl.set _ (by simp [lifeFields])).set _ (by simp [lifeFields])).set _ (by simp [lifeFields])).set _ (by simp [lifeFields])
  exact .ite (.event _ _ _ _ _ _ (.set _ (hLife.trans (hMarks _)) (by simp [lifeFields]))) (hLife.trans (hMarks _))

theorem State.recompute'_shows (s : State) : Shows gaugeFields s s.recompute' := by
  obtain ⟨c, r, v, e, full, line, un, noFree, life, active, spares, rated, hShown, -⟩ := s.recompute'_shown
  rw [hShown]
  have hBanks := s.bankRegs_shows.mono (more := gaugeFields) fun x hx => by simp [gaugeFields, hx]
  have hBus := (s.bankRegs.busShown_shows c r v).mono (more := gaugeFields) fun x hx => by simp [gaugeFields, hx]
  have hCap := ((s.bankRegs.busShown c r v).capShown_shows e full line un).mono (more := gaugeFields) fun x hx => by simp [gaugeFields, hx]
  have hLife := (((s.bankRegs.busShown c r v).capShown e full line un).lifeShown_shows noFree life active spares rated).mono (more := gaugeFields)
    fun x hx => by simp [gaugeFields, hx]
  exact ((hBanks.trans hBus).trans hCap).trans hLife

theorem State.recompute'_energy (s : State) : s.recompute'.energy = s.energy := s.recompute'_shows.energy

/-- The bus voltage shown is that of the state. -/
theorem State.recompute'_vbus {s : State} (h : s.energy.vbus < 65536) : s.recompute'.fget Reg.GAU_BUS Fld.GAU_BUS_V_BUS = s.energy.vbus := by
  obtain ⟨c, r, v, e, full, line, un, noFree, life, active, spares, rated, hShown, -⟩ := s.recompute'_shown
  have hVbus : s.bankRegs.energy.vbus = s.energy.vbus := by rw [s.bankRegs_shows.energy]
  rw [hShown, (State.lifeShown_shows ..).fget (by decide) (by decide), (State.capShown_shows ..).fget (by decide) (by decide), State.busShown,
    State.fget_fset_same _ _ _ _ (by decide) (by rw [hVbus]; exact h), hVbus]

/-- GAU_CAP_LINES is at most its maximum, and 0 with two phases or fewer. -/
theorem State.recompute'_capLines (s : State) : s.recompute'.capLines ≤ 2097152 ∧ (s.energy.phases ≤ 2 → s.recompute'.capLines = 0) := by
  obtain ⟨c, r, v, e, full, line, un, noFree, life, active, spares, rated, hShown, hPhases⟩ := s.recompute'_shown
  have hCap : s.recompute'.capLines = min 2097152 un := by
    rw [hShown, State.capLines, (State.lifeShown_shows ..).fget (by decide) (by decide), State.capShown, State.fsetSat,
      State.fget_fset_apart _ _ _ _ (by decide) (by decide) (by decide),
      State.fget_fset_same _ _ _ _ (by decide) ((Nat.min_le_left ..).trans_lt (by decide))]
  rw [s.bankRegs_shows.energy] at hPhases
  exact ⟨by omega, fun h => by rw [hCap, hPhases h]; rfl⟩

end Sys2Proof.Machine

namespace Sys2Proof.Machine

/-! ### The health check, and readiness -/

theorem keeps_withEnergy (s : State) (x : Energy) : Keeps s { s with energy := x } [.energy] := by
  refine ⟨rfl, fun p hp => ?_⟩
  cases p with
  | energy => simp at hp
  | regs => exact fun _ _ _ => rfl
  | cmds => exact ⟨rfl, rfl⟩
  | _ => rfl

theorem keeps_withCxl (s : State) (x : Cxl) : Keeps s { s with cxl := x } [.cxl] := by
  refine ⟨rfl, fun p hp => ?_⟩
  cases p with
  | cxl => simp at hp
  | regs => exact fun _ _ _ => rfl
  | cmds => exact ⟨rfl, rfl⟩
  | _ => rfl

/-- The health check raises events beside what it notes of the watched values. -/
theorem State.healthCheck_shows (s : State) : Shows [] { s with cxl := { s.cxl with health := s.watched } } s.healthCheck :=
  .foldl _ fun _ _ _ => .ite .refl (.event _ _ _ _ _ _ .refl)

theorem State.healthCheck_energy (s : State) : s.healthCheck.energy = s.energy := s.healthCheck_shows.energy

theorem State.healthCheck_cmds (s : State) : s.healthCheck.cmds = s.cmds := s.healthCheck_shows.cmds

theorem State.healthCheck_freeCtr (s : State) : s.healthCheck.freeCtr = s.freeCtr := s.healthCheck_shows.freeCtr

theorem State.healthCheck_fget (s : State) {o : Nat} {g : Field} (hg : g.Fits) (h : o ≠ Reg.HST_STAT) : s.healthCheck.fget o g = s.fget o g :=
  s.healthCheck_shows.fget hg (by simpa [clearOf] using h)

theorem State.healthCheck_keeps (s : State) : Keeps s s.healthCheck (eventParts ++ [.freeCtr, .regs, .energy, .cxl]) := by
  exact ((keeps_withCxl s _).mono (by decide)).trans (s.healthCheck_shows.keeps.mono (by decide))

theorem State.setReady_ready (s : State) {n : Nat} (h : n < 17) : (s.setReady n true).ready n = true := by
  by_cases hReady : s.ready n = true
  · rw [State.setReady, if_pos hReady]
    exact hReady
  · have hTime : Reg.RDY_STATUS ≠ Reg.RDY_TIME n := by simp only [Reg.RDY_STATUS, Reg.RDY_TIME]; omega
    rw [State.ready_congr (s.setReady_reg n true hTime (by decide) hReady)]
    exact s.fbit_fsetBit_true Reg.RDY_STATUS (by decide) h

theorem State.setReady_fget (s : State) (n : Nat) (v : Bool) {o : Nat} (g : Field) (hStatus : o ≠ Reg.RDY_STATUS) (hTime : o ≠ Reg.RDY_TIME n)
    (hHst : o ≠ Reg.HST_STAT) : (s.setReady n v).fget o g = s.fget o g := by
  by_cases hReady : s.ready n = v
  · rw [State.setReady, if_pos hReady]
  · rw [State.fget, s.setReady_reg n v hTime hHst hReady, State.fsetBit]
    split
    · rfl
    · rw [State.reg_fset_other _ _ _ _ hStatus, State.fget]

theorem State.setReady_keeps (s : State) (n : Nat) (v : Bool) : Keeps s (s.setReady n v) (eventParts ++ [.regs]) := by
  refine ⟨s.setReady_pending n v, fun p hp => ?_⟩
  cases p with
  | regs | outbox | logs | hist => simp [eventParts] at hp
  | cmds => exact ⟨s.setReady_cmds n v, s.setReady_nextCmd n v⟩
  | _ => simp [Part.same]

/-! ### The gauge (R196, R198, R200) -/

/-- A recompute makes GAUGE ready, and the health is checked. -/
def State.gaugeUp (m : State) : State := (m.recompute'.setReady rGAUGE true).healthCheck

theorem State.gaugeUp_fget (m : State) {o : Nat} {g : Field} (hg : g.Fits) (hStatus : o ≠ Reg.RDY_STATUS) (hTime : o ≠ Reg.RDY_TIME rGAUGE)
    (hHst : o ≠ Reg.HST_STAT) : m.gaugeUp.fget o g = m.recompute'.fget o g := by
  rw [State.gaugeUp, State.healthCheck_fget _ hg hHst, State.setReady_fget _ _ _ _ hStatus hTime hHst]

theorem State.gaugeUp_capLines (m : State) : m.gaugeUp.capLines = m.recompute'.capLines := by
  rw [State.capLines, m.gaugeUp_fget (by decide) (by decide) (by decide) (by decide), State.capLines]

theorem State.gaugeUp_energy (m : State) : m.gaugeUp.energy = m.energy := by
  rw [State.gaugeUp, State.healthCheck_energy, State.setReady_energy, State.recompute'_energy]

theorem State.gaugeUp_freeCtr (m : State) : m.gaugeUp.freeCtr = m.freeCtr := by
  rw [State.gaugeUp, State.healthCheck_freeCtr, State.setReady_freeCtr, m.recompute'_shows.freeCtr]

theorem State.ready_of_fget {s u : State} (h : u.fget Reg.RDY_STATUS Fld.RDY_STATUS_READY = s.fget Reg.RDY_STATUS Fld.RDY_STATUS_READY) (n : Nat) :
    u.ready n = s.ready n := by
  rw [State.ready, State.fbit, h, State.ready, State.fbit]

theorem State.gaugeUp_ready (m : State) : m.gaugeUp.ready rGAUGE = true := by
  rw [State.gaugeUp, State.ready_of_fget (State.healthCheck_fget _ (by decide) (by decide))]
  exact State.setReady_ready _ (by decide)

theorem State.gaugeUp_keeps (m : State) : Keeps m m.gaugeUp (eventParts ++ [.freeCtr, .regs, .energy, .cxl]) :=
  ((m.recompute'_shows.keeps.mono (by decide)).trans ((State.setReady_keeps ..).mono (by decide))).trans (State.healthCheck_keeps _)

/-- The reserve as a recompute measures it. -/
def State.reserveMeasured (s : State) (v c n : Nat) : State :=
  (State.setPhases { s with energy := { s.energy with vbus := v, capTemp := int16 (c % 65536) } } (min 4 n)).testVolt

theorem exec_gaugeRecompute_on {s : State} (h : s.power = .on) (v c n : Nat) :
    exec (.gaugeRecompute v c n) s = nextState (s.reserveMeasured v c n).gaugeUp := by
  show execGaugeRecompute v c n s = _
  simp [execGaugeRecompute, h, State.reserveMeasured, State.gaugeUp]

theorem State.setPhases_shows (s : State) (n : Nat) :
    Shows [(Reg.GAU_STAT, Fld.GAU_STAT_PHASES)] { s with energy := { s.energy with phases := n } } (s.setPhases n) :=
  .ite (.event _ _ _ _ _ _ (.set _ .refl (by simp))) (.set _ .refl (by simp))

theorem State.setPhases_phases (s : State) {n : Nat} (h : n < 8) : (s.setPhases n).fget Reg.GAU_STAT Fld.GAU_STAT_PHASES = n := by
  have hSet : (State.fset { s with energy := { s.energy with phases := n } } Reg.GAU_STAT Fld.GAU_STAT_PHASES n).fget Reg.GAU_STAT Fld.GAU_STAT_PHASES = n :=
    State.fget_fset_same _ _ _ _ (by decide) h
  unfold State.setPhases
  dsimp only
  split
  · rw [State.fget, State.eventSev_reg _ _ _ _ _ _ _ (by decide)]
    exact hSet
  · exact hSet

/-- The voltage of a bank under test is a free value, and nothing else changes. -/
theorem State.testVolt_eq (s : State) :
    s.testVolt = { s with freeCtr := s.testVolt.freeCtr, energy := { s.energy with banks := s.testVolt.energy.banks } } := by
  unfold State.testVolt
  split
  · split <;> rfl
  · rfl

theorem State.testVolt_keeps (s : State) : Keeps s s.testVolt [.freeCtr, .energy] := by
  rw [State.testVolt_eq]
  refine ⟨rfl, fun p hp => ?_⟩
  cases p with
  | freeCtr | energy => simp at hp
  | regs => exact fun _ _ _ => rfl
  | cmds => exact ⟨rfl, rfl⟩
  | _ => rfl

theorem State.testVolt_freeCtr {s : State} (h : s.energy.test = none) : s.testVolt.freeCtr = s.freeCtr := by
  rw [State.testVolt, h]

section
variable (s : State) (v c n : Nat)

theorem State.reserveMeasured_energy : (s.reserveMeasured v c n).energy =
    { s.energy with vbus := v, capTemp := int16 (c % 65536), phases := min 4 n, banks := (s.reserveMeasured v c n).energy.banks } := by
  unfold State.reserveMeasured
  rw [State.testVolt_eq, (State.setPhases_shows ..).energy]

theorem State.reserveMeasured_phases : (s.reserveMeasured v c n).fget Reg.GAU_STAT Fld.GAU_STAT_PHASES = min 4 n := by
  unfold State.reserveMeasured
  rw [State.testVolt_eq]
  exact State.setPhases_phases _ (by omega)

theorem State.reserveMeasured_freeCtr (h : s.energy.test = none) : (s.reserveMeasured v c n).freeCtr = s.freeCtr := by
  unfold State.reserveMeasured
  rw [State.testVolt_freeCtr (by rw [(State.setPhases_shows ..).energy]; exact h), (State.setPhases_shows ..).freeCtr]

theorem State.reserveMeasured_keeps : Keeps s (s.reserveMeasured v c n) (eventParts ++ [.freeCtr, .regs, .energy, .cxl]) := by
  unfold State.reserveMeasured
  exact (((keeps_withEnergy s _).mono (by decide)).trans (((keeps_withEnergy _ _).mono (by decide)).trans
    ((State.setPhases_shows _ _).keeps.mono (by decide)))).trans ((State.testVolt_keeps _).mono (by decide))
end

theorem State.settle_gauBus (s : State) (f : Field) : s.settle.fget Reg.GAU_BUS f = s.fget Reg.GAU_BUS f := by
  rw [State.fget, State.settle_reg _ (by decide), State.fget]

theorem State.settle_capLines (s : State) : s.settle.capLines = s.capLines := by
  rw [State.capLines, State.fget, State.settle_reg _ (by decide), State.capLines, State.fget]

theorem gaugeRecompute_measures (s : State) (v c n : Nat) (hOn : s.power = .on) (hv : v < 65536) :
    ∃ t, exec (.gaugeRecompute v c n) s = .next t ∧ t.energy.vbus = v ∧ t.energy.capTemp = int16 (c % 65536) ∧ t.energy.phases = min 4 n ∧
      t.fget Reg.GAU_BUS Fld.GAU_BUS_V_BUS = v ∧ t.fget Reg.GAU_STAT Fld.GAU_STAT_PHASES = min 4 n ∧ t.capLines ≤ 2097152 ∧
      (n ≤ 2 → t.capLines = 0) ∧ t.ready rGAUGE = true ∧ (s.energy.test = none → t.freeCtr = s.freeCtr) ∧
      Keeps s t (eventParts ++ [.freeCtr, .regs, .energy, .cxl]) := by
  refine nextState_exists (exec_gaugeRecompute_on hOn v c n) ?_
  have hEnergy := s.reserveMeasured_energy v c n
  have hPhases := s.reserveMeasured_phases v c n
  have hCtr := s.reserveMeasured_freeCtr v c n
  have hKeeps := s.reserveMeasured_keeps v c n
  generalize s.reserveMeasured v c n = m at hEnergy hPhases hCtr hKeeps ⊢
  have hVbus : m.energy.vbus = v := congrArg Energy.vbus hEnergy
  have hMin : m.energy.phases = min 4 n := congrArg Energy.phases hEnergy
  obtain ⟨hCapMax, hCapNone⟩ := m.recompute'_capLines
  simp only [State.settle_energy, State.gaugeUp_energy, State.settle_gauBus, State.settle_gauStat, State.settle_capLines, State.gaugeUp_capLines]
  refine ⟨hVbus, congrArg Energy.capTemp hEnergy, hMin, ?_, ?_, hCapMax, fun h => hCapNone (by omega), ?_, fun h => ?_, (hKeeps.trans m.gaugeUp_keeps).settle⟩
  · rw [m.gaugeUp_fget (by decide) (by decide) (by decide) (by decide), State.recompute'_vbus (by omega), hVbus]
  · rw [m.gaugeUp_fget (by decide) (by decide) (by decide) (by decide), m.recompute'_shows.fget (by decide) (by decide), hPhases]
  · rw [State.ready_congr (State.settle_reg _ (by decide)), m.gaugeUp_ready]
  · rw [State.settle_freeCtr, m.gaugeUp_freeCtr, hCtr h]

/-- The reserve, charged for the first time. -/
def State.reserveFull (s : State) : State :=
  State.fset { s with energy := { s.energy with vbus := max 33000 s.energy.vbus, charged := true } } Reg.GAU_STAT Fld.GAU_STAT_STATE 1

theorem exec_reserveCharged_first {s : State} (hOn : s.power = .on) (h : s.fget Reg.GAU_STAT Fld.GAU_STAT_STATE = 0) :
    exec .reserveCharged s = nextState s.reserveFull.recompute' := by
  show execReserveCharged s = _
  rw [execReserveCharged, if_pos ⟨hOn, h⟩]
  rfl

theorem reserveCharged_first (s : State) (hOn : s.power = .on) (h : s.fget Reg.GAU_STAT Fld.GAU_STAT_STATE = 0) :
    ∃ t, exec .reserveCharged s = .next t ∧ t.fget Reg.GAU_STAT Fld.GAU_STAT_STATE = 1 ∧ t.energy.vbus = max 33000 s.energy.vbus ∧
      t.capLines ≤ 2097152 ∧ Keeps s t (eventParts ++ [.regs, .energy]) := by
  refine nextState_exists (exec_reserveCharged_first hOn h) ⟨?_, ?_, ?_, ?_⟩
  · rw [State.settle_gauStat, s.reserveFull.recompute'_shows.fget (by decide) (by decide)]
    exact State.fget_fset_same _ _ _ _ (by decide) (by decide)
  · rw [State.settle_energy, State.recompute'_energy]
    rfl
  · rw [State.settle_capLines]
    exact s.reserveFull.recompute'_capLines.1
  · have hFull : Keeps s s.reserveFull (eventParts ++ [.regs, .energy]) := ((keeps_withEnergy s _).mono (by decide)).trans
      ((Shows.refl (fields := [(Reg.GAU_STAT, Fld.GAU_STAT_STATE)]).set 1 (by decide)).keeps.mono (by decide))
    exact (hFull.trans (s.reserveFull.recompute'_shows.keeps.mono (by decide))).settle

end Sys2Proof.Machine

namespace Sys2Proof.Machine

/-! ### Banks: their voltages and measurements, and their states -/

theorem State.bank_setBank (s : State) (b : Nat) (x : Bank) : (s.setBank b x).bank b = x := by
  simp [State.bank, State.setBank, dget]

theorem State.bank_congr {s u : State} (h : u.energy.banks = s.energy.banks) (b : Nat) : u.bank b = s.bank b := by
  rw [State.bank, h, State.bank]

theorem State.bankState_setBankState (s : State) (b : Nat) {v : Nat} (h : v < 8) : (s.setBankState b v).bankState b = v :=
  State.fget_fset_same _ _ _ _ (by decide) h

theorem State.settle_bank (s : State) {b : Nat} (h : b < 12) (f : Field) : s.settle.fget (Reg.GAU_BANK b) f = s.fget (Reg.GAU_BANK b) f := by
  rw [State.fget, State.settle_reg _ ((by decide : ∀ b < 12, quietReg (Reg.GAU_BANK b) = true) b h), State.fget]

theorem State.settle_bankState (s : State) {b : Nat} (h : b < 12) : s.settle.bankState b = s.bankState b := s.settle_bank h _

theorem gauBank_injective {b k : Nat} (h : b ≠ k) : Reg.GAU_BANK b ≠ Reg.GAU_BANK k := by
  simp only [Reg.GAU_BANK]
  omega

theorem gauBank_ne_testCtl {b : Nat} (h : b < 12) : Reg.GAU_BANK b ≠ Reg.GAU_TEST_CTL := by
  simp only [Reg.GAU_BANK, Reg.GAU_TEST_CTL]
  omega

theorem State.recompute'_bankState (s : State) {b : Nat} (h : b < 12) : s.recompute'.bankState b = s.bankState b :=
  s.recompute'_shows.fget (by decide) ((by decide +kernel : ∀ b < 12, clearOf gaugeFields (Reg.GAU_BANK b) Fld.GAU_BANK_STATE = true) b h)

theorem State.recompute'_esr (s : State) {b : Nat} (h : b < 12) :
    s.recompute'.fget (Reg.GAU_BANK b) Fld.GAU_BANK_ESR = s.fget (Reg.GAU_BANK b) Fld.GAU_BANK_ESR :=
  s.recompute'_shows.fget (by decide) ((by decide +kernel : ∀ b < 12, clearOf gaugeFields (Reg.GAU_BANK b) Fld.GAU_BANK_ESR = true) b h)

theorem State.healthCheck_bank (s : State) {b : Nat} (h : b < 12) {f : Field} (hf : f.Fits) :
    s.healthCheck.fget (Reg.GAU_BANK b) f = s.fget (Reg.GAU_BANK b) f :=
  s.healthCheck_fget hf ((by decide : ∀ b < 12, Reg.GAU_BANK b ≠ Reg.HST_STAT) b h)

theorem State.healthCheck_bankState (s : State) {b : Nat} (h : b < 12) : s.healthCheck.bankState b = s.bankState b := s.healthCheck_bank h (by decide)

/-! ### A test starts (R197, Table 6-2) -/

section
variable (s : State) (b : Nat) (cmd : Option Nat)

theorem State.testStart_energy : ∃ last, (s.testStart b cmd).energy = { s.energy with
    test := some (b, cmd), testSpare := s.bankState b == 1, lastTest := last, banks := tput s.energy.banks b { s.bank b with own := 33000 } } := ⟨_, rfl⟩

theorem State.testStart_own : ((s.testStart b cmd).bank b).own = 33000 := by
  show (dget (fun _ => Bank.init) (tput s.energy.banks b { s.bank b with own := 33000 }) b).own = 33000
  simp [dget]

theorem State.testStart_reg {off : Nat} (hBank : off ≠ Reg.GAU_BANK b) (hCtl : off ≠ Reg.GAU_TEST_CTL) : (s.testStart b cmd).reg off = s.reg off := by
  rw [State.testStart, State.reg_fset_other _ _ _ _ hCtl, State.setBankState, State.reg_fset_other _ _ _ _ hBank]
  rfl

theorem State.testStart_bankState (h : b < 12) : (s.testStart b cmd).bankState b = 2 := by
  rw [State.testStart, State.bankState, State.fget_fset_other _ _ _ _ (gauBank_ne_testCtl h)]
  exact State.bankState_setBankState _ _ (by decide)

theorem State.testStart_ctl (h : b < 12) : (s.testStart b cmd).fget Reg.GAU_TEST_CTL Fld.GAU_TEST_CTL_BANK = b :=
  State.fget_fset_same _ _ _ _ (by decide) (h.trans (by decide))

/-- The parts that the start of a test may change. -/
theorem State.testStart_keeps : Keeps s (s.testStart b cmd) [.regs, .energy] := by
  refine ⟨rfl, fun p hp => ?_⟩
  cases p with
  | regs | energy => simp at hp
  | cmds => exact ⟨rfl, rfl⟩
  | _ => rfl
end

theorem State.settle_testBusy {s : State} (h : s.energy.test.isSome = true) : s.settle.fget Reg.GAU_TEST_CTL Fld.GAU_TEST_CTL_BUSY = 1 := by
  have hLive := s.settle_live (Reg.GAU_TEST_CTL, Fld.GAU_TEST_CTL_BUSY, fun s => bitOf s.energy.test.isSome) (by simp [liveFields])
  rw [hLive]
  simp [h, bitOf, liveValue, fwidth, Fld.GAU_TEST_CTL_BUSY]

theorem State.settle_testIdle {s : State} (h : s.energy.test = none) : s.settle.fget Reg.GAU_TEST_CTL Fld.GAU_TEST_CTL_BUSY = 0 := by
  have hLive := s.settle_live (Reg.GAU_TEST_CTL, Fld.GAU_TEST_CTL_BUSY, fun s => bitOf s.energy.test.isSome) (by simp [liveFields])
  rw [hLive]
  simp [h, bitOf, liveValue]

theorem State.settle_testBank (s : State) : s.settle.fget Reg.GAU_TEST_CTL Fld.GAU_TEST_CTL_BANK = s.fget Reg.GAU_TEST_CTL Fld.GAU_TEST_CTL_BANK :=
  s.settle_fget (by decide) (by decide)

/-- The frame of a test's start. -/
theorem State.testStart_frame (s : State) (b : Nat) (cmd : Option Nat) :
    Frame s (s.testStart b cmd).settle [.energy] [Reg.GAU_BANK b, Reg.GAU_TEST_CTL] :=
  frame_settle (s.testStart_keeps b cmd).1 (s.testStart_keeps b cmd).2 fun off hOff => by
    obtain ⟨hBank, hCtl⟩ : off ≠ Reg.GAU_BANK b ∧ off ≠ Reg.GAU_TEST_CTL := by simpa using hOff
    exact s.testStart_reg b cmd hBank hCtl

theorem State.nextBank_lt {s : State} {b : Nat} (h : s.nextBank = some b) : b < 12 := by
  obtain ⟨k, -, hk⟩ := List.mem_map.1 (List.mem_of_find?_eq_some h)
  omega

theorem bankTest_isolates (s : State) (b : Nat) (hCan : s.canTest = true) (hNext : s.nextBank = some b) :
    ∃ t, exec .bankTest s = .next t ∧ t.energy.test = some (b, none) ∧ t.bankState b = 2 ∧ (t.bank b).own = 33000 ∧
      t.fget Reg.GAU_TEST_CTL Fld.GAU_TEST_CTL_BANK = b ∧ t.fget Reg.GAU_TEST_CTL Fld.GAU_TEST_CTL_BUSY = 1 ∧
      Frame s t [.energy] [Reg.GAU_BANK b, Reg.GAU_TEST_CTL] := by
  have hb := State.nextBank_lt hNext
  have hExec : exec .bankTest s = nextState (s.testStart b none) := by
    show execBankTest s = _
    rw [execBankTest, if_pos hCan, hNext]
  refine nextState_exists hExec ⟨?_, ?_, ?_, ?_, State.settle_testBusy rfl, s.testStart_frame b none⟩
  · rw [State.settle_energy]
    rfl
  · rw [State.settle_bankState _ hb, State.testStart_bankState _ _ _ hb]
  · rw [State.bank_congr (congrArg Energy.banks (State.settle_energy _)), State.testStart_own]
  · rw [State.settle_testBank, State.testStart_ctl _ _ _ hb]

/-! ### A test by FORCE (Table 6-16) -/

theorem State.rwsSave_eq (s : State) : s.rwsSave = { s with plat := s.rwsSave.plat } := by
  unfold State.rwsSave State.recStore
  dsimp only
  split <;> rfl

/-- The state once a write of GAU_TEST_CTL has set its RWS fields and FBANK. -/
def State.gauCtlWritten (s : State) (v : W64) : State :=
  let days := getF v Fld.GAU_TEST_CTL_SPARE_DAYS
  let per := getF v Fld.GAU_TEST_CTL_PERIOD
  let s1 := if 7 ≤ days ∧ days ≤ 90 ∧ s.rwsHeld = false then s.fset Reg.GAU_TEST_CTL Fld.GAU_TEST_CTL_SPARE_DAYS days else s
  let s2 := if 1 ≤ per ∧ per ≤ 600 ∧ s.rwsHeld = false then s1.fset Reg.GAU_TEST_CTL Fld.GAU_TEST_CTL_PERIOD per else s1
  (if s.rwsHeld then s2 else s2.rwsSave).fset Reg.GAU_TEST_CTL Fld.GAU_TEST_CTL_FBANK (getF v Fld.GAU_TEST_CTL_FBANK)

theorem exec_gauTestForce_starts {s : State} {v : W64} (hForce : getF v Fld.GAU_TEST_CTL_FORCE = 1) (hBank : getF v Fld.GAU_TEST_CTL_FBANK < 12)
    (hCan : (s.gauCtlWritten v).canTest = true) (hUp : (s.gauCtlWritten v).bankState (getF v Fld.GAU_TEST_CTL_FBANK) < 2) :
    exec (.gauTestForce v) s = nextState ((s.gauCtlWritten v).testStart (getF v Fld.GAU_TEST_CTL_FBANK) none) :=
  congrArg nextState (if_pos ⟨hForce, hBank, hCan, hUp⟩)

/-- From `s` to `u` nothing has changed but GAU_TEST_CTL, and what the Stash holds. -/
structure CtlOnly (s u : State) : Prop where
  rest : u = { s with plat := u.plat, regs := u.regs }
  reg : ∀ off, off ≠ Reg.GAU_TEST_CTL → u.reg off = s.reg off

namespace CtlOnly

variable {s u v : State}

theorem refl (s : State) : CtlOnly s s := ⟨rfl, fun _ _ => rfl⟩

theorem trans (h : CtlOnly s u) (h' : CtlOnly u v) : CtlOnly s v :=
  ⟨Eq.trans h'.rest (by rw [h.rest]), fun off hOff => (h'.reg off hOff).trans (h.reg off hOff)⟩

theorem ite {c : Prop} [Decidable c] (h : CtlOnly s u) (h' : CtlOnly s v) : CtlOnly s (if c then u else v) := by
  split
  · exact h
  · exact h'

theorem fset (s : State) (f : Field) (x : Nat) : CtlOnly s (s.fset Reg.GAU_TEST_CTL f x) := ⟨rfl, fun _ hOff => State.reg_fset_other _ _ _ _ hOff⟩

theorem rwsSave (s : State) : CtlOnly s s.rwsSave := ⟨by rw [s.rwsSave_eq], fun off _ => State.reg_congr off (by rw [s.rwsSave_eq])⟩

theorem gauCtlWritten (s : State) (x : W64) : CtlOnly s (s.gauCtlWritten x) := by
  have hTwo (u : State) (days per : Nat) (c d : Prop) [Decidable c] [Decidable d] : CtlOnly u
      (if c then (if d then u.fset Reg.GAU_TEST_CTL Fld.GAU_TEST_CTL_SPARE_DAYS days else u).fset Reg.GAU_TEST_CTL Fld.GAU_TEST_CTL_PERIOD per
        else if d then u.fset Reg.GAU_TEST_CTL Fld.GAU_TEST_CTL_SPARE_DAYS days else u) :=
    ite ((ite (fset ..) (refl u)).trans (fset ..)) (ite (fset ..) (refl u))
  exact (ite (hTwo ..) ((hTwo ..).trans (rwsSave _))).trans (fset ..)

theorem keeps (h : CtlOnly s u) : Keeps s u [.regs, .plat] := by
  rw [h.rest]
  refine ⟨rfl, fun p hp => ?_⟩
  cases p with
  | regs | plat => simp at hp
  | cmds => exact ⟨rfl, rfl⟩
  | _ => rfl

theorem canTest (h : CtlOnly s u) : u.canTest = s.canTest := by
  have hStat : u.fget Reg.GAU_STAT Fld.GAU_STAT_STATE = s.fget Reg.GAU_STAT Fld.GAU_STAT_STATE := congrArg (getF · _) (h.reg Reg.GAU_STAT (by decide))
  have hPower : u.power = s.power := h.keeps.2 .power (by decide)
  have hEnergy : u.energy = s.energy := h.keeps.2 .energy (by decide)
  rw [State.canTest, hStat, hPower, hEnergy, State.canTest]

theorem bankState (h : CtlOnly s u) {b : Nat} (hb : b < 12) : u.bankState b = s.bankState b :=
  congrArg (getF · _) (h.reg _ (gauBank_ne_testCtl hb))

end CtlOnly

theorem gauTestForce_isolates (s : State) (v : W64) (hForce : getF v Fld.GAU_TEST_CTL_FORCE = 1) (hBank : getF v Fld.GAU_TEST_CTL_FBANK < 12)
    (hCan : s.canTest = true) (hUp : s.bankState (getF v Fld.GAU_TEST_CTL_FBANK) < 2) :
    ∃ t, exec (.gauTestForce v) s = .next t ∧ t.energy.test = some (getF v Fld.GAU_TEST_CTL_FBANK, none) ∧
      t.bankState (getF v Fld.GAU_TEST_CTL_FBANK) = 2 ∧
      Frame s t [.energy, .plat] [Reg.GAU_BANK (getF v Fld.GAU_TEST_CTL_FBANK), Reg.GAU_TEST_CTL] := by
  have hCtl := CtlOnly.gauCtlWritten s v
  rw [← hCtl.canTest] at hCan
  rw [← hCtl.bankState hBank] at hUp
  have hKeeps : Keeps s ((s.gauCtlWritten v).testStart (getF v Fld.GAU_TEST_CTL_FBANK) none) [.regs, .energy, .plat] :=
    (hCtl.keeps.mono (by decide)).trans ((State.testStart_keeps ..).mono (by decide))
  refine nextState_exists (exec_gauTestForce_starts hForce hBank hCan hUp) ⟨?_, ?_, frame_settle hKeeps.1 hKeeps.2 fun off hOff => ?_⟩
  · rw [State.settle_energy]
    rfl
  · rw [State.settle_bankState _ hBank, State.testStart_bankState _ _ _ hBank]
  · obtain ⟨hReg, hOther⟩ : off ≠ Reg.GAU_BANK _ ∧ off ≠ Reg.GAU_TEST_CTL := by simpa using hOff
    rw [State.testStart_reg _ _ _ hReg hOther, hCtl.reg _ hOther]

end Sys2Proof.Machine

namespace Sys2Proof.Machine

/-! ### A bank is lost (R202) -/

/-- The function itself, not its value at a state: for that the kernel would look for the spare in the recomputed gauge. -/
theorem State.replaceBank_eq : State.replaceBank = fun s b =>
    let u := s.recompute'.event evGAUGE 4 0xFFFF b [s.bankState b]
    match (List.range 12).find? fun k => u.bankState k == 1 with
    | some k => u.chargeSpare k
    | none => if u.spareBanks = [] then u else { u with energy := { u.energy with wantSpare := u.energy.wantSpare + 1 } } := rfl

/-- From `s` to `u` nothing of the reserve but the spares waited for has changed, nor any bank's state but that of a spare, which charges. -/
structure Loses (s u : State) : Prop where
  energy : u.energy = { s.energy with wantSpare := u.energy.wantSpare }
  cmds : u.cmds = s.cmds
  bankState : ∀ b, b < 12 → s.bankState b ≠ 1 → u.bankState b = s.bankState b

namespace Loses

variable {s u v : State}

theorem refl (s : State) : Loses s s := ⟨rfl, rfl, fun _ _ _ => rfl⟩

theorem trans (h : Loses s u) (h' : Loses u v) : Loses s v := by
  refine ⟨Eq.trans h'.energy (by rw [h.energy]), h'.cmds.trans h.cmds, fun b hb hSpare => ?_⟩
  have hSame := h.bankState b hb hSpare
  exact (h'.bankState b hb (hSame ▸ hSpare)).trans hSame

theorem ite {c : Prop} [Decidable c] (h : c → Loses s u) (h' : Loses s v) : Loses s (if c then u else v) := by
  split
  next hc => exact h hc
  · exact h'

theorem of_shows {fields : List (Nat × Field)} (h : Shows fields s u)
    (hClear : ∀ b < 12, clearOf fields (Reg.GAU_BANK b) Fld.GAU_BANK_STATE = true) : Loses s u :=
  ⟨by rw [h.energy], h.cmds, fun b hb _ => h.fget (by decide) (hClear b hb)⟩

theorem recompute' (s : State) : Loses s s.recompute' := of_shows s.recompute'_shows (by decide +kernel)

theorem event (s : State) (cls akind ld addr : Nat) (args : List Nat) : Loses s (s.event cls akind ld addr args) :=
  of_shows (s.event_shows cls akind ld addr args []) (by decide)

theorem want (s : State) (n : Nat) : Loses s { s with energy := { s.energy with wantSpare := n } } := ⟨rfl, rfl, fun _ _ _ => rfl⟩

theorem chargeSpare {k : Nat} (h : s.bankState k = 1) : Loses s (s.chargeSpare k) := by
  refine ⟨rfl, rfl, fun b hb hSpare => ?_⟩
  have hOther : Reg.GAU_BANK b ≠ Reg.GAU_BANK k := gauBank_injective fun hEq => hSpare (hEq ▸ h)
  have hStat : Reg.GAU_BANK b ≠ Reg.GAU_STAT := by simp only [Reg.GAU_BANK, Reg.GAU_STAT]; omega
  rw [State.bankState, State.chargeSpare, State.fget_fset_other _ _ _ _ hStat, State.setBankState, State.fget_fset_other _ _ _ _ hOther, State.bankState]

theorem chargeNext (u : State) : Loses u (match (List.range 12).find? fun k => u.bankState k == 1 with
    | some k => u.chargeSpare k
    | none => if u.spareBanks = [] then u else { u with energy := { u.energy with wantSpare := u.energy.wantSpare + 1 } }) := by
  split
  next k hFound => exact chargeSpare (by simpa using List.find?_some hFound)
  next => exact ite (fun _ => refl u) (want ..)

theorem replaceBank (s : State) (b : Nat) : Loses s (s.replaceBank b) := by
  rw [State.replaceBank_eq]
  exact ((recompute' s).trans (event ..)).trans (chargeNext (s.recompute'.event evGAUGE 4 0xFFFF b [s.bankState b]))

theorem bankLost (s : State) (b : Nat) (spare : Bool) : Loses s (s.bankLost b spare) := by
  have hOut : Loses s (if spare then s.recompute'.event evGAUGE 4 0xFFFF b [s.bankState b] else s.replaceBank b) :=
    ite (fun _ => (recompute' s).trans (event ..)) (replaceBank s b)
  exact ite (fun _ => hOut.trans (want ..)) hOut

theorem healthCheck (s : State) : Loses s s.healthCheck :=
  ⟨by rw [s.healthCheck_energy], s.healthCheck_cmds, fun _ hb _ => s.healthCheck_bankState hb⟩

theorem banks (h : Loses s u) : u.energy.banks = s.energy.banks := (congrArg Energy.banks h.energy).trans rfl
theorem test (h : Loses s u) : u.energy.test = s.energy.test := (congrArg Energy.test h.energy).trans rfl
theorem vbus (h : Loses s u) : u.energy.vbus = s.energy.vbus := (congrArg Energy.vbus h.energy).trans rfl

end Loses

/-! ### A test ends (R197, Table 6-2) -/

theorem State.selfTestNext_of_no_cmds {s : State} (h : s.cmds = []) : s.selfTestNext = s := by
  refine List.foldlRecOn (motive := fun u => u = s) _ _ rfl fun u hu b _ => ?_
  simp [hu, h, tfind]

/-- The state in which no test runs. -/
def State.testCleared (s : State) : State := { s with energy := { s.energy with test := none, testSpare := false } }

theorem State.bankTestEnds_idle {s : State} {b : Nat} (hTest : s.energy.test = some (b, none)) (hCmds : s.cmds = []) (complete : Bool) (esr cap : Nat)
    {u : State} (hu : (if complete then s.testCleared.testRecord b esr cap s.energy.testSpare else
      (s.testCleared.setBankState b 5).bankLost b s.energy.testSpare) = u) (hKept : u.cmds = s.cmds) :
    s.bankTestEnds complete esr cap = u.healthCheck := by
  have hServed : u.healthCheck.testServed b none complete = u.healthCheck :=
    State.selfTestNext_of_no_cmds (by rw [State.healthCheck_cmds, hKept, hCmds])
  rw [← hServed, ← hu, State.bankTestEnds, hTest]
  rfl

/-- The bank with the measurements of its test (Table 6-2, step 6). -/
def State.bankMeasured (s : State) (b esr cap : Nat) (spare : Bool) : State :=
  (s.setBank b { cTest := cap, tTest := s.energy.capTemp, own := if spare then 0 else s.energy.vbus, testedAt := s.clk.now }).fsetSat (Reg.GAU_BANK b)
    Fld.GAU_BANK_ESR esr

theorem State.testRecord_faded {esr cap : Nat} (h : cap < 600 ∨ 250 < esr) (s : State) (b : Nat) (spare : Bool) :
    s.testRecord b esr cap spare = ((s.bankMeasured b esr cap spare).setBankState b 4).bankLost b spare := if_pos h

theorem State.testRecord_active {esr cap : Nat} (hCap : 600 ≤ cap) (hEsr : esr ≤ 250) (s : State) (b : Nat) :
    s.testRecord b esr cap false = ((s.bankMeasured b esr cap false).setBankState b 0).recompute' :=
  (if_neg (by omega)).trans (if_neg (by decide))

theorem State.testRecord_spare {esr cap : Nat} (hCap : 600 ≤ cap) (hEsr : esr ≤ 250) {s : State} (hWant : s.energy.wantSpare = 0) (b : Nat) :
    s.testRecord b esr cap true = ((s.bankMeasured b esr cap true).setBankState b 1).recompute' := by
  refine (if_neg (by omega)).trans ((if_pos rfl).trans (if_pos ?_))
  rw [State.recompute'_energy]
  exact hWant

theorem State.bankMeasured_esr (s : State) (b cap : Nat) {esr : Nat} (h : esr ≤ 250) (spare : Bool) (v : Nat) :
    ((s.bankMeasured b esr cap spare).setBankState b v).fget (Reg.GAU_BANK b) Fld.GAU_BANK_ESR = esr := by
  have hMax : min esr (2 ^ fwidth Fld.GAU_BANK_ESR - 1) = esr := Nat.min_eq_left (h.trans (by decide))
  rw [State.setBankState, State.fget_fset_apart _ _ _ _ (by decide) (by decide) (by decide), State.bankMeasured, State.fget_fsetSat_same _ _ _ _ (by decide), hMax]

theorem State.bankMeasured_bank (s : State) (b esr cap : Nat) (spare : Bool) (v : Nat) : (((s.bankMeasured b esr cap spare).setBankState b v).bank b) =
    { cTest := cap, tTest := s.energy.capTemp, own := if spare then 0 else s.energy.vbus, testedAt := s.clk.now } := s.bank_setBank b _

/-- A state in which a bank has the state `v` and no test runs, and what a loss, a recompute or a health check leaves of it. -/
theorem Loses.leaves {s u : State} (h : Loses s u) {b v : Nat} (hb : b < 12) (hState : s.bankState b = v) (hNot : v ≠ 1) (hTest : s.energy.test = none) :
    u.settle.energy.test = none ∧ u.settle.bankState b = v := by
  rw [State.settle_energy, h.test, State.settle_bankState _ hb, h.bankState b hb (hState ▸ hNot)]
  exact ⟨hTest, hState⟩

theorem exec_spareBankTest_ends {s : State} {b : Nat} (hTest : s.energy.test = some (b, none)) (hSpare : s.energy.testSpare = true)
    (hState : s.bankState b = 2) (ok : Bool) (esr cap : Nat) : exec (.spareBankTest b ok esr cap) s = nextState (s.bankTestEnds ok esr cap) := by
  show execSpareBankTest b ok esr cap s = _
  rw [execSpareBankTest, if_neg (by omega), if_pos ⟨hTest, hSpare⟩]

section
variable (s : State) (b esr cap : Nat) (hb : b < 12) (hTest : s.energy.test = some (b, none)) (hCmds : s.cmds = [])
include hb hTest hCmds

theorem bankTestDone_measured (hActive : s.energy.testSpare = false) (hCap : 600 ≤ cap) (hEsr : esr ≤ 250) :
    ∃ t, exec (.bankTestDone true esr cap) s = .next t ∧ t.energy.test = none ∧ t.bankState b = 0 ∧ (t.bank b).cTest = cap ∧
      (t.bank b).tTest = s.energy.capTemp ∧ (t.bank b).testedAt = s.clk.now ∧ t.fget (Reg.GAU_BANK b) Fld.GAU_BANK_ESR = esr ∧
      t.fget Reg.GAU_TEST_CTL Fld.GAU_TEST_CTL_BUSY = 0 := by
  let m := (s.testCleared.bankMeasured b esr cap false).setBankState b 0
  have hEnds : exec (.bankTestDone true esr cap) s = nextState m.recompute'.healthCheck :=
    congrArg nextState (State.bankTestEnds_idle hTest hCmds true esr cap (by rw [if_pos rfl, hActive, State.testRecord_active hCap hEsr]) m.recompute'_shows.cmds)
  have hLoses : Loses m m.recompute'.healthCheck := (Loses.recompute' m).trans (.healthCheck _)
  have hBank : m.recompute'.healthCheck.settle.bank b = m.bank b := State.bank_congr (by rw [State.settle_energy, hLoses.banks]) b
  obtain ⟨hNone, hState⟩ := hLoses.leaves hb (State.bankState_setBankState _ _ (by decide)) (by decide) rfl
  refine nextState_exists hEnds ⟨hNone, hState, ?_, ?_, ?_, ?_, State.settle_testIdle hLoses.test⟩
  · rw [hBank, State.bankMeasured_bank]
  · rw [hBank, State.bankMeasured_bank]
    rfl
  · rw [hBank, State.bankMeasured_bank]
    rfl
  · rw [State.settle_bank _ hb, State.healthCheck_bank _ hb (by decide), State.recompute'_esr _ hb, State.bankMeasured_esr _ _ _ hEsr]

theorem bankTestDone_faded (hActive : s.energy.testSpare = false) (h : cap < 600 ∨ 250 < esr) :
    ∃ t, exec (.bankTestDone true esr cap) s = .next t ∧ t.energy.test = none ∧ t.bankState b = 4 := by
  let m := (s.testCleared.bankMeasured b esr cap false).setBankState b 4
  have hLost : Loses m (m.bankLost b false) := .bankLost ..
  have hEnds : exec (.bankTestDone true esr cap) s = nextState (m.bankLost b false).healthCheck :=
    congrArg nextState (State.bankTestEnds_idle hTest hCmds true esr cap (by rw [if_pos rfl, hActive, State.testRecord_faded h]) hLost.cmds)
  exact nextState_exists hEnds ((hLost.trans (.healthCheck _)).leaves hb (State.bankState_setBankState _ _ (by decide)) (by decide) rfl)

theorem spareBankTest_measured (hSpare : s.energy.testSpare = true) (hWant : s.energy.wantSpare = 0) (hState : s.bankState b = 2) (hCap : 600 ≤ cap)
    (hEsr : esr ≤ 250) :
    ∃ t, exec (.spareBankTest b true esr cap) s = .next t ∧ t.energy.test = none ∧ t.bankState b = 1 ∧ (t.bank b).cTest = cap := by
  let m := (s.testCleared.bankMeasured b esr cap true).setBankState b 1
  have hEnds : s.bankTestEnds true esr cap = m.recompute'.healthCheck :=
    State.bankTestEnds_idle hTest hCmds true esr cap (by rw [if_pos rfl, hSpare, State.testRecord_spare (s := s.testCleared) hCap hEsr hWant])
      m.recompute'_shows.cmds
  have hLoses : Loses m m.recompute'.healthCheck := (Loses.recompute' m).trans (.healthCheck _)
  have hBank : m.recompute'.healthCheck.settle.bank b = m.bank b := State.bank_congr (by rw [State.settle_energy, hLoses.banks]) b
  refine nextState_exists ((exec_spareBankTest_ends hTest hSpare hState true esr cap).trans (congrArg nextState hEnds)) ⟨?_, ?_, ?_⟩
  · rw [State.settle_energy, hLoses.test]
    rfl
  · rw [State.settle_bankState _ hb, State.healthCheck_bankState _ hb, State.recompute'_bankState _ hb]
    exact State.bankState_setBankState _ _ (by decide)
  · rw [hBank, State.bankMeasured_bank]

theorem spareBankTest_failed (hSpare : s.energy.testSpare = true) (hState : s.bankState b = 2) :
    ∃ t, exec (.spareBankTest b false esr cap) s = .next t ∧ t.energy.test = none ∧ t.bankState b = 5 := by
  let m := s.testCleared.setBankState b 5
  have hLost : Loses m (m.bankLost b true) := .bankLost ..
  have hEnds : s.bankTestEnds false esr cap = (m.bankLost b true).healthCheck :=
    State.bankTestEnds_idle hTest hCmds false esr cap (by rw [if_neg (by decide), hSpare]) hLost.cmds
  exact nextState_exists ((exec_spareBankTest_ends hTest hSpare hState false esr cap).trans (congrArg nextState hEnds))
    ((hLost.trans (.healthCheck _)).leaves hb (State.bankState_setBankState _ _ (by decide)) (by decide) rfl)
end

/-! ### Banks fail, connect, and are tested as spares (R197, R202) -/

theorem bankFailure_fails (s : State) (b : Nat) (hb : b < 12) (hState : s.bankState b < 4) (hPower : s.power ≠ .none) (hTest : s.energy.test = none) :
    ∃ t, exec (.bankFailure b) s = .next t ∧ t.bankState b = 5 ∧ t.energy.vbus = s.energy.vbus := by
  let m := s.setBankState b 5
  have hLoses (spare : Bool) : Loses m (m.bankLost b spare).healthCheck := (Loses.bankLost ..).trans (.healthCheck _)
  have hFails : exec (.bankFailure b) s = nextState (m.bankLost b (s.spareBanks.contains b)).healthCheck := by
    show nextState (s.bankFails b) = _
    rw [State.bankFails, if_pos ⟨hb, hState, hPower⟩, hTest]
    rfl
  refine nextState_exists hFails ⟨((hLoses _).leaves hb (State.bankState_setBankState _ _ (by decide)) (by decide) hTest).2, ?_⟩
  rw [State.settle_energy, (hLoses _).vbus]
  rfl

theorem spareBankConnect_connects (s : State) (b : Nat) (hb : b < 12) (hState : s.bankState b = 3) :
    ∃ t, exec (.spareBankConnect b) s = .next t ∧ t.bankState b = 0 ∧ (t.bank b).own = s.energy.vbus ∧ (t.bank b).cTest = (s.bank b).cTest := by
  let m := (s.setBankState b 0).setBank b { s.bank b with own := s.energy.vbus }
  have hConnects : exec (.spareBankConnect b) s = nextState m.recompute' := congrArg nextState (if_pos ⟨hb, hState⟩)
  have hBank : m.recompute'.settle.bank b = { s.bank b with own := s.energy.vbus } :=
    (State.bank_congr (by rw [State.settle_energy, State.recompute'_energy]) b).trans (State.bank_setBank ..)
  refine nextState_exists hConnects ⟨?_, by rw [hBank], by rw [hBank]⟩
  rw [State.settle_bankState _ hb, State.recompute'_bankState _ hb]
  exact State.bankState_setBankState s b (by decide)

theorem spareBankTest_starts (s : State) (b esr cap : Nat) (ok : Bool) (hb : b < 12) (hState : s.bankState b = 1) (hCan : s.canTest = true) :
    ∃ t, exec (.spareBankTest b ok esr cap) s = .next t ∧ t.energy.test = some (b, none) ∧ t.energy.testSpare = true ∧ t.bankState b = 2 ∧
      t.fget Reg.GAU_TEST_CTL Fld.GAU_TEST_CTL_BANK = b ∧ t.fget Reg.GAU_TEST_CTL Fld.GAU_TEST_CTL_BUSY = 1 ∧
      Frame s t [.energy] [Reg.GAU_BANK b, Reg.GAU_TEST_CTL] := by
  have hExec : exec (.spareBankTest b ok esr cap) s = nextState (s.testStart b none) := if_pos ⟨hb, hState, hCan⟩
  obtain ⟨last, hEnergy⟩ := s.testStart_energy b none
  refine nextState_exists hExec ⟨?_, ?_, ?_, ?_, State.settle_testBusy rfl, s.testStart_frame b none⟩
  · rw [State.settle_energy, hEnergy]
  · rw [State.settle_energy, hEnergy, hState]
    rfl
  · rw [State.settle_bankState _ hb, State.testStart_bankState _ _ _ hb]
  · rw [State.settle_testBank, State.testStart_ctl _ _ _ hb]

/-- Settles O28, event by event: a recompute sets fields of the gauge alone, so that a bank's state and measurements stay as the test or the loss left them; a loss
touches no bank but a spare. -/
theorem gaugeAndBanks : Obligations.GaugeAndBanks :=
  ⟨⟨gaugeRecompute_measures, reserveCharged_first⟩,
    ⟨bankTest_isolates, gauTestForce_isolates,
      fun s b esr cap hb hTest hActive hCmds => bankTestDone_measured s b esr cap hb hTest hCmds hActive,
      fun s b esr cap hb hTest hActive hCmds => bankTestDone_faded s b esr cap hb hTest hCmds hActive⟩,
    ⟨bankFailure_fails, spareBankConnect_connects, spareBankTest_starts,
      fun s b esr cap hb hTest hSpare hWant hState hCmds => spareBankTest_measured s b esr cap hb hTest hCmds hSpare hWant hState,
      fun s b esr cap hb hTest hSpare hState hCmds => spareBankTest_failed s b esr cap hb hTest hCmds hSpare hState⟩⟩

end Sys2Proof.Machine

namespace Sys2Proof.Machine

/-! ### What a table holds once blocks of keys are left out -/

theorem tget_filter_key {α : Type} (p : Nat → Bool) (t : Tbl α) (k : Nat) :
    tget (t.filter fun e => p e.1) k = if p k then tget t k else none := by
  induction t with
  | nil => simp [tget]
  | cons e t ih =>
    obtain ⟨i, v⟩ := e
    by_cases hKey : i = k
    · subst hKey
      cases hp : p i <;> simp [tget, hp, ih]
    · cases hp : p i <;> simp [tget, hp, hKey, ih]

/-- A register of a block that is reset reads its reset value, any other what it read. -/
theorem State.resetBlock_reg (s : State) (p : Nat → Bool) (off : Nat) : (s.resetBlock p).reg off = if p off then regReset off else s.reg off := by
  simp only [State.resetBlock, State.reg, dget, tget_filter_key (fun k => !p k)]
  cases p off <;> rfl

/-! ### The rings lose their state (R239) -/

/-- The records of the writes that a lost command leaves unwritten are all that its end adds. -/
theorem State.unwrite_eq (s : State) (ring : Nat) (c : Cmd) (status r0 : Nat) :
    s.unwrite ring c status r0 = { s with rings := { s.rings with unwritten := (s.unwrite ring c status r0).rings.unwritten } } := by
  unfold State.unwrite
  split
  · rfl
  · rfl

/-- Commands that are lost leave the command table, and records of what was not written. -/
theorem State.loseCmds_eq (s : State) (p : Carrier → Bool) : s.loseCmds p =
    { s with cmds := (s.loseCmds p).cmds, rings := { s.rings with unwritten := (s.loseCmds p).rings.unwritten } } := by
  unfold State.loseCmds
  extract_lets ends cmds gone
  refine List.foldlRecOn (motive := fun u : State => u = { s with cmds := u.cmds, rings := { s.rings with unwritten := u.rings.unwritten } })
    gone _ rfl fun u hu e _ => ?_
  rw [State.unwrite_eq, hu]

/-- The control register of ring `n`, once its block is reset, keeps these fields of what it read. -/
def State.keepRingCtl (s : State) (n : Nat) (w : W64) : State :=
  (s.fset (Reg.CRG_CTL n) Fld.CRG_CTL_LDMASK (getF w Fld.CRG_CTL_LDMASK)).fset (Reg.CRG_CTL n) Fld.CRG_CTL_TEST_EN (getF w Fld.CRG_CTL_TEST_EN)

/-- What the control register of ring `n` read before the reset. -/
def State.ringCtlBefore (s : State) (n : Nat) : W64 := ((List.range 8).map fun n => s.reg (Reg.CRG_CTL n)).getD n 0

theorem State.ringCtlBefore_eq (s : State) {n : Nat} (h : n < 8) : s.ringCtlBefore n = s.reg (Reg.CRG_CTL n) := by
  simp [State.ringCtlBefore, h]

/-- The registers once the rings have lost their state. -/
def State.ringRegsLost (s : State) : State :=
  (List.range 8).foldl (fun u n => u.keepRingCtl n (s.ringCtlBefore n))
    (s.resetBlock fun o => decide (0x10000 ≤ o ∧ o < 0x20000))

theorem State.loseRings_of_regs (s : State) : s.loseRings = { s.ringRegsLost.loseCmds isRing with
    rings := { Rings.init with unwritten := (s.ringRegsLost.loseCmds isRing).rings.unwritten } } := rfl

theorem State.keepRingCtl_reg_other (s : State) {n off : Nat} (w : W64) (h : off ≠ Reg.CRG_CTL n) : (s.keepRingCtl n w).reg off = s.reg off := by
  rw [State.keepRingCtl, State.reg_fset_other _ _ _ _ h, State.reg_fset_other _ _ _ _ h]

theorem State.ringRegsLost_regsOnly (s : State) : RegsOnly s s.ringRegsLost :=
  RegsOnly.trans (u := s.resetBlock _) rfl (.foldl (f := fun u n => u.keepRingCtl n (s.ringCtlBefore n)) (fun _ _ => rfl) _ _)

/-- A register outside the block of the rings stays as it was. -/
theorem State.ringRegsLost_reg (s : State) {off : Nat} (h : off < 0x10000 ∨ 0x20000 ≤ off) : s.ringRegsLost.reg off = s.reg off := by
  refine List.foldlRecOn (motive := fun u : State => u.reg off = s.reg off) _ _ ?_ fun u hu n hn => ?_
  · have hOut : ¬(0x10000 ≤ off ∧ off < 0x20000) := by omega
    rw [State.resetBlock_reg, decide_eq_false hOut]
    rfl
  · have hRing : off ≠ Reg.CRG_CTL n := by
      have := List.mem_range.1 hn
      unfold Reg.CRG_CTL
      omega
    rw [State.keepRingCtl_reg_other _ _ hRing, hu]

/-- Updates one after the other, each of the register of its own ring: a register is as its own update leaves it. -/
theorem foldl_reg_of_mem {f : State → Nat → State} {r : Nat → Nat} {g : Nat → W64 → W64} (hSame : ∀ u n, (f u n).reg (r n) = g n (u.reg (r n)))
    (hOther : ∀ u n off, off ≠ r n → (f u n).reg off = u.reg off) (hInj : Function.Injective r) {l : List Nat} (hNodup : l.Nodup) {n : Nat}
    (hMem : n ∈ l) (s : State) : (l.foldl f s).reg (r n) = g n (s.reg (r n)) := by
  induction l generalizing s with
  | nil => simp at hMem
  | cons m l ih =>
    obtain ⟨hNotIn, hRest⟩ := List.nodup_cons.1 hNodup
    rcases List.mem_cons.1 hMem with rfl | hMem
    · have hLater : ∀ u : State, (l.foldl f u).reg (r n) = u.reg (r n) := fun u =>
        List.foldlRecOn (motive := fun t : State => t.reg (r n) = u.reg (r n)) l f rfl fun t ht m hm =>
          (hOther t m _ fun hEq : r n = r m => hNotIn (hInj hEq ▸ hm)).trans ht
      exact (hLater _).trans (hSame s n)
    · have hApart : r n ≠ r m := fun hEq => hNotIn (hInj hEq ▸ hMem)
      rw [List.foldl_cons, ih hRest hMem, hOther _ _ _ hApart]

/-- The control register of a ring reads its reset value, but for LDMASK and TEST_EN. -/
theorem State.ringRegsLost_ctl (s : State) {n : Nat} (h : n < 8) : s.ringRegsLost.reg (Reg.CRG_CTL n) =
    setF (setF (regReset (Reg.CRG_CTL n)) Fld.CRG_CTL_LDMASK (s.fget (Reg.CRG_CTL n) Fld.CRG_CTL_LDMASK)) Fld.CRG_CTL_TEST_EN
      (s.fget (Reg.CRG_CTL n) Fld.CRG_CTL_TEST_EN) := by
  have hReset : (s.resetBlock fun o => decide (0x10000 ≤ o ∧ o < 0x20000)).reg (Reg.CRG_CTL n) = regReset (Reg.CRG_CTL n) := by
    have hIn : 0x10000 ≤ Reg.CRG_CTL n ∧ Reg.CRG_CTL n < 0x20000 := by
      unfold Reg.CRG_CTL
      omega
    rw [State.resetBlock_reg, if_pos (decide_eq_true hIn)]
  refine (foldl_reg_of_mem (r := Reg.CRG_CTL) (f := fun u m => u.keepRingCtl m (s.ringCtlBefore m))
    (g := fun m w => setF (setF w Fld.CRG_CTL_LDMASK (getF (s.ringCtlBefore m) Fld.CRG_CTL_LDMASK)) Fld.CRG_CTL_TEST_EN
      (getF (s.ringCtlBefore m) Fld.CRG_CTL_TEST_EN))
    (fun u m => by simp only [State.keepRingCtl, State.reg_fset_same]) (fun u m off hOff => State.keepRingCtl_reg_other u _ hOff)
    (fun a b hEq => by unfold Reg.CRG_CTL at hEq; omega) List.nodup_range (List.mem_range.2 h) _).trans ?_
  rw [hReset, s.ringCtlBefore_eq h]
  rfl

/-- From `s` to `u` the rings have lost their state, and nothing else: what is left of them are the records of what was not written, LDMASK and TEST_EN. -/
structure RingsLost (s u : State) : Prop where
  rest : u = { s with regs := u.regs, cmds := u.cmds, rings := { Rings.init with unwritten := u.rings.unwritten } }
  ctl : ∀ n, n < 8 → u.fget (Reg.CRG_CTL n) Fld.CRG_CTL_ENABLE = 0 ∧
    u.fget (Reg.CRG_CTL n) Fld.CRG_CTL_LDMASK = s.fget (Reg.CRG_CTL n) Fld.CRG_CTL_LDMASK
  reg : ∀ off, off < 0x10000 ∨ 0x20000 ≤ off → u.reg off = s.reg off

theorem State.loseRings_lost (s : State) : RingsLost s s.loseRings := by
  have hRegs : s.loseRings.regs = s.ringRegsLost.regs := by rw [State.loseRings_of_regs, State.loseCmds_eq]
  refine ⟨?_, fun n hn => ?_, fun off hOff => ?_⟩
  · rw [State.loseRings_of_regs, State.loseCmds_eq, show s.ringRegsLost = _ from s.ringRegsLost_regsOnly]
  · have hOff : getF (regReset (Reg.CRG_CTL n)) Fld.CRG_CTL_ENABLE = 0 :=
      (by decide +kernel : ∀ n < 8, getF (regReset (Reg.CRG_CTL n)) Fld.CRG_CTL_ENABLE = 0) n hn
    rw [State.fget_congr _ _ hRegs, State.fget_congr _ _ hRegs, State.fget, State.fget, s.ringRegsLost_ctl hn]
    constructor
    · rw [getF_setF_apart _ _ _ _ (by decide) (by decide) (by decide), getF_setF_apart _ _ _ _ (by decide) (by decide) (by decide), hOff]
    · rw [getF_setF_apart _ _ _ _ (by decide) (by decide) (by decide)]
      exact getF_setF_same _ _ _ (by decide) (getF_lt ..)
  · rw [State.reg_congr _ hRegs, s.ringRegsLost_reg hOff]

namespace RingsLost

variable {s u : State}

theorem cxl (h : RingsLost s u) : u.cxl = s.cxl := (congrArg State.cxl h.rest).trans rfl
theorem crypto (h : RingsLost s u) : u.crypto = s.crypto := (congrArg State.crypto h.rest).trans rfl
theorem power (h : RingsLost s u) : u.power = s.power := (congrArg State.power h.rest).trans rfl
theorem tlc (h : RingsLost s u) : u.tlc = s.tlc := (congrArg State.tlc h.rest).trans rfl
theorem med (h : RingsLost s u) : u.med = s.med := (congrArg State.med h.rest).trans rfl
theorem hanks (h : RingsLost s u) : u.hanks = s.hanks := (congrArg State.hanks h.rest).trans rfl
theorem coal (h : RingsLost s u) : u.rings.coal = List.replicate 8 0 := (congrArg (fun t : State => t.rings.coal) h.rest).trans rfl

theorem keeps (h : RingsLost s u) : Keeps s u [.regs, .rings, .cmds] := by
  rw [h.rest]
  refine ⟨rfl, fun p hp => ?_⟩
  cases p with
  | regs | rings | cmds => simp at hp
  | _ => rfl

end RingsLost

theorem State.settle_ringCtl (s : State) {n : Nat} (h : n < 8) (f : Field) : s.settle.fget (Reg.CRG_CTL n) f = s.fget (Reg.CRG_CTL n) f := by
  rw [State.fget, State.settle_reg _ ((by decide : ∀ n < 8, quietReg (Reg.CRG_CTL n) = true) n h), State.fget]

/-! ### The resets of the attachment (R238 to R240, R278) -/

theorem flr_resets (s : State) : ∃ t, exec .flr s = .next t ∧ t.rings.coal = List.replicate 8 0 ∧
    (∀ n, n < 8 → t.fget (Reg.CRG_CTL n) Fld.CRG_CTL_ENABLE = 0 ∧
      t.fget (Reg.CRG_CTL n) Fld.CRG_CTL_LDMASK = s.fget (Reg.CRG_CTL n) Fld.CRG_CTL_LDMASK) ∧
    (∀ off, off < 0x10000 ∨ 0x20000 ≤ off → quietReg off = true → t.reg off = s.reg off) ∧ Keeps s t [.regs, .rings, .cmds] := by
  have hLost := s.loseRings_lost
  refine nextState_exists (u := s.loseRings) rfl ⟨?_, fun n hn => ?_, fun off hOff hQuiet => ?_, hLost.keeps.settle⟩
  · rw [State.settle_rings, hLost.coal]
  · rw [State.settle_ringCtl _ hn, State.settle_ringCtl _ hn]
    exact hLost.ctl n hn
  · rw [State.settle_reg _ hQuiet, hLost.reg off hOff]

/-- The host link and the IDE keys are gone. -/
def State.attachmentDown (s : State) : State :=
  { s with
    cxl := { s.cxl with perst := true, linkUp := false, cxlOn := false, decoders := [], hdmErr := [] }
    crypto := { s.crypto with ideMem := [], ideIo := [], ideMemSecure := false, ideIoSecure := false, ideMemFailed := false } }

theorem State.attachmentDown_keeps (s : State) : Keeps s s.attachmentDown [.crypto, .cxl] := by
  refine ⟨rfl, fun p hp => ?_⟩
  cases p with
  | crypto | cxl => simp at hp
  | regs => exact fun _ _ _ => rfl
  | cmds => exact ⟨rfl, rfl⟩
  | _ => rfl

theorem perstAssert_resets (s : State) : ∃ t, exec .perstAssert s = .next t ∧
    t.cxl = { s.cxl with perst := true, linkUp := false, cxlOn := false, decoders := [], hdmErr := [] } ∧
    t.crypto = { s.crypto with ideMem := [], ideIo := [], ideMemSecure := false, ideIoSecure := false, ideMemFailed := false } ∧
    (∀ off, off < 0x10000 ∨ 0x20000 ≤ off → quietReg off = true → t.reg off = s.reg off) ∧ Keeps s t [.regs, .crypto, .cxl, .rings, .cmds] := by
  have hLost := s.loseRings_lost
  refine nextState_exists (u := s.loseRings.attachmentDown) rfl ⟨?_, ?_, fun off hOff hQuiet => ?_, ?_⟩
  · rw [State.settle_cxl, State.attachmentDown, hLost.cxl]
  · rw [State.settle_crypto, State.attachmentDown, hLost.crypto]
  · rw [State.settle_reg _ hQuiet]
    exact hLost.reg off hOff
  · exact ((hLost.keeps.mono (by decide)).trans ((State.attachmentDown_keeps _).mono (by decide))).settle

/-- What a CXL Reset takes beside the rings and the mailboxes' commands. -/
def State.linkReset (s : State) : State :=
  { s with cxl := { s.cxl with decoders := [], hdmErr := [], mboxBusy := [] }, plat := { s.plat with coldHold := false } }

/-- The module with its line cache invalidated and its rings and mailboxes emptied. -/
def State.hostSideLost (s : State) : State := (s.setCache []).invalStart.loseRings.loseCmds fun c => !(isRing c) && c != .mctp

theorem exec_cxlReset_on {s : State} (hOn : s.power = .on) (hDone : s.adm.dl = []) : exec .cxlReset s = nextState s.hostSideLost.linkReset := by
  show execCxlReset s = _
  rw [execCxlReset, if_neg (by rw [hOn]; decide), if_pos hOn, hDone]
  rfl

/-- With no request accepted, a CXL Reset leaves the pool, the medium, the keys and the hanks as they stand. -/
theorem cxlReset_resets (s : State) (hOn : s.power = .on) (hDone : s.adm.dl = []) :
    ∃ t, exec .cxlReset s = .next t ∧ t.power = .on ∧ t.cxl.decoders = [] ∧ t.cxl.mboxBusy = [] ∧ t.tlc.cache = [] ∧ t.plat.coldHold = false ∧
      t.tlc.pool = s.tlc.pool ∧ t.med = s.med ∧ t.crypto = s.crypto ∧ t.hanks = s.hanks := by
  have hLost := (s.setCache []).invalStart.loseRings_lost
  have hCmds := State.loseCmds_eq (s.setCache []).invalStart.loseRings fun c => !(isRing c) && c != .mctp
  have hPower : s.hostSideLost.power = .on := ((congrArg State.power hCmds).trans hLost.power).trans hOn
  have hTlc : s.hostSideLost.tlc = { s.tlc with cache := [], inval := true } := (congrArg State.tlc hCmds).trans hLost.tlc
  have hMed : s.hostSideLost.med = s.med := (congrArg State.med hCmds).trans hLost.med
  have hCrypto : s.hostSideLost.crypto = s.crypto := (congrArg State.crypto hCmds).trans hLost.crypto
  have hHanks : s.hostSideLost.hanks = s.hanks := (congrArg State.hanks hCmds).trans hLost.hanks
  refine nextState_exists (exec_cxlReset_on hOn hDone) ?_
  simp only [State.settle_power, State.settle_cxl, State.settle_tlc, State.settle_plat, State.settle_med, State.settle_crypto, State.settle_hanks,
    State.linkReset, hPower, hTlc, hMed, hCrypto, hHanks, and_self]

/-- Settles O34, reset by reset: each takes the rings' state by `State.loseRings`, which changes no register outside their block, and clears what it names
of the link, the line cache and the mailboxes. -/
theorem resetsKeepTheData : Obligations.ResetsKeepTheData :=
  ⟨flr_resets, perstAssert_resets, fun _ => rfl, cxlReset_resets⟩

end Sys2Proof.Machine

namespace Sys2Proof.Machine

/-! ### Bits of a field -/

/-- A power of two that is not yet in a number adds no bit but its own. -/
theorem testBit_two_pow_add_of_clear {x b j : Nat} (hClear : x.testBit b = false) (h : j ≠ b) : (2 ^ b + x).testBit j = x.testBit j := by
  rcases Nat.lt_or_gt_of_ne h with hLow | hHigh
  · exact Nat.testBit_two_pow_add_gt hLow x
  · obtain ⟨i, rfl⟩ := Nat.exists_eq_add_of_lt hHigh
    have hEven : x / 2 ^ b % 2 = 0 := by simpa [Nat.testBit_eq_decide_div_mod_eq] using hClear
    have hAbove : (2 ^ b + x) / 2 ^ (b + 1) = x / 2 ^ (b + 1) := by
      rw [Nat.pow_succ, ← Nat.div_div_eq_div_mul, ← Nat.div_div_eq_div_mul, Nat.add_div_left _ (Nat.two_pow_pos b)]
      omega
    have hShift (y : Nat) : y.testBit (b + i + 1) = (y / 2 ^ (b + 1)).testBit i := by
      rw [Nat.testBit_div_two_pow]
      congr 1
      omega
    rw [hShift, hShift, hAbove]

theorem State.fbit_fsetBit_other (s : State) (off : Nat) {f : Field} {b j : Nat} (hFits : f.Fits) (h : j ≠ b) :
    (s.fsetBit off f b true).fbit off f j = s.fbit off f j := by
  unfold State.fsetBit
  dsimp only
  split
  next => rfl
  next hClear =>
    have hBelow : (s.fget off f).testBit j = (decide (j < fwidth f) && (s.fget off f).testBit j) := by
      rw [State.fget, testBit_getF, ← Bool.and_assoc, Bool.and_self]
    unfold State.fbit
    rw [if_pos rfl, State.fget_fset_mod _ _ _ _ hFits, Nat.testBit_mod_two_pow, Nat.add_comm,
      testBit_two_pow_add_of_clear (Bool.eq_false_iff.2 hClear) h, ← hBelow]

theorem State.fsetBit_fget_other (s : State) (f : Field) (b : Nat) (v : Bool) (g : Field) {o off : Nat} (h : o ≠ off) :
    (s.fsetBit off f b v).fget o g = s.fget o g := by
  unfold State.fsetBit
  dsimp only
  split
  · rfl
  · exact State.fget_fset_other _ _ _ _ h

theorem State.fbit_congr {s u : State} {off : Nat} {f : Field} (h : u.fget off f = s.fget off f) (b : Nat) : u.fbit off f b = s.fbit off f b := by
  rw [State.fbit, h, State.fbit]

/-- A field all of whose bits are set, of a register that is nothing but this field. -/
theorem State.reg_eq_allOnes {s : State} {off : Nat} (h : ∀ b, b < 64 → s.fbit off ⟨63, 0⟩ b = true) : s.reg off = BitVec.allOnes 64 := by
  apply BitVec.eq_of_getLsbD_eq
  intro b hb
  have hBit := h b hb
  rw [State.fbit, State.fget, testBit_getF, Nat.zero_add, Bool.and_eq_true] at hBit
  rw [hBit.2, BitVec.getLsbD_allOnes, decide_eq_true hb]

theorem State.fsetBit_shows (s : State) {fields : List (Nat × Field)} {off : Nat} {f : Field} (hMem : (off, f) ∈ fields) (b : Nat) (v : Bool) :
    Shows fields s (s.fsetBit off f b v) :=
  .ite .refl (.set _ .refl hMem)

namespace Shows

variable {fields : List (Nat × Field)} {s u : State}

theorem hanks (h : Shows fields s u) : u.hanks = s.hanks := (congrArg State.hanks h.eventsOnly).trans rfl
theorem med (h : Shows fields s u) : u.med = s.med := (congrArg State.med h.eventsOnly).trans rfl
theorem crypto (h : Shows fields s u) : u.crypto = s.crypto := (congrArg State.crypto h.eventsOnly).trans rfl
theorem cast (h : Shows fields s u) : u.cast = s.cast := (congrArg State.cast h.eventsOnly).trans rfl
theorem cxl (h : Shows fields s u) : u.cxl = s.cxl := (congrArg State.cxl h.eventsOnly).trans rfl

end Shows

/-! ### Readiness bits (R229, R232) -/

theorem State.setReady_ready_other (s : State) {n m : Nat} (h : m ≠ n) : (s.setReady n true).ready m = s.ready m := by
  by_cases hReady : s.ready n = true
  · rw [State.setReady, if_pos hReady]
  · have hTime : Reg.RDY_STATUS ≠ Reg.RDY_TIME n := by simp only [Reg.RDY_STATUS, Reg.RDY_TIME]; omega
    rw [State.ready_congr (s.setReady_reg n true hTime (by decide) hReady)]
    exact s.fbit_fsetBit_other Reg.RDY_STATUS (by decide) h

theorem State.settle_ready (s : State) (n : Nat) : s.settle.ready n = s.ready n := State.ready_congr (s.settle_reg (by decide)) n

theorem State.healthCheck_ready (s : State) (n : Nat) : s.healthCheck.ready n = s.ready n :=
  State.ready_of_fget (s.healthCheck_fget (by decide) (by decide)) n

/-- A function that is not ready and fails shows so: its FAIL bit rises, and its READY bit stays clear. -/
theorem State.setFail_shows {s : State} {n : Nat} (hReady : s.ready n = false) (hFail : s.failedBit n = false) :
    Shows [] (s.fsetBit Reg.RDY_STATUS Fld.RDY_STATUS_FAIL n true) (s.setFail n) := by
  have hStays : s.setReady n false = s := if_pos hReady
  unfold State.setFail
  rw [hStays, if_neg (by rw [hFail]; decide)]
  exact .ite (.event _ _ _ _ _ _ (.event _ _ _ _ _ _ .refl)) (.event _ _ _ _ _ _ .refl)

theorem keeps_withCrypto (s : State) (x : Crypto) : Keeps s { s with crypto := x } [.crypto] := by
  refine ⟨rfl, fun p hp => ?_⟩
  cases p with
  | crypto => simp at hp
  | regs => exact fun _ _ _ => rfl
  | cmds => exact ⟨rfl, rfl⟩
  | _ => rfl

/-! ### The keys come up (R229, R251, R259) -/

/-- From `s` to `u` key slots and the on-chip store have changed, and events have been raised. -/
structure SlotsOnly (s u : State) : Prop where
  rest : u = { s with
    regs := u.regs, hwSet := u.hwSet, outbox := u.outbox, logs := u.logs, hist := u.hist
    crypto := { s.crypto with slots := u.crypto.slots, store := u.crypto.store } }
  reg : ∀ off, off ≠ Reg.HST_STAT → u.reg off = s.reg off

namespace SlotsOnly

variable {s u v : State}

theorem refl (s : State) : SlotsOnly s s := ⟨rfl, fun _ _ => rfl⟩

theorem trans (h : SlotsOnly s u) (h' : SlotsOnly u v) : SlotsOnly s v := by
  refine ⟨Eq.trans h'.rest ?_, fun off hOff => (h'.reg off hOff).trans (h.reg off hOff)⟩
  rw [h.rest]

theorem ite {c : Prop} [Decidable c] (h : SlotsOnly s u) (h' : SlotsOnly s v) : SlotsOnly s (if c then u else v) := by
  split
  · exact h
  · exact h'

theorem foldl {α : Type} {f : State → α → State} (h : ∀ s x, SlotsOnly s (f s x)) (l : List α) (s : State) : SlotsOnly s (l.foldl f s) :=
  List.foldlRecOn l f (refl s) fun _ hu x _ => hu.trans (h _ x)

theorem setSlot (s : State) (n : Nat) (k : KeySlot) : SlotsOnly s (s.setSlot n k) := ⟨rfl, fun _ _ => rfl⟩

theorem eventSev (s : State) (cls sev akind ld addr : Nat) (args : List Nat) : SlotsOnly s (s.eventSev cls sev akind ld addr args) := by
  refine ⟨?_, fun off hOff => s.eventSev_reg _ _ _ _ _ _ hOff⟩
  unfold State.eventSev
  rw [State.record_eq]

theorem keyGone (s : State) (n : Nat) : SlotsOnly s (s.keyGone n) := (setSlot ..).trans ⟨rfl, fun _ _ => rfl⟩

/-- The slot changes that power loss interrupted touch slots and the store alone. -/
theorem fixSlots (s : State) : SlotsOnly s s.fixSlots :=
  foldl (fun _ _ => ite (setSlot ..) (ite ((keyGone ..).trans (eventSev ..)) (ite ((setSlot ..).trans (eventSev ..)) (refl _)))) _ s

theorem unwrapKeys (s : State) : SlotsOnly s s.unwrapKeys := ⟨rfl, fun _ _ => rfl⟩

theorem nodes (h : SlotsOnly s u) : u.crypto.nodes = s.crypto.nodes := (congrArg (fun t : State => t.crypto.nodes) h.rest).trans rfl

theorem keeps (h : SlotsOnly s u) : Keeps s u (eventParts ++ [.regs, .crypto]) := by
  rw [h.rest]
  refine ⟨rfl, fun p hp => ?_⟩
  cases p with
  | regs | outbox | crypto | logs | hist => simp [eventParts] at hp
  | cmds => exact ⟨rfl, rfl⟩
  | _ => rfl

end SlotsOnly

/-- An engine that was off is ready. -/
def State.engineUp (s : State) (n : Nat) : State := if s.engineState n = 0 then s.fset Reg.KEY_STAT (engineField n) 1 else s

theorem State.enginesUp_eq (s : State) : s.enginesUp = (s.engineUp 0).engineUp 1 := rfl

theorem State.engineUp_same (s : State) : (s.engineUp 0).engineState 0 = if s.engineState 0 = 0 then 1 else s.engineState 0 := by
  unfold State.engineUp
  split
  · exact s.fget_fset_same _ _ _ (by decide) (by decide)
  · rfl

theorem State.engineUp_other (s : State) : (s.engineUp 1).engineState 0 = s.engineState 0 := by
  unfold State.engineUp
  split
  · exact s.fget_fset_apart _ _ _ (by decide) (by decide) (by decide)
  · rfl

theorem State.enginesUp_engine (s : State) : s.enginesUp.engineState 0 = if s.engineState 0 = 0 then 1 else s.engineState 0 := by
  rw [State.enginesUp_eq, State.engineUp_other, State.engineUp_same]

theorem State.enginesUp_shows (s : State) : Shows [(Reg.KEY_STAT, engineField 0), (Reg.KEY_STAT, engineField 1)] s s.enginesUp := by
  rw [State.enginesUp_eq]
  have hUp (u : State) (n : Nat) (h : (Reg.KEY_STAT, engineField n) ∈ [(Reg.KEY_STAT, engineField 0), (Reg.KEY_STAT, engineField 1)]) :
      Shows [(Reg.KEY_STAT, engineField 0), (Reg.KEY_STAT, engineField 1)] u (u.engineUp n) := .ite (.set _ .refl h) .refl
  exact (hUp s 0 (by simp)).trans (hUp _ 1 (by simp))

theorem State.slotTotals_shows (s : State) : Shows [(Reg.KEY_STAT, Fld.KEY_STAT_LOADED), (Reg.KEY_STAT, Fld.KEY_STAT_RETIRED)] s s.slotTotals :=
  .set _ (.set _ .refl (by simp)) (by simp)

/-- The retirements that power loss interrupted are over. -/
def State.retirementsOver (s : State) : State := { s with crypto := { s.crypto with retiring := [] } }

/-- The keys unwrapped and the engines up, before KEYS shows it. -/
def State.keysUp (s : State) : State := s.fixSlots.unwrapKeys.enginesUp.retirementsOver.slotTotals

theorem exec_keysReady_passes {s : State} (hOn : s.power = .on) (hPll : s.clk.pll = true) (hReady : s.ready rKEYS = false)
    (hFail : s.failedBit rKEYS = false) (hEngine : s.engineState 0 ≠ 2) : exec (.keysReady true true) s = nextState (s.keysUp.setReady rKEYS true) := by
  show execKeysReady true true s = _
  have hOk : (true && true && (s.engineState 0 != 2 || s.engineState 1 != 2)) = true := by simp [hEngine]
  rw [execKeysReady, if_pos ⟨hOn, hPll, hReady, hFail⟩, if_pos hOk]
  rfl

theorem State.keysUp_slots (s : State) : SlotsOnly s s.fixSlots.unwrapKeys := (SlotsOnly.fixSlots s).trans (.unwrapKeys _)

theorem State.keysUp_crypto (s : State) : s.keysUp.crypto = { s.fixSlots.unwrapKeys.crypto with retiring := [] } := by
  rw [State.keysUp, (State.slotTotals_shows _).crypto, State.retirementsOver, (State.enginesUp_shows _).crypto]

theorem State.keysUp_engine (s : State) : s.keysUp.engineState 0 = if s.engineState 0 = 0 then 1 else s.engineState 0 := by
  have hSlots : s.fixSlots.unwrapKeys.engineState 0 = s.engineState 0 := by
    rw [State.engineState, State.fget, s.keysUp_slots.reg _ (by decide), State.engineState, State.fget]
  have hTotals : s.keysUp.engineState 0 = s.fixSlots.unwrapKeys.enginesUp.engineState 0 :=
    (State.slotTotals_shows s.fixSlots.unwrapKeys.enginesUp.retirementsOver).fget (by decide) (by decide)
  rw [hTotals, State.enginesUp_engine, hSlots]

theorem State.keysUp_keeps (s : State) : Keeps s s.keysUp (eventParts ++ [.regs, .crypto]) :=
  ((s.keysUp_slots.keeps.trans ((State.enginesUp_shows _).keeps.mono (by decide))).trans ((keeps_withCrypto _ _).mono (by decide))).trans
    ((State.slotTotals_shows _).keeps.mono (by decide))

theorem State.settle_engine (s : State) : s.settle.engineState 0 = s.engineState 0 := s.settle_fget (by decide) (by decide)

theorem keysReady_comesUp (s : State) (hOn : s.power = .on) (hPll : s.clk.pll = true) (hReady : s.ready rKEYS = false)
    (hFail : s.failedBit rKEYS = false) (hEngine : s.engineState 0 ≠ 2) :
    ∃ t, exec (.keysReady true true) s = .next t ∧ t.ready rKEYS = true ∧
      t.engineState 0 = (if s.engineState 0 = 0 then 1 else s.engineState 0) ∧ t.crypto.retiring = [] ∧ t.crypto.nodes = s.crypto.nodes ∧
      Keeps s t (eventParts ++ [.regs, .crypto]) := by
  refine nextState_exists (exec_keysReady_passes hOn hPll hReady hFail hEngine) ⟨?_, ?_, ?_, ?_, ?_⟩
  · rw [State.settle_ready]
    exact State.setReady_ready _ (by decide)
  · have hShown : (s.keysUp.setReady rKEYS true).engineState 0 = s.keysUp.engineState 0 :=
      s.keysUp.setReady_fget _ _ _ (by decide) (by decide) (by decide)
    rw [State.settle_engine, hShown, s.keysUp_engine]
  · rw [State.settle_crypto, State.setReady_crypto, s.keysUp_crypto]
  · rw [State.settle_crypto, State.setReady_crypto, s.keysUp_crypto]
    exact s.keysUp_slots.nodes
  · exact (s.keysUp_keeps.trans ((State.setReady_keeps ..).mono (by decide))).settle

/-! ### A channel engine comes up (R229) -/

/-- The fields that the resumption of a channel's rebuild sets, and those of its engine's state. -/
def resumeFields (ch : Nat) : List (Nat × Field) :=
  [(Reg.MCH_DIESUB ch, Fld.MCH_DIESUB_REB_VALID), (Reg.MCH_DIESUB ch, Fld.MCH_DIESUB_REB_ADIE), (Reg.MCH_STATE ch, Fld.MCH_STATE_REBUILD)]
def engineFields (ch : Nat) : List (Nat × Field) := [(Reg.MCH_STATE ch, Fld.MCH_STATE_ENGINE), (Reg.RDY_CHAN, Fld.RDY_CHAN_CHAN)]

theorem State.resumeRebuild_shows (s : State) (ch : Nat) : Shows (resumeFields ch) s (s.resumeRebuild ch) := by
  unfold State.resumeRebuild
  split
  · exact .refl
  · have hNamed (a : Nat) : Shows (resumeFields ch) s
        ((s.fset (Reg.MCH_DIESUB ch) Fld.MCH_DIESUB_REB_VALID 1).fset (Reg.MCH_DIESUB ch) Fld.MCH_DIESUB_REB_ADIE a) :=
      .set _ (.set _ .refl (by simp [resumeFields])) (by simp [resumeFields])
    exact .ite (hNamed _) (.set _ (hNamed _) (by simp [resumeFields]))

theorem State.setEngine_shows (s : State) (ch v : Nat) : Shows (engineFields ch) s (s.setEngine ch v) :=
  (Shows.set _ .refl (by simp [engineFields])).trans (State.fsetBit_shows _ (by simp [engineFields]) _ _)

/-- The channel's engine is ready, and the rebuild of its lost die goes on. -/
def State.channelUp (s : State) (ch : Nat) : State := (s.setEngine ch 1).resumeRebuild ch

/-- MEDIA_ALL sets once every channel has its engine ready or failed. -/
def State.mediaCheck (s : State) : State :=
  if (List.range 34).all fun c => s.fget (Reg.MCH_STATE c) Fld.MCH_STATE_ENGINE != 0 then s.setReady rMEDIA true else s

theorem exec_channelEngineReady_finds {s : State} {ch : Nat} (hOn : s.power = .on) (hPll : s.clk.pll = true) (hCh : ch < 34)
    (hOff : s.fget (Reg.MCH_STATE ch) Fld.MCH_STATE_ENGINE = 0) : exec (.channelEngineReady ch true) s = nextState (s.channelUp ch).mediaCheck := by
  show execChannelEngineReady ch true s = _
  rw [execChannelEngineReady, if_pos ⟨hOn, hPll, hCh, hOff⟩]
  rfl

section
variable (s : State) {ch : Nat} (hCh : ch < 34)
include hCh

theorem State.channelUp_engine : (s.channelUp ch).fget (Reg.MCH_STATE ch) Fld.MCH_STATE_ENGINE = 1 := by
  have hApart : Reg.MCH_STATE ch ≠ Reg.RDY_CHAN := by simp only [Reg.MCH_STATE, Reg.RDY_CHAN]; omega
  rw [State.channelUp, (State.resumeRebuild_shows ..).fget (by decide)
    ((by decide +kernel : ∀ ch < 34, clearOf (resumeFields ch) (Reg.MCH_STATE ch) Fld.MCH_STATE_ENGINE = true) ch hCh), State.setEngine,
    State.fsetBit_fget_other _ _ _ _ _ hApart]
  exact State.fget_fset_same _ _ _ _ (by decide) (by decide)

theorem State.channelUp_engine_other {c : Nat} (hc : c < 34) (h : c ≠ ch) :
    (s.channelUp ch).fget (Reg.MCH_STATE c) Fld.MCH_STATE_ENGINE = s.fget (Reg.MCH_STATE c) Fld.MCH_STATE_ENGINE := by
  rw [State.channelUp, (State.resumeRebuild_shows ..).fget (by decide)
    ((by decide +kernel : ∀ ch < 34, ∀ c < 34, clearOf (resumeFields ch) (Reg.MCH_STATE c) Fld.MCH_STATE_ENGINE = true) ch hCh c hc),
    (State.setEngine_shows ..).fget (by decide)
    ((by decide +kernel : ∀ ch < 34, ∀ c < 34, c ≠ ch → clearOf (engineFields ch) (Reg.MCH_STATE c) Fld.MCH_STATE_ENGINE = true) ch hCh c hc h)]

theorem State.channelUp_chan : (s.channelUp ch).fbit Reg.RDY_CHAN Fld.RDY_CHAN_CHAN ch = true := by
  rw [State.channelUp, State.fbit_congr ((State.resumeRebuild_shows ..).fget (by decide)
    ((by decide +kernel : ∀ ch < 34, clearOf (resumeFields ch) Reg.RDY_CHAN Fld.RDY_CHAN_CHAN = true) ch hCh))]
  exact State.fbit_fsetBit_true _ _ (by decide) hCh

end

theorem State.channelUp_keeps (s : State) (ch : Nat) : Keeps s (s.channelUp ch) (eventParts ++ [.regs]) :=
  (State.setEngine_shows ..).keeps.trans (State.resumeRebuild_shows ..).keeps

theorem State.mediaCheck_fget (s : State) {o : Nat} (g : Field) (hStatus : o ≠ Reg.RDY_STATUS) (hTime : o ≠ Reg.RDY_TIME rMEDIA)
    (hHst : o ≠ Reg.HST_STAT) : s.mediaCheck.fget o g = s.fget o g := by
  unfold State.mediaCheck
  split
  · exact s.setReady_fget _ _ _ hStatus hTime hHst
  · rfl

theorem State.mediaCheck_ready {s : State} (h : ∀ c, c < 34 → s.fget (Reg.MCH_STATE c) Fld.MCH_STATE_ENGINE ≠ 0) : s.mediaCheck.ready rMEDIA = true := by
  have hAll : ((List.range 34).all fun c => s.fget (Reg.MCH_STATE c) Fld.MCH_STATE_ENGINE != 0) = true :=
    List.all_eq_true.2 fun c hc => bne_iff_ne.2 (h c (List.mem_range.1 hc))
  rw [State.mediaCheck, if_pos hAll]
  exact State.setReady_ready _ (by decide)

theorem State.mediaCheck_keeps (s : State) : Keeps s s.mediaCheck (eventParts ++ [.regs]) := by
  unfold State.mediaCheck
  split
  · exact State.setReady_keeps ..
  · exact .refl ..

theorem channelEngineReady_comesUp (s : State) (ch : Nat) (hOn : s.power = .on) (hPll : s.clk.pll = true) (hCh : ch < 34)
    (hOff : s.fget (Reg.MCH_STATE ch) Fld.MCH_STATE_ENGINE = 0) :
    ∃ t, exec (.channelEngineReady ch true) s = .next t ∧ t.fget (Reg.MCH_STATE ch) Fld.MCH_STATE_ENGINE = 1 ∧
      t.fbit Reg.RDY_CHAN Fld.RDY_CHAN_CHAN ch = true ∧
      ((∀ c, c < 34 → c ≠ ch → s.fget (Reg.MCH_STATE c) Fld.MCH_STATE_ENGINE ≠ 0) → t.ready rMEDIA = true) ∧ Keeps s t (eventParts ++ [.regs]) := by
  have hStatus : Reg.MCH_STATE ch ≠ Reg.RDY_STATUS := by simp only [Reg.MCH_STATE, Reg.RDY_STATUS]; omega
  have hTime : Reg.MCH_STATE ch ≠ Reg.RDY_TIME rMEDIA := by simp only [Reg.MCH_STATE, Reg.RDY_TIME, rMEDIA]; omega
  have hHst : Reg.MCH_STATE ch ≠ Reg.HST_STAT := by simp only [Reg.MCH_STATE, Reg.HST_STAT]; omega
  have hQuiet : quietReg (Reg.MCH_STATE ch) = true := (by decide +kernel : ∀ ch < 34, quietReg (Reg.MCH_STATE ch) = true) ch hCh
  refine nextState_exists (exec_channelEngineReady_finds hOn hPll hCh hOff) ⟨?_, ?_, fun hOthers => ?_, ?_⟩
  · rw [State.fget, State.settle_reg _ hQuiet]
    exact ((s.channelUp ch).mediaCheck_fget _ hStatus hTime hHst).trans (s.channelUp_engine hCh)
  · rw [State.fbit_congr (State.settle_fget _ (by decide) (by decide)),
      State.fbit_congr ((s.channelUp ch).mediaCheck_fget _ (by decide) (by decide) (by decide)), s.channelUp_chan hCh]
  · rw [State.settle_ready]
    refine State.mediaCheck_ready fun c hc => ?_
    by_cases hSame : c = ch
    · rw [hSame, s.channelUp_engine hCh]
      decide
    · rw [s.channelUp_engine_other hCh hc hSame]
      exact hOthers c hc hSame
  · exact ((s.channelUp_keeps ch).trans (s.channelUp ch).mediaCheck_keeps).settle

/-! ### The mailboxes come up (R228) -/

theorem exec_mboxReady_up {s : State} (hOn : s.power = .on) (hFw : s.ready rFW = true) :
    exec .mboxReady s = nextState (s.setReady rMBOX true).healthCheck := by
  show execMboxReady s = _
  rw [execMboxReady, if_pos ⟨hOn, .inl hFw⟩]

theorem State.healthCheck_keeps_cxl (s : State) : Keeps s s.healthCheck (eventParts ++ [.regs, .cxl]) :=
  ((keeps_withCxl s _).mono (by decide)).trans (s.healthCheck_shows.keeps.mono (by decide))

theorem mboxReady_comesUp (s : State) (hOn : s.power = .on) (hFw : s.ready rFW = true) :
    ∃ t, exec .mboxReady s = .next t ∧ t.ready rMBOX = true ∧ Keeps s t (eventParts ++ [.regs, .cxl]) := by
  refine nextState_exists (exec_mboxReady_up hOn hFw) ⟨?_, ?_⟩
  · rw [State.settle_ready, State.healthCheck_ready]
    exact State.setReady_ready _ (by decide)
  · exact (((State.setReady_keeps ..).mono (by decide)).trans (State.healthCheck_keeps_cxl _)).settle

/-! ### A skein comes up (R235, R237) -/

/-- With no request accepted, none waits for a skein. -/
theorem State.wakeSkein_of_none {s : State} (h : s.adm.dl = []) (k : Nat) : s.wakeSkein k = s := by
  simp [State.wakeSkein, tkeys, h]

/-- The bit of skein `k` is set. -/
def State.skeinSet (s : State) (k : Nat) : State := s.fsetBit Reg.RDY_SKEIN Fld.RDY_SKEIN_SKEIN k true

/-- Every skein is ready: SKEINS_ALL and Memory_Active set, and the halves of the image are blanked. -/
def State.skeinsShown (s : State) : State :=
  { (s.setReady rSKEINS true).blankHalves with cxl := { (s.setReady rSKEINS true).cxl with memActive := true } }

/-- The skeins come up with the last of them. -/
def State.skeinsCheck (s : State) : State := if s.reg Reg.RDY_SKEIN = BitVec.allOnes 64 then s.skeinsShown.healthCheck else s

theorem exec_skeinReady_ready {s : State} {k : Nat} (hOn : s.power = .on) (hk : k < 64) (hReplayed : s.replayDone = true)
    (hNot : s.skeinReady k = false) (hMap : s.failedBit rMAP = false) (hKeys : s.failedBit rKEYS = false) (hClear : s.skeinClear k = true)
    (hErase : s.cxl.sanitizing = 0) (hDone : s.adm.dl = []) : exec (.skeinReady k) s = nextState (s.skeinSet k).skeinsCheck := by
  show execSkeinReady k s = _
  have hWoken : (s.fsetBit Reg.RDY_SKEIN Fld.RDY_SKEIN_SKEIN k true).wakeSkein k = s.skeinSet k :=
    State.wakeSkein_of_none (by rw [State.fsetBit_adm, hDone]) k
  rw [execSkeinReady, if_pos ⟨hOn, hk, hReplayed, hNot, hMap, hKeys, hClear, hErase⟩]
  dsimp only
  rw [hWoken]
  rfl

theorem State.skeinsShown_fget (s : State) (o : Nat) (g : Field) : s.skeinsShown.fget o g = (s.setReady rSKEINS true).fget o g :=
  State.fget_congr _ _ rfl

theorem State.skeinsCheck_skein (s : State) (m : Nat) : s.skeinsCheck.skeinReady m = s.skeinReady m := by
  unfold State.skeinsCheck
  split
  · have hShown : s.skeinsShown.healthCheck.fget Reg.RDY_SKEIN Fld.RDY_SKEIN_SKEIN = s.fget Reg.RDY_SKEIN Fld.RDY_SKEIN_SKEIN := by
      rw [State.healthCheck_fget _ (by decide) (by decide), State.skeinsShown_fget, State.setReady_fget _ _ _ _ (by decide) (by decide) (by decide)]
    exact State.fbit_congr hShown m
  · rfl

theorem State.skeinsCheck_shown {s : State} (h : s.reg Reg.RDY_SKEIN = BitVec.allOnes 64) :
    s.skeinsCheck.ready rSKEINS = true ∧ s.skeinsCheck.cxl.memActive = true := by
  rw [State.skeinsCheck, if_pos h, State.healthCheck_ready, State.ready_of_fget (State.skeinsShown_fget ..), (State.healthCheck_shows _).cxl]
  exact ⟨s.setReady_ready (by decide), rfl⟩

theorem State.skeinsCheck_med (s : State) : s.skeinsCheck.med = s.med := by
  unfold State.skeinsCheck
  split
  · rw [(State.healthCheck_shows _).med]
    exact s.setReady_med ..
  · rfl

theorem State.settle_skein (s : State) (m : Nat) : s.settle.skeinReady m = s.skeinReady m :=
  State.fbit_congr (s.settle_fget (by decide) (by decide)) m

theorem skeinReady_comesUp (s : State) (k : Nat) (hOn : s.power = .on) (hk : k < 64) (hReplayed : s.replayDone = true)
    (hNot : s.skeinReady k = false) (hMap : s.failedBit rMAP = false) (hKeys : s.failedBit rKEYS = false) (hClear : s.skeinClear k = true)
    (hErase : s.cxl.sanitizing = 0) (hDone : s.adm.dl = []) :
    ∃ t, exec (.skeinReady k) s = .next t ∧ t.skeinReady k = true ∧ (∀ m, m < 64 → m ≠ k → t.skeinReady m = s.skeinReady m) ∧
      ((∀ m, m < 64 → m ≠ k → s.skeinReady m = true) → t.ready rSKEINS = true ∧ t.cxl.memActive = true) ∧ t.med = s.med := by
  have hSame : (s.skeinSet k).skeinReady k = true := s.fbit_fsetBit_true _ (by decide) hk
  have hOther (m : Nat) (h : m ≠ k) : (s.skeinSet k).skeinReady m = s.skeinReady m := s.fbit_fsetBit_other _ (by decide) h
  refine nextState_exists (exec_skeinReady_ready hOn hk hReplayed hNot hMap hKeys hClear hErase hDone) ⟨?_, fun m _ hm => ?_, fun hAll => ?_, ?_⟩
  · rw [State.settle_skein, State.skeinsCheck_skein, hSame]
  · rw [State.settle_skein, State.skeinsCheck_skein, hOther m hm]
  · have hFull : (s.skeinSet k).reg Reg.RDY_SKEIN = BitVec.allOnes 64 := by
      refine State.reg_eq_allOnes fun m hm => ?_
      by_cases h : m = k
      · exact h ▸ hSame
      · exact (hOther m h).trans (hAll m hm h)
    rw [State.settle_ready, State.settle_cxl]
    exact State.skeinsCheck_shown hFull
  · rw [State.settle_med, State.skeinsCheck_med, State.skeinSet, State.fsetBit_med]

/-! ### What work on the medium leaves of the hanks -/

@[simp] theorem State.addOp_hanks (s : State) (o : Op) : (s.addOp o).2.hanks = s.hanks := rfl

@[simp] theorem State.senseStart_hanks (s : State) : s.senseStart.hanks = s.hanks := (congrArg State.hanks (MediumWork.senseStart s)).trans rfl

@[simp] theorem State.partDone_hanks (s : State) (parent d : Nat) (v : Option Stored) : (s.partDone parent d v).hanks = s.hanks := by
  unfold State.partDone
  split
  · rfl
  · split <;> rfl

@[simp] theorem State.rebuildStart_hanks (s : State) (id : Nat) : (s.rebuildStart id).hanks = s.hanks := by
  unfold State.rebuildStart
  split
  · rfl
  · split
    · rfl
    · refine foldl_keeps (fun u : State => u.hanks) (fun u d => ?_) _ _
      split
      · rfl
      · split
        · exact State.partDone_hanks ..
        · rfl

/-- A medium read that needs no counter is entered without a word of the map being read. -/
theorem State.issueRead_hanks (s : State) (line key phn st d j : Nat) (purpose : Purpose) (deadline rank ld cls master : Nat) :
    (s.issueRead line key phn st d j false purpose deadline rank ld cls master).2.hanks = s.hanks := by
  simp [State.issueRead, apply_ite State.hanks]

theorem State.walkStart_hanks (s : State) (kind : SKind) (phn st : Nat) (lhn : Option Nat) (ds : List Nat) (pages due cls : Nat) :
    (s.walkStart kind phn st lhn ds pages due cls).hanks = s.hanks :=
  foldl_keeps (fun u : State => u.hanks) (fun _ _ => State.issueRead_hanks ..) _ _

/-! ### The maps stay ready (R233) -/

theorem MapKept.mapsReady {s u : State} (h : MapKept s u) : u.hanks.mapsReady = s.hanks.mapsReady := (congrArg Hanks.mapsReady h.hanks).trans rfl

theorem State.recompute_mapsReady (s : State) (phn st mask due : Nat) : (s.recompute phn st mask due).hanks.mapsReady = s.hanks.mapsReady := by
  unfold State.recompute
  split
  · rfl
  · dsimp only
    rw [State.charge_hanks, State.walkStart_hanks]
    rfl

theorem State.suspectStripe_mapsReady (s : State) (phn st mask due : Nat) : (s.suspectStripe phn st mask due).hanks.mapsReady = s.hanks.mapsReady := by
  unfold State.suspectStripe
  dsimp only
  split <;> rfl

theorem State.startSuspects_mapsReady (s : State) : s.startSuspects.hanks.mapsReady = s.hanks.mapsReady :=
  (foldl_keeps (fun u : State => u.hanks.mapsReady) (fun _ _ => State.recompute_mapsReady ..) _ _).trans
    (foldl_keeps (fun u : State => u.hanks.mapsReady) (fun _ _ => State.suspectStripe_mapsReady ..) _ _)

theorem State.startMig_mapsReady (s : State) (sys : Bool) (idx : Nat) (kind : MigKind) (due : Nat) :
    (s.startMig sys idx kind due).hanks.mapsReady = s.hanks.mapsReady := by
  unfold State.startMig
  dsimp only
  split
  · rfl
  · split
    · rfl
    · exact (s.migrating_mapKept (s.newMig sys idx _ kind due)).mapsReady

theorem State.ledgerAdd_mapsReady (s : State) (phn n : Nat) : (s.ledgerAdd phn n).hanks.mapsReady = s.hanks.mapsReady := by
  unfold State.ledgerAdd
  dsimp only
  split <;> rfl

theorem State.replaceAnchor_mapsReady (s : State) (n phn : Nat) : (s.replaceAnchor n phn).hanks.mapsReady = s.hanks.mapsReady := by
  have hFreed (u : State) (dst : Nat) : ((u.setFree dst false).freeStat (u.freeCount - 1)).hanks.mapsReady = u.hanks.mapsReady :=
    ((MapKept.setFree ..).trans (.of_wm (State.freeStat_wmWork ..))).mapsReady
  unfold State.replaceAnchor
  split
  · rfl
  · dsimp only
    rw [State.markRetired_hanks]
    exact (State.ledgerAdd_mapsReady ..).trans ((hFreed ..).trans rfl)

theorem State.evacNext_mapsReady (s : State) : s.evacNext.hanks.mapsReady = s.hanks.mapsReady := by
  unfold State.evacNext
  split
  · rfl
  · split
    · rfl
    · rfl
    · split
      · exact State.startMig_mapsReady ..
      · exact State.startMig_mapsReady ..
      · exact State.replaceAnchor_mapsReady ..
      · split
        · rfl
        · rw [State.fsetBit_hanks]

/-! ### The maps are restored (R132, R232, R233) -/

/-- The fields that the report of a bind-off that was cut sets. -/
def cutFields : List (Nat × Field) :=
  [(Reg.HST_STAT, Fld.HST_STAT_INCOMPLETE), (Reg.GAU_BINDOFF_CNT, Fld.GAU_BINDOFF_CNT_CUT), (Reg.GAU_BINDOFF_LAST, Fld.GAU_BINDOFF_LAST_OUTCOME)]

theorem State.reportZones_shows (s : State) (fields : List (Nat × Field)) : Shows fields s s.reportZones :=
  .foldl _ fun _ _ _ => .event _ _ _ _ _ _ .refl

theorem State.countCut_shows (s : State) : Shows cutFields s s.countCut := .set _ (.set _ .refl (by simp [cutFields])) (by simp [cutFields])

/-- The report changes the record of the bind-off, sets its fields and raises events. -/
theorem State.reportCut_shows (s : State) (failed : List (Nat × Bool)) : ∃ e, Shows cutFields { s with energy := e } (s.reportCut failed) := by
  unfold State.reportCut
  extract_lets r _ sNone count lost bad s1 s2
  split
  · refine ⟨{ s.energy with noRec := false }, .trans ?_ (State.reportZones_shows ..)⟩
    exact .event _ _ _ _ _ _ (.set _ (State.countCut_shows _) (by simp [cutFields]))
  · split
    · exact ⟨s.energy, .refl⟩
    · have hRaised : Shows cutFields (s.setRcd { r with counted := true }) s2 := .event _ _ _ _ _ _ (State.countCut_shows _)
      exact ⟨_, .ite (hRaised.trans (State.reportZones_shows ..)) hRaised⟩

theorem State.reportCut_hanks (s : State) (failed : List (Nat × Bool)) : (s.reportCut failed).hanks = s.hanks := by
  obtain ⟨e, hShows⟩ := s.reportCut_shows failed
  rw [hShows.hanks]

theorem State.reportCut_ready (s : State) (failed : List (Nat × Bool)) (n : Nat) : (s.reportCut failed).ready n = s.ready n := by
  obtain ⟨e, hShows⟩ := s.reportCut_shows failed
  exact State.ready_of_fget (hShows.fget (by decide) (by decide)) n

/-- PLY is ready, or nothing has changed. -/
theorem State.plyCheck_cases (s : State) : s.plyCheck = s.setReady rPLY true ∨ s.plyCheck = s := by
  unfold State.plyCheck
  split
  · exact .inl rfl
  · exact .inr rfl

/-- The maps of an image with what follows from them: migrations, the free table, work on hanks, suspect stripes, an evacuation. -/
def State.mapsBack (s : State) (i : Image) : State :=
  let s1 := (s.restoreMaps i).fixMigs.freeRebuild.resumeWork
  (State.startSuspects { s1 with hanks := { s1.hanks with mapsReady := true } }).evacNext

theorem State.mapsBack_mapsReady (s : State) (i : Image) : (s.mapsBack i).hanks.mapsReady = true := by
  rw [State.mapsBack, State.evacNext_mapsReady, State.startSuspects_mapsReady]

/-- The replay is to read the image: MAP is ready, a cut bind-off is reported, and the items found unreadable are noted. -/
def State.replayBegins (s : State) (failed : List (Nat × Bool)) : State :=
  let s3 := (s.setReady rMAP true).reportCut failed
  State.fset { s3 with cast := { s3.cast with failed := failed } } Reg.RDY_REPLAY Fld.RDY_REPLAY_STATE 1

section
variable (s : State) (failed : List (Nat × Bool))

theorem State.replayBegins_ready : (s.replayBegins failed).ready rMAP = true := by
  have hShown : (s.replayBegins failed).reg Reg.RDY_STATUS = ((s.setReady rMAP true).reportCut failed).reg Reg.RDY_STATUS :=
    State.reg_fset_other _ _ _ _ (by decide)
  rw [State.ready_congr hShown, State.reportCut_ready]
  exact s.setReady_ready (by decide)

theorem State.replayBegins_state : (s.replayBegins failed).fget Reg.RDY_REPLAY Fld.RDY_REPLAY_STATE = 1 :=
  State.fget_fset_same _ _ _ _ (by decide) (by decide)

theorem State.replayBegins_hanks : (s.replayBegins failed).hanks = s.hanks :=
  (State.reportCut_hanks ..).trans (State.setReady_hanks ..)

end

section
variable {s : State} {okA okB : Bool} (hOn : s.power = .on) (hWmem : s.ready rWMEM = true) (hKeys : s.ready rKEYS = true) (hTree : s.cast.l3 = true)
  (hReady : s.ready rMAP = false) (hFail : s.failedBit rMAP = false) (hHold : s.plat.coldHold = false)
include hOn hWmem hKeys hTree hReady hFail hHold

theorem exec_mapRestoreDone_restores {i : Image} (hImage : s.hanks.usableImage okA okB = some i) (failed : List (Nat × Bool)) :
    exec (.mapRestoreDone (okA, okB) failed) s = nextState ((s.mapsBack i).replayBegins failed).plyCheck := by
  show execMapRestoreDone (okA, okB) failed s = _
  rw [execMapRestoreDone, if_pos ⟨hOn, hWmem, hKeys, hTree, hReady, hFail, hHold⟩]
  dsimp only
  rw [hImage]
  rfl

theorem exec_mapRestoreDone_fails (hNone : s.hanks.usableImage okA okB = none) (failed : List (Nat × Bool)) :
    exec (.mapRestoreDone (okA, okB) failed) s = nextState (s.setFail rMAP) := by
  show execMapRestoreDone (okA, okB) failed s = _
  rw [execMapRestoreDone, if_pos ⟨hOn, hWmem, hKeys, hTree, hReady, hFail, hHold⟩]
  dsimp only
  rw [hNone]

end

theorem mapRestoreDone_restores (s : State) (okA okB : Bool) (i : Image) (failed : List (Nat × Bool)) (hOn : s.power = .on)
    (hWmem : s.ready rWMEM = true) (hKeys : s.ready rKEYS = true) (hTree : s.cast.l3 = true) (hReady : s.ready rMAP = false)
    (hFail : s.failedBit rMAP = false) (hHold : s.plat.coldHold = false) (hImage : s.hanks.usableImage okA okB = some i) :
    ∃ t, exec (.mapRestoreDone (okA, okB) failed) s = .next t ∧ t.ready rMAP = true ∧ t.fget Reg.RDY_REPLAY Fld.RDY_REPLAY_STATE = 1 ∧
      t.cast.failed = failed ∧ t.hanks.mapsReady = true := by
  refine nextState_exists (exec_mapRestoreDone_restores hOn hWmem hKeys hTree hReady hFail hHold hImage failed) ?_
  rw [State.settle_ready, State.settle_fget _ (by decide) (by decide), State.settle_cast, State.settle_hanks]
  have hMaps : ((s.mapsBack i).replayBegins failed).hanks.mapsReady = true := by rw [State.replayBegins_hanks, s.mapsBack_mapsReady]
  rcases State.plyCheck_cases ((s.mapsBack i).replayBegins failed) with hPly | hPly
  · rw [hPly, State.setReady_ready_other _ (by decide), State.setReady_fget _ _ _ _ (by decide) (by decide) (by decide), State.setReady_cast,
      State.setReady_hanks]
    exact ⟨State.replayBegins_ready .., State.replayBegins_state .., rfl, hMaps⟩
  · rw [hPly]
    exact ⟨State.replayBegins_ready .., State.replayBegins_state .., rfl, hMaps⟩

theorem mapRestoreDone_fails (s : State) (okA okB : Bool) (failed : List (Nat × Bool)) (hOn : s.power = .on)
    (hWmem : s.ready rWMEM = true) (hKeys : s.ready rKEYS = true) (hTree : s.cast.l3 = true) (hReady : s.ready rMAP = false)
    (hFail : s.failedBit rMAP = false) (hHold : s.plat.coldHold = false) (hNone : s.hanks.usableImage okA okB = none) :
    ∃ t, exec (.mapRestoreDone (okA, okB) failed) s = .next t ∧ t.failedBit rMAP = true ∧ t.ready rMAP = false ∧ t.hanks = s.hanks ∧
      t.med = s.med := by
  have hShows := State.setFail_shows hReady hFail
  refine nextState_exists (exec_mapRestoreDone_fails hOn hWmem hKeys hTree hReady hFail hHold hNone failed) ⟨?_, ?_, ?_, ?_⟩
  · refine (State.fbit_congr (State.settle_fget _ (by decide) (by decide)) _).trans ((State.fbit_congr (hShows.fget (by decide) (by decide)) _).trans ?_)
    exact s.fbit_fsetBit_true _ (by decide) (by decide)
  · rw [State.settle_ready, State.ready_of_fget (hShows.fget (by decide) (by decide)),
      State.ready_of_fget ((s.fsetBit_shows (fields := [(Reg.RDY_STATUS, Fld.RDY_STATUS_FAIL)]) (by simp) _ _).fget (by decide) (by decide)), hReady]
  · rw [State.settle_hanks, hShows.hanks, State.fsetBit_hanks]
  · rw [State.settle_med, hShows.med, State.fsetBit_med]

/-- Settles O33, unit by unit: each sets its own bit by `State.setReady`, and MAP does so whatever the restore has set going, none of which makes the maps
unready again. -/
theorem castOnBringsUnitsUp : Obligations.CastOnBringsUnitsUp :=
  ⟨⟨keysReady_comesUp, channelEngineReady_comesUp, mboxReady_comesUp, skeinReady_comesUp⟩, mapRestoreDone_restores, mapRestoreDone_fails⟩

end Sys2Proof.Machine

namespace Sys2Proof.Machine

/-! ### A counter node that was fetched (R267, R268) -/

/-- A fetched node whose set has room stands clean in the on-chip level. -/
theorem State.placeNode_of_room {s : State} {l i : Nat}
    (h : (s.crypto.cache.filter fun e => e.2.onChip && e.1 % 2048 == nodeKey l i % 2048).length < 16) (b : CBlock) :
    s.placeNode l i b = s.putCached l i { blk := b, due := none, onChip := true } := if_pos h

theorem State.nodeArrives_good {s : State} {l i : Nat} (hNew : s.cached l i = none) (due : Nat) :
    s.nodeArrives due l i .good = s.placeNode l i (s.node l i) := if_neg (by rw [hNew]; decide)

theorem State.readOp_congr {s u : State} (h : u.adm = s.adm) (id : Nat) : u.readOp id = s.readOp id := by
  rw [State.readOp, h, State.readOp]

theorem State.cached_congr {s u : State} (h : u.crypto = s.crypto) (l i : Nat) : u.cached l i = s.cached l i := by
  rw [State.cached, h, State.cached]

theorem State.node_congr {s u : State} (h : u.crypto = s.crypto) (l i : Nat) : u.node l i = s.node l i := by
  rw [State.node, h, State.node]

theorem State.setRead_readOp_same (s : State) (id : Nat) (o : Op) (r : ReadOp) :
    (s.setRead id o r).readOp id = some ({ o with kind := .read r }, r) := by
  have hGet : tget (s.setRead id o r).adm.ops id = some { o with kind := .read r } := tget_tput_same ..
  rw [State.readOp, hGet]

/-- The one node that a read waits for arrives verified, and the read waits for no more. -/
theorem exec_counterFetchDone_good {s : State} {op l i : Nat} {o : Op} {r : ReadOp} (hRead : s.readOp op = some (o, r)) (hNodes : r.nodes = [(l, i)])
    (hNew : s.cached l i = none)
    (hRoom : (s.crypto.cache.filter fun e => e.2.onChip && e.1 % 2048 == nodeKey l i % 2048).length < 16) :
    exec (.counterFetchDone op [.good]) s =
      nextState ((s.putCached l i { blk := s.node l i, due := none, onChip := true }).setRead op o { r with nodes := [] }) := by
  have hStands (c : CacheNode) : (s.putCached l i c).readOp op = some (o, r) := (State.readOp_congr (s.putCached_adm l i c) op).trans hRead
  show execCounterFetchDone op [.good] s = _
  simp only [execCounterFetchDone, hRead, hNodes, List.zip_cons_cons, List.zip_nil_right, List.reverse_singleton, List.foldl_cons, List.foldl_nil,
    State.nodeArrives_good hNew, State.placeNode_of_room hRoom, hStands]
  rfl

theorem counterFetchDone_enters (s : State) (op l i : Nat) (o : Op) (r : ReadOp) (hRead : s.readOp op = some (o, r)) (hNodes : r.nodes = [(l, i)])
    (hNew : s.cached l i = none)
    (hRoom : (s.crypto.cache.filter fun e => e.2.onChip && e.1 % 2048 == nodeKey l i % 2048).length < 16) :
    ∃ t, exec (.counterFetchDone op [.good]) s = .next t ∧ t.cached l i = some { blk := s.node l i, due := none, onChip := true } ∧
      t.readOp op = some ({ o with kind := .read { r with nodes := [] } }, { r with nodes := [] }) ∧
      t.med = s.med ∧ t.hanks = s.hanks ∧ t.tlc = s.tlc ∧ t.crypto.nodes = s.crypto.nodes ∧ t.adm.dl = s.adm.dl := by
  refine nextState_exists (exec_counterFetchDone_good hRead hNodes hNew hRoom) ⟨?_, ?_, State.settle_med _, State.settle_hanks _, State.settle_tlc _, ?_, ?_⟩
  · exact (State.cached_congr (State.settle_crypto _) l i).trans (tget_tput_same ..)
  · exact (State.readOp_congr (State.settle_adm _) op).trans (State.setRead_readOp_same ..)
  · rw [State.settle_crypto]
    rfl
  · rw [State.settle_adm]
    rfl

/-! ### A counter node that is written back (R264, R269) -/

/-- From `s` to `u` counter nodes have been raised and written: what that touches beside them is working memory, the hanks' wear and the charges of
admission. -/
structure NodeWork (s u : State) : Prop where
  rest : u = { s with
    outbox := u.outbox, freeCtr := u.freeCtr, regs := u.regs, hwSet := u.hwSet, wm := u.wm, logs := u.logs, hist := u.hist, hanks := u.hanks
    cast := u.cast
    adm := { s.adm with
      charged := u.adm.charged, bal := u.adm.bal, faults := u.adm.faults, onset := u.adm.onset, intrs := u.adm.intrs }
    crypto := { s.crypto with
      nodes := u.crypto.nodes, cache := u.crypto.cache, rootSeq := u.crypto.rootSeq, rmin := u.crypto.rmin, rmaj := u.crypto.rmaj } }
  suspect : u.hanks.suspect = s.hanks.suspect

namespace NodeWork

variable {s u v : State}

theorem refl (s : State) : NodeWork s s := ⟨rfl, rfl⟩

theorem trans (h : NodeWork s u) (h' : NodeWork u v) : NodeWork s v := by
  refine ⟨Eq.trans h'.rest ?_, h'.suspect.trans h.suspect⟩
  rw [h.rest]

theorem of_wm (h : WmWork s u) : NodeWork s u := ⟨by rw [show u = _ from h], by rw [h.hanks]⟩

theorem of_warms (h : Warms s u) : NodeWork s u := ⟨by rw [h.rest], h.suspect⟩

theorem setNode (s : State) (l i : Nat) (b : CBlock) : NodeWork s (s.setNode l i b) := ⟨rfl, rfl⟩
theorem putCached (s : State) (l i : Nat) (c : CacheNode) : NodeWork s (s.putCached l i c) := ⟨rfl, rfl⟩
theorem ccStat (s : State) : NodeWork s s.ccStat := of_wm ((WmWork.fset ..).trans (.fset ..))
theorem charge (s : State) (p n : Nat) : NodeWork s (s.charge p n) := ⟨rfl, rfl⟩
theorem withCast (s : State) (x : Cast) : NodeWork s { s with cast := x } := ⟨rfl, rfl⟩

theorem ite {c : Prop} [Decidable c] (h : NodeWork s u) (h' : NodeWork s v) : NodeWork s (if c then u else v) := by
  split
  · exact h
  · exact h'

theorem noteMaj (s : State) (maj : Nat) : NodeWork s (s.noteMaj maj) := ite (of_wm (.fset ..)) (refl s)

theorem dirtyNode (s : State) (l i due : Nat) (b : CBlock) : NodeWork s (s.dirtyNode l i due b) := by
  unfold State.dirtyNode
  extract_lets
  split
  · exact (ite (putCached ..) ((putCached ..).trans (of_wm (.lineWrite ..)))).trans (ccStat _)
  · exact (putCached ..).trans (ccStat _)

/-- An overflow that is counted, with the new major (R262). -/
theorem overflow (ovf : Bool) (w : W64) (maj : Nat) : NodeWork s (if ovf then (s.setReg Reg.KEY_OVF w).noteMaj maj else s) :=
  ite ((of_wm (.setReg ..)).trans (noteMaj ..)) (refl s)

theorem raisePinned (fuel : Nat) (s : State) (l i : Nat) : NodeWork s (State.raisePinned fuel s l i) := by
  induction fuel generalizing s l i with
  | zero => exact refl s
  | succ fuel ih =>
    unfold State.raisePinned
    split
    · dsimp only
      split
      · exact ⟨rfl, rfl⟩
      · exact ⟨rfl, rfl⟩
    · exact ((setNode ..).trans (overflow ..)).trans (ih ..)

theorem raiseParent (s : State) (l i due : Nat) : NodeWork s (s.raiseParent l i due) :=
  ite (raisePinned ..) ((dirtyNode ..).trans (overflow ..))

theorem adm_ops (h : NodeWork s u) : u.adm.ops = s.adm.ops := (congrArg (fun t : State => t.adm.ops) h.rest).trans rfl
theorem adm_dl (h : NodeWork s u) : u.adm.dl = s.adm.dl := (congrArg (fun t : State => t.adm.dl) h.rest).trans rfl
theorem tlc (h : NodeWork s u) : u.tlc = s.tlc := (congrArg State.tlc h.rest).trans rfl
theorem med (h : NodeWork s u) : u.med = s.med := (congrArg State.med h.rest).trans rfl
theorem slots (h : NodeWork s u) : u.crypto.slots = s.crypto.slots := (congrArg (fun t : State => t.crypto.slots) h.rest).trans rfl

theorem noWaits (h : NodeWork s u) (hWaits : s.NoWaits) : u.NoWaits := by
  have hLinks : u.linkA = s.linkA ∧ u.linkB = s.linkB := by
    rw [h.rest]
    exact ⟨rfl, rfl⟩
  unfold State.NoWaits
  rw [h.adm_dl, h.tlc, hLinks.1, hLinks.2, h.suspect]
  exact hWaits

end NodeWork

/-- The programs of a node's copies warm the hanks that hold them. -/
theorem State.nodeHeat_warms (s : State) (l i : Nat) : Warms s (s.nodeHeat l i) := by
  unfold State.nodeHeat
  exact List.foldlRecOn (motive := fun u : State => Warms s u) _ _ (.refl s) fun u hu _ _ => (hu.trans (.heat ..)).trans (.heat ..)

/-- A node whose parent's minor has risen stands in both copies, which are held once (log 6), with its programs charged and counted. -/
def State.copiesWritten (s : State) (l i due : Nat) (b : CBlock) : State :=
  (((s.raiseParent l i due).setNode l i b).charge 21 36).nodeHeat l i

/-- A node written back stays clean in the cache, and waits no more for a bind-off's drain. -/
def State.nodeCleaned (s : State) (l i : Nat) (c : CacheNode) : State :=
  (State.putCached { s with cast := { s.cast with ctrLeft := s.cast.ctrLeft.filter (· != nodeKey l i) } } l i { c with due := none }).ccStat

section
variable (s : State) (l i due : Nat) (c : CacheNode)

theorem State.copiesWritten_crypto (b : CBlock) : (s.copiesWritten l i due b).crypto = ((s.raiseParent l i due).setNode l i b).crypto :=
  (congrArg State.crypto (State.nodeHeat_warms (((s.raiseParent l i due).setNode l i b).charge 21 36) l i).rest).trans rfl

theorem State.copiesWritten_node (b : CBlock) : (s.copiesWritten l i due b).node l i = b := by
  rw [State.node, s.copiesWritten_crypto]
  exact dget_dput_same ..

theorem State.nodeCleaned_node : (s.nodeCleaned l i c).node l i = s.node l i := rfl

theorem State.nodeCleaned_cached : (s.nodeCleaned l i c).cached l i = some { c with due := none } := tget_tput_same ..

theorem State.nodeWritten_nodeWork : NodeWork s ((s.copiesWritten l i due c.blk).nodeCleaned l i c) :=
  have hWritten : NodeWork s (s.copiesWritten l i due c.blk) :=
    (((NodeWork.raiseParent s l i due).trans (.setNode ..)).trans (.charge ..)).trans (.of_warms (State.nodeHeat_warms ..))
  ((hWritten.trans (.withCast ..)).trans (.putCached ..)).trans (.ccStat _)
end

/-- The dirty node with the earliest deadline goes out. -/
theorem exec_counterWriteBack_first {s : State} {l i due : Nat} {c : CacheNode} (hCached : s.cached l i = some c) (hDue : c.due = some due)
    (hFirst : ∀ e ∈ s.crypto.cache, ∀ d, e.2.due = some d → due ≤ d) :
    exec (.counterWriteBack l i) s = nextState ((s.copiesWritten l i due c.blk).nodeCleaned l i c).retryStuck := by
  show execCounterWriteBack l i s = _
  simp only [execCounterWriteBack, hCached, hDue]
  rw [if_neg, State.nodeCleaned, State.copiesWritten]
  intro hEarlier
  obtain ⟨e, he, hBefore⟩ := List.any_eq_true.1 hEarlier
  split at hBefore
  next d hd => exact absurd (of_decide_eq_true hBefore) (Nat.not_lt.2 (hFirst e he d hd))
  next => cases hBefore

theorem counterWriteBack_lands (s : State) (l i due : Nat) (c : CacheNode) (hCached : s.cached l i = some c) (hDue : c.due = some due)
    (hFirst : ∀ e ∈ s.crypto.cache, ∀ d, e.2.due = some d → due ≤ d) (hWaits : s.NoWaits) (hOps : s.adm.ops = []) :
    ∃ t, exec (.counterWriteBack l i) s = .next t ∧ t.cached l i = some { c with due := none } ∧ t.node l i = c.blk ∧
      t.med.lines = s.med.lines ∧ t.tlc = s.tlc ∧ t.adm.dl = s.adm.dl ∧ t.crypto.slots = s.crypto.slots := by
  have hWork := s.nodeWritten_nodeWork l i due c
  have hRetry := State.retryStuck_of_noWaits (hWork.noWaits hWaits) (hWork.adm_ops.trans hOps)
  refine nextState_exists ((exec_counterWriteBack_first hCached hDue hFirst).trans (congrArg nextState hRetry)) ⟨?_, ?_, ?_, ?_, ?_, ?_⟩
  · exact (State.cached_congr (State.settle_crypto _) l i).trans (State.nodeCleaned_cached ..)
  · rw [State.node_congr (State.settle_crypto _), State.nodeCleaned_node, State.copiesWritten_node]
  · rw [State.settle_med, hWork.med]
  · rw [State.settle_tlc, hWork.tlc]
  · rw [State.settle_adm, hWork.adm_dl]
  · rw [State.settle_crypto, hWork.slots]

/-- Settles O17: a fetched node is placed in its set, which has room; a write-back raises the parent before it writes the node, and of what follows, the
heat of the hanks that hold the copies and the retry of what waits, none touches a node. -/
theorem counterNodesComeAndGo : Obligations.CounterNodesComeAndGo := ⟨counterFetchDone_enters, counterWriteBack_lands⟩

end Sys2Proof.Machine

namespace Sys2Proof.Machine

/-! ### The known-answer check of an engine (R255) -/

theorem engineField_fits (n : Nat) : (engineField n).Fits := by
  unfold engineField
  split <;> decide

theorem State.engineState_fset_same (s : State) (n : Nat) {v : Nat} (hv : v < 4) : (s.fset Reg.KEY_STAT (engineField n) v).engineState n = v := by
  have hWidth : 2 ^ fwidth (engineField n) = 4 := by
    unfold engineField
    split <;> rfl
  exact s.fget_fset_same _ _ _ (engineField_fits n) (hWidth ▸ hv)

theorem State.engineState_fset_other (s : State) {e : Nat} (v : Nat) (he : e < 2) :
    (s.fset Reg.KEY_STAT (engineField e) v).engineState (1 - e) = s.engineState (1 - e) := by
  obtain rfl | rfl : e = 0 ∨ e = 1 := by omega
  · exact s.fget_fset_apart _ _ _ (by decide) (by decide) (by decide)
  · exact s.fget_fset_apart _ _ _ (by decide) (by decide) (by decide)

theorem State.settle_engineState (s : State) (n : Nat) : s.settle.engineState n = s.engineState n := by
  refine s.settle_fget ?_ (engineField_fits n)
  unfold engineField
  split <;> decide

theorem State.engineState_congr {s u : State} (h : u.reg Reg.KEY_STAT = s.reg Reg.KEY_STAT) (n : Nat) : u.engineState n = s.engineState n := by
  rw [State.engineState, State.fget, h, State.engineState, State.fget]

/-- No command waits for the item of a SELF_TEST that ends. -/
theorem State.itemDone_idle {s : State} (h : s.cmds = []) (w item : Nat) (pass : Bool) : s.itemDone w item pass = s := by
  obtain ⟨⟩ := s
  cases h
  rfl

/-- From `s` to `u` neither the engines' states have changed nor the commands. -/
def EnginesStand (s u : State) : Prop := u.reg Reg.KEY_STAT = s.reg Reg.KEY_STAT ∧ u.cmds = s.cmds

namespace EnginesStand

variable {s u v : State}

theorem refl (s : State) : EnginesStand s s := ⟨rfl, rfl⟩

theorem trans (h : EnginesStand s u) (h' : EnginesStand u v) : EnginesStand s v := ⟨h'.1.trans h.1, h'.2.trans h.2⟩

theorem ite {c : Prop} [Decidable c] (h : EnginesStand s u) (h' : EnginesStand s v) : EnginesStand s (if c then u else v) := by
  split
  · exact h
  · exact h'

theorem eventSev (s : State) (cls sev akind ld addr : Nat) (args : List Nat) : EnginesStand s (s.eventSev cls sev akind ld addr args) :=
  ⟨s.eventSev_reg _ _ _ _ _ _ (by decide), s.eventSev_cmds ..⟩

theorem event (s : State) (cls akind ld addr : Nat) (args : List Nat) : EnginesStand s (s.event cls akind ld addr args) := eventSev ..

theorem fset (s : State) {off : Nat} (f : Field) (v : Nat) (h : Reg.KEY_STAT ≠ off) : EnginesStand s (s.fset off f v) :=
  ⟨s.reg_fset_other _ _ _ h, rfl⟩

theorem closeFault (s : State) (f : Nat) : EnginesStand s (s.closeFault f) :=
  ite (ite ⟨State.reg_setReg_other _ _ _ (by decide), rfl⟩ ⟨rfl, rfl⟩) (refl s)

theorem cryptoPump (s : State) : EnginesStand s s.cryptoPump := by
  rw [s.cryptoPump_pumpOnly.rest]
  exact ⟨rfl, rfl⟩

theorem fsetBit (s : State) {off : Nat} (f : Field) (b : Nat) (v : Bool) (h : Reg.KEY_STAT ≠ off) : EnginesStand s (s.fsetBit off f b v) :=
  ite (refl s) (fset s f _ h)

theorem keysFail (s : State) : EnginesStand s (s.setFail rKEYS) := by
  have hUnready : EnginesStand s (s.setReady rKEYS false) := by
    refine ite (refl s) ?_
    dsimp only
    have hBit := fsetBit s Fld.RDY_STATUS_READY rKEYS false (off := Reg.RDY_STATUS) (by decide)
    exact ite (hBit.trans (event ..)) hBit
  have hShown := (hUnready.trans (fsetBit _ Fld.RDY_STATUS_FAIL rKEYS true (off := Reg.RDY_STATUS) (by decide))).trans (eventSev _ evFAULT 3 4 0xFFFF rKEYS [])
  exact ite (refl s) (ite (hShown.trans (event ..)) hShown)

end EnginesStand

/-- A failed engine is shown as such; what follows on it, to the end of the interruption, leaves the engines' states and the commands. -/
theorem State.engineFail_stands {s : State} {n : Nat} (h : s.engineState n ≠ 2) :
    EnginesStand (s.fset Reg.KEY_STAT (engineField n) 2) (s.engineFail n) := by
  have hShown : EnginesStand (s.fset Reg.KEY_STAT (engineField n) 2) ((s.openFault (200000 + n)).fset Reg.KEY_STAT (engineField n) 2) := by
    unfold State.openFault
    split <;> exact ⟨rfl, rfl⟩
  have hMoved (u : State) (ops : Tbl Op) : EnginesStand u { u with adm := { u.adm with ops := ops } } := ⟨rfl, rfl⟩
  unfold State.engineFail
  rw [if_neg h]
  exact ((((hShown.trans (hMoved ..)).trans (.cryptoPump _)).trans (.event ..)).trans (.ite (.keysFail _) (.refl _))).trans (.closeFault ..)

theorem State.engineFail_engineState (s : State) (n : Nat) : (s.engineFail n).engineState n = 2 := by
  by_cases h : s.engineState n = 2
  · rw [State.engineFail, if_pos h, h]
  · rw [State.engineState_congr (State.engineFail_stands h).1, State.engineState_fset_same _ _ (by decide)]

theorem State.engineFail_cmds (s : State) (n : Nat) : (s.engineFail n).cmds = s.cmds := by
  by_cases h : s.engineState n = 2
  · rw [State.engineFail, if_pos h]
  · exact (State.engineFail_stands h).2

section
variable {s : State} {e : Nat} (hOn : s.power = .on) (he : e < 2) (hCmds : s.cmds = [])
include hOn he hCmds

theorem exec_knownAnswerCheck_passes (hOff : s.engineState e = 0) :
    exec (.knownAnswerCheck e true) s = nextState (s.fset Reg.KEY_STAT (engineField e) 1) := by
  show execKnownAnswerCheck e true s = _
  rw [execKnownAnswerCheck, if_pos ⟨hOn, he⟩]
  dsimp only
  rw [if_pos rfl, if_pos hOff]
  exact congrArg nextState (State.itemDone_idle (s := s.fset ..) hCmds ..)

theorem exec_knownAnswerCheck_fails : exec (.knownAnswerCheck e false) s = nextState (s.engineFail e) := by
  show execKnownAnswerCheck e false s = _
  rw [execKnownAnswerCheck, if_pos ⟨hOn, he⟩]
  exact congrArg nextState (State.itemDone_idle ((s.engineFail_cmds e).trans hCmds) ..)

end

theorem knownAnswerCheck_passes (s : State) (e : Nat) (hOn : s.power = .on) (he : e < 2) (hOff : s.engineState e = 0) (hCmds : s.cmds = []) :
    ∃ t, exec (.knownAnswerCheck e true) s = .next t ∧ t.engineState e = 1 ∧ t.engineState (1 - e) = s.engineState (1 - e) ∧
      Frame s t [] [Reg.KEY_STAT] := by
  refine nextState_exists (exec_knownAnswerCheck_passes hOn he hCmds hOff) ⟨?_, ?_, ?_⟩
  · rw [State.settle_engineState, State.engineState_fset_same _ _ (by decide)]
  · rw [State.settle_engineState, State.engineState_fset_other _ _ he]
  · exact frame_settle_of_regsOnly (State.fset_regsOnly ..) fun off hOff => State.reg_fset_other _ _ _ _ fun hEq => hOff (by simp [hEq])

theorem knownAnswerCheck_fails (s : State) (e : Nat) (hOn : s.power = .on) (he : e < 2) (hCmds : s.cmds = []) :
    ∃ t, exec (.knownAnswerCheck e false) s = .next t ∧ t.engineState e = 2 := by
  refine nextState_exists (exec_knownAnswerCheck_fails hOn he hCmds) ?_
  rw [State.settle_engineState, State.engineFail_engineState]

/-! ### A key slot whose lines have all reached the medium (R256) -/

/-- The cached lines of the hanks bound to a slot are dropped, and medium reads in flight put none back (R180). -/
def State.boundDropped (s : State) (n : Nat) : State := (s.boundHanks n).foldl (fun s l => s.cacheDropHank l) s

theorem State.boundDropped_rest (s : State) (n : Nat) : s.boundDropped n = { s with
    tlc := { s.tlc with cache := (s.boundDropped n).tlc.cache, mshr := (s.boundDropped n).tlc.mshr } } := by
  unfold State.boundDropped
  refine List.foldlRecOn (motive := fun u : State => u = { s with tlc := { s.tlc with cache := u.tlc.cache, mshr := u.tlc.mshr } }) _ _ rfl fun u hu l _ => ?_
  rw [hu]
  rfl

/-- With no two-ply hank bound to the slot no neighbour is asked for anything. -/
theorem State.keyErase_of_onePly {s : State} {n : Nat} (h : ∀ l ∈ s.boundHanks n, (s.hostEntry l).ply ≠ 1 ∧ (s.hostEntry l).ply ≠ 2) (cmd : Option Nat) :
    s.keyErase n cmd = (false, [], s.boundDropped n) := by
  have hHanks : (s.boundDropped n).hanks = s.hanks := (congrArg State.hanks (s.boundDropped_rest n)).trans rfl
  have hNone : (s.boundDropped n).plyHanks n = [] := by
    have hSame : (s.boundDropped n).plyHanks n = s.plyHanks n := by
      simp only [State.plyHanks, State.boundHanks, State.hostEntry, hHanks]
    rw [hSame]
    exact List.filter_eq_nil_iff.2 fun l hl => by simp [h l hl]
  show ((s.boundDropped n).plyHanks n).foldl _ _ = _
  rw [hNone]
  rfl

theorem State.keyGone_crypto (s : State) (n : Nat) : (s.keyGone n).crypto = { s.crypto with
    slots := dput shippedSlot s.crypto.slots n { s.slot n with wkey := 0, state := if s.boundHanks n = [] then 0 else 3 }
    store := tdel s.crypto.store n } := rfl

theorem State.keyCleared_crypto (s : State) (n : Nat) :
    (s.keyCleared n).crypto = { (s.keyGone n).crypto with retiring := tdel (s.keyGone n).crypto.retiring n } := by
  rw [State.keyCleared, State.keyEvent, State.event_crypto, (State.slotTotals_shows _).crypto]

theorem State.keyCleared_rest (s : State) (n : Nat) :
    (s.keyCleared n).hanks = s.hanks ∧ (s.keyCleared n).med = s.med ∧ (s.keyCleared n).tlc = s.tlc := by
  simp only [State.keyCleared, State.keyEvent, State.event_hanks, State.event_med, State.event_tlc, State.slotTotals, State.fset_hanks, State.fset_med,
    State.fset_tlc]
  exact ⟨rfl, rfl, rfl⟩

theorem State.keyCleared_slot (s : State) (n : Nat) :
    (s.keyCleared n).slot n = { s.slot n with wkey := 0, state := if s.boundHanks n = [] then 0 else 3 } := by
  rw [State.slot, s.keyCleared_crypto, s.keyGone_crypto]
  exact dget_dput_same ..

theorem State.keyCleared_store (s : State) (n : Nat) : tget (s.keyCleared n).crypto.store n = none := by
  rw [s.keyCleared_crypto, s.keyGone_crypto]
  exact tget_tdel_same ..

theorem exec_keyRetireFlushed_alone {s : State} {n : Nat} (hState : (s.slot n).state = 2) (hClean : s.keyDirty n = false) (hOn : s.power = .on)
    (hKeys : s.ready rKEYS = true) (hAlone : tget s.crypto.retiring n = some none)
    (hPly : ∀ l ∈ s.boundHanks n, (s.hostEntry l).ply ≠ 1 ∧ (s.hostEntry l).ply ≠ 2) :
    exec (.keyRetireFlushed n) s = nextState ((s.boundDropped n).keyCleared n) := by
  have hNoCmd : dget (fun _ => none) s.crypto.retiring n = none := by rw [dget, hAlone]; rfl
  show execKeyRetireFlushed n s = _
  rw [execKeyRetireFlushed, if_pos ⟨hState, hClean, hOn, hKeys⟩, hNoCmd, State.keyErase_of_onePly hPly]

theorem keyRetireFlushed_clears (s : State) (n : Nat) (hState : (s.slot n).state = 2) (hClean : s.keyDirty n = false) (hOn : s.power = .on)
    (hKeys : s.ready rKEYS = true) (hAlone : tget s.crypto.retiring n = some none)
    (hPly : ∀ l ∈ s.boundHanks n, (s.hostEntry l).ply ≠ 1 ∧ (s.hostEntry l).ply ≠ 2) :
    ∃ t, exec (.keyRetireFlushed n) s = .next t ∧ (t.slot n).wkey = 0 ∧ tget t.crypto.store n = none ∧
      (t.slot n).state = (if s.boundHanks n = [] then 0 else 3) ∧ t.hanks = s.hanks ∧ t.med = s.med ∧ t.tlc.pool = s.tlc.pool := by
  obtain ⟨hHanks, hMed, hTlc⟩ := (s.boundDropped n).keyCleared_rest n
  have hDropped := s.boundDropped_rest n
  have hSlot : ((s.boundDropped n).keyCleared n).settle.slot n =
      { (s.boundDropped n).slot n with wkey := 0, state := if s.boundHanks n = [] then 0 else 3 } := by
    have hBound : (s.boundDropped n).boundHanks n = s.boundHanks n := by rw [hDropped]; rfl
    rw [State.slot, State.settle_crypto, ← hBound]
    exact State.keyCleared_slot ..
  refine nextState_exists (exec_keyRetireFlushed_alone hState hClean hOn hKeys hAlone hPly) ⟨?_, ?_, ?_, ?_, ?_, ?_⟩
  · rw [hSlot]
  · rw [State.settle_crypto, State.keyCleared_store]
  · rw [hSlot]
  · rw [State.settle_hanks, hHanks, hDropped]
  · rw [State.settle_med, hMed, hDropped]
  · rw [State.settle_tlc, hTlc, hDropped]

end Sys2Proof.Machine

namespace Sys2Proof.Machine

/-! ### CXL IDE (R276, R277) -/

/-- A settled state keeps what the state that it settles keeps, of which the keys' part alone has changed. -/
theorem frame_settle_of_crypto (s : State) (x : Crypto) : Frame s (State.settle { s with crypto := x }) [.crypto] [] :=
  frame_settle rfl (fun p hp => (keeps_withCrypto s x).2 p fun h => hp (List.mem_cons_of_mem _ h)) fun _ _ => rfl

/-- A key comes into a key set of a direction of the stream on CXL.cachemem, or of that on CXL.io. -/
def Crypto.withMemKey (x : Crypto) (n : Nat) (key : BitVec 256) : Crypto :=
  let t := tput x.ideMem n key
  { x with ideMem := t, ideMemSecure := ideKeyed t, ideMemFailed := x.ideMemFailed && !(ideKeyed t) }
def Crypto.withIoKey (x : Crypto) (n : Nat) (key : BitVec 256) : Crypto :=
  let t := tput x.ideIo n key
  { x with ideIo := t, ideIoSecure := ideKeyed t }

theorem ideKeyed_iff (t : Tbl (BitVec 256)) : ideKeyed t = true ↔ ∃ a < 2, (tget t a).isSome ∧ (tget t (2 + a)).isSome := by
  simp [ideKeyed, List.any_eq_true]

section
variable {s : State} {n k : Nat} {x : SpdmSession} (hSession : tget s.seals.sessions n = some x) (hEstablished : x.established = true) (hk : k < 2)
include hSession hEstablished hk

theorem exec_ideKeyProg_mem (rx : Bool) (key : BitVec 256) : exec (.ideKeyProg n true rx k key) s =
    nextState { s with crypto := s.crypto.withMemKey ((if rx then 2 else 0) + k) key } := by
  show execIdeKeyProg n true rx k key s = _
  simp only [execIdeKeyProg, hSession]
  rw [if_pos ⟨hEstablished, hk⟩]
  rfl

theorem exec_ideKeyProg_io (rx : Bool) (key : BitVec 256) : exec (.ideKeyProg n false rx k key) s =
    nextState { s with crypto := s.crypto.withIoKey ((if rx then 2 else 0) + k) key } := by
  show execIdeKeyProg n false rx k key s = _
  simp only [execIdeKeyProg, hSession]
  rw [if_pos ⟨hEstablished, hk⟩]
  rfl

end

theorem ideKeyProg_mem (s : State) (n k : Nat) (rx : Bool) (key : BitVec 256) (x : SpdmSession) (hSession : tget s.seals.sessions n = some x)
    (hEstablished : x.established = true) (hk : k < 2) :
    ∃ t, exec (.ideKeyProg n true rx k key) s = .next t ∧ tget t.crypto.ideMem ((if rx then 2 else 0) + k) = some key ∧
      t.crypto.ideIo = s.crypto.ideIo ∧
      (t.crypto.ideMemSecure = true ↔ (∃ a < 2, (tget t.crypto.ideMem a).isSome ∧ (tget t.crypto.ideMem (2 + a)).isSome)) ∧
      Frame s t [.crypto] [] := by
  refine nextState_exists (exec_ideKeyProg_mem hSession hEstablished hk rx key) ⟨?_, ?_, ?_, frame_settle_of_crypto ..⟩
  · rw [State.settle_crypto]
    exact tget_tput_same ..
  · rw [State.settle_crypto]
    rfl
  · rw [State.settle_crypto]
    exact ideKeyed_iff _

theorem ideKeyProg_io (s : State) (n k : Nat) (rx : Bool) (key : BitVec 256) (x : SpdmSession) (hSession : tget s.seals.sessions n = some x)
    (hEstablished : x.established = true) (hk : k < 2) :
    ∃ t, exec (.ideKeyProg n false rx k key) s = .next t ∧ tget t.crypto.ideIo ((if rx then 2 else 0) + k) = some key ∧
      t.crypto.ideMem = s.crypto.ideMem ∧ Frame s t [.crypto] [] := by
  refine nextState_exists (exec_ideKeyProg_io hSession hEstablished hk rx key) ⟨?_, ?_, frame_settle_of_crypto ..⟩
  · rw [State.settle_crypto]
    exact tget_tput_same ..
  · rw [State.settle_crypto]
    rfl

theorem ideMacFailure_io (s : State) (hSecure : s.crypto.ideIoSecure = true) :
    exec (.ideMacFailure false) s = nextState { s with crypto := { s.crypto with ideIo := [], ideIoSecure := false } } := by
  show execIdeMacFailure false s = _
  rw [execIdeMacFailure, if_neg (by decide), if_pos hSecure]

/-- A request that completes leaves the deadline table, and no other does. -/
theorem State.complete_dl (s : State) (q : Nat) (d : Option Line) (poison : Bool) (k : Nat) :
    tget (s.complete q d poison).adm.dl k = if k = q then none else tget s.adm.dl k := by
  have hDel : tget (tdel s.adm.dl q) k = if k = q then none else tget s.adm.dl k := by
    split
    next h => rw [h, tget_tdel_same]
    next h => exact tget_tdel_other _ h
  unfold State.complete
  split
  next hNone =>
    split
    next h => rw [h, hNone]
    next => rfl
  next =>
    dsimp only
    split
    · exact hDel
    · rw [State.histCount_adm, State.lateCount_adm]
      exact hDel

theorem State.lateCount_crypto (s : State) (kind ld dl : Nat) : (s.lateCount kind ld dl).crypto = s.crypto := by
  unfold State.lateCount
  split
  · rfl
  · dsimp only
    split
    · rw [State.setReg_crypto, State.count_crypto]
    · rw [State.event_crypto, State.setReg_crypto, State.count_crypto]

theorem State.complete_crypto (s : State) (q : Nat) (d : Option Line) (poison : Bool) : (s.complete q d poison).crypto = s.crypto := by
  unfold State.complete
  split
  · rfl
  · dsimp only
    split
    · rfl
    · rw [State.histCount_eq, State.lateCount_crypto]
      rfl

theorem State.completeAll_crypto (s : State) (qs : List Nat) (d : Option Line) (poison : Bool) : (s.completeAll qs d poison).crypto = s.crypto :=
  foldl_keeps State.crypto (fun s q => s.complete_crypto q d poison) qs s

theorem State.completeAll_dl (s : State) (qs : List Nat) (d : Option Line) (poison : Bool) {k : Nat} (h : k ∈ qs ∨ tget s.adm.dl k = none) :
    tget (s.completeAll qs d poison).adm.dl k = none := by
  induction qs generalizing s with
  | nil => exact h.resolve_left List.not_mem_nil
  | cons q qs ih =>
    refine ih (s.complete q d poison) ?_
    rw [s.complete_dl]
    rcases h with h | h
    · rcases List.mem_cons.1 h with rfl | h
      · exact .inr (if_pos rfl)
      · exact .inl h
    · exact .inr (by rw [h, ite_self])

/-- The stream on CXL.cachemem out of the secure state, its keys discarded. -/
def State.memInsecure (s : State) : State := { s with crypto := { s.crypto with ideMem := [], ideMemSecure := false, ideMemFailed := true } }

theorem exec_ideMacFailure_mem {s : State} (hSecure : s.crypto.ideMemSecure = true) : exec (.ideMacFailure true) s =
    nextState (s.memInsecure.completeAll (tkeys s.adm.dl fun e => e.kind == .read) (some 0) true) := by
  show execIdeMacFailure true s = _
  rw [execIdeMacFailure, if_pos rfl, if_pos hSecure]
  rfl

theorem ideMacFailure_mem (s : State) (hSecure : s.crypto.ideMemSecure = true) :
    ∃ t, exec (.ideMacFailure true) s = .next t ∧ t.crypto = { s.crypto with ideMem := [], ideMemSecure := false, ideMemFailed := true } ∧
      (∀ q e, tget s.adm.dl q = some e → e.kind = .read → tget t.adm.dl q = none) := by
  refine nextState_exists (exec_ideMacFailure_mem hSecure) ⟨?_, fun q e hEntry hKind => ?_⟩
  · rw [State.settle_crypto, State.completeAll_crypto]
    rfl
  · rw [State.settle_adm]
    refine State.completeAll_dl _ _ _ _ (.inl ?_)
    exact List.mem_map.2 ⟨(q, e), List.mem_filter.2 ⟨mem_of_tget hEntry, by simp [hKind]⟩, rfl⟩

/-! ### The SPDM responder (R284) -/

/-- A request that a check lets pass. -/
theorem ite_not_of_true {α : Type} {b : Bool} (h : b = true) (x y : α) : (if !b then x else y) = y := by
  subst h
  rfl

theorem State.onSession_of_some {s : State} {n : Nat} {x : SpdmSession} (hUp : s.spdmUp = true) (h : tget s.seals.sessions n = some x)
    (f : SpdmSession → State) : s.onSession n f = f x := by
  rw [State.onSession, ite_not_of_true hUp, h]

section
variable {s : State} (hUp : s.spdmUp = true)
include hUp

theorem exec_spdmGetVersion : exec .spdmGetVersion s = nextState { s with
    outbox := .spdm 0x04 [0x12] [] :: s.outbox, seals := { s.seals with version := true, caps := false, algs := false, dhe := false } } := by
  show execSpdmGetVersion s = _
  rw [execSpdmGetVersion, if_pos hUp]
  rfl

theorem exec_spdmGetCapabilities (h : s.seals.version = true) : exec .spdmGetCapabilities s =
    nextState { s with outbox := .spdm 0x61 [] [] :: s.outbox, seals := { s.seals with caps := true } } := by
  show execSpdmGetCapabilities s = _
  rw [execSpdmGetCapabilities, ite_not_of_true hUp, ite_not_of_true h]
  rfl

theorem exec_spdmNegotiateAlgorithms (a h d e : Nat) (hCaps : s.seals.caps = true) (ha : a.testBit 7 = true) (hh : h.testBit 1 = true)
    (hd : d.testBit 4 = true) (he : e.testBit 1 = true) : exec (.spdmNegotiateAlgorithms a h d e) s = nextState { s with
      outbox := .spdm 0x63 [0x80, 0x02, 0x10, 0x02] [] :: s.outbox, seals := { s.seals with algs := true, dhe := true } } := by
  show execSpdmNegotiateAlgorithms a h d e s = _
  rw [execSpdmNegotiateAlgorithms, ite_not_of_true hUp, ite_not_of_true hCaps, ha, hh, hd, he]
  rfl

theorem exec_spdmFinish {n : Nat} {x : SpdmSession} (hSession : tget s.seals.sessions n = some x) (hNew : x.established = false) :
    exec (.spdmFinish n true) s = nextState { s with
      outbox := .spdm 0x65 [] [] :: s.outbox, seals := { s.seals with sessions := tput s.seals.sessions n { x with established := true } } } := by
  show execSpdmFinish n true s = _
  rw [execSpdmFinish, State.onSession_of_some hUp hSession, if_neg (by rw [hNew]; decide), if_pos rfl]
  rfl

section
variable {n : Nat} {x : SpdmSession} (hSession : tget s.seals.sessions n = some x) (hEstablished : x.established = true)
include hSession hEstablished

theorem exec_spdmHeartbeat : exec (.spdmHeartbeat n) s = nextState { s with outbox := .spdm 0x68 [] [] :: s.outbox } := by
  show execSpdmHeartbeat n s = _
  rw [execSpdmHeartbeat, State.onSession_of_some hUp hSession, if_pos hEstablished]
  rfl

theorem exec_spdmKeyUpdate : exec (.spdmKeyUpdate n) s = nextState { s with
    outbox := .spdm 0x69 [] [] :: s.outbox, seals := { s.seals with sessions := tput s.seals.sessions n { x with updates := x.updates + 1 } } } := by
  show execSpdmKeyUpdate n s = _
  rw [execSpdmKeyUpdate, State.onSession_of_some hUp hSession, if_pos hEstablished]
  rfl

theorem exec_spdmEndSession : exec (.spdmEndSession n) s = nextState { s with
    outbox := .spdm 0x6C [] [] :: s.outbox, seals := { s.seals with sessions := tdel s.seals.sessions n } } := by
  show execSpdmEndSession n s = _
  rw [execSpdmEndSession, State.onSession_of_some hUp hSession, if_pos hEstablished]
  rfl

end

section
variable (hAlgs : s.seals.algs = true)
include hAlgs

theorem exec_spdmGetDigests : exec .spdmGetDigests s =
    nextState { s with outbox := .spdm 0x01 [1] (be 48 (Config.sha384 spdmChain).toNat) :: s.outbox } := by
  show execSpdmGetDigests s = _
  rw [execSpdmGetDigests, ite_not_of_true hUp, ite_not_of_true hAlgs]
  rfl

theorem exec_spdmGetCertificate {o : Nat} (n : Nat) (ho : o < spdmChain.length) : exec (.spdmGetCertificate 0 o n) s = nextState { s with
    outbox := .spdm 0x02 [0, ((spdmChain.drop o).take n).length, spdmChain.length - o - ((spdmChain.drop o).take n).length]
      ((spdmChain.drop o).take n) :: s.outbox } := by
  show execSpdmGetCertificate 0 o n s = _
  have hValid : ¬((0 : Nat) ≠ 0 ∨ spdmChain.length ≤ o) := fun h => h.elim (absurd rfl) (Nat.not_le.2 ho)
  rw [execSpdmGetCertificate, ite_not_of_true hUp, ite_not_of_true hAlgs, if_neg hValid]
  rfl

theorem exec_spdmChallenge (hSeal : s.ready rSEAL = true) (nonce : BitVec 256) : ∃ b, exec (.spdmChallenge 0 nonce) s =
    nextState { s with freeCtr := s.freeCtr + 1, outbox := .spdm 0x03 [0] b :: s.outbox } := by
  have hStep : exec (.spdmChallenge 0 nonce) s = execSpdmChallenge 0 nonce s := rfl
  rw [hStep, execSpdmChallenge, ite_not_of_true hUp, ite_not_of_true hAlgs, if_neg (not_not_intro rfl), ite_not_of_true hSeal]
  exact ⟨_, rfl⟩

theorem exec_spdmGetMeasurements (hSeal : s.ready rSEAL = true) {i : Nat} (hLow : 1 ≤ i) (hHigh : i ≤ 6) (nonce : BitVec 256) :
    exec (.spdmGetMeasurements none i false nonce) s = nextState { s with outbox := .spdm 0x60 [i] (s.measure i) :: s.outbox } := by
  have hNotCount : i ≠ 0 := by omega
  have hValid : ¬(6 < i ∧ i ≠ 0xFF) := by omega
  have hNotAll : i ≠ 0xFF := by omega
  show execSpdmGetMeasurements none i false nonce s = _
  rw [execSpdmGetMeasurements, ite_not_of_true hUp, ite_not_of_true hAlgs, if_neg Bool.false_ne_true, ite_not_of_true hSeal, if_neg hNotCount, if_neg hValid,
    if_neg hNotAll]
  rfl

theorem exec_spdmKeyExchange (q : BitVec 384 × BitVec 384) (hDhe : s.seals.dhe = true) (hKeys : s.ready rKEYS = true)
    (hRoom : s.seals.sessions.length < 2) : exec (.spdmKeyExchange q) s = nextState (if Config.onCurve q.1 q.2 = true then
      { s with
        outbox := .spdm 0x64 [s.seals.nextSession] [] :: s.outbox
        seals := { s.seals with
          sessions := tput s.seals.sessions s.seals.nextSession { established := false, updates := 0 }, nextSession := s.seals.nextSession + 1 } }
      else { s with outbox := .spdm 0x7F [1] [] :: s.outbox }) := by
  show execSpdmKeyExchange q s = _
  rw [execSpdmKeyExchange, ite_not_of_true hUp, ite_not_of_true (by rw [hAlgs, hDhe]; rfl), ite_not_of_true hKeys]
  cases Config.onCurve q.1 q.2 with
  | true =>
    rw [ite_not_of_true rfl, if_neg (Nat.not_le.2 hRoom)]
    rfl
  | false => rfl

end
end

/-- Settles O35, request by request: what a failed engine sets going leaves the engines' states; a slot's retirement ends with no neighbour to ask; and each
SPDM request that the responder takes is answered at once. -/
theorem keysIdeAndSpdm : Obligations.KeysIdeAndSpdm := by
  refine ⟨⟨knownAnswerCheck_passes, knownAnswerCheck_fails⟩, keyRetireFlushed_clears,
    ⟨ideKeyProg_mem, ideKeyProg_io, ideMacFailure_io, ideMacFailure_mem⟩, fun s hOn hMbox => ?_⟩
  have hUp : s.spdmUp = true := by simp [State.spdmUp, hOn, hMbox]
  exact ⟨exec_spdmGetVersion hUp, exec_spdmGetCapabilities hUp, exec_spdmNegotiateAlgorithms hUp, exec_spdmGetDigests hUp,
    fun _ n hAlgs ho => exec_spdmGetCertificate hUp hAlgs n ho, fun nonce hAlgs hSeal => exec_spdmChallenge hUp hAlgs hSeal nonce,
    fun _ nonce hAlgs hSeal hLow hHigh => exec_spdmGetMeasurements hUp hAlgs hSeal hLow hHigh nonce,
    fun q hAlgs => exec_spdmKeyExchange hUp hAlgs q, fun _ _ hSession hNew => exec_spdmFinish hUp hSession hNew,
    fun _ _ hSession hEstablished => ⟨exec_spdmHeartbeat hUp hSession hEstablished, exec_spdmKeyUpdate hUp hSession hEstablished,
      exec_spdmEndSession hUp hSession hEstablished⟩⟩

end Sys2Proof.Machine

namespace Sys2Proof.Machine

/-! ### A verify that charges its class (O36) -/

/-- The hash of an extent rests neither on the seals nor on the commands. -/
theorem State.extentHash_withSeals (s : State) (x : Seals) (t : Tbl Cmd) (first count : Nat) :
    State.extentHash { s with seals := x, cmds := t } first count = s.extentHash first count := rfl

theorem State.extentRead_of_noErrs {s : State} (h : s.wm.errs = []) (first count : Nat) : s.extentRead first count = s := by
  simp [State.extentRead, h]

/-- A verify that ends has charged class 6 one token for each line of its extent, whatever the hash says (Table 2-7). -/
theorem exec_verifyHashDone_adm {s t : State} {id : Nat} {j : SealJob} (hJob : tget s.seals.verify id = some j) (hRuns : s.hashHeld j = false)
    (hTurn : s.hashFirst j = false) (hErrs : s.wm.errs = []) (hExec : exec (.verifyHashDone id) s = .next t) :
    t.adm = (s.charge 22 (j.count * 16384)).adm := by
  unfold exec at hExec
  simp only [execVerifyHashDone, hJob, hRuns, hTurn, State.extentRead_of_noErrs hErrs, Bool.or_false, Bool.false_eq_true, if_false] at hExec
  rw [nextState_next _ hExec, State.settle_adm]
  split
  · exact State.finish_adm ..
  · split
    · exact State.finish_adm ..
    · rw [State.finish_adm, State.event_adm]

/-- VERIFY_EXTENT of seal 1, come over MCTP, that waits for its hash. -/
def verifyOfSeal1 : Cmd := { shareOfFive with pkt := { shareOfFive.pkt with opcode := 0x0504, flags := 0, arg0 := 1, arg1 := 0 }, running := true }

/-- The hash of hank 0 that the command waits for. -/
def hashOfHank0 : SealJob :=
  { cmd := 0, ld := 0, key := 0, first := 0, count := 1, flags := 0, label := 0, ref := 1, due := 1000, timed := false }

/-- Seal 1, of hank 0 with a hash. -/
def sealOfHank0 (h : BitVec 384) : LiveSeal := { seq := 1, ld := 0, first := 0, count := 1, rcd := { blankRec 1 with seq := 1, count := 1, extentHash := h } }

/-- A module in service that verifies seal 1, whose extent still has the hash that it had. -/
def verifiesHank0 : State :=
  let s : State := { State.reset with power := .on }
  { s with
    seals := { s.seals with verify := [(0, hashOfHank0)], live := [(1, sealOfHank0 (s.extentHash 0 1))] }
    cmds := [(0, verifyOfSeal1)] }

/-- Refutes O36: a verify charges class 6 a token for each line that it hashes (Table 2-7), so it changes the balances and the charges, which are
admission's, while the third clause keeps every part that a completion does not touch. The state is `verifiesHank0`. -/
theorem not_sealsEnterTheLedger : ¬ Obligations.SealsEnterTheLedger := by
  rintro ⟨-, -, hVerifies, -⟩
  have hRuns : verifiesHank0.hashHeld hashOfHank0 = false := by decide
  have hTurn : verifiesHank0.hashFirst hashOfHank0 = false := by decide
  obtain ⟨t, hExec, -, -, hKeeps⟩ := hVerifies verifiesHank0 0 hashOfHank0 (sealOfHank0 (State.extentHash { State.reset with power := .on } 0 1))
    verifyOfSeal1 rfl rfl rfl hRuns hTurn rfl (State.extentHash_withSeals ..)
  have hKept : t.adm = verifiesHank0.adm := hKeeps.2 .adm (by decide)
  rw [exec_verifyHashDone_adm rfl hRuns hTurn rfl hExec] at hKept
  exact absurd (congrArg (fun a => a.charged.getD 22 0) hKept) (by decide)

end Sys2Proof.Machine

namespace Sys2Proof.Machine

/-! ### SEALED on the hanks of an extent, and what follows the seals -/

theorem State.setEntry_seals (s : State) (sys : Bool) (idx : Nat) (e : MapEntry) : (s.setEntry sys idx e).seals = s.seals :=
  (congrArg State.seals (MapKept.setEntry s sys idx e)).trans rfl

/-- One hank of an extent is sealed or unsealed, its cached lines going first. -/
def State.markHank (s : State) (lhn : Nat) (v : Bool) : State :=
  (s.cacheDropHank lhn).setEntry false lhn { s.hostEntry lhn with isSealed := v }

theorem State.markHank_isSealed (s : State) (lhn : Nat) (v : Bool) : ((s.markHank lhn v).hostEntry lhn).isSealed = v :=
  (congrArg MapEntry.isSealed (State.setEntry_hostEntry_same ..)).trans rfl

theorem State.markHank_isSealed_other {l lhn : Nat} (h : l ≠ lhn) (s : State) (v : Bool) :
    ((s.markHank lhn v).hostEntry l).isSealed = (s.hostEntry l).isSealed :=
  (congrArg MapEntry.isSealed (HankKept.setEntry h (s.cacheDropHank lhn) { s.hostEntry lhn with isSealed := v }).entry).trans rfl

theorem State.markSealed_succ (s : State) (first count : Nat) (v : Bool) :
    s.markSealed first (count + 1) v = (s.markSealed first count v).markHank (first + count) v := by
  rw [State.markSealed, List.range_succ, List.foldl_append]
  rfl

theorem State.markSealed_seals (s : State) (first count : Nat) (v : Bool) : (s.markSealed first count v).seals = s.seals :=
  foldl_keeps State.seals (fun u i => (State.setEntry_seals (u.cacheDropHank (first + i)) ..).trans rfl) _ s

theorem State.markSealed_isSealed (s : State) (first : Nat) {count i : Nat} (v : Bool) (h : i < count) :
    ((s.markSealed first count v).hostEntry (first + i)).isSealed = v := by
  induction count with
  | zero => exact absurd h (Nat.not_lt_zero i)
  | succ count ih =>
    rw [State.markSealed_succ]
    by_cases hLast : i = count
    · rw [hLast, State.markHank_isSealed]
    · rw [State.markHank_isSealed_other (by omega), ih (by omega)]

theorem State.selStat_seals (s : State) : s.selStat.seals = s.seals := by
  cases hJobs : s.seals.jobs <;> simp [State.selStat, hJobs]

theorem State.selStat_hanks (s : State) : s.selStat.hanks = s.hanks := by
  cases hJobs : s.seals.jobs <;> simp [State.selStat, hJobs]

theorem State.selStat_reg (s : State) {off : Nat} (hStat : off ≠ Reg.SEL_STAT) (hProgress : off ≠ Reg.SEL_PROGRESS) :
    s.selStat.reg off = s.reg off := by
  cases hJobs : s.seals.jobs <;> simp [State.selStat, hJobs, State.reg_fset_other, State.reg_setReg_other, hStat, hProgress]

/-! ### What a completion leaves of the seals -/

/-- The seals but for the extents that are verified, the part of a command that ends. -/
def State.sealsBeside (s : State) : Seals := { s.seals with verify := [] }

theorem State.sealsBeside_congr {s u : State} (h : u.seals = s.seals) : u.sealsBeside = s.sealsBeside := by
  rw [State.sealsBeside, h, State.sealsBeside]

theorem State.toBuffer_seals (s : State) (c : Cmd) (bytes : List Byte) : (s.toBuffer c bytes).seals = s.seals := by
  unfold State.toBuffer
  split
  · rfl
  · split
    · exact foldl_keeps State.seals (f := fun s (x : Nat × List Byte) => s.out (.host x.1 x.2)) (fun _ _ => rfl) _ s
    · rfl

theorem State.msixCount_seals (s : State) (n : Nat) (noirq : Bool) : (s.msixCount n noirq).seals = s.seals := by
  unfold State.msixCount
  dsimp only
  (repeat' split) <;> rfl

theorem State.writeCqe_seals (s : State) (n tag st r0 r1 : Nat) (noirq : Bool) : (s.writeCqe n tag st r0 r1 noirq).seals = s.seals := by
  unfold State.writeCqe
  refine (State.msixCount_seals ..).trans ?_
  split <;> rfl

theorem State.ringStat_seals (s : State) (n : Nat) : (s.ringStat n).seals = s.seals := by
  unfold State.ringStat
  split <;> rfl

theorem State.unwrite_seals (s : State) (ring : Nat) (c : Cmd) (st r0 : Nat) : (s.unwrite ring c st r0).seals = s.seals := by
  unfold State.unwrite
  split <;> rfl

theorem State.haltMark_seals (s : State) (n cause : Nat) : (s.haltMark n cause).seals = s.seals :=
  (State.event_seals ..).trans rfl

theorem State.cqError_sealsBeside (s : State) (n : Nat) : (s.cqError n).sealsBeside = s.sealsBeside := by
  have hUnwrites (u : State) (gone : List (Nat × Cmd)) :
      (gone.foldl (fun s e => (s.dropRefs e.1).unwrite n e.2 stABORTED 0) u).sealsBeside = u.sealsBeside :=
    foldl_keeps State.sealsBeside
      (fun s (e : Nat × Cmd) => (State.sealsBeside_congr ((s.dropRefs e.1).unwrite_seals n e.2 stABORTED 0)).trans rfl) gone u
  unfold State.cqError
  split
  · exact State.sealsBeside_congr (State.ringStat_seals ..)
  · refine (State.sealsBeside_congr (State.ringStat_seals ..)).trans ?_
    exact (hUnwrites { s.haltMark n 3 with cmds := _ } _).trans (State.sealsBeside_congr (s.haltMark_seals n 3))

theorem State.ringAnswer_sealsBeside (s : State) (n : Nat) (c : Cmd) (st r0 r1 : Nat) (bytes : List Byte) :
    (s.ringAnswer n c st r0 r1 bytes).sealsBeside = s.sealsBeside := by
  unfold State.ringAnswer
  dsimp only
  refine iteInduction (motive := fun u : State => u.sealsBeside = s.sealsBeside) (fun _ => ?_) fun _ => ?_
  · rw [State.cqError_sealsBeside]
    exact State.sealsBeside_congr ((State.unwrite_seals ..).trans (State.toBuffer_seals ..))
  · exact State.sealsBeside_congr ((State.ringStat_seals ..).trans ((State.writeCqe_seals ..).trans (State.toBuffer_seals ..)))

/-- A completion leaves the owner, the ledger, the live seals and those in progress. -/
theorem State.finish_sealsBeside (s : State) (id st r0 r1 : Nat) (bytes : List Byte) : (s.finish id st r0 r1 bytes).sealsBeside = s.sealsBeside := by
  cases hCmd : tget s.cmds id with
  | none => rw [State.finish_none hCmd]
  | some c =>
    cases hStop : c.stopping with
    | true =>
      rw [State.finish_stopped hCmd hStop]
      exact (State.sealsBeside_congr (State.unwrite_seals ..)).trans rfl
    | false =>
      cases hCarrier : c.carrier with
      | ring n =>
        rw [State.finish_ring hCmd hStop hCarrier]
        exact (State.ringAnswer_sealsBeside ..).trans rfl
      | _ =>
        unfold State.finish
        simp only [hCmd, hStop, hCarrier, Bool.false_eq_true, if_false]
        rfl

theorem State.finish_owner (s : State) (id st r0 r1 : Nat) (bytes : List Byte) : (s.finish id st r0 r1 bytes).seals.owner = s.seals.owner := by
  change (s.finish id st r0 r1 bytes).sealsBeside.owner = s.sealsBeside.owner
  rw [State.finish_sealsBeside]

theorem State.ledgerHead_congr {s u : State} (h : u.seals.ledger = s.seals.ledger) : u.ledgerHead = s.ledgerHead := by
  rw [State.ledgerHead, h, State.ledgerHead]

theorem State.finish_ledgerHead (s : State) (id st r0 r1 : Nat) (bytes : List Byte) : (s.finish id st r0 r1 bytes).ledgerHead = s.ledgerHead := by
  refine State.ledgerHead_congr ?_
  change (s.finish id st r0 r1 bytes).sealsBeside.ledger = s.sealsBeside.ledger
  rw [State.finish_sealsBeside]

/-! ### The head of the ledger once a record is appended (R295) -/

theorem foldl_max_le_iff (l : List Nat) (a n : Nat) : l.foldl max a ≤ n ↔ a ≤ n ∧ ∀ x ∈ l, x ≤ n := by
  induction l generalizing a with
  | nil => simp
  | cons x l ih => simp [ih, and_assoc]

theorem State.ledgerHead_le_iff (s : State) (n : Nat) : s.ledgerHead ≤ n ↔ ∀ e ∈ s.seals.ledger, e.1 ≤ n := by
  simp [State.ledgerHead, foldl_max_le_iff]

theorem forall_mem_tput_iff {α : Type} (t : Tbl α) (k : Nat) (v : α) (p : Nat → Prop) : (∀ e ∈ tput t k v, p e.1) ↔ p k ∧ ∀ e ∈ t, p e.1 := by
  induction t with
  | nil => simp [tput]
  | cons a t ih =>
    obtain ⟨i, w⟩ := a
    unfold tput
    split
    · simp
    · split
      · rename_i hSame
        simp [hSame]
      · simp only [List.forall_mem_cons, ih]
        exact and_left_comm

/-- The SEQ of the next record: the one after the head, or the one that a resumed seal holds (R294). -/
def State.nextSeq (s : State) : Nat := if s.seqHeld then s.ratchet 0 else s.ratchet 0 + 1

theorem State.append_seals (s : State) (r : LedgerRec) :
    (s.append r).2.seals = { s.seals with ledger := tput (tdel s.seals.ledger (s.nextSeq - 61440)) s.nextSeq (s.append r).1 } := rfl

theorem State.append_ledgerHead (s : State) (r : LedgerRec) : (s.append r).2.ledgerHead = max s.ledgerHead s.nextSeq := by
  refine eq_of_forall_ge_iff fun n => ?_
  rw [State.ledgerHead_le_iff, max_le_iff, State.ledgerHead_le_iff, State.append_seals, forall_mem_tput_iff _ _ _ (· ≤ n), and_comm]
  refine and_congr_left fun hSeq => ⟨fun h e he => ?_, fun h e he => h e (List.mem_filter.1 he).1⟩
  by_cases hOld : e.1 = s.nextSeq - 61440
  · omega
  · exact h e (List.mem_filter.2 ⟨he, decide_eq_true hOld⟩)

theorem State.append_reg (s : State) (r : LedgerRec) {off : Nat} (hRatchet : off ≠ Reg.SEL_RATCHET 0) (hHead : off ≠ Reg.SEL_HEAD)
    (hOldest : off ≠ Reg.SEL_OLDEST) : (s.append r).2.reg off = s.reg off :=
  (State.reg_setReg_other _ _ _ hOldest).trans ((State.reg_setReg_other _ _ _ hHead).trans (State.reg_setReg_other _ _ _ hRatchet))

end Sys2Proof.Machine

namespace Sys2Proof.Machine

/-! ### SEAL_EXTENT (R290, R291) -/

/-- The seal in progress that an accepted SEAL_EXTENT enters. -/
def State.newSeal (s : State) (id : Nat) (c : Cmd) : SealJob :=
  let first := s.ldBase c.pkt.ld + c.pkt.arg0
  { cmd := id, ld := c.pkt.ld, key := (s.hostEntry first).key, first := first, count := c.pkt.arg1, flags := 0, label := c.pkt.arg2, ref := 0
    due := c.expiry.getD (s.bgDeadline 6), timed := c.expiry.isSome }

/-- The command has changed something, and its seal is in progress. -/
def State.sealEntered (s : State) (id : Nat) (c : Cmd) : State :=
  { (s.begun id c).setCmd id { c with running := true, started := true } with
    seals := { s.seals with jobs := tput s.seals.jobs s.seals.nextJob (s.newSeal id c), nextJob := s.seals.nextJob + 1 } }

section
variable {s : State} {id : Nat} {c : Cmd}

theorem exec_sealExtent_enters (hReady : s.CmdReady id 0x0501 c) (hCheck : s.sealCheck c.pkt = none) (hRoom : s.journalFull = false)
    (hHints : ∀ i, i < c.pkt.arg1 → (s.hostEntry (s.ldBase c.pkt.ld + c.pkt.arg0 + i)).hint = false) :
    exec (.sealExtent id) s =
      nextState ((s.sealEntered id c).markSealed (s.ldBase c.pkt.ld + c.pkt.arg0) c.pkt.arg1 true).selStat := by
  have hCheck' : (s.begun id c).sealCheck c.pkt = none := hCheck
  have hGoes : ((s.begun id c).journalFull || (List.range c.pkt.arg1).any fun i =>
      ((s.begun id c).hostEntry ((s.begun id c).ldBase c.pkt.ld + c.pkt.arg0 + i)).hint) = false := by
    rw [Bool.or_eq_false_iff, List.any_eq_false]
    exact ⟨hRoom, fun i hi => Bool.eq_false_iff.1 (hHints i (List.mem_range.1 hi))⟩
  unfold exec
  simp only [execSealExtent, s.start_ready _ hReady, hCheck', hGoes, Bool.false_eq_true, if_false]
  rfl

/-- SEAL_EXTENT enters its seal and sets SEALED on each of its hanks. -/
theorem sealExtent_seals (hReady : s.CmdReady id 0x0501 c) (hCheck : s.sealCheck c.pkt = none) (hRoom : s.journalFull = false)
    (hHints : ∀ i, i < c.pkt.arg1 → (s.hostEntry (s.ldBase c.pkt.ld + c.pkt.arg0 + i)).hint = false) :
    ∃ t j, exec (.sealExtent id) s = .next t ∧ tget t.seals.jobs s.seals.nextJob = some j ∧ j.cmd = id ∧ j.ld = c.pkt.ld ∧
      j.first = s.ldBase c.pkt.ld + c.pkt.arg0 ∧ j.count = c.pkt.arg1 ∧ j.label = c.pkt.arg2 ∧
      (∀ i, i < c.pkt.arg1 → (t.hostEntry (s.ldBase c.pkt.ld + c.pkt.arg0 + i)).isSealed = true) ∧ t.seals.ledger = s.seals.ledger := by
  let u := (s.sealEntered id c).markSealed (s.ldBase c.pkt.ld + c.pkt.arg0) c.pkt.arg1 true
  have hSeals : u.selStat.settle.seals = (s.sealEntered id c).seals := by
    rw [State.settle_seals, State.selStat_seals, State.markSealed_seals]
  have hHanks : u.selStat.settle.hanks = u.hanks := by rw [State.settle_hanks, State.selStat_hanks]
  refine ⟨u.selStat.settle, s.newSeal id c, exec_sealExtent_enters hReady hCheck hRoom hHints, ?_, rfl, rfl, rfl, rfl, rfl, fun i hi => ?_, ?_⟩
  · rw [hSeals]
    exact tget_tput_same ..
  · rw [State.hostEntry_congr (congrArg Hanks.host hHanks), State.markSealed_isSealed _ _ _ hi]
  · rw [hSeals]
    rfl

/-! ### GET_SEAL_RECORD and VERIFY_EXTENT (R299, R300) -/

/-- With FLAGS bit 0 GET_SEAL_RECORD answers the record of the live seal over a hank. -/
theorem getSealRecord_leaves {n : Nat} {v : LiveSeal} (hReady : s.CmdReady id 0x0502 c) (hBuffer : 256 ≤ c.pkt.buflen)
    (hByHank : c.pkt.flags.testBit 0 = true) (hIn : c.pkt.arg0 < s.ldHanks c.pkt.ld)
    (hLive : tfind s.seals.live (fun _ v => decide (v.first ≤ s.ldBase c.pkt.ld + c.pkt.arg0 ∧
      s.ldBase c.pkt.ld + c.pkt.arg0 < v.first + v.count)) = some (n, v)) :
    ∃ t, exec (.getSealRecord id) s = .next t ∧ s.Answered t id c stOK 0 1 (recordBytes v.rcd) ∧ Keeps s t (.regs :: doneParts) := by
  have hRoom : c.pkt.buflen / 256 ≠ 0 := by omega
  have hIn' : ¬(s.begun id c).ldHanks c.pkt.ld ≤ c.pkt.arg0 := Nat.not_le.2 hIn
  have hLive' : tfind (s.begun id c).seals.live (fun _ v => decide (v.first ≤ (s.begun id c).ldBase c.pkt.ld + c.pkt.arg0 ∧
      (s.begun id c).ldBase c.pkt.ld + c.pkt.arg0 < v.first + v.count)) = some (n, v) := hLive
  unfold exec
  refine State.answer_leaves hReady ?_
  simp only [if_neg hRoom, hByHank, if_neg hIn', hLive', if_true]

/-- The hash that a VERIFY_EXTENT of a live seal waits for. -/
def State.verifyJob (s : State) (id : Nat) (c : Cmd) (v : LiveSeal) : SealJob :=
  { cmd := id, ld := v.ld, key := 0, first := v.first, count := v.count, flags := 0, label := 0, ref := v.seq
    due := c.expiry.getD (s.bgDeadline 6), timed := c.expiry.isSome }

/-- The command has started, and its hash is under way. -/
def State.verifyBegun (s : State) (id : Nat) (c : Cmd) (v : LiveSeal) : State :=
  { s.begun id c with seals := { s.seals with verify := tput s.seals.verify id (s.verifyJob id c v) } }

theorem exec_verifyExtent_begins {v : LiveSeal} (hReady : s.CmdReady id 0x0504 c) (hLive : tget s.seals.live c.pkt.arg0 = some v) :
    exec (.verifyExtent id) s = nextState (s.verifyBegun id c v) := by
  have hLive' : tget (s.begun id c).seals.live c.pkt.arg0 = some v := hLive
  unfold exec
  simp only [execVerifyExtent, s.start_ready _ hReady, hLive']
  rfl

/-- VERIFY_EXTENT of a live seal starts the hash of its extent and changes nothing else. -/
theorem verifyExtent_begins {v : LiveSeal} (hReady : s.CmdReady id 0x0504 c) (hLive : tget s.seals.live c.pkt.arg0 = some v) :
    ∃ t, exec (.verifyExtent id) s = .next t ∧
      tget t.seals.verify id = some {
        cmd := id, ld := v.ld, key := 0, first := v.first, count := v.count, flags := 0, label := 0, ref := v.seq
        due := c.expiry.getD (s.bgDeadline 6), timed := c.expiry.isSome } ∧
      tget t.cmds id = some { c with running := true } ∧ t.seals.live = s.seals.live ∧ Frame s t [.seals, .cmds] [] := by
  refine nextState_exists (exec_verifyExtent_begins hReady hLive) ?_
  rw [State.settle_seals, State.settle_cmds]
  refine ⟨tget_tput_same .., tget_tput_same .., rfl, frame_settle rfl (fun p hp => ?_) fun _ _ => rfl⟩
  cases p with
  | regs | seals | cmds => simp at hp
  | _ => rfl

/-! ### RELEASE_SEAL with an enrolment token (R288, R289) -/

/-- The record of an enrolment. -/
def enrolRecord (c : Cmd) : LedgerRec := { blankRec 3 with extentHash := Config.sha384 (ownerBytes (tokenOf c.input).newKey) }

/-- The command has changed something: ratchet 1 has spent its token. -/
def State.tokenSpent (s : State) (id : Nat) (c : Cmd) : State :=
  ((s.begun id c).setCmd id { c with running := true, started := true }).setRatchet 1 (s.ratchet 1 + 1)

/-- The enrolment is recorded, and the token's key is the owner's. -/
def State.enrolled (s : State) (id : Nat) (c : Cmd) : State :=
  let u := ((s.tokenSpent id c).append (enrolRecord c)).2
  State.selStat { u with seals := { u.seals with owner := some (tokenOf c.input).newKey } }

theorem exec_releaseSeal_enrols (hReady : s.CmdReady id 0x0503 c) (hKind : (tokenOf c.input).kind = 3)
    (hCheck : s.tokenCheck c (tokenOf c.input) = none) :
    ∃ seq, exec (.releaseSeal id) s = nextState ((s.enrolled id c).finish id stOK seq 0 []) := by
  have hCheck' : (s.begun id c).tokenCheck { c with running := true } (tokenOf c.input) = none := hCheck
  refine ⟨(s.tokenSpent id c).nextSeq, ?_⟩
  unfold exec
  simp only [execReleaseSeal, s.start_ready _ hReady, hCheck', hKind, show (3 : Nat) ≠ 1 by decide, show (3 : Nat) ≠ 2 by decide, false_and, if_false]
  rfl

theorem exec_releaseSeal_refused {st : Nat} (hReady : s.CmdReady id 0x0503 c) (hCheck : s.tokenCheck c (tokenOf c.input) = some st) :
    exec (.releaseSeal id) s = nextState ((if st = stBUSY then (s.begun id c).ledgerBusy else s.begun id c).finish id st 0 0 []) := by
  have hCheck' : (s.begun id c).tokenCheck { c with running := true } (tokenOf c.input) = some st := hCheck
  unfold exec
  simp only [execReleaseSeal, s.start_ready _ hReady, hCheck']

theorem uncompleted_ratchet1 : Uncompleted (Reg.SEL_RATCHET 1) := by
  refine ⟨fun n => ?_, by decide⟩
  simp only [Reg.SEL_RATCHET, Reg.CRG_STAT, Reg.CRG_CQ_TAIL, Reg.CRG_DONE]
  omega

/-- The end of a command leaves ratchet 1 as it was. -/
theorem State.finish_settle_ratchet1 (s : State) (id st r0 r1 : Nat) (bytes : List Byte) :
    (s.finish id st r0 r1 bytes).settle.ratchet 1 = s.ratchet 1 := by
  rw [State.ratchet, State.settle_reg _ (by decide), State.finish_reg uncompleted_ratchet1, State.ratchet]

theorem State.settle_ledgerHead (s : State) : s.settle.ledgerHead = s.ledgerHead :=
  State.ledgerHead_congr (congrArg Seals.ledger s.settle_seals)

theorem State.enrolled_ratchet1 (hSpend : s.ratchet 1 + 1 < 2 ^ 64) : (s.enrolled id c).ratchet 1 = s.ratchet 1 + 1 := by
  have hReg : (s.enrolled id c).reg (Reg.SEL_RATCHET 1) = BitVec.ofNat 64 (s.ratchet 1 + 1) := by
    refine (State.selStat_reg _ (by decide) (by decide)).trans ?_
    refine (State.append_reg (s.tokenSpent id c) (enrolRecord c) (by decide) (by decide) (by decide)).trans ?_
    exact State.reg_setReg_same ..
  rw [State.ratchet, hReg, BitVec.toNat_ofNat, Nat.mod_eq_of_lt hSpend]

/-- Spending a token changes neither ratchet 0 nor the ledger. -/
theorem State.tokenSpent_nextSeq : (s.tokenSpent id c).nextSeq = s.nextSeq := by
  have hRatchet : (s.tokenSpent id c).ratchet 0 = s.ratchet 0 :=
    congrArg BitVec.toNat (State.reg_setReg_other _ _ _ (by decide : Reg.SEL_RATCHET 0 ≠ Reg.SEL_RATCHET 1))
  have hHead : (s.tokenSpent id c).ledgerHead = s.ledgerHead := rfl
  rw [State.nextSeq, State.seqHeld, hRatchet, hHead, State.nextSeq, State.seqHeld]

theorem State.enrolled_ledgerHead : (s.enrolled id c).ledgerHead = max s.ledgerHead s.nextSeq := by
  have hAppended : (s.enrolled id c).ledgerHead = ((s.tokenSpent id c).append (enrolRecord c)).2.ledgerHead :=
    State.ledgerHead_congr ((congrArg Seals.ledger (State.selStat_seals _)).trans rfl)
  rw [hAppended, State.append_ledgerHead, State.tokenSpent_nextSeq]
  rfl

theorem State.enrolled_owner : (s.enrolled id c).seals.owner = some (tokenOf c.input).newKey := by
  rw [State.enrolled, State.selStat_seals]

theorem State.ledgerBusy_seals (s : State) : s.ledgerBusy.seals = s.seals := by
  unfold State.ledgerBusy
  split <;> rfl

theorem State.ledgerBusy_ratchet1 (s : State) : s.ledgerBusy.ratchet 1 = s.ratchet 1 := by
  unfold State.ledgerBusy
  split
  · exact congrArg BitVec.toNat (State.reg_fset_other _ _ _ _ (by decide))
  · rfl

/-- RELEASE_SEAL with an enrolment token ends: accepted, it has spent the token, enrolled the owner and recorded that; refused, it has left owner and
ratchet. -/
theorem releaseSeal_enrols (hReady : s.CmdReady id 0x0503 c) (hKind : (tokenOf c.input).kind = 3) (hSpend : s.ratchet 1 + 1 < 2 ^ 64) :
    ∃ t, exec (.releaseSeal id) s = .next t ∧ tget t.cmds id = none ∧
      (s.tokenCheck c (tokenOf c.input) = none → t.seals.owner = some (tokenOf c.input).newKey ∧ t.ratchet 1 = s.ratchet 1 + 1 ∧
        t.ledgerHead = max s.ledgerHead (if s.seqHeld then s.ratchet 0 else s.ratchet 0 + 1)) ∧
      (s.tokenCheck c (tokenOf c.input) ≠ none → t.seals.owner = s.seals.owner ∧ t.ratchet 1 = s.ratchet 1) := by
  cases hCheck : s.tokenCheck c (tokenOf c.input) with
  | none =>
    obtain ⟨seq, hExec⟩ := exec_releaseSeal_enrols hReady hKind hCheck
    refine nextState_exists hExec ⟨?_, fun _ => ⟨?_, ?_, ?_⟩, fun h => absurd rfl h⟩
    · rw [State.settle_cmds, State.finish_gone]
    · rw [State.settle_seals, State.finish_owner, State.enrolled_owner]
    · rw [State.finish_settle_ratchet1, State.enrolled_ratchet1 hSpend]
    · rw [State.settle_ledgerHead, State.finish_ledgerHead, State.enrolled_ledgerHead, State.nextSeq]
  | some st =>
    refine nextState_exists (exec_releaseSeal_refused hReady hCheck) ⟨?_, fun h => absurd h (Option.some_ne_none st), fun _ => ⟨?_, ?_⟩⟩
    · rw [State.settle_cmds, State.finish_gone]
    · rw [State.settle_seals, State.finish_owner]
      split
      · rw [State.ledgerBusy_seals]
        rfl
      · rfl
    · rw [State.finish_settle_ratchet1]
      split
      · exact (State.ledgerBusy_ratchet1 _).trans rfl
      · rfl

end

/-- Settles O52, command by command: SEAL_EXTENT marks each hank of its extent, GET_SEAL_RECORD is answered at once, VERIFY_EXTENT waits for its hash, and an
enrolment token is spent by the record that RELEASE_SEAL appends; what a completion leaves of the seals is `State.finish_sealsBeside`. -/
theorem sealCommands : Obligations.SealCommands :=
  ⟨fun _ _ _ => sealExtent_seals, fun _ _ _ _ _ => getSealRecord_leaves, fun _ _ _ _ => verifyExtent_begins, fun _ _ _ => releaseSeal_enrols⟩

end Sys2Proof.Machine

namespace Sys2Proof.Machine

/-! ### What a command leaves, as far as a reading of the state shows it -/

/-- A reading of the next state that a command answers. -/
def readAfter {α : Type} (f : State → α) : Res → Option α
  | .next t => some (f t)
  | _ => none

theorem readAfter_next {α : Type} {f : State → α} {r : Res} {t : State} {x : α} (hNext : r = .next t) (hRead : readAfter f r = some x) : f t = x := by
  rw [hNext] at hRead
  exact Option.some.inj hRead

/-- The header of the first ply control packet of a link's session. -/
def headerOfPlyPacket : PktHdr := { headerOfAck with cls := 1 }

/-! ### An area is opened while a command of no ring of the module waits for a line of its hank (O40) -/

def unassignedHank : MapEntry := { phn := 0, key := 0, state := 0, isSealed := false, ply := 0, hint := false, heat := 0, chk := 0 }

def dirtyLine : PoolLine :=
  { data := 0, key := 0, poison := false, kind := .credit, accept := 0, due := 0, master := 18, slot := 0, bucket := none, op := none, again := false }

/-- A command that waits for line 0 to be durable and whose carrier is a ring 0x709. The ring's tail and count of completions would stand at the offsets of
`PLK_AREA 0 6` and `PLK_AREA 0 10`. -/
def commandOfFarRing : Cmd := { commandOfDeadQueue with carrier := .ring 0x709, running := true, work := [wLine 0], host := .ok }

/-- Link 0 is UP, the reserve is hank 0, free and with its line 0 in the pool, and that command waits for the line. -/
def openBesideFarRing : State :=
  { (State.reset.fset (Reg.PLK_LINK 0) Fld.PLK_LINK_STATE 4).fset Reg.PLK_PLYRES Fld.PLK_PLYRES_COUNT 1 with
    linkA := { Link.init with given := [0, 1, 0] }
    hanks := { Hanks.init with host := [(0, unassignedHank)] }
    tlc := { Tlc.init with pool := [(0, dirtyLine)] }
    cxl := { Cxl.init with lds := [] }
    cmds := [(0, commandOfFarRing)], nextCmd := 1 }

theorem openBesideFarRing_accepts : openBesideFarRing.Accepts 0 headerOfPlyPacket [4] 1 1 :=
  ⟨by decide, by decide, rfl, rfl, rfl, by decide⟩

theorem openBesideFarRing_freeRun : openBesideFarRing.freeRun 1 = some 0 := by
  decide

theorem openBesideFarRing_area : readAfter (State.area · 0 10) (exec (.plyOpen 0 headerOfPlyPacket 0 1) openBesideFarRing) = some (0, 1, 0) := by
  decide +kernel

/-- Refutes O40: an area's hanks lose their dirty lines as it opens, which ends the commands that wait for these lines, and the completion of one on a ring
`n` is counted in `CRG_DONE n`. The last clause bounds `n` nowhere, and for a ring that the module does not have that is the register of another area, which the
clause says stays. The state is `openBesideFarRing`. -/
theorem not_holderAnswers : ¬ Obligations.HolderAnswers := by
  rintro ⟨-, -, hOpen⟩
  obtain ⟨t, hExec, -, -, -, hOthers, -⟩ := hOpen openBesideFarRing 0 0 1 0 0 headerOfPlyPacket openBesideFarRing_accepts (by decide) (by decide)
    (by decide) (by decide) openBesideFarRing_freeRun (by decide)
  have hKept : t.area 0 10 = openBesideFarRing.area 0 10 := hOthers 10 (by decide) (by decide)
  exact absurd ((readAfter_next hExec openBesideFarRing_area).symm.trans hKept) (by decide)

/-! ### An OPEN is answered while a resync of its region waits for admission (O41) -/

/-- Link 0 is UP; the OPEN of a SET_PLY of no hanks for region 0 is out, and a resync of region 0 waits for admission. -/
def resyncUnderOpen : State :=
  { State.reset.fset (Reg.PLK_LINK 0) Fld.PLK_LINK_STATE 4 with
    linkA := { Link.init with
      given := [0, 1, 0], ops := [{ plyOp 1 0 [0] with sent := true }], setPly := some (0, 0, 0, 0)
      sync := some { region := 0, full := false, step := 0, left := [], due := 0 } } }

theorem resyncUnderOpen_accepts : resyncUnderOpen.Accepts 0 headerOfPlyPacket [4] 1 1 :=
  ⟨by decide, by decide, rfl, rfl, rfl, by decide⟩

theorem resyncUnderOpen_region : readAfter (State.region · 0 0) (exec (.resyncReqResponse 0 headerOfPlyPacket 1 0 stOK 0) resyncUnderOpen) =
    some (1, 0, 0) := by
  decide +kernel

/-- Refutes O41: the answer OK to an OPEN also lets the resync go on that the link has in hand (R331). When that is one of the same region and waits for
admission, the region is SYNCING after the answer, while the clause of a SET_PLY's OPEN, which asks nothing of the resync in hand, says that it is BROKEN.
The state is `resyncUnderOpen`. -/
theorem not_senderTakesAnswers : ¬ Obligations.SenderTakesAnswers := by
  rintro ⟨-, -, -, hOpen, -⟩
  obtain ⟨t, hExec, hRegion, -⟩ := hOpen resyncUnderOpen 0 0 0 0 0 0 0 headerOfPlyPacket resyncUnderOpen_accepts (by decide) rfl (by decide) (by decide)
    (by decide) (by decide)
  exact absurd ((readAfter_next hExec resyncUnderOpen_region).symm.trans hRegion) (by decide)

/-! ### A RESYNC_PLY ends a SET_PLY (O55) -/

def resyncCommand : Cmd := { commandOfDeadQueue with carrier := .mctp, pkt := { commandOfDeadQueue.pkt with opcode := 0x0603 }, host := .ok }

/-- The firmware runs and link 0 is UP; region 0 is MIRRORED, a resync of it waits for admission, and the SET_PLY that the link records for region 0 has the
number of the RESYNC_PLY. -/
def setPlyNamesResync : State :=
  { ((State.reset.fset (Reg.PLK_LINK 0) Fld.PLK_LINK_STATE 4).fset (Reg.PLK_REGION 0 0) Fld.PLK_REGION_STATE 2).fsetBit Reg.RDY_STATUS
      Fld.RDY_STATUS_READY rFW true with
    power := .on
    cmds := [(0, resyncCommand)], nextCmd := 1
    linkA := { Link.init with setPly := some (0, 0, 0, 0), sync := some { region := 0, full := false, step := 0, left := [], due := 0 } } }

theorem setPlyNamesResync_ready : setPlyNamesResync.CmdReady 0 0x0603 resyncCommand := ⟨rfl, rfl, by decide⟩

theorem setPlyNamesResync_ends : readAfter (fun t => tget t.cmds 0) (exec (.resyncPly 0) setPlyNamesResync) = some none := by
  decide +kernel

/-- Refutes O55: a RESYNC_PLY lets the resync go on that the link has in hand, and a region that becomes SYNCING completes the SET_PLY that the link records
for it (R322). The sixth clause says that the RESYNC_PLY still waits, and does not say that the SET_PLY is another command. The state is
`setPlyNamesResync`. -/
theorem not_plyAndChainCommands : ¬ Obligations.PlyAndChainCommands := by
  rintro ⟨⟨-, -, -, -, -, hResync, -⟩, -⟩
  obtain ⟨t, hExec, hWaits, -⟩ := hResync setPlyNamesResync 0 resyncCommand setPlyNamesResync_ready (by decide) (by decide) (by decide) (by decide)
  rw [readAfter_next hExec setPlyNamesResync_ends] at hWaits
  exact absurd hWaits (by decide)

end Sys2Proof.Machine

namespace Sys2Proof.Machine

/-! ### Links by number -/

theorem State.link_setLink_other (s : State) {k j : Nat} (l : Link) (hk : k < 2) (hj : j < 2) (h : j ≠ k) : (s.setLink k l).link j = s.link j := by
  unfold State.setLink State.link
  by_cases hZero : k = 0
  · rw [if_pos hZero, if_neg (by omega), if_neg (by omega)]
  · rw [if_neg hZero, if_pos (by omega), if_pos (by omega)]

theorem State.setLink_reg (s : State) (k : Nat) (l : Link) (off : Nat) : (s.setLink k l).reg off = s.reg off := State.reg_congr off (s.setLink_regs k l)

theorem State.updLink_reg (s : State) (k : Nat) (f : Link → Link) (off : Nat) : (s.updLink k f).reg off = s.reg off := s.setLink_reg ..

theorem State.txPut_reg (s : State) (k : Nat) (b : PktBody) (deadline off : Nat) : (s.txPut k b deadline).reg off = s.reg off := s.setLink_reg ..

theorem State.link_updLink_same (s : State) (k : Nat) (f : Link → Link) : (s.updLink k f).link k = f (s.link k) := link_setLink_same ..

theorem State.link_txPut_same (s : State) (k : Nat) (b : PktBody) (deadline : Nat) :
    (s.txPut k b deadline).link k = { s.link k with tx := (s.link k).tx ++ [⟨b, deadline⟩] } := link_setLink_same ..

theorem State.settle_link (s : State) (k : Nat) : s.settle.link k = s.link k := by
  unfold State.link
  rw [State.settle_linkA, State.settle_linkB]

theorem State.linkState_congr {s u : State} {k : Nat} (h : u.reg (Reg.PLK_LINK k) = s.reg (Reg.PLK_LINK k)) : u.linkState k = s.linkState k := by
  simp only [State.linkState, State.fget, h]

theorem quietReg_plkLink {k : Nat} (h : k < 2) : quietReg (Reg.PLK_LINK k) = true := by
  interval_cases k <;> decide

theorem State.settle_linkState (s : State) {k : Nat} (h : k < 2) : s.settle.linkState k = s.linkState k :=
  State.linkState_congr (s.settle_reg (quietReg_plkLink h))

theorem State.setLinkState_linkState (s : State) (k : Nat) {v : Nat} (h : v < 8) : (s.setLinkState k v).linkState k = v :=
  State.fget_fset_same _ _ _ _ (by decide) h

theorem State.linkUp_iff (s : State) (k : Nat) : s.linkUp k = true ↔ s.linkState k = 4 := by
  simp [State.linkUp, State.linkState]

/-! ### What works on the links alone -/

/-- From `s` to `u` nothing has changed but the links, the chain, and what the history counts. -/
def OnLinks (s u : State) : Prop := u = { s with linkA := u.linkA, linkB := u.linkB, chain := u.chain, hist := u.hist }

namespace OnLinks

variable {s u v : State}

theorem refl (s : State) : OnLinks s s := rfl

theorem trans (h : OnLinks s u) (h' : OnLinks u v) : OnLinks s v := Eq.trans h' (by rw [show u = _ from h])

theorem ite {c : Prop} [Decidable c] (h : OnLinks s u) (h' : OnLinks s v) : OnLinks s (if c then u else v) := by
  split
  · exact h
  · exact h'

theorem foldl {α : Type} {f : State → α → State} (h : ∀ s x, OnLinks s (f s x)) (l : List α) (s : State) : OnLinks s (l.foldl f s) := by
  induction l generalizing s with
  | nil => exact refl s
  | cons x l ih => exact (h s x).trans (ih _)

theorem regs (h : OnLinks s u) : u.regs = s.regs := (congrArg State.regs h).trans rfl
theorem clk (h : OnLinks s u) : u.clk = s.clk := (congrArg State.clk h).trans rfl
theorem cmds (h : OnLinks s u) : u.cmds = s.cmds := (congrArg State.cmds h).trans rfl
theorem outbox (h : OnLinks s u) : u.outbox = s.outbox := (congrArg State.outbox h).trans rfl
theorem reg (h : OnLinks s u) (off : Nat) : u.reg off = s.reg off := State.reg_congr off h.regs
theorem fget (h : OnLinks s u) (off : Nat) (f : Field) : u.fget off f = s.fget off f := State.fget_congr off f h.regs

theorem linkUp (h : OnLinks s u) (k : Nat) : u.linkUp k = s.linkUp k := by simp only [State.linkUp, h.fget]
theorem uaddr (h : OnLinks s u) : u.uaddr = s.uaddr := h.fget ..
theorem uaddrValid (h : OnLinks s u) : u.uaddrValid = s.uaddrValid := by simp only [State.uaddrValid, h.fget]
theorem round (h : OnLinks s u) : u.round = s.round := h.fget ..

theorem keeps (h : OnLinks s u) : Keeps s u [.linkA, .linkB, .hist, .chain] := by
  rw [show u = _ from h]
  refine ⟨rfl, fun p hp => ?_⟩
  cases p with
  | linkA | linkB | chain | hist => simp at hp
  | regs => exact fun _ _ _ => rfl
  | cmds => exact ⟨rfl, rfl⟩
  | _ => rfl

theorem setLink (s : State) (k : Nat) (l : Link) : OnLinks s (s.setLink k l) := by
  unfold State.setLink
  exact ite rfl rfl

theorem updLink (s : State) (k : Nat) (f : Link → Link) : OnLinks s (s.updLink k f) := setLink ..

theorem txPut (s : State) (k : Nat) (b : PktBody) (deadline : Nat) : OnLinks s (s.txPut k b deadline) := setLink ..

theorem withChain (s : State) (x : Chain) : OnLinks s { s with chain := x } := rfl

theorem linkBytes (s : State) (k n : Nat) : OnLinks s (s.linkBytes k n) := rfl

theorem accepted (s : State) (k : Nat) (hdr : PktHdr) (cls cost : Nat) : OnLinks s (s.accepted k hdr cls cost) := by
  unfold State.accepted
  exact ((updLink ..).trans (linkBytes ..)).trans (setLink ..)

theorem topUp (s : State) (k : Nat) : OnLinks s (s.topUp k) := by
  unfold State.topUp
  exact ite (refl s) (ite (refl s) (setLink ..))

theorem sendOps (s : State) (k : Nat) (kinds : List Nat) : OnLinks s (s.sendOps k kinds) :=
  (setLink ..).trans (foldl (fun _ _ => ite ((txPut ..).trans (txPut ..)) (txPut ..)) ..)

theorem plyPump (s : State) (k : Nat) : OnLinks s (s.plyPump k) :=
  ite ((((sendOps ..).trans (sendOps ..)).trans (sendOps ..)).trans (sendOps ..)) (refl s)

theorem queueOp (s : State) (k : Nat) (o : PlyOp) : OnLinks s (s.queueOp k o) := (updLink ..).trans (plyPump ..)

theorem claimSend (s : State) (addr : Nat) (held : Bool) (round : Nat) : OnLinks s (s.claimSend addr held round) :=
  (withChain s _).trans (foldl (fun _ _ => ite (txPut ..) (refl _)) _ _)

theorem claimStart (s : State) (cand : Nat) : OnLinks s (s.claimStart cand) := (withChain s _).trans (claimSend ..)

theorem chainUp (s : State) : OnLinks s s.chainUp := by
  unfold State.chainUp
  dsimp only
  refine ite ((withChain s _).trans (claimSend ..)) ?_
  split
  · exact (withChain s _).trans (claimSend ..)
  · exact ite (withChain s _) ((withChain s _).trans (claimStart ..))

theorem resyncAsk (s : State) (k : Nat) : OnLinks s (s.resyncAsk k) := by
  refine foldl (fun s r => ite ?_ (refl s)) _ s
  split
  · exact ite (queueOp ..) (queueOp ..)
  · exact queueOp ..

end OnLinks

end Sys2Proof.Machine

namespace Sys2Proof.Machine

/-! ### A function that is no longer ready (R229) -/

/-- A bit that is set, taken away. -/
theorem testBit_sub_two_pow_of_set {x b : Nat} (h : x.testBit b = true) : (x - 2 ^ b).testBit b = false := by
  have hSum : 2 ^ b + (x - 2 ^ b) = x := Nat.add_sub_cancel' (Nat.ge_two_pow_of_testBit h)
  have hFlip := Nat.testBit_two_pow_add_eq (x - 2 ^ b) b
  rw [hSum, h] at hFlip
  simpa using hFlip.symm

theorem State.fbit_fsetBit_false (s : State) (off : Nat) {f : Field} (b : Nat) (hFits : f.Fits) : (s.fsetBit off f b false).fbit off f b = false := by
  unfold State.fsetBit
  dsimp only
  split
  next hClear => exact hClear
  next hSet =>
    unfold State.fbit
    rw [if_neg Bool.false_ne_true, State.fget_fset_mod _ _ _ _ hFits, Nat.testBit_mod_two_pow,
      testBit_sub_two_pow_of_set (Bool.eq_true_of_not_eq_false hSet), Bool.and_false]

theorem State.setReady_notReady (s : State) (n : Nat) : (s.setReady n false).ready n = false := by
  by_cases hReady : s.ready n = false
  · rw [State.setReady, if_pos hReady]
    exact hReady
  · have hTime : Reg.RDY_STATUS ≠ Reg.RDY_TIME n := by simp only [Reg.RDY_STATUS, Reg.RDY_TIME]; omega
    rw [State.ready_congr (s.setReady_reg n false hTime (by decide) hReady)]
    exact s.fbit_fsetBit_false Reg.RDY_STATUS n (by decide)

end Sys2Proof.Machine

namespace Sys2Proof.Machine

/-! ### What accepting a packet does to a link -/

/-- From `l` to `l'` a link has counted packets received: the time, what they acknowledge, the sequence and the credits used. -/
def Counted (l l' : Link) : Prop :=
  l' = { l with lastRx := l'.lastRx, replay := l'.replay, replaying := l'.replaying, replays := l'.replays, rxSeq := l'.rxSeq,
                ackDue := l'.ackDue, rxUsed := l'.rxUsed }

namespace Counted

variable {l l' : Link}

theorem tx (h : Counted l l') : l'.tx = l.tx := (congrArg Link.tx h).trans rfl
theorem peer (h : Counted l l') : l'.peer = l.peer := (congrArg Link.peer h).trans rfl
theorem authIn (h : Counted l l') : l'.authIn = l.authIn := (congrArg Link.authIn h).trans rfl
theorem authOk (h : Counted l l') : l'.authOk = l.authOk := (congrArg Link.authOk h).trans rfl
theorem confirmSent (h : Counted l l') : l'.confirmSent = l.confirmSent := (congrArg Link.confirmSent h).trans rfl

end Counted

theorem State.accepted_link_same (s : State) (k : Nat) (hdr : PktHdr) (cls cost : Nat) : Counted (s.link k) ((s.accepted k hdr cls cost).link k) := by
  unfold State.accepted
  rw [link_setLink_same, linkBytes_link, State.link_updLink_same]
  split <;> rfl

theorem State.accepted_link_other (s : State) {k j : Nat} (hdr : PktHdr) (cls cost : Nat) (hk : k < 2) (hj : j < 2) (h : j ≠ k) :
    (s.accepted k hdr cls cost).link j = s.link j := by
  unfold State.accepted
  rw [State.link_setLink_other _ _ hk hj h, linkBytes_link, State.updLink, State.link_setLink_other _ _ hk hj h]

theorem State.accepted_counted (s : State) {k j : Nat} (hdr : PktHdr) (cls cost : Nat) (hk : k < 2) (hj : j < 2) :
    Counted (s.link j) ((s.accepted k hdr cls cost).link j) := by
  by_cases h : j = k
  · exact h ▸ s.accepted_link_same k hdr cls cost
  · exact (s.accepted_link_other hdr cls cost hk hj h).symm ▸ rfl

theorem State.accepted_chain (s : State) (k : Nat) (hdr : PktHdr) (cls cost : Nat) : (s.accepted k hdr cls cost).chain = s.chain := by
  unfold State.accepted
  rw [State.setLink_chain]
  exact State.setLink_chain ..

/-! ### Training (R307) -/

theorem State.hello_congr {s u : State} (h : u.reg Reg.PLK_UADDR = s.reg Reg.PLK_UADDR) (k : Nat) (nonce : BitVec 256) : u.hello k nonce = s.hello k nonce := by
  have hValid : u.uaddrValid = s.uaddrValid := by simp only [State.uaddrValid, State.fget, h]
  have hAddr : u.uaddr = s.uaddr := by simp only [State.uaddr, State.fget, h]
  rw [State.hello, hValid, hAddr, State.hello]

theorem plkUaddr_ne_plkLink {k : Nat} (h : k < 2) : Reg.PLK_UADDR ≠ Reg.PLK_LINK k := by
  interval_cases k <;> decide

/-- The state of a link whose training has ended well, before its HELLO is queued. -/
def State.trained (s : State) (k : Nat) : State :=
  (State.setLinkState { s with freeCtr := s.freeCtr + 1 } k 2).updLink k fun l => { l with lastRx := s.clk.now }

theorem exec_linkTrained_ok {s : State} {k : Nat} (hLink : k < 2) (hState : s.linkState k = 1) (hPll : s.clk.pll = true) :
    exec (.linkTrained k true) s = nextState ((s.trained k).txPut k (.hello (s.hello k (Config.freeValue 256 s.freeCtr))) s.clk.now) := by
  have hUaddr : (s.trained k).reg Reg.PLK_UADDR = s.reg Reg.PLK_UADDR := by
    rw [State.trained, State.updLink_reg, State.setLinkState, State.reg_fset_other _ _ _ _ (plkUaddr_ne_plkLink hLink)]
    rfl
  show execLinkTrained k true s = _
  rw [execLinkTrained, if_pos ⟨hLink, hState, hPll⟩, if_pos rfl, ← State.hello_congr hUaddr]
  rfl

theorem State.trained_linkState (s : State) (k : Nat) : (s.trained k).linkState k = 2 := by
  rw [State.trained, State.linkState_congr (State.updLink_reg ..)]
  exact State.setLinkState_linkState _ k (by decide)

theorem State.trained_link (s : State) (k : Nat) : (s.trained k).link k = { s.link k with lastRx := s.clk.now } := State.link_updLink_same ..

theorem State.trained_freeCtr (s : State) (k : Nat) : (s.trained k).freeCtr = s.freeCtr + 1 := State.setLink_freeCtr ..

theorem linkTrained_ok {s : State} {k : Nat} (hLink : k < 2) (hState : s.linkState k = 1) (hPll : s.clk.pll = true) :
    ∃ t, exec (.linkTrained k true) s = .next t ∧ t.linkState k = 2 ∧ t.freeCtr = s.freeCtr + 1 ∧
      (t.link k).tx = (s.link k).tx ++ [⟨.hello (s.hello k (Config.freeValue 256 s.freeCtr)), s.clk.now⟩] ∧ (t.link k).lastRx = s.clk.now := by
  refine nextState_exists (exec_linkTrained_ok hLink hState hPll) ?_
  rw [State.settle_linkState _ hLink, State.settle_freeCtr, State.settle_link, State.link_txPut_same, State.trained_link]
  refine ⟨?_, ?_, rfl, rfl⟩
  · exact (State.linkState_congr (State.txPut_reg ..)).trans (s.trained_linkState k)
  · exact (State.setLink_freeCtr ..).trans (s.trained_freeCtr k)

theorem linkTrained_failed {s : State} {k : Nat} (hLink : k < 2) (hState : s.linkState k = 1) (hPll : s.clk.pll = true) :
    ∃ t, exec (.linkTrained k false) s = .next t ∧ t.linkState k = 0 ∧
      (t.link k).backoff = (if (s.link k).backoff = 0 then 1 else min 1000 (2 * (s.link k).backoff)) ∧ (t.link k).downAt = s.clk.now ∧
      (t.link k).tx = (s.link k).tx := by
  have hExec : exec (.linkTrained k false) s = nextState (((s.setLinkState k 0).fadd (Reg.PLK_LINK k) Fld.PLK_LINK_TRAIN_FAIL 1).updLink k fun l =>
      { l with backoff := if l.backoff = 0 then 1 else min 1000 (2 * l.backoff), downAt := s.clk.now }) := by
    show execLinkTrained k false s = _
    rw [execLinkTrained, if_pos ⟨hLink, hState, hPll⟩, if_neg Bool.false_ne_true]
  refine nextState_exists hExec ?_
  rw [State.settle_linkState _ hLink, State.settle_link, State.link_updLink_same]
  refine ⟨?_, rfl, rfl, rfl⟩
  rw [State.linkState_congr (State.updLink_reg ..)]
  exact (State.fget_fset_apart _ _ _ _ (by decide) (by decide) (by decide)).trans (s.setLinkState_linkState k (by decide))

theorem exec_linkTrainRetry_due {s : State} {k : Nat} (hLink : k < 2) (hState : s.linkState k = 0) (hPlan : s.planB = true) (hEn : s.linkEn k = true)
    (hOn : s.power = .on) (hDue : (s.link k).downAt + 100000 * (s.link k).backoff ≤ s.clk.now) :
    exec (.linkTrainRetry k) s = nextState (s.setLinkState k 1) := by
  show execLinkTrainRetry k s = _
  rw [execLinkTrainRetry, if_pos ⟨hLink, hState, hPlan, hEn, by rw [hOn]; decide, by rw [hOn]; decide, hDue⟩]

theorem exec_linkTrainRetry_early {s : State} {k : Nat} (hEarly : s.clk.now < (s.link k).downAt + 100000 * (s.link k).backoff) :
    exec (.linkTrainRetry k) s = nextState s := by
  show execLinkTrainRetry k s = _
  rw [execLinkTrainRetry, if_neg]
  rintro ⟨-, -, -, -, -, -, hDue⟩
  omega

theorem exec_creditTimer_due {s : State} {k : Nat} (hLink : k < 2) (hUp : s.linkUp k = true) (hDue : (s.link k).lastCredit + 200 ≤ s.clk.now) :
    exec (.creditTimer k) s = nextState (s.setLink k { s.link k with creditDue := true }) := by
  show execCreditTimer k s = _
  rw [execCreditTimer, if_pos ⟨hLink, hUp, hDue⟩]
  rfl

/-! ### A packet fails its CRC (R311) -/

/-- The state in which a CRC failure of a link is counted and its NAK due. -/
def State.crcFailed (s : State) (k : Nat) : State :=
  (s.fadd (Reg.PLK_ERR k) Fld.PLK_ERR_CRC 1).updLink k fun l => { l with nakDue := some l.rxSeq }

theorem State.crcFailed_same (s : State) (k : Nat) {p : Part} (h : p ∉ [Part.regs, .linkA, .linkB]) : p.same s (s.crcFailed k) := by
  cases p with
  | regs | linkA | linkB => simp at h
  | cmds => exact ⟨State.setLink_cmds .., State.setLink_nextCmd ..⟩
  | _ => simp [Part.same, State.crcFailed, State.updLink]

theorem State.crcFailed_frame (s : State) (k : Nat) : Frame s (s.crcFailed k).settle [.linkA, .linkB] [Reg.PLK_ERR k] := by
  refine frame_settle (State.setLink_pending ..) (fun p hp => s.crcFailed_same k hp) fun off hOff => ?_
  exact (State.updLink_reg ..).trans (State.reg_fset_other _ _ _ _ fun h => hOff (List.mem_singleton.2 h))

theorem packetCrcFailure_nak {s : State} {k : Nat} (hLink : k < 2) (hLow : 2 ≤ s.linkState k) (hHigh : s.linkState k ≤ 4) :
    ∃ t, exec (.packetCrcFailure k) s = .next t ∧ t.link k = { s.link k with nakDue := some (s.link k).rxSeq } ∧
      t.link (1 - k) = s.link (1 - k) ∧ Frame s t [.linkA, .linkB] [Reg.PLK_ERR k] := by
  have hExec : exec (.packetCrcFailure k) s = nextState (s.crcFailed k) := by
    show execPacketCrcFailure k s = _
    rw [execPacketCrcFailure, if_pos ⟨hLink, hLow, hHigh⟩]
    rfl
  refine nextState_exists hExec ⟨?_, ?_, s.crcFailed_frame k⟩
  · rw [State.settle_link, State.crcFailed, State.link_updLink_same]
    rfl
  · rw [State.settle_link, State.crcFailed, State.updLink, State.link_setLink_other _ _ hLink (by omega) (by omega)]
    rfl

end Sys2Proof.Machine

namespace Sys2Proof.Machine

/-! ### Meeting a neighbour (R319 to R321) -/

theorem accepts_state {s : State} {k : Nat} {hdr : PktHdr} {x cls cost : Nat} (h : s.Accepts k hdr [x] cls cost) : s.linkState k = x :=
  List.mem_singleton.1 h.2.1

/-- The state of a link that has taken the HELLO of its neighbour, before its certificates are queued. -/
def State.greeted (s : State) (k : Nat) (d : HelloData) : State := (s.setLinkState k 3).updLink k fun l => { l with peer := some d }

theorem State.greeted_link (s : State) (k : Nat) (d : HelloData) : (s.greeted k d).link k = { s.link k with peer := some d } := State.link_updLink_same ..

theorem State.greeted_linkState (s : State) (k : Nat) (d : HelloData) : (s.greeted k d).linkState k = 3 :=
  (State.linkState_congr (State.updLink_reg ..)).trans (s.setLinkState_linkState k (by decide))

/-- This module's certificates, queued part by part (R320). -/
def State.certsQueued (s : State) (k : Nat) : State :=
  (List.range authParts).foldl (fun s i => s.txPut k (.auth i (i + 1 == authParts) 0) s.clk.now) s

/-- Parts queued one by one, each at the present tick, stand behind what is queued, and nothing else changes. -/
theorem State.foldl_txPut_now {α : Type} (k : Nat) (b : α → PktBody) (xs : List α) (s : State) :
    (xs.foldl (fun s x => s.txPut k (b x) s.clk.now) s).link k = { s.link k with tx := (s.link k).tx ++ xs.map fun x => ⟨b x, s.clk.now⟩ } := by
  induction xs generalizing s with
  | nil => simp
  | cons x xs ih =>
    have hClk : (s.txPut k (b x) s.clk.now).clk = s.clk := State.setLink_clk ..
    rw [List.foldl_cons, ih, State.link_txPut_same, hClk]
    simp

theorem State.certsQueued_link (s : State) (k : Nat) : (s.certsQueued k).link k = { s.link k with
    tx := (s.link k).tx ++ (List.range authParts).map fun i => ⟨.auth i (i + 1 == authParts) 0, s.clk.now⟩ } := State.foldl_txPut_now ..

theorem State.certsQueued_onLinks (s : State) (k : Nat) : OnLinks s (s.certsQueued k) := OnLinks.foldl (fun _ _ => OnLinks.txPut ..) _ s

theorem exec_hello_taken {s : State} {k : Nat} {hdr : PktHdr} {d : HelloData} (h : s.Accepts k { hdr with tagOk := true } [2] 3 0)
    (hVersion : d.version = 1) (hProduct : d.product = 0x0E6A) (hSerial : d.serial ≠ Config.serial % 2 ^ 64) :
    exec (.hello k hdr d) s = nextState (((s.accepted k { hdr with tagOk := true } 3 0).greeted k d).certsQueued k) := by
  have hState : s.linkState k = 2 := accepts_state h
  show execHello k hdr d s = _
  rw [execHello, if_neg (Nat.not_le.2 h.1), if_neg (by omega), rx_accepts s k _ [2] 3 0 h]
  exact congrArg nextState (if_neg (not_or.2 ⟨not_not.2 hVersion, not_or.2 ⟨not_not.2 hProduct, hSerial⟩⟩))

theorem hello_taken {s : State} {k : Nat} {hdr : PktHdr} {d : HelloData} (h : s.Accepts k { hdr with tagOk := true } [2] 3 0)
    (hVersion : d.version = 1) (hProduct : d.product = 0x0E6A) (hSerial : d.serial ≠ Config.serial % 2 ^ 64) :
    ∃ t, exec (.hello k hdr d) s = .next t ∧ t.linkState k = 3 ∧ (t.link k).peer = some d ∧
      (t.link k).tx = (s.link k).tx ++ (List.range authParts).map fun i => ⟨.auth i (i + 1 == authParts) 0, s.clk.now⟩ := by
  have hClk : ((s.accepted k { hdr with tagOk := true } 3 0).greeted k d).clk = s.clk := (State.setLink_clk ..).trans (OnLinks.accepted ..).clk
  refine nextState_exists (exec_hello_taken h hVersion hProduct hSerial) ?_
  rw [State.settle_linkState _ h.1, State.settle_link, State.certsQueued_link, State.greeted_link, hClk,
    (s.accepted_link_same k { hdr with tagOk := true } 3 0).tx]
  exact ⟨(State.linkState_congr ((State.certsQueued_onLinks ..).reg _)).trans (State.greeted_linkState ..), rfl, rfl⟩

/-! ### Authentication (R320, R321) -/

/-- What an AUTH part does at the link that accepts it. -/
def State.authTaken (s : State) (k : Nat) (a : AuthPart) : State :=
  let l := s.link k
  if !a.last then s.setLink k { l with authIn := l.authIn ++ [a] }
  else if a.kind = 0 then
    let peer := match l.peer with | some d => d.serial | none => 0
    let pin := (s.reg (Reg.PLK_PIN k)).toNat
    if a.checksOk && a.certSerial == peer && (pin == 0 || pin == peer) && !l.authOk then
      (s.setLink k { l with authIn := [], authOk := true, peerKey := a.peerKey }).txPut k (.auth 0 true 1) s.clk.now
    else s.authFails k
  else if a.checksOk then
    let s1 := s.setLink k { l with authIn := [], confirmOk := true }
    if l.confirmSent then s1.linkComesUp k else s1
  else s.authFails k

theorem exec_auth_taken {s : State} {k : Nat} {hdr : PktHdr} {a : AuthPart} (h : s.Accepts k { hdr with tagOk := true } [3] 3 0)
    (hKind : a.kind = 0 ∨ a.kind = 1 ∧ (s.link k).authOk = true) (hPart : a.part = (s.link k).authIn.length) :
    exec (.auth k hdr a) s = nextState ((s.accepted k { hdr with tagOk := true } 3 0).authTaken k a) := by
  have hState : s.linkState k = 3 := accepts_state h
  have hOrder : (decide (a.kind ≤ 1) && a.part == (s.link k).authIn.length && (a.kind == 0 || (s.link k).authOk)) = true := by
    rcases hKind with hKind | ⟨hKind, hOk⟩
    · simp [hKind, hPart]
    · simp [hKind, hPart, hOk]
  show execAuth k hdr a s = _
  rw [execAuth, if_neg (Nat.not_le.2 h.1), if_neg (by omega), hOrder, rx_accepts s k _ [3] 3 0 h]
  rfl

section
variable {s : State} {k : Nat} {hdr : PktHdr} {a : AuthPart} (h : s.Accepts k { hdr with tagOk := true } [3] 3 0)
include h

theorem accepted_inAuth : (s.accepted k { hdr with tagOk := true } 3 0).linkState k = 3 := (accepted_linkState ..).trans (accepts_state h)

theorem auth_part_kept (hKind : a.kind = 0) (hPart : a.part = (s.link k).authIn.length) (hLast : a.last = false) :
    ∃ t, exec (.auth k hdr a) s = .next t ∧ t.linkState k = 3 ∧ (t.link k).authIn = (s.link k).authIn ++ [a] := by
  refine nextState_exists (exec_auth_taken h (.inl hKind) hPart) ?_
  rw [State.settle_linkState _ h.1, State.settle_link, State.authTaken, if_pos (by rw [hLast]; rfl), link_setLink_same,
    (s.accepted_link_same k { hdr with tagOk := true } 3 0).authIn]
  exact ⟨(State.linkState_congr (State.setLink_reg ..)).trans (accepted_inAuth h), rfl⟩

theorem auth_confirmed {d : HelloData} (hKind : a.kind = 0) (hPart : a.part = (s.link k).authIn.length) (hLast : a.last = true)
    (hChecks : a.checksOk = true) (hPeer : (s.link k).peer = some d) (hSerial : a.certSerial = d.serial)
    (hPin : (s.reg (Reg.PLK_PIN k)).toNat = 0 ∨ (s.reg (Reg.PLK_PIN k)).toNat = d.serial) (hFirst : (s.link k).authOk = false) :
    ∃ t, exec (.auth k hdr a) s = .next t ∧ t.linkState k = 3 ∧ (t.link k).authOk = true ∧ (t.link k).peerKey = a.peerKey ∧
      (t.link k).tx = (s.link k).tx ++ [⟨.auth 0 true 1, s.clk.now⟩] := by
  have hCounted := s.accepted_link_same k { hdr with tagOk := true } 3 0
  have hPass : (s.accepted k { hdr with tagOk := true } 3 0).authTaken k a = State.txPut ((s.accepted k { hdr with tagOk := true } 3 0).setLink k
      { (s.accepted k { hdr with tagOk := true } 3 0).link k with authIn := [], authOk := true, peerKey := a.peerKey }) k (.auth 0 true 1) s.clk.now := by
    rw [State.authTaken, if_neg (by rw [hLast]; decide), if_pos hKind]
    simp only [hCounted.peer, hCounted.authOk, hPeer, hFirst, accepted_reg, hChecks, hSerial]
    rw [if_pos (by simpa using hPin), (OnLinks.accepted ..).clk]
  refine nextState_exists (exec_auth_taken h (.inl hKind) hPart) ?_
  rw [State.settle_linkState _ h.1, State.settle_link, hPass, State.link_txPut_same, link_setLink_same]
  refine ⟨?_, rfl, rfl, congrArg (· ++ _) hCounted.tx⟩
  exact (State.linkState_congr ((State.txPut_reg ..).trans (State.setLink_reg ..))).trans (accepted_inAuth h)

end

/-! ### A link comes UP (R321) -/

theorem State.linkState_setReg_other (s : State) (k : Nat) {off : Nat} (v : W64) (h : Reg.PLK_LINK k ≠ off) : (s.setReg off v).linkState k = s.linkState k :=
  State.linkState_congr (State.reg_setReg_other _ _ _ h)

theorem State.setReady_linkState (s : State) {n k : Nat} (v : Bool) (hn : n < 17) (hk : k < 2) : (s.setReady n v).linkState k = s.linkState k := by
  refine State.setReady_fget _ _ _ _ ?_ ?_ ?_ <;> simp only [Reg.PLK_LINK, Reg.RDY_STATUS, Reg.RDY_TIME, Reg.HST_STAT] <;> omega

/-- A link that comes UP is UP, whatever its chain and its regions then queue. -/
theorem State.linkComesUp_linkState (s : State) {k : Nat} (h : k < 2) : (s.linkComesUp k).linkState k = 4 := by
  have hPeer : Reg.PLK_LINK k ≠ Reg.PLK_PEER k := by simp only [Reg.PLK_LINK, Reg.PLK_PEER]; omega
  unfold State.linkComesUp
  rw [State.linkState_congr ((OnLinks.plyPump ..).reg _), State.linkState_congr ((OnLinks.resyncAsk ..).reg _),
    State.linkState_congr ((OnLinks.chainUp _).reg _), State.setReady_linkState _ _ (by simp only [rHLA]; omega) h,
    State.linkState_setReg_other _ _ _ hPeer, State.linkState_congr (State.updLink_reg ..)]
  exact s.setLinkState_linkState k (by decide)

theorem auth_comesUp {s : State} {k : Nat} {hdr : PktHdr} {a : AuthPart} (h : s.Accepts k { hdr with tagOk := true } [3] 3 0) (hKind : a.kind = 1)
    (hPart : a.part = (s.link k).authIn.length) (hLast : a.last = true) (hChecks : a.checksOk = true) (hOk : (s.link k).authOk = true)
    (hSent : (s.link k).confirmSent = true) : ∃ t, exec (.auth k hdr a) s = .next t ∧ t.linkState k = 4 := by
  have hConfirm : ((s.accepted k { hdr with tagOk := true } 3 0).link k).confirmSent = true :=
    (s.accepted_link_same k { hdr with tagOk := true } 3 0).confirmSent.trans hSent
  refine nextState_exists (exec_auth_taken h (.inr ⟨hKind, hOk⟩) hPart) ?_
  rw [State.settle_linkState _ h.1, State.authTaken, if_neg (by rw [hLast]; decide), if_neg (by omega), if_pos hChecks, if_pos hConfirm]
  exact State.linkComesUp_linkState _ h.1

end Sys2Proof.Machine

namespace Sys2Proof.Machine

/-! ### What a break of a link leaves in the registers (R329) -/

/-- A register that no break of a link writes: none that a completion, a late count, an interruption, a region, a spill queue or a resync writes. -/
def Unbroken (off : Nat) : Prop :=
  Uncompleted off ∧ off ∉ pmcRegs ∧ off ∉ [Reg.ADM_INTR_LATE, Reg.ADM_LATE, Reg.ADM_INTR_MAX, Reg.WME_FLIP_CTL] ∧
    ∀ k, off ≠ Reg.PLK_SPILL k ∧ off ≠ Reg.PLK_SYNC k ∧ ∀ r, off ≠ Reg.PLK_REGION k r

theorem not_mem_pmcRegs_of_lt {off : Nat} (h : off < 0xB0000) : off ∉ pmcRegs := by
  intro hMem
  obtain ⟨i, -, rfl⟩ := List.mem_map.1 hMem
  simp only [Reg.PMC_CNT] at h
  omega

/-- None of those registers is the first of a block of 256 bytes, but for regions, and these lie above the links. -/
theorem unbroken_of_mod {off : Nat} (hMod : off % 0x100 = 0) (hLow : off < 0x80400) : Unbroken off := by
  refine ⟨⟨fun n => ⟨?_, ?_, ?_⟩, ?_⟩, not_mem_pmcRegs_of_lt (by omega), ?_, fun j => ⟨?_, ?_, fun r => ?_⟩⟩ <;>
    simp only [Reg.CRG_STAT, Reg.CRG_CQ_TAIL, Reg.CRG_DONE, Reg.HST_STAT, Reg.PLK_SPILL, Reg.PLK_SYNC, Reg.PLK_REGION, List.mem_cons,
      List.not_mem_nil, or_false, Reg.ADM_INTR_LATE, Reg.ADM_LATE, Reg.ADM_INTR_MAX, Reg.WME_FLIP_CTL] <;> omega

theorem plkLink_unbroken {k : Nat} (h : k < 2) : Unbroken (Reg.PLK_LINK k) :=
  unbroken_of_mod (by simp only [Reg.PLK_LINK]; omega) (by simp only [Reg.PLK_LINK]; omega)

theorem rdyStatus_unbroken : Unbroken Reg.RDY_STATUS := unbroken_of_mod (by decide) (by decide)

theorem State.openFaultAt_reg (s : State) (f onset off : Nat) : (s.openFaultAt f onset).reg off = s.reg off := State.ite_reg rfl rfl

section
variable {off : Nat} (h : Unbroken off)
include h

theorem Unbroken.ne_region (k r : Nat) : off ≠ Reg.PLK_REGION k r := (h.2.2.2 k).2.2 r
theorem Unbroken.ne_spill (k : Nat) : off ≠ Reg.PLK_SPILL k := (h.2.2.2 k).1
theorem Unbroken.ne_sync (k : Nat) : off ≠ Reg.PLK_SYNC k := (h.2.2.2 k).2.1

theorem Unbroken.ne_of_mem {o : Nat} (ho : o ∈ [Reg.ADM_INTR_LATE, Reg.ADM_LATE, Reg.ADM_INTR_MAX, Reg.WME_FLIP_CTL]) : off ≠ o :=
  fun hEq => h.2.2.1 (hEq ▸ ho)

theorem State.plyEvent_reg (s : State) (k r st : Nat) : (s.plyEvent k r st).reg off = s.reg off :=
  (State.event_reg _ _ _ _ _ _ h.1.2).trans (State.reg_fset_other _ _ _ _ (h.ne_region k r))

theorem State.regionsBreak_reg (s : State) (k : Nat) : (s.regionsBreak k).reg off = s.reg off := by
  unfold State.regionsBreak
  refine foldl_keeps (State.reg · off) (fun s r => ?_) (List.range 16) s
  exact State.ite_reg (State.plyEvent_reg h ..) (State.ite_reg (State.plyEvent_reg h ..) rfl)

theorem State.lateCount_reg (s : State) (kind ld dl : Nat) : (s.lateCount kind ld dl).reg off = s.reg off := by
  unfold State.lateCount
  refine State.ite_reg rfl (State.ite_reg ?_ ?_)
  · exact (State.reg_setReg_other _ _ _ (h.ne_of_mem (by simp))).trans (State.count_reg _ _ _ _ _ _ _ h.2.1)
  · exact (State.event_reg _ _ _ _ _ _ h.1.2).trans
      ((State.reg_setReg_other _ _ _ (h.ne_of_mem (by simp))).trans (State.count_reg _ _ _ _ _ _ _ h.2.1))

theorem State.complete_reg (s : State) (q : Nat) (d : Option Line) (poison : Bool) : (s.complete q d poison).reg off = s.reg off := by
  unfold State.complete
  split
  · rfl
  · dsimp only
    split
    · rfl
    · rw [State.histCount_eq]
      exact State.lateCount_reg h ..

theorem State.cmdUnwait_reg (s : State) (id w st : Nat) : (s.cmdUnwait id w st).reg off = s.reg off := by
  unfold State.cmdUnwait
  split
  · rfl
  · exact State.ite_reg (State.finish_reg h.1 ..) rfl

theorem State.mirrorDone_reg (s : State) (m : MirrorLine) (line : Nat) : (s.mirrorDone m line).reg off = s.reg off :=
  State.ite_reg (State.complete_reg h ..) (State.cmdUnwait_reg h ..)

theorem State.setSpill_reg (s : State) (k : Nat) (q : List SpillLine) : (s.setSpill k q).reg off = s.reg off := by
  unfold State.setSpill
  rw [State.reg_fset_other _ _ _ _ (h.ne_spill k), State.reg_fset_other _ _ _ _ (h.ne_spill k), State.setLink_reg]

theorem State.spillPut_reg (s : State) (k : Nat) (l : SpillLine) : (s.spillPut k l).reg off = s.reg off := by
  refine State.ite_reg ?_ ?_
  · rw [State.lineWrite_reg _ _ (h.ne_of_mem (by simp)), State.setSpill_reg h]
  · rw [State.fadd, State.fsetSat, State.reg_fset_other _ _ _ _ (h.ne_spill k), State.setSpill_reg h]
    exact foldl_keeps (State.reg · off) (fun s r => State.plyEvent_reg h s k r 4) _ s

theorem State.onePly_reg (s : State) (k : Nat) (m : MirrorLine) : (s.onePly k m).reg off = s.reg off :=
  (State.mirrorDone_reg h ..).trans (State.ite_reg (State.spillPut_reg h ..) rfl)

theorem State.opsBreak_reg (s : State) (k : Nat) : (s.opsBreak k).reg off = s.reg off := by
  refine foldl_keeps (State.reg · off) (fun s o => ?_) (s.link k).ops s
  split
  · rfl
  · exact (State.cmdUnwait_reg h ..).trans (State.ite_reg (State.plyEvent_reg h ..) rfl)

theorem State.closeFault_reg (s : State) (f : Nat) : (s.closeFault f).reg off = s.reg off :=
  State.ite_reg (State.ite_reg (State.reg_setReg_other _ _ _ (h.ne_of_mem (by simp))) rfl) rfl

/-- A break of an UP link leaves such a register as it was. -/
theorem State.plyBreak_reg (s : State) (k onset : Nat) : (s.plyBreak k onset).reg off = s.reg off := by
  have hOnePly (s : State) (l : List MirrorLine) : (l.foldl (fun s m => s.onePly k m) s).reg off = s.reg off :=
    foldl_keeps (State.reg · off) (fun s m => State.onePly_reg h s k m) l s
  have hUnwait (s : State) (r : Nat) (ids : List Nat) :
      (ids.foldl (fun s id => s.cmdUnwait id (wPly k (syncItem r)) stPLY_DEGRADED) s).reg off = s.reg off :=
    foldl_keeps (State.reg · off) (fun s id => State.cmdUnwait_reg h s id _ _) ids s
  have hResync (s : State) : ((List.range 16).foldl (fun s r => (tkeys s.cmds fun c => c.work.contains (wPly k (syncItem r))).foldl
      (fun s id => s.cmdUnwait id (wPly k (syncItem r)) stPLY_DEGRADED) s) s).reg off = s.reg off :=
    foldl_keeps (State.reg · off) (fun s r => hUnwait s r _) _ s
  unfold State.plyBreak
  dsimp only
  rw [State.closeFault_reg h, State.reg_setReg_other _ _ _ (h.ne_sync k), hResync]
  have hOps : (((((s.openFaultAt (600000 + k) onset).regionsBreak k).link k).waitingAck.foldl (fun s m => s.onePly k m)
      ((s.openFaultAt (600000 + k) onset).regionsBreak k)).opsBreak k).reg off = s.reg off := by
    rw [State.opsBreak_reg h, hOnePly, State.regionsBreak_reg h, State.openFaultAt_reg]
  split
  · exact (State.finish_reg h.1 ..).trans hOps
  · exact hOps

end

end Sys2Proof.Machine

namespace Sys2Proof.Machine

/-! ### A link leaves UP, HELLO or AUTH (R309) -/

theorem State.setReady_plkLink_fget (s : State) {n k : Nat} (v : Bool) (f : Field) (hn : n < 17) (hk : k < 2) :
    (s.setReady n v).fget (Reg.PLK_LINK k) f = s.fget (Reg.PLK_LINK k) f := by
  refine State.setReady_fget _ _ _ _ ?_ ?_ ?_ <;> simp only [Reg.PLK_LINK, Reg.RDY_STATUS, Reg.RDY_TIME, Reg.HST_STAT] <;> omega

/-- The state of a link that leaves for a cause, its event raised. -/
def State.leaves (s : State) (k cause : Nat) : State :=
  ((s.fset (Reg.PLK_LINK k) Fld.PLK_LINK_CAUSE cause).setLinkState k (if s.linkEn k then 0 else 5)).event evCHAIN 4 0xFFFF k [cause]

/-- The state of an UP link that leaves, before its waits end: the departure is counted, and its READY bit falls. -/
def State.leavesUp (s : State) (k cause : Nat) : State :=
  ((s.leaves k cause).fadd (Reg.PLK_LINK k) Fld.PLK_LINK_DOWNS 1).setReady (rHLA + k) false

section
variable (s : State) {k : Nat} (cause : Nat) (h : k < 2)
include h

theorem State.leaves_fget (f : Field) : (s.leaves k cause).fget (Reg.PLK_LINK k) f =
    ((s.fset (Reg.PLK_LINK k) Fld.PLK_LINK_CAUSE cause).setLinkState k (if s.linkEn k then 0 else 5)).fget (Reg.PLK_LINK k) f := by
  unfold State.fget
  rw [State.leaves, State.event_reg _ _ _ _ _ _ (plkLink_unbroken h).1.2]

theorem State.leavesUp_fget {f : Field} (hf : f.Fits) (hLow : f.hi < 48) :
    (s.leavesUp k cause).fget (Reg.PLK_LINK k) f = (s.leaves k cause).fget (Reg.PLK_LINK k) f := by
  rw [State.leavesUp, State.setReady_plkLink_fget _ _ _ (by simp only [rHLA]; omega) h]
  exact State.fget_fset_apart _ _ _ _ hf (by decide) (.inr hLow)

theorem State.leaves_linkState : (s.leaves k cause).linkState k = if s.linkEn k then 0 else 5 := by
  rw [State.linkState, s.leaves_fget cause h]
  exact State.setLinkState_linkState _ k (by split <;> decide)

theorem State.leaves_cause (hCause : cause < 16) : (s.leaves k cause).fget (Reg.PLK_LINK k) Fld.PLK_LINK_CAUSE = cause := by
  rw [s.leaves_fget cause h, State.setLinkState, State.fget_fset_apart _ _ _ _ (by decide) (by decide) (by decide)]
  exact State.fget_fset_same _ _ _ _ (by decide) hCause

end

/-- A link leaves: it keeps what an ended session keeps; the break of an UP link ends what waited on it. -/
theorem State.linkLeaves_eq {s : State} {k : Nat} (cause : Nat) (hLow : 2 ≤ s.linkState k) (hHigh : s.linkState k ≤ 4) :
    s.linkLeaves k cause =
      (if s.linkState k = 4 then (s.leavesUp k cause).plyBreak k (s.link k).lastRx else s.leaves k cause).updLink k fun l =>
        { l.ended with late := if s.linkState k = 4 then (s.link k).unacked else [], lateAt := s.clk.now } := by
  unfold State.linkLeaves
  exact if_neg (by omega)

section
variable {s : State} {k : Nat} (cause : Nat) (hLink : k < 2) (hLow : 2 ≤ s.linkState k) (hHigh : s.linkState k ≤ 4)
include hLow hHigh

/-- A session that has ended keeps no packet to send, none to replay, and no mirrored line. -/
theorem State.linkLeaves_empty : ((s.linkLeaves k cause).link k).tx = [] ∧ ((s.linkLeaves k cause).link k).replay = [] ∧
    ((s.linkLeaves k cause).link k).mirrorOut = [] := by
  rw [State.linkLeaves_eq cause hLow hHigh, State.link_updLink_same]
  exact ⟨rfl, rfl, rfl⟩

include hLink

theorem State.linkLeaves_fget {f : Field} (hf : f.Fits) (hApart : f.hi < 48) :
    (s.linkLeaves k cause).fget (Reg.PLK_LINK k) f = (s.leaves k cause).fget (Reg.PLK_LINK k) f := by
  rw [State.linkLeaves_eq cause hLow hHigh, State.fget, State.updLink_reg]
  split
  · rw [State.plyBreak_reg (plkLink_unbroken hLink)]
    exact s.leavesUp_fget cause hLink hf hApart
  · rfl

theorem State.linkLeaves_linkState : (s.linkLeaves k cause).linkState k = if s.linkEn k then 0 else 5 :=
  (State.linkLeaves_fget cause hLink hLow hHigh (by decide) (by decide)).trans (s.leaves_linkState cause hLink)

theorem State.linkLeaves_cause (hCause : cause < 16) : (s.linkLeaves k cause).fget (Reg.PLK_LINK k) Fld.PLK_LINK_CAUSE = cause :=
  (State.linkLeaves_fget cause hLink hLow hHigh (by decide) (by decide)).trans (s.leaves_cause cause hLink hCause)

end

/-- The READY bit of an UP link that leaves falls. -/
theorem State.linkLeaves_notReady {s : State} {k : Nat} (cause : Nat) (hUp : s.linkState k = 4) : (s.linkLeaves k cause).ready (rHLA + k) = false := by
  rw [State.linkLeaves_eq cause (by omega) (by omega), if_pos hUp, State.ready_congr (State.updLink_reg ..),
    State.ready_congr (State.plyBreak_reg rdyStatus_unbroken ..)]
  exact State.setReady_notReady ..

theorem State.settle_plkLink_fget (s : State) {k : Nat} (f : Field) (h : k < 2) : s.settle.fget (Reg.PLK_LINK k) f = s.fget (Reg.PLK_LINK k) f := by
  rw [State.fget, s.settle_reg (quietReg_plkLink h), State.fget]

theorem linkDown_leaves {s : State} {k c : Nat} (hLink : k < 2) (hFirst : 1 ≤ c) (hLast : c ≤ 7) (hLow : 2 ≤ s.linkState k) (hHigh : s.linkState k ≤ 4) :
    ∃ t, exec (.linkDown k c) s = .next t ∧ t.linkState k = (if s.linkEn k then 0 else 5) ∧
      t.fget (Reg.PLK_LINK k) Fld.PLK_LINK_CAUSE = c ∧ (t.link k).tx = [] ∧ (t.link k).replay = [] ∧ (t.link k).mirrorOut = [] ∧
      (s.linkState k = 4 → t.ready (rHLA + k) = false) := by
  have hExec : exec (.linkDown k c) s = nextState (s.linkLeaves k c) := by
    show execLinkDown k c s = _
    rw [execLinkDown, if_pos ⟨hLink, hFirst, hLast⟩]
  obtain ⟨hTx, hReplay, hMirror⟩ := State.linkLeaves_empty c hLow hHigh
  refine nextState_exists hExec ?_
  rw [State.settle_linkState _ hLink, State.settle_plkLink_fget _ _ hLink, State.settle_link, State.settle_ready]
  exact ⟨State.linkLeaves_linkState c hLink hLow hHigh, State.linkLeaves_cause c hLink hLow hHigh (by omega), hTx, hReplay, hMirror,
    State.linkLeaves_notReady c⟩

theorem linkIdleTimeout_leaves {s : State} {k : Nat} (hLink : k < 2) (hSilent : (s.link k).lastRx + 1000 ≤ s.clk.now) (hLow : 2 ≤ s.linkState k)
    (hHigh : s.linkState k ≤ 4) :
    ∃ t, exec (.linkIdleTimeout k) s = .next t ∧ t.linkState k = (if s.linkEn k then 0 else 5) ∧
      t.fget (Reg.PLK_LINK k) Fld.PLK_LINK_CAUSE = 2 ∧ (t.link k).tx = [] := by
  have hExec : exec (.linkIdleTimeout k) s = nextState (s.linkLeaves k 2) := by
    show execLinkIdleTimeout k s = _
    rw [execLinkIdleTimeout, if_pos ⟨hLink, hSilent⟩]
  obtain ⟨hTx, -, -⟩ := State.linkLeaves_empty (k := k) 2 hLow hHigh
  refine nextState_exists hExec ?_
  rw [State.settle_linkState _ hLink, State.settle_plkLink_fget _ _ hLink, State.settle_link]
  exact ⟨State.linkLeaves_linkState 2 hLink hLow hHigh, State.linkLeaves_cause 2 hLink hLow hHigh (by decide), hTx⟩

/-- Settles O37: training, its timers and CRC failures by the branch of each command; departures by what `linkLeaves` leaves of the link and of its
register; the HELLO and the AUTH by what the accepted packet does. -/
theorem linksTrainAndLeave : Obligations.LinksTrainAndLeave := by
  unfold Obligations.LinksTrainAndLeave
  refine ⟨⟨?_, ?_, ?_, ?_, ?_, ?_⟩, ⟨?_, ?_⟩, ?_, ?_, ?_, ?_⟩
  · exact fun s k => linkTrained_ok
  · exact fun s k => linkTrained_failed
  · exact fun s k => exec_linkTrainRetry_due
  · exact fun s k => exec_linkTrainRetry_early
  · exact fun s k => exec_creditTimer_due
  · exact fun s k => packetCrcFailure_nak
  · exact fun s k c => linkDown_leaves
  · exact fun s k => linkIdleTimeout_leaves
  · exact fun s k hdr d => hello_taken
  · exact fun s k hdr a => auth_part_kept
  · exact fun s k hdr a d h => auth_confirmed h
  · exact fun s k hdr a => auth_comesUp

end Sys2Proof.Machine

namespace Sys2Proof.Machine

/-! ### Queueing on the links that are UP (R337) -/

/-- Queue a packet of class 2 on a link, when it is UP. -/
def State.sendUp (s : State) (k : Nat) (b : PktBody) : State := if s.linkUp k then s.txPut k b (s.clk.now + 100) else s

/-- Queue it on both links. -/
def State.sendBoth (s : State) (b : PktBody) : State := (s.sendUp 0 b).sendUp 1 b

/-- What a link holds to send once a packet has been queued on it, when it is UP. -/
def State.txWith (s : State) (k : Nat) (b : PktBody) : List TxPkt :=
  if s.linkUp k then (s.link k).tx ++ [⟨b, s.clk.now + 100⟩] else (s.link k).tx

theorem State.passOn_eq (s : State) (k : Nat) (m : ChainMsg) : s.passOn k m = s.sendUp k (.chain { m with ttl := m.ttl - 1 }) := rfl

section
variable (s : State) (b : PktBody)

theorem State.sendUp_onLinks (k : Nat) : OnLinks s (s.sendUp k b) := OnLinks.ite (OnLinks.txPut ..) (OnLinks.refl s)

theorem State.sendUp_chain (k : Nat) : (s.sendUp k b).chain = s.chain := by
  unfold State.sendUp
  split
  · exact State.setLink_chain ..
  · rfl

theorem State.sendUp_tx (k : Nat) : ((s.sendUp k b).link k).tx = s.txWith k b := by
  unfold State.sendUp State.txWith
  split
  · rw [State.link_txPut_same]
  · rfl

theorem State.sendUp_link_other {k j : Nat} (hk : k < 2) (hj : j < 2) (h : j ≠ k) : (s.sendUp k b).link j = s.link j := by
  unfold State.sendUp
  split
  · exact State.link_setLink_other _ _ hk hj h
  · rfl

theorem State.sendBoth_onLinks : OnLinks s (s.sendBoth b) := (s.sendUp_onLinks b 0).trans (State.sendUp_onLinks ..)

theorem State.sendBoth_chain : (s.sendBoth b).chain = s.chain := (State.sendUp_chain ..).trans (State.sendUp_chain ..)

theorem State.sendBoth_tx {k : Nat} (h : k < 2) : ((s.sendBoth b).link k).tx = s.txWith k b := by
  have hUp := (s.sendUp_onLinks b 0).linkUp 1
  have hClk := (s.sendUp_onLinks b 0).clk
  obtain rfl | rfl : k = 0 ∨ k = 1 := by omega
  · rw [State.sendBoth, State.sendUp_link_other _ _ (by decide) (by decide) (by decide), State.sendUp_tx]
  · rw [State.sendBoth, State.sendUp_tx, State.txWith, hUp, hClk, State.sendUp_link_other _ _ (by decide) (by decide) (by decide), State.txWith]

end

theorem State.txWith_up {s : State} {k : Nat} (h : s.linkUp k = true) (b : PktBody) : s.txWith k b = (s.link k).tx ++ [⟨b, s.clk.now + 100⟩] := if_pos h

theorem State.txWith_prefix (s : State) (k : Nat) (b : PktBody) : (s.link k).tx <+: s.txWith k b := by
  unfold State.txWith
  split
  · exact List.prefix_append ..
  · exact List.prefix_refl _

/-! ### Messages that are sent, and that are remembered (R337) -/

/-- Credits given back change nothing but what the link has given. -/
theorem State.topUp_cases (s : State) (k : Nat) : s.topUp k = s ∨ ∃ g, s.topUp k = s.setLink k { s.link k with given := g, creditDue := true } := by
  unfold State.topUp
  refine iteInduction (motive := fun u => u = s ∨ ∃ g, u = s.setLink k { s.link k with given := g, creditDue := true }) (fun _ => .inl rfl) fun _ => ?_
  exact iteInduction (motive := fun u => u = s ∨ ∃ g, u = s.setLink k { s.link k with given := g, creditDue := true }) (fun _ => .inl rfl)
    fun _ => .inr ⟨_, rfl⟩

theorem State.topUp_chain (s : State) (k : Nat) : (s.topUp k).chain = s.chain := by
  obtain h | ⟨g, h⟩ := s.topUp_cases k
  · rw [h]
  · rw [h, State.setLink_chain]

theorem State.topUp_tx (s : State) {k j : Nat} (hk : k < 2) (hj : j < 2) : ((s.topUp k).link j).tx = (s.link j).tx := by
  obtain h | ⟨g, h⟩ := s.topUp_cases k
  · rw [h]
  · rw [h]
    by_cases hSame : j = k
    · rw [hSame, link_setLink_same]
    · rw [State.link_setLink_other _ _ hk hj hSame]

/-- A message of this module. -/
def State.ownMsg (s : State) (mclass : Nat) (bcast : Bool) (dest : Nat) (data : List Byte) : ChainMsg :=
  { mid := s.chain.mid, mclass := mclass, bcast := bcast, isLocal := false, ttl := 16383, src := s.uaddr, dest := dest, data := data }

/-- The chain when a message of this module is sent. -/
def State.chainSent (s : State) : Chain :=
  { s.chain with mid := (s.chain.mid + 1) % 4096, seen := ((s.uaddr, s.chain.mid) :: s.chain.seen).take 4096 }

section
variable (s : State) (mclass : Nat) (bcast : Bool) (dest : Nat) (data : List Byte)

theorem State.chainOut_eq : (s.chainOut mclass bcast dest data).2 = State.sendBoth { s with chain := s.chainSent } (.chain (s.ownMsg mclass bcast dest data)) := rfl

theorem State.chainOut_onLinks : OnLinks s (s.chainOut mclass bcast dest data).2 :=
  s.chainOut_eq mclass bcast dest data ▸ (OnLinks.withChain s s.chainSent).trans (State.sendBoth_onLinks ..)

theorem State.chainOut_chain : (s.chainOut mclass bcast dest data).2.chain = s.chainSent := by
  rw [State.chainOut_eq, State.sendBoth_chain]

theorem State.chainOut_tx {k : Nat} (h : k < 2) :
    ((s.chainOut mclass bcast dest data).2.link k).tx = s.txWith k (.chain (s.ownMsg mclass bcast dest data)) := by
  rw [State.chainOut_eq]
  exact State.sendBoth_tx _ _ h

end

theorem State.statusData_congr {s u : State} (h : OnLinks s u) (ttl : Nat) : u.statusData ttl = s.statusData ttl := by
  rw [show u = _ from h]
  rfl

theorem State.onlyMe_congr {s u : State} (h : OnLinks s u) (m : ChainMsg) : u.onlyMe m = s.onlyMe m := by
  rw [State.onlyMe, h.uaddr, h.uaddrValid, State.onlyMe]

theorem State.forMe_congr {s u : State} (h : OnLinks s u) (m : ChainMsg) : u.forMe m = s.forMe m := by
  rw [State.forMe, h.uaddr, h.uaddrValid, State.forMe]

/-- Of a list cut to its newest entries, the newest of all stands in it. -/
theorem mem_take_cons {α : Type} (x : α) (l : List α) : x ∈ (x :: l).take 4096 := List.mem_cons_self ..

/-- So does the newest before that one. -/
theorem mem_take_cons_cons {α : Type} {x y : α} {l l' : List α} (h : l = (x :: l').take 4096) : x ∈ (y :: l).take 4096 := by
  subst h
  simp

/-! ### A message that has not been seen (R337) -/

/-- The header and the fields of a CHAIN_MSG pass every check. -/
def State.Arrives (s : State) (k : Nat) (hdr : PktHdr) (m : ChainMsg) : Prop :=
  s.Accepts k hdr [4] 2 1 ∧ m.data.length ≤ 240 ∧ m.mid < 4096 ∧ m.src < 16384 ∧ m.dest < 16384 ∧ m.ttl < 16384

/-- Whether the hardware passes a message on: it has hops left, and is for others too. -/
def State.goesOn (s : State) (m : ChainMsg) : Bool := decide (0 < m.ttl) && !m.isLocal && !s.onlyMe m

/-- A message passed on over a link, when it goes on. -/
def State.relayed (s : State) (k : Nat) (m : ChainMsg) : State := if s.goesOn m then s.passOn k m else s

/-- The state in which a message that has come is remembered. -/
def State.remembered (s : State) (k : Nat) (hdr : PktHdr) (m : ChainMsg) : State := (s.accepted k hdr 2 1).seeMsg m.src m.mid

/-- The chain once a message is remembered. -/
def State.chainSeen (s : State) (m : ChainMsg) : Chain := { s.chain with seen := ((m.src, m.mid) :: s.chain.seen).take 4096 }

theorem State.goesOn_congr {s u : State} (h : OnLinks s u) (m : ChainMsg) : u.goesOn m = s.goesOn m := by
  rw [State.goesOn, State.onlyMe_congr h, State.goesOn]

section
variable (s : State) (k : Nat) (m : ChainMsg)

theorem State.relayed_onLinks : OnLinks s (s.relayed k m) := OnLinks.ite (State.sendUp_onLinks ..) (OnLinks.refl s)

theorem State.relayed_chain : (s.relayed k m).chain = s.chain := by
  unfold State.relayed
  split
  · exact State.sendUp_chain ..
  · rfl

theorem State.relayed_link_other {k j : Nat} (hk : k < 2) (hj : j < 2) (h : j ≠ k) : (s.relayed k m).link j = s.link j := by
  unfold State.relayed
  split
  · exact State.sendUp_link_other _ _ hk hj h
  · rfl

theorem State.relayed_tx_goes (hGoes : s.goesOn m = true) : ((s.relayed k m).link k).tx = s.txWith k (.chain { m with ttl := m.ttl - 1 }) := by
  rw [State.relayed, if_pos hGoes, State.passOn_eq, State.sendUp_tx]

theorem State.relayed_stays (hStays : s.goesOn m = false) : s.relayed k m = s := if_neg (by rw [hStays]; decide)

end

theorem State.goesOn_of_onlyMe {s : State} {m : ChainMsg} (h : s.onlyMe m = true) : s.goesOn m = false := by
  simp [State.goesOn, h]

section
variable (s : State) (k : Nat) (hdr : PktHdr) (m : ChainMsg)

theorem State.remembered_onLinks : OnLinks s (s.remembered k hdr m) := (OnLinks.accepted ..).trans (OnLinks.withChain ..)

theorem State.remembered_chain : (s.remembered k hdr m).chain = s.chainSeen m := by
  unfold State.remembered State.seeMsg State.chainSeen
  rw [State.accepted_chain]

theorem State.remembered_tx {k j : Nat} (hk : k < 2) (hj : j < 2) : ((s.remembered k hdr m).link j).tx = (s.link j).tx :=
  (s.accepted_counted hdr 2 1 hk hj).tx

end

section
variable {s : State} {k : Nat} {hdr : PktHdr} {m : ChainMsg} (h : s.Arrives k hdr m) (deliver : State → State)
include h

theorem State.rx_arrives : s.rx k hdr [4] 2 (decide (m.data.length ≤ 240 ∧ m.mid < 4096 ∧ m.src < 16384 ∧ m.dest < 16384 ∧ m.ttl < 16384)) 1 =
    .go (s.accepted k hdr 2 1) := by
  rw [decide_eq_true h.2]
  exact rx_accepts s k hdr [4] 2 1 h.1

theorem State.chainRx_seen (hSeen : (m.src, m.mid) ∈ s.chain.seen) : s.chainRx k hdr m deliver = nextState ((s.accepted k hdr 2 1).topUp k) := by
  have hContains : (s.accepted k hdr 2 1).chain.seen.contains (m.src, m.mid) = true := by simpa [State.accepted_chain] using hSeen
  rw [State.chainRx, if_neg (Nat.not_le.2 h.1.1), State.rx_arrives h]
  exact congrArg nextState (if_pos hContains)

variable (hNew : (m.src, m.mid) ∉ s.chain.seen)
include hNew

/-- One that has not been seen is remembered, passed on and delivered; a WALK is passed on last. -/
theorem State.chainRx_new : s.chainRx k hdr m deliver = nextState
    (let s2 := if (s.accepted k hdr 2 1).goesOn m ∧ m.mclass ≠ 1 then (s.remembered k hdr m).passOn (1 - k) m else s.remembered k hdr m
     let s3 := if (s.accepted k hdr 2 1).forMe m then deliver s2 else s2
     let s4 := if (s.accepted k hdr 2 1).goesOn m ∧ m.mclass = 1 then s3.passOn (1 - k) m else s3
     s4.topUp k) := by
  have hContains : ¬(s.accepted k hdr 2 1).chain.seen.contains (m.src, m.mid) = true := by simpa [State.accepted_chain] using hNew
  rw [State.chainRx, if_neg (Nat.not_le.2 h.1.1), State.rx_arrives h]
  exact congrArg nextState (if_neg hContains)

end

end Sys2Proof.Machine

namespace Sys2Proof.Machine

/-! ### Where a message goes (R337, R338) -/

/-- The state in which a message that is not a WALK is delivered: remembered, and passed on. -/
def State.atModule (s : State) (k : Nat) (hdr : PktHdr) (m : ChainMsg) : State := (s.remembered k hdr m).relayed (1 - k) m

section
variable {s : State} {k : Nat} {hdr : PktHdr} {m : ChainMsg}

theorem State.atModule_onLinks (s : State) (k : Nat) (hdr : PktHdr) (m : ChainMsg) : OnLinks s (s.atModule k hdr m) :=
  (s.remembered_onLinks k hdr m).trans (State.relayed_onLinks ..)

theorem State.atModule_chain (s : State) (k : Nat) (hdr : PktHdr) (m : ChainMsg) : (s.atModule k hdr m).chain = s.chainSeen m :=
  (State.relayed_chain ..).trans (s.remembered_chain k hdr m)

theorem State.atModule_tx (h : s.Arrives k hdr m) : ((s.atModule k hdr m).link k).tx = (s.link k).tx := by
  have hLink : k < 2 := h.1.1
  rw [State.atModule, State.relayed_link_other _ _ (by omega) hLink (by omega), s.remembered_tx hdr m hLink hLink]

theorem State.atModule_onlyMe_tx (h : s.Arrives k hdr m) (hOnly : s.onlyMe m = true) {j : Nat} (hj : j < 2) :
    ((s.atModule k hdr m).link j).tx = (s.link j).tx := by
  have hStays : (s.remembered k hdr m).goesOn m = false := by
    rw [State.goesOn_congr (s.remembered_onLinks k hdr m)]
    exact State.goesOn_of_onlyMe hOnly
  rw [State.atModule, State.relayed_stays _ _ _ hStays, s.remembered_tx hdr m h.1.1 hj]

theorem State.Arrives.linkUp (h : s.Arrives k hdr m) : s.linkUp k = true := (s.linkUp_iff k).2 (accepts_state h.1)

theorem State.chainSeen_mem (s : State) (m : ChainMsg) : (m.src, m.mid) ∈ (s.chainSeen m).seen := mem_take_cons ..

end

section
variable {s : State} {k : Nat} {hdr : PktHdr} {m : ChainMsg} (h : s.Arrives k hdr m) (deliver : State → State) (hNew : (m.src, m.mid) ∉ s.chain.seen)
include h hNew

theorem State.chainRx_delivered (hClass : m.mclass ≠ 1) (hMine : s.forMe m = true) :
    s.chainRx k hdr m deliver = nextState ((deliver (s.atModule k hdr m)).topUp k) := by
  have hGoes : (s.accepted k hdr 2 1).goesOn m = (s.remembered k hdr m).goesOn m := (State.goesOn_congr (OnLinks.withChain _ _) m).symm
  rw [State.chainRx_new h deliver hNew, hGoes, State.forMe_congr (OnLinks.accepted ..)]
  simp only [hClass, hMine, ne_eq, not_false_eq_true, and_true, and_false, if_true, if_false]
  rfl

/-- One that is not for this module is passed on, and nothing else. -/
theorem State.chainRx_forOthers (hClass : m.mclass ≠ 1) (hMine : s.forMe m = false) :
    s.chainRx k hdr m deliver = nextState ((s.atModule k hdr m).topUp k) := by
  have hGoes : (s.accepted k hdr 2 1).goesOn m = (s.remembered k hdr m).goesOn m := (State.goesOn_congr (OnLinks.withChain _ _) m).symm
  rw [State.chainRx_new h deliver hNew, hGoes, State.forMe_congr (OnLinks.accepted ..)]
  simp only [hClass, hMine, ne_eq, not_false_eq_true, and_true, and_false, if_false, Bool.false_eq_true]
  rfl

/-- A WALK is passed on after its answer. -/
theorem State.chainRx_walk (hClass : m.mclass = 1) (hMine : s.forMe m = true) (hAnswer : OnLinks (s.remembered k hdr m) (deliver (s.remembered k hdr m))) :
    s.chainRx k hdr m deliver = nextState (((deliver (s.remembered k hdr m)).relayed (1 - k) m).topUp k) := by
  have hGoes : (s.accepted k hdr 2 1).goesOn m = (deliver (s.remembered k hdr m)).goesOn m :=
    (State.goesOn_congr ((OnLinks.withChain _ _).trans hAnswer) m).symm
  rw [State.chainRx_new h deliver hNew, hGoes, State.forMe_congr (OnLinks.accepted ..)]
  simp only [hClass, hMine, ne_eq, not_true_eq_false, and_true, and_false, if_true, if_false]
  rfl

end

/-! ### Answers of this module (R338) -/

theorem State.ownMsg_congr {s u : State} (hAddr : u.uaddr = s.uaddr) (hMid : u.chain.mid = s.chain.mid) (mclass : Nat) (bcast : Bool) (dest : Nat)
    (data : List Byte) : u.ownMsg mclass bcast dest data = s.ownMsg mclass bcast dest data := by
  rw [State.ownMsg, hAddr, hMid, State.ownMsg]

/-- On a link that is UP, an answer stands behind what is queued. -/
theorem State.chainOut_tx_up {s u : State} {k : Nat} (hk : k < 2) (hUp : u.linkUp k = true) (hAddr : u.uaddr = s.uaddr) (hMid : u.chain.mid = s.chain.mid)
    (hClk : u.clk = s.clk) (mclass : Nat) (bcast : Bool) (dest : Nat) (data : List Byte) :
    ((u.chainOut mclass bcast dest data).2.link k).tx = (u.link k).tx ++ [⟨.chain (s.ownMsg mclass bcast dest data), s.clk.now + 100⟩] := by
  rw [State.chainOut_tx _ _ _ _ _ hk, State.txWith_up hUp, State.ownMsg_congr hAddr hMid, hClk]

/-- A STATUS_REPLY to the sender of a message (Table 10-14). -/
def State.statusSent (s : State) (m : ChainMsg) : State := (s.chainOut 3 false m.src (s.statusData m.ttl)).2

theorem State.statusSent_onLinks (s : State) (m : ChainMsg) : OnLinks s (s.statusSent m) := State.chainOut_onLinks ..

theorem State.answerStatus_sent {s : State} {m : ChainMsg} (h : m.src ≠ s.uaddr ∨ s.uaddrValid = false) :
    s.answerStatus m.src m.ttl = s.statusSent m := by
  refine if_neg ?_
  rintro ⟨hAddr, hValid⟩
  rcases h with h | h
  · exact h hAddr
  · rw [hValid] at h
    cases h

section
variable {s u : State} {k : Nat} {m : ChainMsg} (hOn : OnLinks s u) (hChain : u.chain = s.chainSeen m)
include hOn hChain

/-- The reply that a state with the message remembered sends. -/
theorem State.statusSent_tx (hk : k < 2) (hUp : s.linkUp k = true) : ((u.statusSent m).link k).tx =
    (u.link k).tx ++ [⟨.chain (s.ownMsg 3 false m.src (s.statusData m.ttl)), s.clk.now + 100⟩] := by
  have hMid : u.chain.mid = s.chain.mid := by rw [hChain, State.chainSeen]
  rw [State.statusSent, State.statusData_congr hOn, State.chainOut_tx_up hk ((hOn.linkUp k).trans hUp) hOn.uaddr hMid hOn.clk]

omit hOn in
theorem State.statusSent_seen : (m.src, m.mid) ∈ (u.statusSent m).chain.seen := by
  rw [State.statusSent, State.chainOut_chain]
  exact mem_take_cons_cons (congrArg Chain.seen hChain)

omit hOn in
theorem State.statusSent_mid : (u.statusSent m).chain.mid = (s.chain.mid + 1) % 4096 := by
  rw [State.statusSent, State.chainOut_chain, State.chainSent, hChain, State.chainSeen]

end

section
variable {s : State} {k : Nat} {hdr : PktHdr} {m : ChainMsg} (h : s.Arrives k hdr m) (hNew : (m.src, m.mid) ∉ s.chain.seen) (hMine : s.forMe m = true)
  (hOther : m.src ≠ s.uaddr ∨ s.uaddrValid = false)

omit h hNew hMine in
include hOther in
theorem OnLinks.answerStatus_sent {u : State} (hOn : OnLinks s u) : u.answerStatus m.src m.ttl = u.statusSent m :=
  State.answerStatus_sent (by rwa [hOn.uaddr, hOn.uaddrValid])

include h hNew hMine hOther

theorem exec_walk_answered (hClass : m.mclass = 1) :
    exec (.walk k hdr m) s = nextState ((((s.remembered k hdr m).statusSent m).relayed (1 - k) m).topUp k) := by
  have hSent := (s.remembered_onLinks k hdr m).answerStatus_sent hOther
  have hOn : OnLinks (s.remembered k hdr m) ((s.remembered k hdr m).answerStatus m.src m.ttl) := hSent ▸ State.statusSent_onLinks ..
  show execWalk k hdr m s = _
  rw [execWalk, if_neg (not_not.2 hClass), State.chainRx_walk h _ hNew hClass hMine hOn, hSent]

theorem exec_statusReq_answered (hClass : m.mclass = 2) :
    exec (.statusReq k hdr m) s = nextState (((s.atModule k hdr m).statusSent m).topUp k) := by
  show execStatusReq k hdr m s = _
  rw [execStatusReq, if_neg (not_not.2 hClass), State.chainRx_delivered h _ hNew (by omega) hMine,
    (s.atModule_onLinks k hdr m).answerStatus_sent hOther]

theorem walk_answered (hClass : m.mclass = 1) :
    ∃ t, exec (.walk k hdr m) s = .next t ∧ (m.src, m.mid) ∈ t.chain.seen ∧ t.chain.mid = (s.chain.mid + 1) % 4096 ∧
      (t.link k).tx = (s.link k).tx ++ [⟨.chain (s.ownMsg 3 false m.src (s.statusData m.ttl)), s.clk.now + 100⟩] ∧
      (m.bcast = true → m.isLocal = false → 0 < m.ttl → s.linkUp (1 - k) = true →
        ⟨.chain { m with ttl := m.ttl - 1 }, s.clk.now + 100⟩ ∈ (t.link (1 - k)).tx) := by
  have hLink : k < 2 := h.1.1
  have hOn := s.remembered_onLinks k hdr m
  have hChain := s.remembered_chain k hdr m
  refine nextState_exists (exec_walk_answered h hNew hMine hOther hClass) ?_
  rw [State.settle_chain, State.topUp_chain, State.relayed_chain, State.settle_link, State.settle_link, State.topUp_tx _ hLink hLink,
    State.topUp_tx _ hLink (by omega), State.relayed_link_other _ _ (by omega) hLink (by omega), State.statusSent_tx hOn hChain hLink h.linkUp,
    s.remembered_tx hdr m hLink hLink]
  refine ⟨State.statusSent_seen hChain, State.statusSent_mid hChain, rfl, fun hBcast hWide hHops hUp => ?_⟩
  have hSent := hOn.trans (State.statusSent_onLinks _ m)
  have hGoes : ((s.remembered k hdr m).statusSent m).goesOn m = true := by
    rw [State.goesOn_congr hSent]
    simp [State.goesOn, State.onlyMe, hBcast, hWide, hHops]
  rw [State.relayed_tx_goes _ _ _ hGoes, State.txWith_up ((hSent.linkUp _).trans hUp), hSent.clk]
  exact List.mem_append_right _ (List.mem_singleton_self _)

theorem statusReq_answered (hClass : m.mclass = 2) :
    ∃ t, exec (.statusReq k hdr m) s = .next t ∧ (m.src, m.mid) ∈ t.chain.seen ∧ t.chain.mid = (s.chain.mid + 1) % 4096 ∧
      (t.link k).tx = (s.link k).tx ++ [⟨.chain (s.ownMsg 3 false m.src (s.statusData m.ttl)), s.clk.now + 100⟩] := by
  have hLink : k < 2 := h.1.1
  have hChain := s.atModule_chain k hdr m
  refine nextState_exists (exec_statusReq_answered h hNew hMine hOther hClass) ?_
  rw [State.settle_chain, State.topUp_chain, State.settle_link, State.topUp_tx _ hLink hLink,
    State.statusSent_tx (s.atModule_onLinks k hdr m) hChain hLink h.linkUp, State.atModule_tx h]
  exact ⟨State.statusSent_seen hChain, State.statusSent_mid hChain, rfl⟩

end

end Sys2Proof.Machine

namespace Sys2Proof.Machine

/-! ### Walks keep a reply (R390) -/

/-- One entry of the table of walks takes a reply. -/
def walkTakes (src : Nat) (data : List Byte) (x : Nat × Walk) : Nat × Walk :=
  if x.2.kind = 1 then (x.1, { x.2 with replies := tput x.2.replies src data }) else x

theorem walkTakes_key (src : Nat) (data : List Byte) (x : Nat × Walk) : (walkTakes src data x).1 = x.1 := by
  unfold walkTakes
  split <;> rfl

/-- A key that stands behind all those before it is replaced in its place. -/
theorem tput_append {α : Type} {pre rest : Tbl α} {i : Nat} (v v' : α) (h : ∀ x ∈ pre, x.1 < i) : tput (pre ++ (i, v) :: rest) i v' = pre ++ (i, v') :: rest := by
  induction pre with
  | nil => simp [tput]
  | cons x pre ih =>
    obtain ⟨j, w⟩ := x
    have hLess : j < i := h (j, w) (List.mem_cons_self ..)
    have hLater : ¬i < j := by omega
    have hOther : i ≠ j := by omega
    simp only [List.cons_append, tput, hLater, hOther, if_false]
    rw [ih fun x hx => h x (List.mem_cons_of_mem _ hx)]

/-- What one entry of the table of walks does with a STATUS_REPLY. -/
def State.replyStep (src : Nat) (data : List Byte) (s : State) (e : Nat × Walk) : State :=
  let w := e.2
  if w.kind = 1 then { s with chain := { s.chain with walks := tput s.chain.walks e.1 { w with replies := tput w.replies src data } } }
  else if w.kind = 2 ∧ w.dest = src then
    let asked := match tget s.cmds w.cmd with | some c => c.pkt.buflen != 0 | none => false
    s.finish w.cmd stOK (s.reg Reg.PLK_CHAIN).toNat (if asked then 1 else 0) (if asked then data else [])
  else s

theorem State.storeReply_eq (s : State) (src : Nat) (data : List Byte) : s.storeReply src data = s.chain.walks.foldl (State.replyStep src data) s := rfl

/-- The state with another table of walks. -/
def State.withWalks (s : State) (l : Tbl Walk) : State := { s with chain := { s.chain with walks := l } }

theorem State.replyStep_walk (s : State) (src : Nat) (data : List Byte) {pre rest : Tbl Walk} {e : Nat × Walk}
    (hBefore : ∀ x ∈ pre, x.1 < e.1) (hKind : e.2.kind ≠ 2) :
    State.replyStep src data (s.withWalks (pre ++ e :: rest)) e = s.withWalks (pre ++ walkTakes src data e :: rest) := by
  unfold State.replyStep walkTakes
  by_cases hWalk : e.2.kind = 1
  · simp only [hWalk, if_true, State.withWalks]
    rw [tput_append _ _ hBefore]
  · simp only [hWalk, hKind, if_false, false_and]

/-- With no status request among them, every walk takes the reply in its place. -/
theorem State.foldl_replyStep (src : Nat) (data : List Byte) (l : Tbl Walk) (s : State) (pre : Tbl Walk)
    (hBefore : ∀ x ∈ pre, ∀ y ∈ l, x.1 < y.1) (hSorted : (l.map Prod.fst).Pairwise (· < ·)) (hKind : ∀ x ∈ l, x.2.kind ≠ 2) :
    l.foldl (State.replyStep src data) (s.withWalks (pre ++ l)) = s.withWalks (pre ++ l.map (walkTakes src data)) := by
  induction l generalizing pre with
  | nil => rfl
  | cons e l ih =>
    obtain ⟨hHead, hRest⟩ := List.pairwise_cons.1 hSorted
    have hMoved : pre ++ walkTakes src data e :: l = (pre ++ [walkTakes src data e]) ++ l := by simp
    rw [List.foldl_cons, s.replyStep_walk src data (fun x hx => hBefore x hx e (List.mem_cons_self ..)) (hKind e (List.mem_cons_self ..)), hMoved,
      ih _ ?_ hRest fun x hx => hKind x (List.mem_cons_of_mem _ hx)]
    · simp
    · intro x hx y hy
      rcases List.mem_append.1 hx with hx | hx
      · exact hBefore x hx y (List.mem_cons_of_mem _ hy)
      · rw [List.mem_singleton.1 hx, walkTakes_key]
        exact hHead y.1 (List.mem_map_of_mem hy)

theorem State.storeReply_walks {s : State} (src : Nat) (data : List Byte) (hSorted : (s.chain.walks.map Prod.fst).Pairwise (· < ·))
    (hKind : ∀ x ∈ s.chain.walks, x.2.kind ≠ 2) : s.storeReply src data = s.withWalks (s.chain.walks.map (walkTakes src data)) :=
  State.foldl_replyStep src data s.chain.walks s [] (by simp) hSorted hKind

section
variable {s : State} {k : Nat} {hdr : PktHdr} {m : ChainMsg} (h : s.Arrives k hdr m) (hNew : (m.src, m.mid) ∉ s.chain.seen) (hMine : s.forMe m = true)
include h hNew hMine

theorem exec_statusReply_taken (hClass : m.mclass = 3) :
    exec (.statusReply k hdr m) s = nextState (((s.atModule k hdr m).storeReply m.src m.data).topUp k) := by
  show execStatusReply k hdr m s = _
  rw [execStatusReply, if_neg (not_not.2 hClass), State.chainRx_delivered h _ hNew (by omega) hMine]

theorem statusReply_kept (hClass : m.mclass = 3) (hSorted : (s.chain.walks.map Prod.fst).Pairwise (· < ·)) (hKind : ∀ x ∈ s.chain.walks, x.2.kind ≠ 2) :
    ∃ t, exec (.statusReply k hdr m) s = .next t ∧ (m.src, m.mid) ∈ t.chain.seen ∧
      t.chain.walks = s.chain.walks.map (fun x => if x.2.kind = 1 then (x.1, { x.2 with replies := tput x.2.replies m.src m.data }) else x) ∧
      t.cmds = s.cmds := by
  have hWalks : (s.atModule k hdr m).chain.walks = s.chain.walks := by rw [s.atModule_chain, State.chainSeen]
  have hStored : (s.atModule k hdr m).storeReply m.src m.data = (s.atModule k hdr m).withWalks (s.chain.walks.map (walkTakes m.src m.data)) := by
    rw [State.storeReply_walks _ _ (by rwa [hWalks]) (by rwa [hWalks]), hWalks]
  refine nextState_exists (exec_statusReply_taken h hNew hMine hClass) ?_
  rw [State.settle_chain, State.topUp_chain, State.settle_cmds, (OnLinks.topUp ..).cmds, hStored]
  refine ⟨?_, rfl, (s.atModule_onLinks k hdr m).cmds⟩
  show _ ∈ (s.atModule k hdr m).chain.seen
  rw [s.atModule_chain]
  exact s.chainSeen_mem m

end

/-! ### What a completion leaves of the chain -/

/-- From `s` to `u` the chain has at most lost walks. -/
def WalksEnd (s u : State) : Prop := ∃ p, u.chain = { s.chain with walks := s.chain.walks.filter p }

namespace WalksEnd

variable {s u v : State}

theorem of_chain (h : u.chain = s.chain) : WalksEnd s u := ⟨fun _ => true, by rw [List.filter_true]; exact h⟩

theorem refl (s : State) : WalksEnd s s := of_chain rfl

theorem trans (h : WalksEnd s u) (h' : WalksEnd u v) : WalksEnd s v := by
  obtain ⟨p, hp⟩ := h
  obtain ⟨q, hq⟩ := h'
  exact ⟨fun x => p x && q x, by rw [hq, hp, List.filter_filter]; simp only [Bool.and_comm]⟩

theorem foldl {α : Type} {f : State → α → State} (h : ∀ s x, WalksEnd s (f s x)) (l : List α) (s : State) : WalksEnd s (l.foldl f s) := by
  induction l generalizing s with
  | nil => exact refl s
  | cons x l ih => exact (h s x).trans (ih _)

theorem ite {c : Prop} [Decidable c] (h : WalksEnd s u) (h' : WalksEnd s v) : WalksEnd s (if c then u else v) := by
  split
  · exact h
  · exact h'

theorem seen (h : WalksEnd s u) : u.chain.seen = s.chain.seen := by obtain ⟨p, hp⟩ := h; rw [hp]
theorem inbox (h : WalksEnd s u) : u.chain.inbox = s.chain.inbox := by obtain ⟨p, hp⟩ := h; rw [hp]

theorem gone (h : WalksEnd s u) {id : Nat} (hNone : tget s.chain.walks id = none) : tget u.chain.walks id = none := by
  obtain ⟨p, hp⟩ := h
  rw [hp]
  exact tget_filter_of_none _ hNone

theorem unwrite (s : State) (ring : Nat) (c : Cmd) (st r0 : Nat) : WalksEnd s (s.unwrite ring c st r0) := by
  unfold State.unwrite
  exact ite (refl s) (of_chain rfl)

theorem ended (s : State) (id : Nat) : WalksEnd s (s.ended id) := ⟨_, rfl⟩

theorem dropRefs (s : State) (id : Nat) : WalksEnd s (s.dropRefs id) := ⟨_, rfl⟩

theorem ringStat (s : State) (n : Nat) : WalksEnd s (s.ringStat n) := by
  unfold State.ringStat
  exact ite (of_chain rfl) (refl s)

theorem haltMark (s : State) (n cause : Nat) : WalksEnd s (s.haltMark n cause) := of_chain ((State.event_chain ..).trans rfl)

theorem cqError (s : State) (n : Nat) : WalksEnd s (s.cqError n) := by
  have hUnwrites (u : State) (gone : List (Nat × Cmd)) : WalksEnd u (gone.foldl (fun s e => (s.dropRefs e.1).unwrite n e.2 stABORTED 0) u) :=
    foldl (fun s e => (dropRefs s e.1).trans (unwrite ..)) gone u
  have hDropped (u : State) (l : Tbl Cmd) : WalksEnd u { u with cmds := l } := of_chain rfl
  unfold State.cqError
  exact ite (ringStat s n) (((((haltMark s n 3).trans (hDropped _ _)).trans (hUnwrites _ _)).trans (hDropped _ _)).trans (ringStat ..))

theorem toBuffer (s : State) (c : Cmd) (bytes : List Byte) : WalksEnd s (s.toBuffer c bytes) := by
  unfold State.toBuffer
  refine ite (refl s) (ite ?_ (of_chain rfl))
  exact foldl (fun s (x : Nat × List Byte) => of_chain (u := s.out (.host x.1 x.2)) rfl) _ s

theorem msixCount (s : State) (n : Nat) (noirq : Bool) : WalksEnd s (s.msixCount n noirq) := by
  unfold State.msixCount
  exact ite (refl s) (ite (of_chain rfl) (of_chain rfl))

theorem writeCqe (s : State) (n tag st r0 r1 : Nat) (noirq : Bool) : WalksEnd s (s.writeCqe n tag st r0 r1 noirq) := by
  unfold State.writeCqe
  refine (of_chain ?_).trans (msixCount ..)
  split <;> rfl

theorem ringAnswer (s : State) (n : Nat) (c : Cmd) (st r0 r1 : Nat) (bytes : List Byte) : WalksEnd s (s.ringAnswer n c st r0 r1 bytes) := by
  unfold State.ringAnswer
  dsimp only
  exact ite (((toBuffer ..).trans (unwrite ..)).trans (cqError ..)) (((toBuffer ..).trans (writeCqe ..)).trans (ringStat ..))

/-- A command that ends takes its walk with it, and nothing else of the chain. -/
theorem finish (s : State) (id st r0 r1 : Nat) (bytes : List Byte) : WalksEnd s (s.finish id st r0 r1 bytes) := by
  cases hCmd : tget s.cmds id with
  | none => rw [State.finish_none hCmd]; exact refl s
  | some c =>
    cases hStop : c.stopping with
    | true => exact State.finish_stopped hCmd hStop .. ▸ (ended s id).trans (unwrite ..)
    | false =>
      cases hCarrier : c.carrier with
      | ring n => exact State.finish_ring hCmd hStop hCarrier .. ▸ (ended s id).trans (ringAnswer ..)
      | _ =>
        unfold State.finish
        simp only [hCmd, hStop, hCarrier, Bool.false_eq_true, if_false]
        exact ⟨_, rfl⟩

theorem storeAck (s : State) (src code : Nat) : WalksEnd s (s.storeAck src code) := by
  have hDropped (u : State) (id : Nat) : WalksEnd u (u.withWalks (tdel u.chain.walks id)) := ⟨_, rfl⟩
  exact foldl (fun s (e : Nat × Walk) => ite ((hDropped s e.1).trans (finish ..)) (refl s)) _ s

end WalksEnd

/-! ### Where the answer of a command is seen from -/

/-- An answer is where it was for a state that differs on the links alone. -/
theorem State.Carries.of_onLinks {s u t t' : State} {c : Cmd} {st r0 r1 : Nat} {bytes : List Byte} {p : Carrier} (h : u.Carries t c st r0 r1 bytes p)
    (hFrom : OnLinks s u) (hTo : OnLinks t t') : s.Carries t' c st r0 r1 bytes p := by
  cases p with
  | ring n =>
    have hDead : u.cqDead n = s.cqDead n := by simp only [State.cqDead, hFrom.fget]
    intro hRing hAlive
    obtain ⟨hQueue, hBuffer, hDone⟩ := h hRing (hDead.trans hAlive)
    rw [hFrom.fget, hFrom.fget, hFrom.clk] at hQueue
    rw [hTo.outbox, hTo.reg, hDone, hFrom.reg]
    exact ⟨hQueue, hBuffer, rfl⟩
  | _ =>
    unfold State.Carries at h ⊢
    rw [hTo.outbox, ← hFrom.clk]
    exact h

/-- A command that ends between changes of the links and of the chain is answered. -/
theorem State.finish_answers {s u v : State} {id : Nat} {c : Cmd} (hFrom : OnLinks s u) (hCmd : tget s.cmds id = some c) (st r0 r1 : Nat) (bytes : List Byte)
    (hTo : OnLinks (u.finish id st r0 r1 bytes) v) : s.Answered v.settle id c st r0 r1 bytes := by
  have hStands : tget u.cmds id = some c := by rw [hFrom.cmds, hCmd]
  refine ⟨?_, fun hStop hEnd hHost hOp => ?_⟩
  · rw [State.settle_cmds, hTo.cmds]
    exact State.finish_gone ..
  · exact ((State.finish_carries hStands st r0 r1 bytes hStop hEnd hHost hOp).of_onLinks hFrom hTo).settle

section
variable {s : State} {k : Nat} {hdr : PktHdr} {m : ChainMsg} (h : s.Arrives k hdr m) (hNew : (m.src, m.mid) ∉ s.chain.seen) (hMine : s.forMe m = true)
include h hNew hMine

/-- A STATUS_REPLY that a status request waits for completes it (R390). -/
theorem statusReply_answers {id : Nat} {w : Walk} {c : Cmd} (hClass : m.mclass = 3) (hWalks : s.chain.walks = [(id, w)]) (hKind : w.kind = 2)
    (hDest : w.dest = m.src) (hCmd : tget s.cmds w.cmd = some c) :
    ∃ t, exec (.statusReply k hdr m) s = .next t ∧ (m.src, m.mid) ∈ t.chain.seen ∧
      s.Answered t w.cmd c stOK (s.reg Reg.PLK_CHAIN).toNat (if c.pkt.buflen = 0 then 0 else 1) (if c.pkt.buflen = 0 then [] else m.data) := by
  have hOn := s.atModule_onLinks k hdr m
  have hChain := s.atModule_chain k hdr m
  have hHeld : (s.atModule k hdr m).chain.walks = [(id, w)] := by rw [hChain, State.chainSeen, hWalks]
  have hStored : (s.atModule k hdr m).storeReply m.src m.data = (s.atModule k hdr m).finish w.cmd stOK (s.reg Reg.PLK_CHAIN).toNat
      (if c.pkt.buflen = 0 then 0 else 1) (if c.pkt.buflen = 0 then [] else m.data) := by
    rw [State.storeReply_eq, hHeld, List.foldl_cons, List.foldl_nil, State.replyStep, if_neg (by rw [hKind]; decide), if_pos ⟨hKind, hDest⟩, hOn.cmds, hCmd, hOn.reg]
    by_cases hAsked : c.pkt.buflen = 0 <;> simp [hAsked]
  refine nextState_exists (exec_statusReply_taken h hNew hMine hClass) ⟨?_, ?_⟩
  · rw [State.settle_chain, State.topUp_chain, hStored, (WalksEnd.finish ..).seen, hChain]
    exact s.chainSeen_mem m
  · rw [hStored]
    exact State.finish_answers hOn hCmd _ _ _ _ (OnLinks.topUp ..)

end

end Sys2Proof.Machine

namespace Sys2Proof.Machine

/-! ### The inbox takes a RELAY (R338) -/

theorem OnLinks.keeps_of_chain {s u : State} (h : OnLinks s u) (hChain : u.chain = s.chain) : Keeps s u [.linkA, .linkB, .hist] := by
  refine ⟨h.keeps.1, fun p hp => ?_⟩
  by_cases hPart : p = .chain
  · subst hPart
    exact hChain
  · refine h.keeps.2 p ?_
    simp only [List.mem_cons, List.not_mem_nil, or_false, not_or] at hp ⊢
    exact ⟨hp.1, hp.2.1, hp.2.2, hPart⟩

theorem plkChain_uncompleted : Uncompleted Reg.PLK_CHAIN := by
  refine ⟨fun n => ⟨?_, ?_, ?_⟩, by decide⟩ <;> simp only [Reg.PLK_CHAIN, Reg.CRG_STAT, Reg.CRG_CQ_TAIL, Reg.CRG_DONE] <;> omega

/-- The inbox takes a RELAY: PLK_CHAIN counts it, and an event names its sender. -/
def State.inboxTaken (s : State) (m : ChainMsg) : State :=
  (State.fset { s with chain := { s.chain with inbox := s.chain.inbox ++ [(s.clk.now, m)] } } Reg.PLK_CHAIN Fld.PLK_CHAIN_INBOX (s.chain.inbox.length + 1)).event
    evCHAIN 4 0xFFFF m.src [s.chain.inbox.length + 1]

/-- The sender of a RELAY is told what became of it. -/
def State.relayTold (s : State) (m : ChainMsg) (code : Nat) : State :=
  if m.src = s.uaddr ∧ s.uaddrValid = true then s.storeAck m.src code else (s.chainOut 5 false m.src (le 4 code)).2

section
variable (s : State) (m : ChainMsg)

theorem State.inboxTaken_reg {off : Nat} (hChain : off ≠ Reg.PLK_CHAIN) (hHst : off ≠ Reg.HST_STAT) : (s.inboxTaken m).reg off = s.reg off :=
  (State.event_reg _ _ _ _ _ _ hHst).trans (State.reg_fset_other _ _ _ _ hChain)

theorem State.inboxTaken_chain : (s.inboxTaken m).chain = { s.chain with inbox := s.chain.inbox ++ [(s.clk.now, m)] } := State.event_chain ..

theorem State.inboxTaken_clk : (s.inboxTaken m).clk = s.clk := State.event_clk ..

theorem State.inboxTaken_count (h : s.chain.inbox.length < 64) : (s.inboxTaken m).fget Reg.PLK_CHAIN Fld.PLK_CHAIN_INBOX = s.chain.inbox.length + 1 := by
  rw [State.fget, State.inboxTaken, State.event_reg _ _ _ _ _ _ (by decide)]
  refine State.fget_fset_same _ _ _ _ (by decide) ?_
  show _ < 2 ^ 7
  omega

theorem State.inboxTaken_uaddr : (s.inboxTaken m).uaddr = s.uaddr := by
  rw [State.uaddr, State.fget, s.inboxTaken_reg m (by decide) (by decide)]
  rfl

theorem State.inboxTaken_uaddrValid : (s.inboxTaken m).uaddrValid = s.uaddrValid := by
  rw [State.uaddrValid, State.fget, s.inboxTaken_reg m (by decide) (by decide)]
  rfl

theorem State.inboxTaken_linkUp {k : Nat} (h : k < 2) : (s.inboxTaken m).linkUp k = s.linkUp k := by
  rw [State.linkUp, State.fget, s.inboxTaken_reg m (by simp only [Reg.PLK_LINK, Reg.PLK_CHAIN]; omega) (by simp only [Reg.PLK_LINK, Reg.HST_STAT]; omega)]
  rfl

theorem State.relayIn_room (h : s.chain.inbox.length < 64) : s.relayIn m = (s.inboxTaken m).relayTold m 0 := by
  rw [State.relayTold, s.inboxTaken_uaddr, s.inboxTaken_uaddrValid]
  unfold State.relayIn
  simp only [h, if_true]
  rfl

theorem State.relayIn_full (h : 64 ≤ s.chain.inbox.length) : s.relayIn m = s.relayTold m 1 := by
  unfold State.relayIn
  simp only [Nat.not_lt.2 h, if_false]
  rfl

variable (code : Nat)

theorem State.relayTold_inbox : (s.relayTold m code).chain.inbox = s.chain.inbox := by
  unfold State.relayTold
  split
  · exact (WalksEnd.storeAck ..).inbox
  · rw [State.chainOut_chain, State.chainSent]

theorem State.relayTold_seen {x : Nat × Nat} {l : List (Nat × Nat)} (h : s.chain.seen = (x :: l).take 4096) : x ∈ (s.relayTold m code).chain.seen := by
  unfold State.relayTold
  split
  · rw [(WalksEnd.storeAck ..).seen, h]
    exact mem_take_cons ..
  · rw [State.chainOut_chain]
    exact mem_take_cons_cons h

theorem State.storeAck_reg {off : Nat} (h : Uncompleted off) (src : Nat) : (s.storeAck src code).reg off = s.reg off := by
  refine foldl_keeps (State.reg · off) (fun s (e : Nat × Walk) => ?_) s.chain.walks s
  exact State.ite_reg ((State.finish_reg h ..).trans rfl) rfl

theorem State.relayTold_plkChain : (s.relayTold m code).reg Reg.PLK_CHAIN = s.reg Reg.PLK_CHAIN :=
  State.ite_reg (State.storeAck_reg _ _ plkChain_uncompleted _) ((State.chainOut_onLinks ..).reg _)

end

/-- Told by a RELAY_ACK, the sender being another module. -/
theorem State.relayTold_tx {s u : State} {k : Nat} {m : ChainMsg} (code : Nat) (hk : k < 2) (hUp : u.linkUp k = true) (hAddr : u.uaddr = s.uaddr)
    (hMid : u.chain.mid = s.chain.mid) (hClk : u.clk = s.clk) (hOther : m.src ≠ u.uaddr ∨ u.uaddrValid = false) :
    ⟨.chain (s.ownMsg 5 false m.src (le 4 code)), s.clk.now + 100⟩ ∈ ((u.relayTold m code).link k).tx := by
  have hNotOwn : ¬(m.src = u.uaddr ∧ u.uaddrValid = true) := fun ⟨hSrc, hValid⟩ => by
    rcases hOther with h | h
    · exact h hSrc
    · rw [hValid] at h
      cases h
  rw [State.relayTold, if_neg hNotOwn, State.chainOut_tx_up hk hUp hAddr hMid hClk]
  exact List.mem_append_right _ (List.mem_singleton_self _)

section
variable {s : State} {k : Nat} {hdr : PktHdr} {m : ChainMsg} (h : s.Arrives k hdr m)

section
variable (hNew : (m.src, m.mid) ∉ s.chain.seen)
include h hNew

theorem relay_taken (hMine : s.forMe m = true) (hClass : m.mclass = 4) (hRoom : s.chain.inbox.length < 64) :
    ∃ t, exec (.relay k hdr m) s = .next t ∧ t.chain.inbox = s.chain.inbox ++ [(s.clk.now, m)] ∧
      t.fget Reg.PLK_CHAIN Fld.PLK_CHAIN_INBOX = s.chain.inbox.length + 1 ∧ (m.src, m.mid) ∈ t.chain.seen ∧
      (m.src ≠ s.uaddr ∨ s.uaddrValid = false → ⟨.chain (s.ownMsg 5 false m.src (le 4 0)), s.clk.now + 100⟩ ∈ (t.link k).tx) := by
  have hOn := s.atModule_onLinks k hdr m
  have hChain := s.atModule_chain k hdr m
  have hInbox : (s.atModule k hdr m).chain.inbox = s.chain.inbox := by rw [hChain, State.chainSeen]
  have hTaken := (s.atModule k hdr m).inboxTaken_chain m
  have hExec : exec (.relay k hdr m) s = nextState ((((s.atModule k hdr m).inboxTaken m).relayTold m 0).topUp k) := by
    show execRelay k hdr m s = _
    rw [execRelay, if_neg (not_not.2 hClass), State.chainRx_delivered h _ hNew (by omega) hMine, State.relayIn_room _ _ (by rwa [hInbox])]
  refine nextState_exists hExec ?_
  rw [State.settle_chain, State.topUp_chain, State.relayTold_inbox, hTaken, hInbox, hOn.clk, State.settle_fget _ (by decide) (by decide),
    (OnLinks.topUp ..).fget, State.fget, State.relayTold_plkChain, State.settle_link, State.topUp_tx _ h.1.1 h.1.1]
  refine ⟨rfl, ?_, ?_, fun hOther => ?_⟩
  · exact ((s.atModule k hdr m).inboxTaken_count m (by rwa [hInbox])).trans (by rw [hInbox])
  · exact State.relayTold_seen _ m 0 (by rw [hTaken, hChain, State.chainSeen])
  · refine State.relayTold_tx 0 h.1.1 ?_ ?_ ?_ ?_ ?_
    · rw [State.inboxTaken_linkUp _ _ h.1.1, hOn.linkUp, h.linkUp]
    · rw [State.inboxTaken_uaddr, hOn.uaddr]
    · rw [hTaken, hChain, State.chainSeen]
    · rw [State.inboxTaken_clk, hOn.clk]
    · rwa [State.inboxTaken_uaddr, State.inboxTaken_uaddrValid, hOn.uaddr, hOn.uaddrValid]

theorem relay_refused (hMine : s.forMe m = true) (hClass : m.mclass = 4) (hFull : 64 ≤ s.chain.inbox.length)
    (hOther : m.src ≠ s.uaddr ∨ s.uaddrValid = false) :
    ∃ t, exec (.relay k hdr m) s = .next t ∧ t.chain.inbox = s.chain.inbox ∧ (m.src, m.mid) ∈ t.chain.seen ∧
      ⟨.chain (s.ownMsg 5 false m.src (le 4 1)), s.clk.now + 100⟩ ∈ (t.link k).tx := by
  have hOn := s.atModule_onLinks k hdr m
  have hChain := s.atModule_chain k hdr m
  have hInbox : (s.atModule k hdr m).chain.inbox = s.chain.inbox := by rw [hChain, State.chainSeen]
  have hExec : exec (.relay k hdr m) s = nextState (((s.atModule k hdr m).relayTold m 1).topUp k) := by
    show execRelay k hdr m s = _
    rw [execRelay, if_neg (not_not.2 hClass), State.chainRx_delivered h _ hNew (by omega) hMine, State.relayIn_full _ _ (by rwa [hInbox])]
  refine nextState_exists hExec ?_
  rw [State.settle_chain, State.topUp_chain, State.relayTold_inbox, State.settle_link, State.topUp_tx _ h.1.1 h.1.1]
  refine ⟨hInbox, State.relayTold_seen _ m 1 (congrArg Chain.seen hChain), ?_⟩
  refine State.relayTold_tx 1 h.1.1 ((hOn.linkUp k).trans h.linkUp) hOn.uaddr (by rw [hChain, State.chainSeen]) hOn.clk ?_
  rwa [hOn.uaddr, hOn.uaddrValid]

/-- A RELAY for another module is passed on, once (R337). -/
theorem relay_passedOn (hClass : m.mclass = 4) (hBcast : m.bcast = false) (hWide : m.isLocal = false) (hDest : m.dest ≠ s.uaddr) (hHops : 0 < m.ttl)
    (hUp : s.linkUp (1 - k) = true) :
    ∃ t, exec (.relay k hdr m) s = .next t ∧ (t.link (1 - k)).tx = (s.link (1 - k)).tx ++ [⟨.chain { m with ttl := m.ttl - 1 }, s.clk.now + 100⟩] ∧
      t.chain.inbox = s.chain.inbox ∧ (m.src, m.mid) ∈ t.chain.seen := by
  have hOn := s.remembered_onLinks k hdr m
  have hChain := s.atModule_chain k hdr m
  have hMine : s.forMe m = false := by simp [State.forMe, hBcast, hWide, hDest]
  have hGoes : (s.remembered k hdr m).goesOn m = true := by
    rw [State.goesOn_congr hOn]
    simp [State.goesOn, State.onlyMe, hDest, hWide, hHops]
  have hExec : exec (.relay k hdr m) s = nextState ((s.atModule k hdr m).topUp k) := by
    show execRelay k hdr m s = _
    rw [execRelay, if_neg (not_not.2 hClass), State.chainRx_forOthers h _ hNew (by omega) hMine]
  refine nextState_exists hExec ?_
  rw [State.settle_chain, State.topUp_chain, hChain, State.settle_link, State.topUp_tx _ h.1.1 (by omega), State.atModule,
    State.relayed_tx_goes _ _ _ hGoes, State.txWith_up ((hOn.linkUp _).trans hUp), hOn.clk, s.remembered_tx hdr m h.1.1 (by omega)]
  exact ⟨rfl, rfl, s.chainSeen_mem m⟩

/-- A class outside the table is discarded at its destination (R338). -/
theorem chainMsg_discarded (hMine : s.forMe m = true) (hClass : m.mclass = 0 ∨ 5 < m.mclass) :
    ∃ t, exec (.chainMsg k hdr m) s = .next t ∧ t.chain = { s.chain with seen := t.chain.seen } ∧ (m.src, m.mid) ∈ t.chain.seen ∧
      (s.onlyMe m = true → (t.link 0).tx = (s.link 0).tx ∧ (t.link 1).tx = (s.link 1).tx) ∧ Keeps s t [.linkA, .linkB, .hist, .chain] := by
  have hChain := s.atModule_chain k hdr m
  have hExec : exec (.chainMsg k hdr m) s = nextState ((s.atModule k hdr m).topUp k) := by
    show execChainMsg k hdr m s = _
    rw [execChainMsg, if_neg (by omega), State.chainRx_delivered h _ hNew (by omega) hMine]
    rfl
  refine nextState_exists hExec ?_
  rw [State.settle_chain, State.topUp_chain, hChain, State.settle_link, State.settle_link, State.topUp_tx _ h.1.1 (by decide),
    State.topUp_tx _ h.1.1 (by decide)]
  refine ⟨rfl, s.chainSeen_mem m, fun hOnly => ?_, ((s.atModule_onLinks k hdr m).trans (OnLinks.topUp ..)).keeps.settle⟩
  exact ⟨State.atModule_onlyMe_tx h hOnly (by decide), State.atModule_onlyMe_tx h hOnly (by decide)⟩

end

include h in
/-- One that has been seen is discarded (R337). -/
theorem relay_seen (hClass : m.mclass = 4) (hSeen : (m.src, m.mid) ∈ s.chain.seen) :
    ∃ t, exec (.relay k hdr m) s = .next t ∧ (t.link 0).tx = (s.link 0).tx ∧ (t.link 1).tx = (s.link 1).tx ∧ Keeps s t [.linkA, .linkB, .hist] := by
  have hLink : k < 2 := h.1.1
  have hOn : OnLinks s ((s.accepted k hdr 2 1).topUp k) := (OnLinks.accepted ..).trans (OnLinks.topUp ..)
  have hExec : exec (.relay k hdr m) s = nextState ((s.accepted k hdr 2 1).topUp k) := by
    show execRelay k hdr m s = _
    rw [execRelay, if_neg (not_not.2 hClass), State.chainRx_seen h _ hSeen]
  refine nextState_exists hExec ?_
  rw [State.settle_link, State.settle_link, State.topUp_tx _ hLink (by decide), State.topUp_tx _ hLink (by decide),
    (s.accepted_counted hdr 2 1 hLink (by decide)).tx, (s.accepted_counted hdr 2 1 hLink (by decide)).tx]
  exact ⟨rfl, rfl, (hOn.keeps_of_chain ((State.topUp_chain ..).trans (s.accepted_chain k hdr 2 1))).settle⟩

end

/-! ### A RELAY_ACK completes its relay (Table 12-6) -/

/-- What one entry of the table of walks does with a RELAY_ACK. -/
def State.ackStep (src code : Nat) (s : State) (e : Nat × Walk) : State :=
  if e.2.kind = 4 ∧ e.2.dest = src then (s.withWalks (tdel s.chain.walks e.1)).finish e.2.cmd (if code = 0 then stOK else stBUSY) code 0 [] else s

theorem State.storeAck_eq (s : State) (src code : Nat) : s.storeAck src code = s.chain.walks.foldl (State.ackStep src code) s := rfl

theorem WalksEnd.ackStep (src code : Nat) (s : State) (e : Nat × Walk) : WalksEnd s (s.ackStep src code e) :=
  ite (WalksEnd.trans ⟨_, rfl⟩ (finish ..)) (refl s)

section
variable {src code id : Nat} {w : Walk} {l : Tbl Walk} (hOnly : ∀ e ∈ l, e.2.kind = 4 → e.2.dest = src → e = (id, w))
include hOnly

/-- Once its command has ended, a relay's RELAY_ACK does nothing more. -/
theorem State.foldl_ackStep_ended {s : State} (hEnded : tget s.cmds w.cmd = none) : OnLinks s (l.foldl (State.ackStep src code) s) := by
  induction l generalizing s with
  | nil => exact OnLinks.refl s
  | cons e l ih =>
    have hRest : ∀ e ∈ l, e.2.kind = 4 → e.2.dest = src → e = (id, w) := fun x hx => hOnly x (List.mem_cons_of_mem _ hx)
    rw [List.foldl_cons]
    by_cases hMatch : e.2.kind = 4 ∧ e.2.dest = src
    · obtain rfl := hOnly e (List.mem_cons_self ..) hMatch.1 hMatch.2
      have hNone : tget (s.withWalks (tdel s.chain.walks id)).cmds w.cmd = none := hEnded
      have hStep : s.ackStep src code (id, w) = s.withWalks (tdel s.chain.walks id) := (if_pos hMatch).trans (State.finish_none hNone ..)
      rw [hStep]
      exact (OnLinks.withChain s _).trans (ih hRest hEnded)
    · rw [State.ackStep, if_neg hMatch]
      exact ih hRest hEnded

/-- The one relay that a RELAY_ACK answers leaves the table, and its command ends; nothing else happens but on the links and in the chain. -/
theorem State.foldl_ackStep {s : State} (hIn : (id, w) ∈ l) (hKind : w.kind = 4) (hDest : w.dest = src) :
    tget (l.foldl (State.ackStep src code) s).chain.walks id = none ∧
      OnLinks ((s.withWalks (tdel s.chain.walks id)).finish w.cmd (if code = 0 then stOK else stBUSY) code 0 [])
        (l.foldl (State.ackStep src code) s) := by
  induction l generalizing s with
  | nil => exact absurd hIn List.not_mem_nil
  | cons e l ih =>
    have hRest : ∀ e ∈ l, e.2.kind = 4 → e.2.dest = src → e = (id, w) := fun x hx => hOnly x (List.mem_cons_of_mem _ hx)
    rw [List.foldl_cons]
    by_cases hMatch : e.2.kind = 4 ∧ e.2.dest = src
    · obtain rfl := hOnly e (List.mem_cons_self ..) hMatch.1 hMatch.2
      rw [State.ackStep, if_pos hMatch]
      refine ⟨?_, State.foldl_ackStep_ended hRest (State.finish_gone ..)⟩
      exact ((WalksEnd.finish ..).trans (WalksEnd.foldl (WalksEnd.ackStep src code) l _)).gone (tget_tdel_same ..)
    · have hTail : (id, w) ∈ l := (List.mem_cons.1 hIn).resolve_left fun hEq => hMatch (hEq ▸ ⟨hKind, hDest⟩)
      rw [State.ackStep, if_neg hMatch]
      exact ih hRest hTail

end

theorem relayAck_answers {s : State} {k : Nat} {hdr : PktHdr} {m : ChainMsg} {id : Nat} {w : Walk} {c : Cmd} (h : s.Arrives k hdr m)
    (hNew : (m.src, m.mid) ∉ s.chain.seen) (hMine : s.forMe m = true) (hClass : m.mclass = 5) (hWalk : tget s.chain.walks id = some w)
    (hKind : w.kind = 4) (hDest : w.dest = m.src) (hOnly : ∀ x ∈ s.chain.walks, x.2.kind = 4 → x.2.dest = m.src → x = (id, w))
    (hCmd : tget s.cmds w.cmd = some c) :
    ∃ t, exec (.relayAck k hdr m) s = .next t ∧ (m.src, m.mid) ∈ t.chain.seen ∧ tget t.chain.walks id = none ∧
      s.Answered t w.cmd c (if ofBytes (m.data.take 4) = 0 then stOK else stBUSY) (ofBytes (m.data.take 4)) 0 [] := by
  have hChain := s.atModule_chain k hdr m
  have hHeld : (s.atModule k hdr m).chain.walks = s.chain.walks := by rw [hChain, State.chainSeen]
  have hExec : exec (.relayAck k hdr m) s = nextState (((s.atModule k hdr m).storeAck m.src (ofBytes (m.data.take 4))).topUp k) := by
    show execRelayAck k hdr m s = _
    rw [execRelayAck, if_neg (not_not.2 hClass), State.chainRx_delivered h _ hNew (by omega) hMine]
  obtain ⟨hGone, hEnds⟩ := State.foldl_ackStep (code := ofBytes (m.data.take 4)) (s := s.atModule k hdr m) hOnly (mem_of_tget hWalk) hKind hDest
  rw [← hHeld, ← State.storeAck_eq] at hGone hEnds
  refine nextState_exists hExec ⟨?_, ?_, ?_⟩
  · rw [State.settle_chain, State.topUp_chain, (WalksEnd.storeAck ..).seen, hChain]
    exact s.chainSeen_mem m
  · rw [State.settle_chain, State.topUp_chain]
    exact hGone
  · exact State.finish_answers ((s.atModule_onLinks k hdr m).trans (OnLinks.withChain ..)) hCmd _ _ _ _ (hEnds.trans (OnLinks.topUp ..))

end Sys2Proof.Machine

namespace Sys2Proof.Machine

/-! ### A claim is heard (R340) -/

/-- From `s` to `u` no claim has been sent: the links and the claims remembered are as before. -/
structure NoClaim (s u : State) : Prop where
  claims : u.chain.seenClaims = s.chain.seenClaims
  linkA : u.linkA = s.linkA
  linkB : u.linkB = s.linkB

namespace NoClaim

variable {s u v : State}

theorem refl (s : State) : NoClaim s s := ⟨rfl, rfl, rfl⟩

theorem trans (h : NoClaim s u) (h' : NoClaim u v) : NoClaim s v := ⟨h'.claims.trans h.claims, h'.linkA.trans h.linkA, h'.linkB.trans h.linkB⟩

theorem of_events (h : EventsOnly s u) : NoClaim s u := by
  rw [show u = _ from h]
  exact ⟨rfl, rfl, rfl⟩

theorem link (h : NoClaim s u) (k : Nat) : u.link k = s.link k := by
  unfold State.link
  rw [h.linkA, h.linkB]

end NoClaim

/-- From `s` to `u` at most one claim has been sent: it is remembered first, and what was queued stands before it. -/
structure OneClaim (s u : State) : Prop where
  claims : u.chain.seenClaims = s.chain.seenClaims ∨ ∃ x, u.chain.seenClaims = (x :: s.chain.seenClaims).take 4096
  tx : ∀ k, k < 2 → (s.link k).tx <+: (u.link k).tx

namespace OneClaim

variable {s u v : State}

theorem of_none (h : NoClaim s u) : OneClaim s u := ⟨.inl h.claims, fun k _ => by rw [h.link k]⟩

theorem after (h : NoClaim s u) (h' : OneClaim u v) : OneClaim s v :=
  ⟨h.claims ▸ h'.claims, fun k hk => h.link k ▸ h'.tx k hk⟩

/-- The claim remembered last before it is still remembered. -/
theorem mem (h : OneClaim s u) {x : Nat × Nat × Nat × Bool} {l : List (Nat × Nat × Nat × Bool)} (hLast : s.chain.seenClaims = (x :: l).take 4096) :
    x ∈ u.chain.seenClaims := by
  rcases h.claims with hSame | ⟨y, hMore⟩
  · rw [hSame, hLast]
    exact mem_take_cons ..
  · rw [hMore]
    exact mem_take_cons_cons hLast

end OneClaim

/-- A claim of this module. -/
def ownClaim (addr : Nat) (held : Bool) (round : Nat) : ClaimMsg :=
  { addr := addr, held := held, ttl := 16383, round := round, serial := Config.serial }

/-- The chain when a claim of this module is sent. -/
def State.claimChain (s : State) (addr : Nat) (held : Bool) (round : Nat) : Chain :=
  { s.chain with seenClaims := ((addr, Config.serial % 2 ^ 64, round, held) :: s.chain.seenClaims).take 4096 }

section
variable (s : State) (addr : Nat) (held : Bool) (round : Nat)

theorem State.claimSend_eq : s.claimSend addr held round =
    State.sendBoth { s with chain := s.claimChain addr held round } (.claim (ownClaim addr held round)) := rfl

theorem State.claimSend_chain : (s.claimSend addr held round).chain = s.claimChain addr held round := by
  rw [State.claimSend_eq, State.sendBoth_chain]

theorem State.claimSend_tx {k : Nat} (h : k < 2) : ((s.claimSend addr held round).link k).tx = s.txWith k (.claim (ownClaim addr held round)) := by
  rw [State.claimSend_eq]
  exact State.sendBoth_tx _ _ h

theorem OneClaim.claimSend : OneClaim s (s.claimSend addr held round) := by
  refine ⟨.inr ⟨_, congrArg Chain.seenClaims (s.claimSend_chain addr held round)⟩, fun k hk => ?_⟩
  rw [s.claimSend_tx addr held round hk]
  exact s.txWith_prefix k _

end

/-- The state in which a module has a candidate, or none. -/
def State.withCand (s : State) (cand : Option Nat) : State := { s with chain := { s.chain with cand := cand } }

theorem NoClaim.withCand (s : State) (cand : Option Nat) : NoClaim s (s.withCand cand) := ⟨rfl, rfl, rfl⟩

theorem OneClaim.claimStart (s : State) (cand : Nat) : OneClaim s (s.claimStart cand) := by
  unfold State.claimStart
  refine .after ?_ (.claimSend ..)
  exact ⟨rfl, rfl, rfl⟩

theorem State.claimStart_taken (s : State) (cand : Nat) : (s.claimStart cand).chain.taken = s.chain.taken := by
  rw [State.claimStart, State.claimSend_chain]
  rfl

/-- A function that is not ready and fails: at most its FAIL bit and events. -/
theorem State.setFail_shows_fail {s : State} {n : Nat} (hReady : s.ready n = false) :
    Shows [(Reg.RDY_STATUS, Fld.RDY_STATUS_FAIL)] s (s.setFail n) := by
  by_cases hFail : s.failedBit n = true
  · rw [State.setFail, if_pos hFail]
    exact .refl
  · exact (State.fsetBit_shows s (List.mem_singleton_self _) n true).trans
      ((State.setFail_shows hReady (Bool.eq_false_iff.2 hFail)).mono (List.nil_subset _))

section
variable {s : State} (lost : Nat) (hReady : s.ready rCHAIN = false)
include hReady

theorem State.claimNext_shows (h : nextAddr s.chain.taken lost = none) :
    Shows [(Reg.RDY_STATUS, Fld.RDY_STATUS_FAIL)] (s.withCand none) (s.claimNext lost) := by
  have hFails : s.claimNext lost = (s.withCand none).setFail rCHAIN := by
    rw [State.claimNext, h]
    rfl
  have hStays : (s.withCand none).ready rCHAIN = false := hReady
  exact hFails ▸ State.setFail_shows_fail hStays

omit hReady in
theorem State.claimNext_starts {a : Nat} (h : nextAddr s.chain.taken lost = some a) : s.claimNext lost = s.claimStart a := by
  rw [State.claimNext, h]

theorem OneClaim.claimNext : OneClaim s (s.claimNext lost) := by
  cases hNext : nextAddr s.chain.taken lost with
  | some a => exact State.claimNext_starts lost hNext ▸ .claimStart s a
  | none => exact .of_none ((NoClaim.withCand s none).trans (.of_events (State.claimNext_shows lost hReady hNext).eventsOnly))

theorem State.claimNext_fget {o : Nat} {g : Field} (hg : g.Fits) (hClear : clearOf [(Reg.RDY_STATUS, Fld.RDY_STATUS_FAIL)] o g = true) :
    (s.claimNext lost).fget o g = s.fget o g := by
  cases hNext : nextAddr s.chain.taken lost with
  | some a => exact State.claimNext_starts lost hNext ▸ (OnLinks.claimStart s a).fget o g
  | none => exact ((State.claimNext_shows lost hReady hNext).fget hg hClear).trans rfl

theorem State.claimNext_taken : (s.claimNext lost).chain.taken = s.chain.taken := by
  cases hNext : nextAddr s.chain.taken lost with
  | some a => exact State.claimNext_starts lost hNext ▸ s.claimStart_taken a
  | none => exact (congrArg (fun u : State => u.chain.taken) (State.claimNext_shows lost hReady hNext).eventsOnly).trans rfl

end

section
variable (s : State) (a : Nat)

theorem NoClaim.addrTaken : NoClaim s (s.addrTaken a) := by
  unfold State.addrTaken
  split
  · exact .refl s
  · exact ⟨rfl, rfl, rfl⟩

theorem State.addrTaken_mem : a ∈ (s.addrTaken a).chain.taken := by
  unfold State.addrTaken
  split
  next h => exact List.contains_iff_mem.1 h
  next => exact List.mem_cons_self ..

theorem State.addrTaken_onLinks : OnLinks s (s.addrTaken a) := OnLinks.ite (OnLinks.refl s) (OnLinks.withChain ..)

/-- The state of a module that has lost its address, before it claims the next. -/
def State.addrDropped : State :=
  ((((s.addrTaken a).fset Reg.PLK_UADDR Fld.PLK_UADDR_VALID 0).setReady rCHAIN false).fadd Reg.PLK_CHAIN Fld.PLK_CHAIN_LOST 1).eventSev evCHAIN 1 4 0xFFFF a []

theorem State.addrLost_eq : s.addrLost a = (s.addrDropped a).claimNext a := rfl

theorem State.addrDropped_reg {off : Nat} (hChain : off ≠ Reg.PLK_CHAIN) (hHst : off ≠ Reg.HST_STAT) :
    (s.addrDropped a).reg off = (((s.addrTaken a).fset Reg.PLK_UADDR Fld.PLK_UADDR_VALID 0).setReady rCHAIN false).reg off :=
  (State.eventSev_reg _ _ _ _ _ _ _ hHst).trans (State.reg_fset_other _ _ _ _ hChain)

theorem State.addrDropped_notReady : (s.addrDropped a).ready rCHAIN = false := by
  rw [State.ready_congr (s.addrDropped_reg a (by decide) (by decide))]
  exact State.setReady_notReady ..

theorem State.addrDropped_notValid : (s.addrDropped a).uaddrValid = false := by
  have hValid : (s.addrDropped a).fget Reg.PLK_UADDR Fld.PLK_UADDR_VALID = 0 := by
    rw [State.fget, s.addrDropped_reg a (by decide) (by decide)]
    refine (State.setReady_fget _ _ _ Fld.PLK_UADDR_VALID (by decide) (by decide) (by decide)).trans ?_
    exact State.fget_fset_same _ _ _ _ (by decide) (by decide)
  rw [State.uaddrValid, hValid]
  rfl

theorem State.addrDropped_chain : (s.addrDropped a).chain = (s.addrTaken a).chain :=
  (State.eventSev_chain ..).trans ((State.fadd_chain ..).trans ((State.setReady_chain ..).trans rfl))

theorem NoClaim.addrDropped : NoClaim s (s.addrDropped a) := by
  refine (NoClaim.addrTaken s a).trans ⟨congrArg Chain.seenClaims (s.addrDropped_chain a), ?_, ?_⟩
  · exact (State.eventSev_linkA ..).trans ((State.fadd_linkA ..).trans ((State.setReady_linkA ..).trans rfl))
  · exact (State.eventSev_linkB ..).trans ((State.fadd_linkB ..).trans ((State.setReady_linkB ..).trans rfl))

theorem OneClaim.addrLost : OneClaim s (s.addrLost a) := .after (.addrDropped s a) (.claimNext a (s.addrDropped_notReady a))

theorem State.addrLost_notValid : (s.addrLost a).uaddrValid = false := by
  have hSame := State.claimNext_fget a (s.addrDropped_notReady a) (o := Reg.PLK_UADDR) (g := Fld.PLK_UADDR_VALID) (by decide) (by decide)
  rw [State.addrLost_eq, State.uaddrValid, hSame]
  exact s.addrDropped_notValid a

theorem State.addrLost_notReady : (s.addrLost a).ready rCHAIN = false := by
  rw [State.addrLost_eq, State.ready_of_fget (State.claimNext_fget a (s.addrDropped_notReady a) (by decide) (by decide))]
  exact s.addrDropped_notReady a

theorem State.addrLost_taken : a ∈ (s.addrLost a).chain.taken := by
  rw [State.addrLost_eq, State.claimNext_taken a (s.addrDropped_notReady a), s.addrDropped_chain a]
  exact s.addrTaken_mem a

end

/-- What a claim tells, whatever this module claims: an address that is held, and a later round (R339). -/
def State.claimNoted (s : State) (c : ClaimMsg) : State :=
  let s0 := if c.held then s.addrTaken c.addr else s
  if roundLater c.round s.round then s0.fset Reg.PLK_CHAIN Fld.PLK_CHAIN_ROUND c.round else s0

section
variable (s : State) (c : ClaimMsg)

/-- The state in which the address of a held claim is taken. -/
def State.heldNoted : State := if c.held then s.addrTaken c.addr else s

theorem State.claimNoted_eq : s.claimNoted c =
    if roundLater c.round s.round then (s.heldNoted c).fset Reg.PLK_CHAIN Fld.PLK_CHAIN_ROUND c.round else s.heldNoted c := rfl

theorem State.heldNoted_onLinks : OnLinks s (s.heldNoted c) := OnLinks.ite (s.addrTaken_onLinks c.addr) (OnLinks.refl s)

theorem NoClaim.heldNoted : NoClaim s (s.heldNoted c) := by
  unfold State.heldNoted
  split
  · exact .addrTaken ..
  · exact .refl s

theorem NoClaim.claimNoted : NoClaim s (s.claimNoted c) := by
  rw [State.claimNoted_eq]
  split
  · exact (NoClaim.heldNoted s c).trans ⟨rfl, rfl, rfl⟩
  · exact .heldNoted s c

theorem State.claimNoted_reg {off : Nat} (h : off ≠ Reg.PLK_CHAIN) : (s.claimNoted c).reg off = s.reg off := by
  rw [State.claimNoted_eq]
  exact State.ite_reg ((State.reg_fset_other _ _ _ _ h).trans ((s.heldNoted_onLinks c).reg off)) ((s.heldNoted_onLinks c).reg off)

theorem State.claimNoted_chain : (s.claimNoted c).chain = (s.heldNoted c).chain := by
  rw [State.claimNoted_eq]
  split <;> rfl

theorem State.claimNoted_clk : (s.claimNoted c).clk = s.clk := by
  rw [State.claimNoted_eq]
  split
  · exact (State.fset_clk ..).trans (s.heldNoted_onLinks c).clk
  · exact (s.heldNoted_onLinks c).clk

theorem State.claimNoted_taken (h : c.held = true) : c.addr ∈ (s.claimNoted c).chain.taken := by
  rw [State.claimNoted_chain, State.heldNoted, if_pos h]
  exact s.addrTaken_mem c.addr

theorem State.claimNoted_round : (s.claimNoted c).round = if roundLater c.round s.round then c.round % 2 ^ 32 else s.round := by
  rw [State.claimNoted_eq]
  split
  · exact State.fget_fset_mod _ _ _ _ (by decide)
  · exact (s.heldNoted_onLinks c).round

theorem State.claimNoted_uaddrValid : (s.claimNoted c).uaddrValid = s.uaddrValid := by
  rw [State.uaddrValid, State.fget, s.claimNoted_reg c (by decide)]
  rfl

theorem State.claimNoted_linkUp {k : Nat} (h : k < 2) : (s.claimNoted c).linkUp k = s.linkUp k := by
  rw [State.linkUp, State.fget, s.claimNoted_reg c (by simp only [Reg.PLK_LINK, Reg.PLK_CHAIN]; omega)]
  rfl

/-- This module's claim is beaten by one heard. -/
def State.claimBeaten : State :=
  State.fadd { s.addrTaken c.addr with chain := { (s.addrTaken c.addr).chain with beaten := true } } Reg.PLK_CHAIN Fld.PLK_CHAIN_LOST 1

theorem NoClaim.claimBeaten : NoClaim s (s.claimBeaten c) := (NoClaim.addrTaken s c.addr).trans ⟨rfl, rfl, rfl⟩

/-- What a claim does: it is noted; against an address held it takes it away or is answered; against a candidate it beats it or not. -/
theorem State.claimHeard_eq : s.claimHeard c =
    if c.serial = Config.serial % 2 ^ 64 then s.claimNoted c
    else if s.uaddrValid ∧ s.uaddr = c.addr then
      if c.held ∧ c.serial < Config.serial % 2 ^ 64 then (s.claimNoted c).addrLost c.addr
      else (s.claimNoted c).claimSend c.addr true (s.claimNoted c).round
    else if s.chain.cand = some c.addr then
      if beatsClaim c s.chain.claimRound ∧ s.chain.beaten = false then (s.claimNoted c).claimBeaten c else s.claimNoted c
    else s.claimNoted c := rfl

/-- A claim heard sends at most one of this module's. -/
theorem OneClaim.claimHeard : OneClaim s (s.claimHeard c) := by
  have hNoted := NoClaim.claimNoted s c
  rw [State.claimHeard_eq]
  split
  · exact .of_none hNoted
  · split
    · split
      · exact .after hNoted (.addrLost ..)
      · exact .after hNoted (.claimSend ..)
    · split
      · split
        · exact .of_none (hNoted.trans (.claimBeaten ..))
        · exact .of_none hNoted
      · exact .of_none hNoted

variable {s c}

theorem State.claimHeard_loses (hValid : s.uaddrValid = true) (hAddr : s.uaddr = c.addr) (hHeld : c.held = true) (hLess : c.serial < Config.serial % 2 ^ 64) :
    s.claimHeard c = (s.claimNoted c).addrLost c.addr := by
  rw [State.claimHeard_eq, if_neg (by omega), if_pos ⟨hValid, hAddr⟩, if_pos ⟨hHeld, hLess⟩]

theorem State.claimHeard_holds (hValid : s.uaddrValid = true) (hAddr : s.uaddr = c.addr) (hMore : Config.serial % 2 ^ 64 < c.serial) :
    s.claimHeard c = (s.claimNoted c).claimSend c.addr true (s.claimNoted c).round := by
  rw [State.claimHeard_eq, if_neg (by omega), if_pos ⟨hValid, hAddr⟩, if_neg fun h => by omega]

theorem State.claimHeard_idle (hValid : s.uaddrValid = false) (hCand : s.chain.cand = none) : s.claimHeard c = s.claimNoted c := by
  have hNone : ¬(s.uaddrValid = true ∧ s.uaddr = c.addr) := fun h => by rw [hValid] at h; cases h.1
  have hIdle : s.chain.cand ≠ some c.addr := by rw [hCand]; exact nofun
  rw [State.claimHeard_eq, if_neg hNone, if_neg hIdle, ite_self]

end

end Sys2Proof.Machine

namespace Sys2Proof.Machine

/-! ### A CLAIM arrives (R337, R340) -/

/-- The four parts by which a claim is remembered. -/
def claimKey (c : ClaimMsg) : Nat × Nat × Nat × Bool := (c.addr, c.serial, c.round, c.held)

/-- The chain once a claim is remembered. -/
def State.claimSeen (s : State) (c : ClaimMsg) : Chain := { s.chain with seenClaims := (claimKey c :: s.chain.seenClaims).take 4096 }

/-- The state in which a claim is remembered. -/
def State.claimKept (s : State) (k : Nat) (hdr : PktHdr) (c : ClaimMsg) : State :=
  { s.accepted k hdr 2 1 with chain := (s.accepted k hdr 2 1).claimSeen c }

/-- The state in which it is passed on as well, before it is compared. -/
def State.claimHere (s : State) (k : Nat) (hdr : PktHdr) (c : ClaimMsg) : State :=
  if 0 < c.ttl ∧ (s.claimKept k hdr c).linkUp (1 - k) = true then
    (s.claimKept k hdr c).txPut (1 - k) (.claim { c with ttl := c.ttl - 1 }) ((s.accepted k hdr 2 1).clk.now + 100)
  else s.claimKept k hdr c

section
variable (s : State) (k : Nat) (hdr : PktHdr) (c : ClaimMsg)

theorem State.claimKept_onLinks : OnLinks s (s.claimKept k hdr c) := (OnLinks.accepted s k hdr 2 1).trans (OnLinks.withChain ..)

theorem State.claimHere_onLinks : OnLinks s (s.claimHere k hdr c) :=
  (s.claimKept_onLinks k hdr c).trans (OnLinks.ite (OnLinks.txPut ..) (OnLinks.refl _))

theorem State.claimHere_chain : (s.claimHere k hdr c).chain = s.claimSeen c := by
  have hKept : (s.claimKept k hdr c).chain = s.claimSeen c := by
    rw [State.claimSeen, ← s.accepted_chain k hdr 2 1]
    rfl
  unfold State.claimHere
  split
  · exact (State.setLink_chain ..).trans hKept
  · exact hKept

theorem State.claimHere_relayed (hk : k < 2) (hHops : 0 < c.ttl) (hUp : s.linkUp (1 - k) = true) : ((s.claimHere k hdr c).link (1 - k)).tx =
    (s.link (1 - k)).tx ++ [⟨.claim { c with ttl := c.ttl - 1 }, s.clk.now + 100⟩] := by
  have hUp' : (s.claimKept k hdr c).linkUp (1 - k) = true := ((s.claimKept_onLinks k hdr c).linkUp _).trans hUp
  rw [State.claimHere, if_pos ⟨hHops, hUp'⟩, State.link_txPut_same, (OnLinks.accepted s k hdr 2 1).clk]
  exact congrArg (· ++ _) (s.accepted_counted hdr 2 1 hk (by omega)).tx

end

section
variable {s : State} {k : Nat} {hdr : PktHdr} {c : ClaimMsg} (h : s.Accepts k hdr [4] 2 1) (hAddr : c.addr < 16384) (hTtl : c.ttl < 16384)
include h hAddr hTtl

theorem rx_claim : s.rx k hdr [4] 2 (decide (c.addr < 16384 ∧ c.ttl < 16384)) 1 = .go (s.accepted k hdr 2 1) := by
  rw [decide_eq_true ⟨hAddr, hTtl⟩]
  exact rx_accepts s k hdr [4] 2 1 h

theorem exec_claim_seen (hSeen : claimKey c ∈ s.chain.seenClaims) : exec (.claim k hdr c) s = nextState ((s.accepted k hdr 2 1).topUp k) := by
  have hContains : (s.accepted k hdr 2 1).chain.seenClaims.contains (c.addr, c.serial, c.round, c.held) = true := by
    rw [State.accepted_chain]
    exact List.contains_iff_mem.2 hSeen
  show execClaim k hdr c s = _
  rw [execClaim, if_neg (Nat.not_le.2 h.1), rx_claim h hAddr hTtl]
  exact congrArg nextState (if_pos hContains)

theorem exec_claim_new (hNew : claimKey c ∉ s.chain.seenClaims) :
    exec (.claim k hdr c) s = nextState (((s.claimHere k hdr c).claimHeard c).topUp k) := by
  have hContains : ¬(s.accepted k hdr 2 1).chain.seenClaims.contains (c.addr, c.serial, c.round, c.held) = true := by
    rw [State.accepted_chain]
    exact fun hIn => hNew (List.contains_iff_mem.1 hIn)
  show execClaim k hdr c s = _
  rw [execClaim, if_neg (Nat.not_le.2 h.1), rx_claim h hAddr hTtl]
  exact congrArg nextState (if_neg hContains)

/-- One that has been seen changes nothing of the chain. -/
theorem claim_seen (hSeen : claimKey c ∈ s.chain.seenClaims) : ∃ t, exec (.claim k hdr c) s = .next t ∧ Keeps s t [.linkA, .linkB, .hist] := by
  have hOn : OnLinks s ((s.accepted k hdr 2 1).topUp k) := (OnLinks.accepted ..).trans (OnLinks.topUp ..)
  exact nextState_exists (exec_claim_seen h hAddr hTtl hSeen)
    (hOn.keeps_of_chain ((State.topUp_chain ..).trans (s.accepted_chain k hdr 2 1))).settle

/-- The chain of a module that has heard a claim, and what its links hold to send, stand as the comparison leaves them. -/
theorem claim_heard (hNew : claimKey c ∉ s.chain.seenClaims) {p : State → Prop}
    (hp : ∀ t, t.chain = ((s.claimHere k hdr c).claimHeard c).chain →
      (∀ off, quietReg off = true → t.reg off = ((s.claimHere k hdr c).claimHeard c).reg off) →
      (∀ j, j < 2 → (t.link j).tx = (((s.claimHere k hdr c).claimHeard c).link j).tx) → p t) :
    ∃ t, exec (.claim k hdr c) s = .next t ∧ p t := by
  refine nextState_exists (exec_claim_new h hAddr hTtl hNew) (hp _ ?_ (fun off hQuiet => ?_) fun j hj => ?_)
  · rw [State.settle_chain, State.topUp_chain]
  · rw [State.settle_reg _ hQuiet, (OnLinks.topUp ..).reg]
  · rw [State.settle_link, State.topUp_tx _ h.1 hj]

/-- A claim that has not been seen is remembered and passed on, and takes the address away or is answered (R340). -/
theorem claim_compared (hNew : claimKey c ∉ s.chain.seenClaims) :
    ∃ t, exec (.claim k hdr c) s = .next t ∧ claimKey c ∈ t.chain.seenClaims ∧
      (0 < c.ttl → s.linkUp (1 - k) = true → ⟨.claim { c with ttl := c.ttl - 1 }, s.clk.now + 100⟩ ∈ (t.link (1 - k)).tx) ∧
      (s.uaddrValid = true → s.uaddr = c.addr → c.held = true → c.serial < Config.serial % 2 ^ 64 →
        t.uaddrValid = false ∧ t.ready rCHAIN = false ∧ c.addr ∈ t.chain.taken) ∧
      (s.uaddrValid = true → s.uaddr = c.addr → Config.serial % 2 ^ 64 < c.serial → t.uaddrValid = true ∧
        ⟨.claim { addr := c.addr, held := true, ttl := 16383, round := t.round, serial := Config.serial }, s.clk.now + 100⟩ ∈ (t.link k).tx) := by
  have hOn := s.claimHere_onLinks k hdr c
  have hHeard := OneClaim.claimHeard (s.claimHere k hdr c) c
  refine claim_heard h hAddr hTtl hNew fun t hChain hReg hTx => ⟨?_, fun hHops hUp => ?_, fun hValid hOwn hHeld hLess => ?_, fun hValid hOwn hMore => ?_⟩
  · rw [hChain]
    exact hHeard.mem (congrArg Chain.seenClaims (s.claimHere_chain k hdr c))
  · have hQueued := s.claimHere_relayed k hdr c h.1 hHops hUp
    rw [hTx _ (by omega)]
    exact (hHeard.tx (1 - k) (by omega)).subset (hQueued ▸ List.mem_append_right _ (List.mem_singleton_self _))
  · have hLost := State.claimHeard_loses (hOn.uaddrValid.trans hValid) (hOn.uaddr.trans hOwn) hHeld hLess
    rw [hLost] at hChain hReg
    refine ⟨?_, ?_, ?_⟩
    · rw [State.uaddrValid, State.fget, hReg _ (by decide)]
      exact State.addrLost_notValid ..
    · rw [State.ready_congr (hReg _ (by decide))]
      exact State.addrLost_notReady ..
    · rw [hChain]
      exact State.addrLost_taken ..
  · have hHolds := State.claimHeard_holds (hOn.uaddrValid.trans hValid) (hOn.uaddr.trans hOwn) hMore
    rw [hHolds] at hReg hTx
    have hRound : t.round = ((s.claimHere k hdr c).claimNoted c).round := by
      rw [State.round, State.fget, hReg _ (by decide), (OnLinks.claimSend ..).reg]
      rfl
    have hUp : ((s.claimHere k hdr c).claimNoted c).linkUp k = true := by
      rw [State.claimNoted_linkUp _ _ h.1, hOn.linkUp]
      exact (s.linkUp_iff k).2 (accepts_state h)
    refine ⟨?_, ?_⟩
    · rw [State.uaddrValid, State.fget, hReg _ (by decide), (OnLinks.claimSend ..).reg]
      exact ((State.claimNoted_uaddrValid ..).trans hOn.uaddrValid).trans hValid
    · rw [hTx k h.1, State.claimSend_tx _ _ _ _ h.1, State.txWith_up hUp, State.claimNoted_clk, hOn.clk, hRound]
      exact List.mem_append_right _ (List.mem_singleton_self _)

/-- A module without address or candidate only notes a claim. -/
theorem claim_noted (hNew : claimKey c ∉ s.chain.seenClaims) (hValid : s.uaddrValid = false) (hCand : s.chain.cand = none) (hHops : 0 < c.ttl)
    (hUp : s.linkUp (1 - k) = true) :
    ∃ t, exec (.claim k hdr c) s = .next t ∧ claimKey c ∈ t.chain.seenClaims ∧
      (t.link (1 - k)).tx = (s.link (1 - k)).tx ++ [⟨.claim { c with ttl := c.ttl - 1 }, s.clk.now + 100⟩] ∧
      (c.held = true → c.addr ∈ t.chain.taken) ∧ t.round = (if roundLater c.round s.round then c.round % 2 ^ 32 else s.round) := by
  have hOn := s.claimHere_onLinks k hdr c
  have hSeen := s.claimHere_chain k hdr c
  have hNoted := NoClaim.claimNoted (s.claimHere k hdr c) c
  have hIdle : (s.claimHere k hdr c).claimHeard c = (s.claimHere k hdr c).claimNoted c :=
    State.claimHeard_idle (hOn.uaddrValid.trans hValid) ((congrArg Chain.cand hSeen).trans hCand)
  refine claim_heard h hAddr hTtl hNew fun t hChain hReg hTx => ?_
  rw [hIdle] at hChain hReg hTx
  refine ⟨?_, ?_, fun hHeld => ?_, ?_⟩
  · rw [hChain, hNoted.claims, hSeen]
    exact mem_take_cons ..
  · rw [hTx _ (by omega), hNoted.link, s.claimHere_relayed k hdr c h.1 hHops hUp]
  · rw [hChain]
    exact State.claimNoted_taken _ _ hHeld
  · rw [State.round, State.fget, hReg _ (by decide), ← hOn.round]
    exact State.claimNoted_round ..

end

/-! ### Addresses are taken (R339, R341) -/

/-- An address stands in PLK_UADDR. -/
def State.addrSet (s : State) (a : Nat) : State :=
  ((s.fset Reg.PLK_UADDR Fld.PLK_UADDR_ADDR a).fset Reg.PLK_UADDR Fld.PLK_UADDR_VALID 1).fset Reg.PLK_UADDR Fld.PLK_UADDR_PREF a

/-- The state of a module that is no longer a candidate. -/
def State.settledCand (s : State) : State := { s with chain := { s.chain with cand := none, beaten := false } }

section
variable (s : State) (a : Nat)

theorem State.takeAddr_eq : s.takeAddr a = (s.settledCand.addrSet a).rwsSave.setReady rCHAIN true := rfl

theorem State.addrSet_uaddr (h : a < 16384) : (s.addrSet a).uaddr = a := by
  unfold State.uaddr State.addrSet
  rw [State.fget_fset_apart _ _ _ _ (by decide) (by decide) (by decide), State.fget_fset_apart _ _ _ _ (by decide) (by decide) (by decide)]
  exact State.fget_fset_same _ _ _ _ (by decide) h

theorem State.addrSet_valid : (s.addrSet a).fget Reg.PLK_UADDR Fld.PLK_UADDR_VALID = 1 := by
  unfold State.addrSet
  rw [State.fget_fset_apart _ _ _ _ (by decide) (by decide) (by decide)]
  exact State.fget_fset_same _ _ _ _ (by decide) (by decide)

theorem State.addrSet_reg {off : Nat} (h : off ≠ Reg.PLK_UADDR) : (s.addrSet a).reg off = s.reg off := by
  unfold State.addrSet
  rw [State.reg_fset_other _ _ _ _ h, State.reg_fset_other _ _ _ _ h, State.reg_fset_other _ _ _ _ h]

theorem State.rwsSave_regs : s.rwsSave.regs = s.regs := by rw [State.rwsSave_eq]

theorem State.takeAddr_fget {o : Nat} (g : Field) (hStatus : o ≠ Reg.RDY_STATUS) (hTime : o ≠ Reg.RDY_TIME rCHAIN) (hHst : o ≠ Reg.HST_STAT) :
    (s.takeAddr a).fget o g = (s.settledCand.addrSet a).fget o g := by
  rw [State.takeAddr_eq, State.setReady_fget _ _ _ _ hStatus hTime hHst, State.fget_congr _ _ (State.rwsSave_regs _)]

theorem State.takeAddr_uaddr (h : a < 16384) : (s.takeAddr a).uaddr = a :=
  (s.takeAddr_fget a _ (by decide) (by decide) (by decide)).trans (State.addrSet_uaddr _ a h)

theorem State.takeAddr_valid : (s.takeAddr a).fget Reg.PLK_UADDR Fld.PLK_UADDR_VALID = 1 :=
  (s.takeAddr_fget a _ (by decide) (by decide) (by decide)).trans (State.addrSet_valid _ a)

theorem State.takeAddr_round : (s.takeAddr a).round = s.round := by
  refine (s.takeAddr_fget a _ (by decide) (by decide) (by decide)).trans ?_
  rw [State.fget, State.addrSet_reg _ _ (by decide)]
  rfl

theorem State.takeAddr_ready : (s.takeAddr a).ready rCHAIN = true := State.setReady_ready _ (by decide)

theorem State.takeAddr_chain : (s.takeAddr a).chain = { s.chain with cand := none, beaten := false } := by
  rw [State.takeAddr_eq, State.setReady_chain, State.rwsSave_eq]
  rfl

/-- A module that takes an address holds it, and CHAIN is ready. -/
theorem State.takeAddr_settled (h : a < 16384) :
    (s.takeAddr a).settle.uaddrValid = true ∧ (s.takeAddr a).settle.uaddr = a ∧ (s.takeAddr a).settle.ready rCHAIN = true := by
  have hAddr := s.takeAddr_uaddr a h
  have hValid := s.takeAddr_valid a
  refine ⟨?_, ?_, ?_⟩
  · rw [State.uaddrValid, State.settle_fget _ (by decide) (by decide), hValid]
    rfl
  · rw [State.uaddr, State.settle_fget _ (by decide) (by decide)]
    exact hAddr
  · rw [State.settle_ready]
    exact s.takeAddr_ready a

end

/-- The state of a chain whose next round has begun. -/
def State.roundNext (s : State) : State := s.fset Reg.PLK_CHAIN Fld.PLK_CHAIN_ROUND ((s.round + 1) % 2 ^ 32)

theorem State.roundNext_round (s : State) : s.roundNext.round = (s.round + 1) % 2 ^ 32 :=
  State.fget_fset_same _ _ _ _ (by decide) (Nat.mod_lt _ (by decide))

theorem State.settle_round (s : State) : s.settle.round = s.round := s.settle_fget (by decide) (by decide)

theorem claimRoundEnd_takes {s : State} {a : Nat} (hUp : s.chain.firstUp = true) (hCand : s.chain.cand = some a) (hLead : s.chain.beaten = false)
    (hAddr : a < 16384) :
    ∃ t, exec .claimRoundEnd s = .next t ∧ t.uaddrValid = true ∧ t.uaddr = a ∧ t.ready rCHAIN = true ∧ t.chain.cand = none ∧
      t.round = (s.round + 1) % 2 ^ 32 := by
  have hExec : exec .claimRoundEnd s = nextState (s.roundNext.takeAddr a) := by
    show execClaimRoundEnd s = _
    rw [execClaimRoundEnd, if_pos hUp, hCand]
    simp only [hLead]
    rfl
  obtain ⟨hValid, hOwn, hReady⟩ := s.roundNext.takeAddr_settled a hAddr
  refine nextState_exists hExec ⟨hValid, hOwn, hReady, ?_, ?_⟩
  · rw [State.settle_chain, State.takeAddr_chain]
  · rw [State.settle_round, State.takeAddr_round, State.roundNext_round]

theorem claimRoundEnd_idle {s : State} (hUp : s.chain.firstUp = true) (hCand : s.chain.cand = none) :
    ∃ t, exec .claimRoundEnd s = .next t ∧ t.round = (s.round + 1) % 2 ^ 32 ∧ Frame s t [] [Reg.PLK_CHAIN] := by
  have hExec : exec .claimRoundEnd s = nextState s.roundNext := by
    show execClaimRoundEnd s = _
    rw [execClaimRoundEnd, if_pos hUp, hCand]
    rfl
  refine nextState_exists hExec ⟨?_, frame_settle rfl (fun p hp => ?_) fun off hOff => ?_⟩
  · rw [State.settle_round, State.roundNext_round]
  · cases p with
    | regs => exact absurd (List.mem_cons_self ..) hp
    | cmds => exact ⟨rfl, rfl⟩
    | _ => rfl
  · exact State.reg_fset_other _ _ _ _ fun hEq => hOff (List.mem_singleton.2 hEq)

/-- Without a link the module takes its preferred address at once (R341). -/
theorem chainLinkTimeout_takes {s : State} (hOn : s.power = .on) (hPlan : s.planB = true) (hFirst : s.chain.firstUp = false)
    (hValid : s.uaddrValid = false) (hDownA : s.linkUp 0 = false) (hDownB : s.linkUp 1 = false) :
    ∃ t, exec .chainLinkTimeout s = .next t ∧ t.uaddrValid = true ∧ t.uaddr = s.fget Reg.PLK_UADDR Fld.PLK_UADDR_PREF ∧
      t.ready rCHAIN = true ∧ t.chain.firstUp = false := by
  have hExec : exec .chainLinkTimeout s = nextState (s.takeAddr (s.fget Reg.PLK_UADDR Fld.PLK_UADDR_PREF)) := by
    show execChainLinkTimeout s = _
    rw [execChainLinkTimeout, if_pos ⟨hOn, hPlan, hFirst, hValid, hDownA, hDownB⟩]
  obtain ⟨hHeld, hOwn, hReady⟩ := s.takeAddr_settled (s.fget Reg.PLK_UADDR Fld.PLK_UADDR_PREF) (getF_lt ..)
  refine nextState_exists hExec ⟨hHeld, hOwn, hReady, ?_⟩
  rw [State.settle_chain, State.takeAddr_chain]
  exact hFirst

/-- Settles O42: messages by where `State.chainRx` takes one that has not been seen and what its class does there; claims by what `State.claimHeard` does;
addresses by `State.takeAddr`. -/
theorem chainMessagesTravel : Obligations.ChainMessagesTravel := by
  unfold Obligations.ChainMessagesTravel
  refine ⟨?_, ?_, ?_, ?_, ?_, ?_, ?_, ?_⟩
  · intro s k hdr m hAccepts hData hMid hSrc hDest hTtl hNew hMine
    have h : s.Arrives k hdr m := ⟨hAccepts, hData, hMid, hSrc, hDest, hTtl⟩
    refine ⟨fun hClass hOther => ?_, fun hClass hOther => ?_, statusReply_kept h hNew hMine, fun id w c hClass => statusReply_answers h hNew hMine hClass,
      relay_taken h hNew hMine, relay_refused h hNew hMine, fun id w c => relayAck_answers h hNew hMine, chainMsg_discarded h hNew hMine⟩
    · obtain ⟨t, hExec, hSeen, hNext, hTx, hPassed⟩ := walk_answered h hNew hMine hOther hClass
      exact ⟨t, hExec, hSeen, hNext, ⟨hTx ▸ List.mem_append_right _ (List.mem_singleton_self _), fun _ => hTx⟩, hPassed⟩
    · obtain ⟨t, hExec, hSeen, hNext, hTx⟩ := statusReq_answered h hNew hMine hOther hClass
      exact ⟨t, hExec, hSeen, hNext, hTx ▸ List.mem_append_right _ (List.mem_singleton_self _), fun _ => hTx⟩
  · intro s k hdr m hAccepts hData hMid hSrc hDest hTtl hClass
    have h : s.Arrives k hdr m := ⟨hAccepts, hData, hMid, hSrc, hDest, hTtl⟩
    exact ⟨fun hNew => relay_passedOn h hNew hClass, relay_seen h hClass⟩
  · exact fun s k hdr c => claim_compared
  · exact fun s k hdr c => claim_seen
  · exact fun s k hdr c => claim_noted
  · exact fun s a => claimRoundEnd_takes
  · exact fun s => claimRoundEnd_idle
  · exact fun s => chainLinkTimeout_takes

end Sys2Proof.Machine
